-- ==== Sys2Proof/Word.lean ====
section
/-! DEFINITION. The words of the block: a byte, a 32-bit register or FP32 code, a 64-bit register pair, and the
32-byte command descriptor of R231. -/

namespace Sys2Proof

/-- One byte of memory. -/
abbrev Byte := BitVec 8

/-- A register (00_scope, "Registers and fields"), or an FP32 code (R26). -/
abbrev Word := BitVec 32

/-- A 64-bit value: a register pair (R529) or a service core's register. -/
abbrev DWord := BitVec 64

/-- A command descriptor: 32 bytes, little-endian (R231). -/
abbrev Cmd := BitVec 256

end Sys2Proof
end

