-- ==== Sys2Proof/Syntax.lean ====
section
/-! DEFINITION. The commands of the block: one constructor of `Instr` per row of spec/opcode_table.json, with the
operands each row acts on. The table gives no row any bits, so the operands are those the row's rule names. -/

namespace Sys2Proof

/-- The four kinds of master that issue register accesses (R518). -/
inductive Master where
  | service (core : Nat)
  | policy (core : Nat)
  | mitten
  | remote
  deriving DecidableEq, Repr

/-- A Seam message: the fields of its MSGH frame and its data (R315). -/
structure SeamMsg where
  kind : Nat
  last : Bool
  cueEn : Bool
  src : Nat
  queue : Nat
  cue : Nat
  daddr : Nat
  add : Word
  /-- LEN of the header frame. -/
  len : Nat
  /-- The data frames' bytes, or a CTRL message's inline data. -/
  data : List Byte
  deriving DecidableEq, Repr

/-- A gradient beat: the header of R158 and its 64 FP32 values. -/
structure Beat where
  tensor : Nat
  index : Nat
  srcDev : Nat
  srcUnit : Nat
  lepoch : Nat
  abstain : Bool
  boundOk : Bool
  part : Nat
  vals : List Word
  deriving DecidableEq, Repr

/-- What an HBM read was issued for, and so what its data do when they return (R255). -/
inductive ReadFor where
  /-- The commands a stream's prefetch buffer asked for (R225): how many. -/
  | prefetch (stream count : Nat)
  /-- The parts a Cuff entry read (R170, R185): its partition. -/
  | cuff (part : Nat)
  deriving DecidableEq, Repr

/-- How a flash fetch ended at its channels (R215, R216): pages corrected or retried, and whether LDPC failed for good. -/
structure FlashResult where
  corrected : Nat
  uncorrectable : Bool
  deriving DecidableEq, Repr

/-- A class C outer-sync message (R341). -/
structure ClassC where
  kind : Nat
  site : Nat
  nshard : Nat
  shard0 : Nat
  round : Nat
  ready : Bool
  moved : Bool
  opd : List Byte
  body : List Byte
  deriving DecidableEq, Repr

/-- A packet of a partner port, its Brim header (R365) and its payload as sealed. -/
structure Packet where
  ver : Nat
  cls : Nat
  kid : Nat
  site : Nat
  route : Nat
  len : Nat
  rsn : Nat
  psn : Nat
  txt : Nat
  /-- Bytes 24 to 39 of the header. -/
  ext : List Byte
  /-- A header zero field holds a one, LEN is beyond the packet, the UDP checksum fails or Segments Left is not 0 (R367). -/
  malformed : Bool
  body : List Byte
  tag : List Byte
  deriving DecidableEq, Repr

/-- A JTAG instruction (R545). -/
inductive JtagInsn where
  | bypass
  | idcode
  | samplePreload
  | extest
  /-- One of Jorsil's private instructions. -/
  | vendor (code : Nat)
  deriving DecidableEq, Repr

/-- How a boot step ended (R455, R457). -/
inductive BootResult where
  | ok
  /-- The image bytes that step 3 read from the slot (R414). -/
  | image (slot : Nat) (bytes : List Byte)
  | pwrgoodMissing
  | pllFailed
  | stackFailed (stack : Nat)
  | katFailed
  /-- Step 8 ended well with the NAND found on some channels, of which some failed training (R213, R216): two masks. -/
  | channels (present failed : Nat)
  deriving DecidableEq, Repr

/-- One object of class D (R376): header fields and records. -/
structure DObject where
  okind : Nat
  site : Nat
  keep : Nat
  dfmt : Nat
  sparse : Bool
  shard : Nat
  round : Nat
  around : Nat
  count : Nat
  records : List Byte
  deriving DecidableEq, Repr

/-- A feedback report (R382), by its fields. -/
structure Feedback where
  cack : Nat
  cmap : Nat
  /-- Per route: RSN_HI, RCV, RUN, WLOST, up, B in µs. -/
  routes : List (Nat × Nat × Nat × Nat × Bool × Nat)
  /-- RESEND entries: OBJ, WIN, MISS. -/
  resend : List (Nat × Nat × Nat)
  /-- OREQ entries: OKIND, SITE, SHARD, ROUND. -/
  oreq : List (Nat × Nat × Nat × Nat)
  deriving DecidableEq, Repr

/-- The commands: one constructor per row of the table, in its order. -/
inductive Instr where
  | commandIssue (stream : Nat)
  | prod (cmd : Cmd)
  | tileStart (engine : Nat)
  | promotion (engine : Nat)
  | drain (cmd : Cmd)
  | accumulatorSwap (engine : Nat)
  | slotBeatSend (cluster : Nat)
  | rowred (cmd : Cmd)
  | rowew (cmd : Cmd)
  | rowfn (cmd : Cmd)
  | rblk (cmd : Cmd)
  | tblld (cmd : Cmd)
  | rowCommandStart (unit : Nat)
  | stash (cmd : Cmd)
  | unstash (cmd : Cmd)
  | sreset (cmd : Cmd)
  | linerCommandStart (cluster : Nat)
  | send (cmd : Cmd)
  | write (cmd : Cmd)
  | mcast (cmd : Cmd)
  | post (cmd : Cmd)
  | start (cmd : Cmd)
  | nop (stream : Nat) (cmd : Cmd)
  | advance (stream : Nat) (cmd : Cmd)
  | slack (stream : Nat) (cmd : Cmd)
  | waitcue (stream : Nat) (cmd : Cmd)
  | postcue (stream : Nat) (cmd : Cmd)
  | sleep (stream : Nat) (cmd : Cmd)
  | unitGate (target : Nat)
  | wakeStart (target : Nat)
  | wakeComplete (target : Nat)
  | qbound (stream : Nat) (cmd : Cmd)
  | qwait (stream : Nat) (cmd : Cmd)
  | qfree (stream : Nat) (cmd : Cmd)
  | bgslot (stream : Nat) (cmd : Cmd)
  | bgslotClose
  | expand (stream : Nat) (cmd : Cmd)
  | stepend (stream : Nat) (cmd : Cmd)
  | zcIssue (core : Nat) (insn : Word)
  | zcWait (core : Nat) (insn : Word)
  | zcTime (core : Nat) (insn : Word)
  | zcCue (core : Nat) (insn : Word)
  | zcCuewait (core : Nat) (insn : Word)
  | zcBeat (core : Nat) (insn : Word)
  | zcDone (core : Nat) (insn : Word)
  | beatArrival (part ingress : Nat)
  | beatAdd (part slot piece : Nat)
  | windowEntry (part ingress : Nat)
  | ingressStallLimit (part ingress : Nat)
  | slotTrigger (part slot : Nat)
  | slotOpen (part slot : Nat)
  | cuffEntryStart (part : Nat)
  | hbmReadReturn (what : ReadFor)
  | hbmWriteAck (part : Nat)
  | noiseMessage (device step : Nat) (sums squares : Word) (full : Bool)
  | refreshWindow (group : Nat)
  | backgroundQuantum (cls : Nat)
  | forcedSlot (cls : Nat)
  | touchListPost (master : Master) (step : Word)
  | flashFetchComplete (num : Nat) (result : FlashResult)
  | abortMessage (link device step : Nat)
  | censusRecord (device engines halfLinks lastStep epoch : Nat)
  | censusSet (device : Nat) (heard : List Nat)
  | censusTimeout
  | migrationComplete
  | readyCycleMessage (device cycle : Nat)
  | frameReceive (link : Nat) (header : BitVec 80) (payload : List Byte) (uncorrectable corrected : Nat)
  | egressSlot (link : Nat)
  | nak (link seq : Nat)
  | retryTimeout (link : Nat)
  | latencyProbe (link oneWay : Nat)
  | discoveryIdentity (link peerDev peerLink : Nat)
  | alignmentFrame (link cycle refDev : Nat)
  | laneFail (link lane : Nat)
  | laneChange (link pair : Nat)
  | retrainComplete (link : Nat) (ok : Bool) (oneWay : Nat)
  | qdataMessage (msg : SeamMsg)
  | qcredMessage (msg : SeamMsg)
  | cueMessage (msg : SeamMsg)
  | writeMessage (msg : SeamMsg)
  | mcastMessage (link : Nat) (msg : SeamMsg)
  | ctrlMessage (msg : SeamMsg)
  | atomicBurst (link : Nat) (beats : List Beat)
  | burstClose (link : Nat)
  | roundSend (shard : Nat)
  | round (msg : ClassC)
  | commit (msg : ClassC)
  | join (msg : ClassC)
  | fetch (msg : ClassC)
  | leaderCommit (shard : Nat)
  | commitDeadline (shard : Nat)
  | siteSilent (site : Nat)
  | memberRemoval (shard site : Nat)
  | deltaObject (port : Nat) (obj : DObject)
  | anchorObject (port : Nat) (obj : DObject)
  | classCFragment (port : Nat) (pkt : Packet)
  | classCRelease (port mid : Nat)
  | classCResend (port mid : Nat)
  | classDFrame (port : Nat) (pkt : Packet)
  | probe (port : Nat) (pkt : Packet)
  | feedbackReport (port : Nat) (pkt : Packet) (report : Feedback)
  | probeTimer (port : Nat)
  | feedbackTimer (port : Nat)
  | routeDown (port route : Nat)
  | packetTransmit (port : Nat)
  | neighborSolicitation (port : Nat) (target : BitVec 128)
  | echoRequest (port : Nat) (source : BitVec 128) (data : List Byte)
  | macPause (port : Nat)
  | partnerLinkDown (port : Nat)
  | recordStart (decrypt : Bool) (assoc prio len : Nat)
  | recordComplete (decrypt : Bool) (lane : Nat) (nonceSeq : Nat) (kid : Nat) (aad body tag : List Byte)
  | hello (assoc : Nat) (body : List Byte)
  | finish (assoc : Nat) (sig : List Byte)
  | keyupd (assoc gen psn : Nat)
  | keyack (assoc gen : Nat)
  | keySlotOverwrite (assoc : Nat)
  | rekeyTimer (assoc : Nat)
  | handshakeTimeout (port : Nat)
  | knownAnswerTest (pass : Bool)
  | alarm (source : Nat)
  | reportSigned
  | contact (port : Nat)
  | assign (port mid ack : Nat) (body : List Byte)
  | stop (port mid ack : Nat)
  | replace (port mid ack : Nat) (body : List Byte)
  | controlResend (port : Nat)
  | contactRetry
  | jobImageReadComplete
  | rdmaRead (port hseq region addr len : Nat)
  | rdmaWrite (port hseq addr : Nat) (data : List Byte)
  | rdmaSend (port hseq qpn : Nat) (data : List Byte)
  | unsupportedRequest (port hseq : Nat)
  | roceAckTimeout (qp : Nat)
  | cnp (qp : Nat)
  | dataDescriptorRead (step : Nat) (bytes : List Byte)
  | ptpSync (port : Nat) (offset : Int) (sec ns : Nat)
  | porstNAssert
  | porstNRelease (strap : BitVec 2)
  | resetNAssert
  | pwrgoodFall
  | bootStepComplete (result : BootResult)
  | selfRefreshConfirm (ok : Bool)
  | resetRelease
  | alarmReset
  | marginEpochEnd
  | frequencyProposal (device prop step : Nat)
  | switchCycleMessage (device cycle : Nat)
  | frequencySwitch
  | clockRestart
  | powerSample (watts : Nat)
  | temperatureSample (halfDegrees : Nat)
  | faultReport (unit cause access addr detail : Nat)
  | escalationNotify (entry : Nat)
  | escalationIsolate (entry : Nat)
  | escalationSafe (entry : Nat)
  | ackDismiss (master : Master) (entry : Nat)
  | ackAbort (master : Master) (entry : Nat)
  | ackIsolate (master : Master) (entry : Nat)
  | ackSafe (master : Master) (entry : Nat)
  | openDismiss (master : Master) (high : Bool) (value : Word)
  | wdtKick (master : Master) (value : Word)
  | watchdogExpiry (core : Nat)
  | unfreeze (master : Master) (value : Word)
  | paritySweep (badOffset : Option Nat)
  | dlogPost (master : Master) (value : Word)
  | telemetryPeriod
  | histogramClear (master : Master) (engine : Nat) (value : Word)
  | attest (master : Master) (value : Word)
  | fullReset (master : Master) (value : Word)
  | ringTailWrite (master : Master) (stream : Nat) (value : Word)
  | cueWrite (master : Master) (cue : Nat) (value : Word)
  | evqConsWrite (master : Master) (high : Bool) (value : Word)
  | testAccessRead (master : Master) (addr : Nat) (wide : Bool)
  | lowWordRead (master : Master) (addr : Nat) (wide : Bool)
  | registerWrite (master : Master) (addr size : Nat) (value : DWord)
  | setAliasWrite (master : Master) (addr size : Nat) (value : DWord)
  | clearAliasWrite (master : Master) (addr size : Nat) (value : DWord)
  | toggleAliasWrite (master : Master) (addr size : Nat) (value : DWord)
  | mittenBitAliasWrite (master : Master) (addr size : Nat) (value : DWord)
  | jtagInstruction (insn : JtagInsn)
  | hostPortLinkDown (port : Nat)
  | portLinkUp (unit : Nat)
  | roceResponse (qp psn : Nat) (data : List Byte)
  | roceRateRecovery (qp : Nat)
  | flashProgramComplete (num block : Nat) (ok : Bool)
  | replanHoldoverTimeout
  | frequencyAgreementTimeout
  | handshakeRestart (assoc : Nat)
  | zcWaitResume (core : Nat)
  | registerRead (master : Master) (addr size : Nat)
  | neighborAdvertisement (port : Nat) (target : BitVec 128) (mac : BitVec 48)
  deriving DecidableEq, Repr

end Sys2Proof
end

