-- ==== Sys2Proof/Decode.lean ====
section
/-! DEFINITION. Words of commands. The opcode table gives no row any bits: a command comes to the block as an event with
operands, so no word spells one. The 32-byte commands of the program are read by the operations of Machine/. -/

namespace Sys2Proof

/-- The command that a word of `nbits` bits spells by the table's bits: none, for the table gives no row any. -/
def decodeTableWord (_nbits _w : Nat) : Option Instr := none

end Sys2Proof
end

