-- ==== Sys2Proof/Machine/Numbers.lean ====
section
/-! DEFINITION. Number formats and rounding (02_number_formats): values as exact binary fractions, the formats of R26,
rounding R44 to R50, overflow and non-finite rules R51 to R55, block scaling R40 and R41, A20 and A34 arithmetic
R34 to R37, and the split of wide operands R59. -/

namespace Sys2Proof.Machine

/-- An exact value: NaN, an infinity, or `(-1)^neg * m * 2^e` (zero keeps its sign, R33). -/
inductive Val where
  | nan
  | inf (neg : Bool)
  | fin (neg : Bool) (m : Nat) (e : Int)
  deriving DecidableEq, Repr

/-- What the top exponent field means: infinities and NaN, the one NaN of F8V, or finite values (R26, R29). -/
inductive FloatKind where
  | ieee | f8v | finite
  deriving DecidableEq, Repr

/-- A floating layout: exponent bits, mantissa bits, bias (R26, R34). -/
structure FloatFmt where
  ebits : Nat
  mbits : Nat
  bias : Nat
  kind : FloatKind
  deriving DecidableEq, Repr

/-- The format codes of R26 but 0xF. -/
inductive Fmt where
  | f8v | f8g | f6v | f6g | f4 | bf16 | fp16 | fp32 | a34 | sc8 | i4 | i8 | i16 | i32 | u32
  deriving DecidableEq, Repr

/-- The format of a 4-bit code; none for the reserved 0xF (R26, R27). -/
def Fmt.ofCode : Nat → Option Fmt
  | 0 => some .f8v | 1 => some .f8g | 2 => some .f6v | 3 => some .f6g | 4 => some .f4
  | 5 => some .bf16 | 6 => some .fp16 | 7 => some .fp32 | 8 => some .a34 | 9 => some .sc8
  | 10 => some .i4 | 11 => some .i8 | 12 => some .i16 | 13 => some .i32 | 14 => some .u32
  | _ => none

/-- Bits an element takes in memory (R26, R28: an A34 value lies in a 64-bit word). -/
def Fmt.storeBits : Fmt → Nat
  | .f8v | .f8g | .sc8 | .i8 => 8
  | .f6v | .f6g => 6
  | .f4 | .i4 => 4
  | .bf16 | .fp16 | .i16 => 16
  | .fp32 | .i32 | .u32 => 32
  | .a34 => 64

/-- The floating layout of a format; none for SC8 and the integers. -/
def Fmt.float? : Fmt → Option FloatFmt
  | .f8v => some ⟨4, 3, 7, .f8v⟩
  | .f8g => some ⟨5, 2, 15, .ieee⟩
  | .f6v => some ⟨2, 3, 1, .finite⟩
  | .f6g => some ⟨3, 2, 3, .finite⟩
  | .f4 => some ⟨2, 1, 1, .finite⟩
  | .bf16 => some ⟨8, 7, 127, .ieee⟩
  | .fp16 => some ⟨5, 10, 15, .ieee⟩
  | .fp32 => some ⟨8, 23, 127, .ieee⟩
  | .a34 => some ⟨10, 23, 511, .ieee⟩
  | _ => none

/-- The A20 partial format (R34). -/
def a20 : FloatFmt := ⟨6, 13, 31, .ieee⟩
/-- The A34 accumulator format (R26). -/
def a34 : FloatFmt := ⟨10, 23, 511, .ieee⟩
/-- FP32 (R26). -/
def fp32 : FloatFmt := ⟨8, 23, 127, .ieee⟩
/-- BF16 (R26). -/
def bf16 : FloatFmt := ⟨8, 7, 127, .ieee⟩
/-- F8V (R26). -/
def f8v : FloatFmt := ⟨4, 3, 7, .f8v⟩

/-- An integer format: its width and whether it is signed (R26). -/
def Fmt.int? : Fmt → Option (Nat × Bool)
  | .i4 => some (4, true) | .i8 => some (8, true) | .i16 => some (16, true)
  | .i32 => some (32, true) | .u32 => some (32, false)
  | _ => none

/-! ### Exact values -/

/-- Zero of a sign. -/
def Val.zero (neg : Bool) : Val := .fin neg 0 0

/-- The value of an integer; zero is +0. -/
def Val.ofInt (z : Int) (e : Int) : Val := .fin (decide (z < 0)) z.natAbs e

/-- Not a NaN and not an infinity. -/
def Val.isFinite : Val → Bool
  | .fin _ _ _ => true
  | _ => false

/-- NaN. -/
def Val.isNan : Val → Bool
  | .nan => true
  | _ => false

/-- A zero of either sign. -/
def Val.isZero : Val → Bool
  | .fin _ m _ => m == 0
  | _ => false

/-- The sign bit as a value's own. -/
def Val.isNeg : Val → Bool
  | .nan => false
  | .inf n => n
  | .fin n _ _ => n

/-- The value with its sign reversed. -/
def Val.neg : Val → Val
  | .nan => .nan
  | .inf n => .inf (!n)
  | .fin n m e => .fin (!n) m e

/-- The magnitude. -/
def Val.abs : Val → Val
  | .nan => .nan
  | .inf _ => .inf false
  | .fin _ m e => .fin false m e

/-- The signed significand at exponent `e0`, which lies at or below `e`. -/
def alignTo (neg : Bool) (m : Nat) (e e0 : Int) : Int :=
  let z : Int := (m * 2 ^ (e - e0).toNat : Nat)
  if neg then -z else z

/-- The exact sum (R33, R36): cancelling and opposite zeros give +0, opposite infinities NaN. -/
def Val.add : Val → Val → Val
  | .nan, _ => .nan
  | _, .nan => .nan
  | .inf a, .inf b => if a = b then .inf a else .nan
  | .inf a, .fin _ _ _ => .inf a
  | .fin _ _ _, .inf b => .inf b
  | .fin n1 m1 e1, .fin n2 m2 e2 =>
    if m1 = 0 ∧ m2 = 0 then .fin (n1 && n2) 0 0
    else
      let e0 := min e1 e2
      .ofInt (alignTo n1 m1 e1 e0 + alignTo n2 m2 e2 e0) e0

/-- The exact difference. -/
def Val.sub (a b : Val) : Val := a.add b.neg

/-- The exact product (R35): zero times infinity is NaN. -/
def Val.mul : Val → Val → Val
  | .nan, _ => .nan
  | _, .nan => .nan
  | .inf a, .inf b => .inf (a != b)
  | .inf a, .fin n m _ => if m = 0 then .nan else .inf (a != n)
  | .fin n m _, .inf b => if m = 0 then .nan else .inf (n != b)
  | .fin n1 m1 e1, .fin n2 m2 e2 => .fin (n1 != n2) (m1 * m2) (e1 + e2)

/-- The value times `2^k`. -/
def Val.scale (v : Val) (k : Int) : Val :=
  match v with
  | .fin n m e => .fin n m (e + k)
  | v => v

/-- The quotient to 96 significant bits or more with a sticky last bit, enough for every rounding of R45 to R48.
Zero by zero and infinity by infinity are NaN. -/
def Val.div : Val → Val → Val
  | .nan, _ => .nan
  | _, .nan => .nan
  | .inf _, .inf _ => .nan
  | .inf a, .fin n _ _ => .inf (a != n)
  | .fin n _ _, .inf b => .fin (n != b) 0 0
  | .fin n1 m1 e1, .fin n2 m2 e2 =>
    if m2 = 0 then (if m1 = 0 then .nan else .inf (n1 != n2))
    else if m1 = 0 then .fin (n1 != n2) 0 0
    else
      let k := 96 + Nat.log2 m2
      let q := (m1 * 2 ^ k) / m2
      let r := (m1 * 2 ^ k) % m2
      .fin (n1 != n2) (2 * q + (if r = 0 then 0 else 1)) (e1 - e2 - k - 1)

/-- One bit of an integer square root per round, from the top: `fuel` bits remain. -/
def isqrtAux : Nat → Nat → Nat → Nat
  | 0, _, acc => acc
  | fuel + 1, n, acc =>
    let t := acc + 2 ^ fuel
    isqrtAux fuel n (if t * t ≤ n then t else acc)

/-- The integer square root. -/
def isqrt (n : Nat) : Nat := isqrtAux (Nat.log2 n / 2 + 1) n 0

/-- The square root to 60 significant bits or more with a sticky last bit; of a negative value, NaN. -/
def Val.sqrt : Val → Val
  | .nan => .nan
  | .inf n => if n then .nan else .inf false
  | .fin n m e =>
    if m = 0 then .fin n 0 0
    else if n then .nan
    else
      let m' := if e % 2 = 0 then m else 2 * m
      let e' := if e % 2 = 0 then e else e - 1
      let r := isqrt (m' * 2 ^ 120)
      .fin false (2 * r + (if r * r = m' * 2 ^ 120 then 0 else 1)) (e' / 2 - 60 - 1)

/-- `a < b` on values that are not NaN (false on NaN). -/
def Val.lt : Val → Val → Bool
  | .nan, _ => false
  | _, .nan => false
  | .inf a, .inf b => a && !b
  | .inf a, .fin _ _ _ => a
  | .fin _ _ _, .inf b => !b
  | .fin n1 m1 e1, .fin n2 m2 e2 =>
    let e0 := min e1 e2
    decide (alignTo n1 m1 e1 e0 < alignTo n2 m2 e2 e0)

/-- `a = b` as numbers: the zeros are equal; false on NaN. -/
def Val.eqv (a b : Val) : Bool := !a.isNan && !b.isNan && !(a.lt b) && !(b.lt a)

/-- The integer part of log2 of a finite non-zero magnitude (R40). -/
def expOf (m : Nat) (e : Int) : Int := (Nat.log2 m : Int) + e

/-! ### Decoding -/

/-- The value of a floating code (R26, R29). -/
def FloatFmt.decode (f : FloatFmt) (code : Nat) : Val :=
  let m := code % 2 ^ f.mbits
  let ef := code / 2 ^ f.mbits % 2 ^ f.ebits
  let neg := code / 2 ^ (f.mbits + f.ebits) % 2 == 1
  let top := 2 ^ f.ebits - 1
  if f.kind = .ieee ∧ ef = top then (if m = 0 then .inf neg else .nan)
  else if f.kind = .f8v ∧ ef = top ∧ m = 2 ^ f.mbits - 1 then .nan
  else if ef = 0 then .fin neg m (1 - (f.bias : Int) - f.mbits)
  else .fin neg (2 ^ f.mbits + m) ((ef : Int) - f.bias - f.mbits)

/-- The value of an integer code of `w` bits. -/
def intDecode (w : Nat) (signed : Bool) (code : Nat) : Val :=
  let c := code % 2 ^ w
  if signed && decide (2 ^ (w - 1) ≤ c) then .ofInt ((c : Int) - 2 ^ w) 0 else .ofInt c 0

/-- The value of an element code of a format; an SC8 code stands for its scale (R38). -/
def Fmt.decode (f : Fmt) (code : Nat) : Val :=
  match f.float?, f.int? with
  | some ff, _ => ff.decode code
  | none, some (w, s) => intDecode w s code
  | none, none => if code % 256 = 255 then .nan else .fin false 1 ((code % 256 : Nat) - 127)

/-- The value of an FP32 word. -/
def Val.ofFp32 (w : Word) : Val := fp32.decode w.toNat

/-! ### Rounding and conversion -/

/-- The rounding modes of R44; SR carries the element's JSR32 draw (R48). -/
inductive Round where
  | rne | rtz
  | sr (h : Word)
  deriving DecidableEq, Repr

/-- One round of JSR32's mixing (R49). -/
def jsrMix (h w : Word) : Word :=
  let h := (h ^^^ w) * 0xa5c31e6b#32
  let h := h ^^^ (h >>> 15)
  let h := h * 0x5d2f8c93#32
  h ^^^ (h >>> 13)

/-- JSR32 (R49). -/
def jsr32 (step tensor : Word) (index : Nat) : Word :=
  let h := jsrMix (jsrMix (jsrMix (jsrMix 0x51d4a7e9#32 step) tensor) (BitVec.ofNat 32 index))
    (BitVec.ofNat 32 (index / 2 ^ 32))
  h ^^^ (h >>> 16)

/-- The rounding of a command's 2-bit code for one element: code 3 is treated as RNE (R44). -/
def Round.ofCode (code : Nat) (step tensor : Word) (index : Nat) : Round :=
  if code = 1 then .rtz else if code = 2 then .sr (jsr32 step tensor index) else .rne

/-- Whether the chosen neighbour is the upper one: the lower neighbour is `lo` units, `rem` of `2^s` is discarded
(R46 to R48). `top` marks the largest finite value, whose half-way point rounds away (R51). -/
def roundUp (r : Round) (lo rem s : Nat) (top : Bool) : Bool :=
  if rem = 0 then false
  else match r with
  | .rtz => false
  | .rne => decide (2 ^ s < 2 * rem) || (2 * rem == 2 ^ s && (lo % 2 == 1 || top))
  | .sr h =>
    let t := if 24 ≤ s then rem / 2 ^ (s - 24) else rem * 2 ^ (24 - s)
    decide (2 ^ 24 ≤ t + h.toNat / 256)

/-- The largest finite value of a layout, as significand and exponent (R29). -/
def FloatFmt.maxFinite (f : FloatFmt) : Nat × Int :=
  let top := 2 ^ f.ebits - 1
  match f.kind with
  | .ieee => (2 ^ (f.mbits + 1) - 1, (top : Int) - 1 - f.bias - f.mbits)
  | .f8v => (2 ^ (f.mbits + 1) - 2, (top : Int) - f.bias - f.mbits)
  | .finite => (2 ^ (f.mbits + 1) - 1, (top : Int) - f.bias - f.mbits)

/-- The code of the largest finite magnitude. -/
def FloatFmt.maxCode (f : FloatFmt) : Nat :=
  match f.kind with
  | .ieee => (2 ^ f.ebits - 1) * 2 ^ f.mbits - 1
  | .f8v => 2 ^ (f.ebits + f.mbits) - 2
  | .finite => 2 ^ (f.ebits + f.mbits) - 1

/-- The canonical NaN, sign 0 (R32); a finite-only format has none and takes +0 (R55). -/
def FloatFmt.nanCode (f : FloatFmt) : Nat :=
  match f.kind with
  | .ieee => (2 ^ f.ebits - 1) * 2 ^ f.mbits + 2 ^ (f.mbits - 1)
  | .f8v => 2 ^ (f.ebits + f.mbits) - 1
  | .finite => 0

/-- The code of +infinity in a layout that has it. -/
def FloatFmt.infCode (f : FloatFmt) : Nat := (2 ^ f.ebits - 1) * 2 ^ f.mbits

/-- The sign bit of a code. -/
def FloatFmt.signBit (f : FloatFmt) (neg : Bool) : Nat := if neg then 2 ^ (f.ebits + f.mbits) else 0

/-- `m1 * 2^e1 > m2 * 2^e2` on magnitudes. -/
def magGt (m1 : Nat) (e1 : Int) (m2 : Nat) (e2 : Int) : Bool :=
  let e0 := min e1 e2
  decide (m2 * 2 ^ (e2 - e0).toNat < m1 * 2 ^ (e1 - e0).toNat)

/-- The neighbour that R45 to R48 choose for a magnitude, the exponent range unbounded upward: units and the exponent
of one unit. -/
def FloatFmt.neighbour (f : FloatFmt) (r : Round) (m : Nat) (e : Int) : Nat × Int :=
  if m = 0 then (0, 1 - (f.bias : Int) - f.mbits)
  else
    let q := max (expOf m e) (1 - (f.bias : Int)) - f.mbits
    if q ≤ e then (m * 2 ^ (e - q).toNat, q)
    else
      let s := (q - e).toNat
      let lo := m / 2 ^ s
      let top := decide ((lo, q) = f.maxFinite)
      (if roundUp r lo (m % 2 ^ s) s top then lo + 1 else lo, q)

/-- What a conversion gives: the code, whether the element is counted as an overflow, an underflow or a non-finite
conversion (R53 to R55), and whether it makes the whole block's code 0xFF. -/
structure Conv where
  code : Nat
  ovf : Bool := false
  unf : Bool := false
  nonfin : Bool := false
  blockNan : Bool := false
  deriving DecidableEq, Repr

/-- Conversion to a floating layout (R45 to R55). `ieee`: the overflow mode; `scaled`: the tensor is block-scaled. -/
def FloatFmt.convert (f : FloatFmt) (r : Round) (ieee scaled : Bool) (v : Val) : Conv :=
  match v with
  | .nan =>
    if f.kind = .finite then (if scaled then { code := 0, blockNan := true } else { code := 0, nonfin := true })
    else { code := f.nanCode }
  | .inf neg =>
    match f.kind with
    | .ieee => { code := f.infCode + f.signBit neg }
    | .f8v => { code := f.nanCode, nonfin := true }
    | .finite => if scaled then { code := 0, blockNan := true } else { code := f.maxCode + f.signBit neg, nonfin := true }
  | .fin neg m e =>
    let (n, q) := f.neighbour r m e
    let (mm, qm) := f.maxFinite
    if magGt n q mm qm then
      if !ieee then { code := f.maxCode + f.signBit neg, ovf := true }
      else match f.kind with
        | .ieee => { code := f.infCode + f.signBit neg, ovf := true }
        | .f8v => { code := f.nanCode, ovf := true }
        | .finite => if scaled then { code := 0, blockNan := true } else { code := f.maxCode + f.signBit neg, ovf := true }
    else
      { code := (q + f.mbits + f.bias).toNat * 2 ^ f.mbits + n - 2 ^ f.mbits + f.signBit neg
        unf := m ≠ 0 && n == 0 }

/-- Conversion to an integer format of `w` bits (R55, R58). -/
def intConvert (w : Nat) (signed : Bool) (r : Round) (v : Val) : Conv :=
  let hi : Int := if signed then 2 ^ (w - 1) - 1 else 2 ^ w - 1
  let lo : Int := if signed then -(2 ^ (w - 1)) else 0
  let enc (z : Int) : Nat := (z % 2 ^ w).toNat
  match v with
  | .nan => { code := 0, nonfin := true }
  | .inf neg => { code := enc (if neg then lo else hi), nonfin := true }
  | .fin neg m e =>
    let n : Nat :=
      if 0 ≤ e then m * 2 ^ e.toNat
      else
        let s := (-e).toNat
        let q := m / 2 ^ s
        if roundUp r q (m % 2 ^ s) s false then q + 1 else q
    let z : Int := if neg then -(n : Int) else n
    if hi < z then { code := enc hi, ovf := true }
    else if z < lo then { code := enc lo, ovf := true }
    else { code := enc z }

/-- Conversion of one element to a format; no hardware path converts into SC8 (R57), which gives 0. -/
def Fmt.convert (f : Fmt) (r : Round) (ieee scaled : Bool) (v : Val) : Conv :=
  match f.float?, f.int? with
  | some ff, _ => ff.convert r ieee scaled v
  | none, some (w, s) => intConvert w s r v
  | none, none => { code := 0 }

/-- A value rounded to nearest in FP32, overflow to infinity: the code (R44 with IEEE overflow). -/
def toFp32 (v : Val) : Word := BitVec.ofNat 32 (fp32.convert .rne true false v).code

/-- A value rounded to nearest and read back in a layout with infinities. -/
def FloatFmt.round (f : FloatFmt) (v : Val) : Val := f.decode (f.convert .rne true false v).code

/-- FP32 addition, round to nearest. -/
def fadd (a b : Word) : Word := toFp32 ((Val.ofFp32 a).add (Val.ofFp32 b))
/-- FP32 subtraction. -/
def fsub (a b : Word) : Word := toFp32 ((Val.ofFp32 a).sub (Val.ofFp32 b))
/-- FP32 multiplication. -/
def fmul (a b : Word) : Word := toFp32 ((Val.ofFp32 a).mul (Val.ofFp32 b))
/-- FP32 fused multiply-add, one rounding. -/
def ffma (a b c : Word) : Word := toFp32 (((Val.ofFp32 a).mul (Val.ofFp32 b)).add (Val.ofFp32 c))
/-- FP32 division. -/
def fdiv (a b : Word) : Word := toFp32 ((Val.ofFp32 a).div (Val.ofFp32 b))
/-- FP32 square root. -/
def fsqrt (a : Word) : Word := toFp32 (Val.ofFp32 a).sqrt
/-- FP32 code of a natural number, rounded to nearest. -/
def fofNat (n : Nat) : Word := toFp32 (.ofInt n 0)
/-- The sign of an FP32 code reversed. -/
def fneg (a : Word) : Word := a ^^^ 0x80000000#32
/-- An FP32 code is finite. -/
def ffinite (a : Word) : Bool := (Val.ofFp32 a).isFinite
/-- `a < b` on FP32 codes. -/
def flt (a b : Word) : Bool := (Val.ofFp32 a).lt (Val.ofFp32 b)

/-! ### Block scaling -/

/-- emax of a format (R29, R30). -/
def Fmt.emax : Fmt → Int
  | .f8v => 8 | .f8g => 15 | .f6v => 2 | .f6g => 4 | .f4 => 2 | .bf16 => 127 | .fp16 => 15 | .fp32 => 127
  | .a34 => 511 | .sc8 => 0 | .i4 => 2 | .i8 => 6 | .i16 => 14 | .i32 => 30 | .u32 => 31

/-- The largest finite value of a format as significand and exponent (R29, R26). -/
def Fmt.maxFinite (f : Fmt) : Nat × Int :=
  match f.float?, f.int? with
  | some ff, _ => ff.maxFinite
  | none, some (w, s) => (if s then 2 ^ (w - 1) - 1 else 2 ^ w - 1, 0)
  | none, none => (1, 127)

/-- The larger of two magnitudes, each a significand and exponent; a zero significand is the smallest. -/
def magMax (a b : Nat × Int) : Nat × Int := if magGt b.1 b.2 a.1 a.2 then b else a

/-- The largest finite magnitude of a block (R40 step 1). -/
def largest (vs : List Val) : Nat × Int :=
  vs.foldl (fun acc v => match v with | .fin _ m e => magMax acc (m, e) | _ => acc) (0, 0)

/-- The block code of R40. -/
def blockCode (f : Fmt) (vs : List Val) : Nat :=
  let (m, e) := largest vs
  if m = 0 then 127
  else
    let c : Int := expOf m e - f.emax + 127
    let (mm, qm) := f.maxFinite
    let c := if magGt m (e + 127 - c) mm qm then c + 1 else c
    (max 0 (min 254 c)).toNat

/-- A converted block: its SC8 code (127 when the tensor is not block-scaled), its element codes and its counts. -/
structure BlockOut where
  sc : Nat
  codes : List Nat
  ovf : Nat := 0
  unf : Nat := 0
  nonfin : Nat := 0
  deriving DecidableEq, Repr

/-- How many conversions of a list raise a count. -/
def countConv (p : Conv → Bool) (cs : List Conv) : Nat := (cs.filter p).length

/-- A block written block-scaled in format `f` (R40, R41): `vs` pairs each element with its rounding. -/
def writeBlock (f : Fmt) (ieee : Bool) (vs : List (Val × Round)) : BlockOut :=
  let c := blockCode f (vs.map (·.1))
  let cs := vs.map fun (v, r) => f.convert r ieee true (v.scale (127 - (c : Int)))
  if vs.any (·.1.isNan) || cs.any (·.blockNan) then
    { sc := 255, codes := vs.map fun _ => 0, nonfin := 1 }
  else
    { sc := c, codes := cs.map (·.code), ovf := countConv (·.ovf) cs, unf := countConv (·.unf) cs
      nonfin := countConv (·.nonfin) cs }

/-- Elements converted one by one, not block-scaled (R45 to R55). -/
def writePlain (f : Fmt) (ieee : Bool) (vs : List (Val × Round)) : BlockOut :=
  let cs := vs.map fun (v, r) => f.convert r ieee false v
  { sc := 127, codes := cs.map (·.code), ovf := countConv (·.ovf) cs, unf := countConv (·.unf) cs
    nonfin := countConv (·.nonfin) cs }

/-- The value of an element of a block-scaled tensor (R39): NaN in a block of code 0xFF. -/
def scaledVal (v : Val) (sc : Nat) : Val := if sc = 255 then .nan else v.scale ((sc : Int) - 127)

/-- The F8V code of an F6V, F6G or F4 element (R42: the value is exact); other codes unchanged. -/
def toF8V (f : Fmt) (code : Nat) : Nat :=
  match f with
  | .f6v | .f6g | .f4 => (f8v.convert .rne false false (f.decode code)).code
  | _ => code

/-! ### Splitting (R59 to R63) -/

/-- The pieces an operand format is split into (R59). -/
def Fmt.pieces : Fmt → Nat
  | .bf16 => 2
  | .fp16 | .fp32 => 3
  | _ => 1

/-- The pieces of a block of values: per piece its SC8 code and F8V codes, the exact remainder carried on (R59). -/
def splitBlock : Nat → List Val → List (Nat × List Nat)
  | 0, _ => []
  | k + 1, vs =>
    let b := writeBlock .f8v false (vs.map fun v => (v, .rne))
    let rest := (vs.zip b.codes).map fun (v, c) => v.sub (scaledVal (f8v.decode c) b.sc)
    (b.sc, b.codes) :: splitBlock k rest

/-- Elements of a split block that are finite and non-zero and zero in every piece (R63); a piece whose block is written
with code 0xFF reads as NaN, and none of its elements counts (R39, R41). -/
def splitUnderflows (vs : List Val) (pieces : List (Nat × List Nat)) : Nat :=
  ((List.range vs.length).filter fun i =>
    let v := vs.getD i .nan
    v.isFinite && !v.isZero && pieces.all fun p => p.1 != 255 && p.2.getD i 0 % 128 == 0).length

/-- The kept piece pairs of a product in the order of its passes (R60, R61). -/
def passPairs (pa pb : Nat) : List (Nat × Nat) :=
  let top := max pa pb - 1
  (List.range (top + 1)).reverse.flatMap fun s =>
    (List.range pa).filterMap fun i => if i ≤ s ∧ s - i < pb then some (i, s - i) else none

end Sys2Proof.Machine
end

