-- ==== Sys2Proof/Machine/Reg.lean ====
section
/-! DEFINITION. The window address of every register (R520 and the chapters' register tables): the block instance
and the register's index are arguments where the register has several. -/

namespace Sys2Proof.Machine.Reg

/-- `AON_ID` (R478). -/
def aonId : Nat := 0x0
/-- `AON_STATE` (R478). -/
def aonState : Nat := 0x4
/-- `AON_BOOT` (R478). -/
def aonBoot : Nat := 0x8
/-- `AON_RESET_CAUSE` (R478). -/
def aonResetCause : Nat := 0xC
/-- `AON_RESET_CTRL` (R478). -/
def aonResetCtrl : Nat := 0x10
/-- `AON_FAULT_ROOT` (R478). -/
def aonFaultRoot : Nat := 0x14
/-- `AON_FREQ` (R478). -/
def aonFreq : Nat := 0x18
/-- `AON_VCORE` (R478). -/
def aonVcore : Nat := 0x1C
/-- `AON_FCNT_LO` (R478). -/
def aonFcntLo : Nat := 0x30
/-- `AON_FCNT_HI` (R478). -/
def aonFcntHi : Nat := 0x34
/-- `AON_TOD_NS` (R478). -/
def aonTodNs : Nat := 0x38
/-- `AON_TOD_SLO` (R478). -/
def aonTodSlo : Nat := 0x3C
/-- `AON_TOD_SHI` (R478). -/
def aonTodShi : Nat := 0x40
/-- `AON_TIME` (R478). -/
def aonTime : Nat := 0x44
/-- `AON_POWER` (R478). -/
def aonPower : Nat := 0x48
/-- `AON_TEMP` (R478). -/
def aonTemp : Nat := 0x4C
/-- `AON_MARGIN` (R478). -/
def aonMargin : Nat := 0x50
/-- `AON_MEPOCH` (R478). -/
def aonMepoch : Nat := 0x54
/-- `AON_WORST` (R478). -/
def aonWorst : Nat := 0x58
/-- `AON_ROMVER` (R478). -/
def aonRomver : Nat := 0x5C
/-- `AON_EVC_FSWITCH` (R478). -/
def aonEvcFswitch : Nat := 0x110
/-- `AON_EVC_REPLAN` (R478). -/
def aonEvcReplan : Nat := 0x114
/-- `AON_EVC_EXHAUST` (R478). -/
def aonEvcExhaust : Nat := 0x118
/-- `AON_EVC_PWROVER` (R478). -/
def aonEvcPwrover : Nat := 0x11C
/-- `AON_EVC_ALIGNERR` (R478). -/
def aonEvcAlignerr : Nat := 0x120
/-- `AON_EVC_HOLDOVER` (R478). -/
def aonEvcHoldover : Nat := 0x124
/-- `AON_EVC_VIOL` (R478). -/
def aonEvcViol : Nat := 0x128
/-- `AON_EVC_SAT` (R478). -/
def aonEvcSat : Nat := 0x13C
/-- `AON_VDOM` (R478). -/
def aonVdom (k : Nat) : Nat := 0x200 + 4 * k
/-- `AON_SLACK` (R478). -/
def aonSlack (k : Nat) : Nat := 0x1000 + 4 * k
/-- `GNT_ID` (R513). -/
def gntId : Nat := 0x10000
/-- `GNT_STATUS` (R513). -/
def gntStatus : Nat := 0x10004
/-- `GNT_GRACE` (R513). -/
def gntGrace : Nat := 0x10008
/-- `GNT_HEAD` (R513). -/
def gntHead : Nat := 0x1000C
/-- `GNT_WRAPS` (R513). -/
def gntWraps : Nat := 0x10010
/-- `GNT_ACK` (R513). -/
def gntAck : Nat := 0x10014
/-- `GNT_OPEN0` (R513). -/
def gntOpen0 : Nat := 0x10018
/-- `GNT_OPEN1` (R513). -/
def gntOpen1 : Nat := 0x1001C
/-- `GNT_WDT` (R513). -/
def gntWdt : Nat := 0x10020
/-- `GNT_WDT_LIMIT` (R513). -/
def gntWdtLimit : Nat := 0x10024
/-- `GNT_CTRL` (R513). -/
def gntCtrl : Nat := 0x10028
/-- `GNT_EVC_FAULT` (R513). -/
def gntEvcFault : Nat := 0x10110
/-- `GNT_EVC_COALESCE` (R513). -/
def gntEvcCoalesce : Nat := 0x10114
/-- `GNT_EVC_DISMISS` (R513). -/
def gntEvcDismiss : Nat := 0x10118
/-- `GNT_EVC_NOTIFY` (R513). -/
def gntEvcNotify : Nat := 0x1011C
/-- `GNT_EVC_ABORT` (R513). -/
def gntEvcAbort : Nat := 0x10120
/-- `GNT_EVC_PEERABORT` (R513). -/
def gntEvcPeerabort : Nat := 0x10124
/-- `GNT_EVC_ISOCMD` (R513). -/
def gntEvcIsocmd : Nat := 0x10128
/-- `GNT_EVC_LOGFULL` (R513). -/
def gntEvcLogfull : Nat := 0x1012C
/-- `GNT_EVC_VIOL` (R513). -/
def gntEvcViol : Nat := 0x10130
/-- `GNT_EVC_SAT` (R513). -/
def gntEvcSat : Nat := 0x1013C
/-- `GNT_LOG` (R513). -/
def gntLog (k : Nat) : Nat := 0x10800 + 4 * k
/-- `ID_SERIAL_LO` (R423). -/
def idSerialLo : Nat := 0x20000
/-- `ID_SERIAL_HI` (R423). -/
def idSerialHi : Nat := 0x20004
/-- `ID_STATUS` (R423). -/
def idStatus : Nat := 0x20008
/-- `ID_SVN` (R423). -/
def idSvn : Nat := 0x2000C
/-- `ID_ATTEST` (R423). -/
def idAttest : Nat := 0x20010
/-- `ID_EVC_VIOL` (R423). -/
def idEvcViol : Nat := 0x20014
/-- `ID_NONCE` (R423). -/
def idNonce (k : Nat) : Nat := 0x20020 + 4 * k
/-- `ID_DIK_PUB` (R423). -/
def idDikPub (k : Nat) : Nat := 0x20100 + 4 * k
/-- `ID_SEAL_PUB` (R423). -/
def idSealPub (k : Nat) : Nat := 0x20140 + 4 * k
/-- `ID_CERT` (R423). -/
def idCert (k : Nat) : Nat := 0x20200 + 4 * k
/-- `ID_REPORT` (R423). -/
def idReport (k : Nat) : Nat := 0x20400 + 4 * k
/-- `CPH_ID` (R421). -/
def cphId : Nat := 0x40000
/-- `CPH_STATUS` (R421). -/
def cphStatus : Nat := 0x40004
/-- `CPH_LIMITS` (R421). -/
def cphLimits : Nat := 0x40008
/-- `CPH_ENC_BYTES_LO` (R421). -/
def cphEncBytesLo : Nat := 0x40100
/-- `CPH_ENC_BYTES_HI` (R421). -/
def cphEncBytesHi : Nat := 0x40104
/-- `CPH_DEC_BYTES_LO` (R421). -/
def cphDecBytesLo : Nat := 0x40108
/-- `CPH_DEC_BYTES_HI` (R421). -/
def cphDecBytesHi : Nat := 0x4010C
/-- `CPH_XTS_BYTES_LO` (R421). -/
def cphXtsBytesLo : Nat := 0x40110
/-- `CPH_XTS_BYTES_HI` (R421). -/
def cphXtsBytesHi : Nat := 0x40114
/-- `CPH_EVC_SUSPEND` (R421). -/
def cphEvcSuspend : Nat := 0x40120
/-- `CPH_EVC_NOBUF` (R421). -/
def cphEvcNobuf : Nat := 0x40124
/-- `CPH_EVC_VIOL` (R421). -/
def cphEvcViol : Nat := 0x40128
/-- `CPH_EVC_SAT` (R421). -/
def cphEvcSat : Nat := 0x4013C
/-- `CPH_A_STATE` (R421). -/
def cphAState (n : Nat) : Nat := 0x40400 + 0x40 * n
/-- `CPH_A_TXGEN` (R421). -/
def cphATxgen (n : Nat) : Nat := 0x40404 + 0x40 * n
/-- `CPH_A_RXGEN` (R421). -/
def cphARxgen (n : Nat) : Nat := 0x40408 + 0x40 * n
/-- `CPH_A_TXREC` (R421). -/
def cphATxrec (n : Nat) : Nat := 0x4040C + 0x40 * n
/-- `CPH_A_TXBYTES_LO` (R421). -/
def cphATxbytesLo (n : Nat) : Nat := 0x40410 + 0x40 * n
/-- `CPH_A_TXBYTES_HI` (R421). -/
def cphATxbytesHi (n : Nat) : Nat := 0x40414 + 0x40 * n
/-- `CPH_A_EVC_TAGFAIL` (R421). -/
def cphAEvcTagfail (n : Nat) : Nat := 0x40420 + 0x40 * n
/-- `CPH_A_EVC_HELLOFAIL` (R421). -/
def cphAEvcHellofail (n : Nat) : Nat := 0x40424 + 0x40 * n
/-- `CPH_A_EVC_KEYWAIT` (R421). -/
def cphAEvcKeywait (n : Nat) : Nat := 0x40428 + 0x40 * n
/-- `CPH_A_EVC_KEYUPD` (R421). -/
def cphAEvcKeyupd (n : Nat) : Nat := 0x4042C + 0x40 * n
/-- `CPH_A_EVC_ASSOC` (R421). -/
def cphAEvcAssoc (n : Nat) : Nat := 0x40430 + 0x40 * n
/-- `CPH_A_EVC_SAT` (R421). -/
def cphAEvcSat (n : Nat) : Nat := 0x4043C + 0x40 * n
/-- `HPT_ID` (R449). -/
def hptId : Nat := 0x80000
/-- `HPT_STATUS` (R449). -/
def hptStatus : Nat := 0x80004
/-- `HPT_CFG` (R449). -/
def hptCfg : Nat := 0x80008
/-- `HPT_QP_USE` (R449). -/
def hptQpUse : Nat := 0x80010
/-- `HPT_TRK_USE` (R449). -/
def hptTrkUse : Nat := 0x80014
/-- `HPT_EVQ_PROD_LO` (R449). -/
def hptEvqProdLo : Nat := 0x80018
/-- `HPT_EVQ_PROD_HI` (R449). -/
def hptEvqProdHi : Nat := 0x8001C
/-- `HPT_EVQ_CONS_LO` (R449). -/
def hptEvqConsLo : Nat := 0x80020
/-- `HPT_EVQ_CONS_HI` (R449). -/
def hptEvqConsHi : Nat := 0x80024
/-- `HPT_STAGE_BASE_LO` (R449). -/
def hptStageBaseLo : Nat := 0x80028
/-- `HPT_STAGE_BASE_HI` (R449). -/
def hptStageBaseHi : Nat := 0x8002C
/-- `HPT_STAGE_SIZE` (R449). -/
def hptStageSize : Nat := 0x80030
/-- `HPT_EVC_WREFUSED` (R449). -/
def hptEvcWrefused : Nat := 0x80110
/-- `HPT_EVC_TRKWAIT` (R449). -/
def hptEvcTrkwait : Nat := 0x80114
/-- `HPT_EVC_EVDROP` (R449). -/
def hptEvcEvdrop : Nat := 0x80118
/-- `HPT_EVC_DATALATE` (R449). -/
def hptEvcDatalate : Nat := 0x8011C
/-- `HPT_EVC_VIOL` (R449). -/
def hptEvcViol : Nat := 0x80120
/-- `HPT_EVC_SAT` (R449). -/
def hptEvcSat : Nat := 0x8013C
/-- `HPT_H_ID` (R450). -/
def hptHId (n : Nat) : Nat := 0x81000 + 0x1000 * n
/-- `HPT_H_STATUS` (R450). -/
def hptHStatus (n : Nat) : Nat := 0x81004 + 0x1000 * n
/-- `HPT_H_PTPOFS` (R450). -/
def hptHPtpofs (n : Nat) : Nat := 0x81008 + 0x1000 * n
/-- `HPT_H_TXBYTES_LO` (R450). -/
def hptHTxbytesLo (n : Nat) : Nat := 0x81100 + 0x1000 * n
/-- `HPT_H_TXBYTES_HI` (R450). -/
def hptHTxbytesHi (n : Nat) : Nat := 0x81104 + 0x1000 * n
/-- `HPT_H_RXBYTES_LO` (R450). -/
def hptHRxbytesLo (n : Nat) : Nat := 0x81108 + 0x1000 * n
/-- `HPT_H_RXBYTES_HI` (R450). -/
def hptHRxbytesHi (n : Nat) : Nat := 0x8110C + 0x1000 * n
/-- `HPT_H_EVC_REPLAY` (R450). -/
def hptHEvcReplay (n : Nat) : Nat := 0x81110 + 0x1000 * n
/-- `HPT_H_EVC_RXDROP` (R450). -/
def hptHEvcRxdrop (n : Nat) : Nat := 0x81114 + 0x1000 * n
/-- `HPT_H_EVC_QPERR` (R450). -/
def hptHEvcQperr (n : Nat) : Nat := 0x81118 + 0x1000 * n
/-- `HPT_H_EVC_LINKDOWN` (R450). -/
def hptHEvcLinkdown (n : Nat) : Nat := 0x8111C + 0x1000 * n
/-- `HPT_H_EVC_SAT` (R450). -/
def hptHEvcSat (n : Nat) : Nat := 0x8113C + 0x1000 * n
/-- `SLT_ID` (R223). -/
def sltId : Nat := 0xA0000
/-- `SLT_STATUS` (R223). -/
def sltStatus : Nat := 0xA0004
/-- `SLT_CFG` (R223). -/
def sltCfg : Nat := 0xA0008
/-- `SLT_GEOM` (R223). -/
def sltGeom : Nat := 0xA000C
/-- `SLT_CACHE_BASE_LO` (R223). -/
def sltCacheBaseLo : Nat := 0xA0010
/-- `SLT_CACHE_BASE_HI` (R223). -/
def sltCacheBaseHi : Nat := 0xA0014
/-- `SLT_CACHE_LINES` (R223). -/
def sltCacheLines : Nat := 0xA0018
/-- `SLT_MAP_BASE_LO` (R223). -/
def sltMapBaseLo : Nat := 0xA0020
/-- `SLT_MAP_BASE_HI` (R223). -/
def sltMapBaseHi : Nat := 0xA0024
/-- `SLT_SLOTS` (R223). -/
def sltSlots : Nat := 0xA0028
/-- `SLT_PEND_SLOTS` (R223). -/
def sltPendSlots : Nat := 0xA002C
/-- `SLT_BG` (R223). -/
def sltBg : Nat := 0xA0030
/-- `SLT_WEAR` (R223). -/
def sltWear : Nat := 0xA0034
/-- `SLT_TLIST_LO` (R223). -/
def sltTlistLo : Nat := 0xA0038
/-- `SLT_TLIST_HI` (R223). -/
def sltTlistHi : Nat := 0xA003C
/-- `SLT_RD_BYTES_LO` (R223). -/
def sltRdBytesLo : Nat := 0xA0040
/-- `SLT_RD_BYTES_HI` (R223). -/
def sltRdBytesHi : Nat := 0xA0044
/-- `SLT_WR_BYTES_LO` (R223). -/
def sltWrBytesLo : Nat := 0xA0048
/-- `SLT_WR_BYTES_HI` (R223). -/
def sltWrBytesHi : Nat := 0xA004C
/-- `SLT_MAX_ERASE` (R223). -/
def sltMaxErase : Nat := 0xA0050
/-- `SLT_FREE_BLOCKS` (R223). -/
def sltFreeBlocks : Nat := 0xA0054
/-- `SLT_TLIST_POST` (R223). -/
def sltTlistPost : Nat := 0xA0058
/-- `SLT_BUSY_LO` (R223). -/
def sltBusyLo : Nat := 0xA0100
/-- `SLT_BUSY_HI` (R223). -/
def sltBusyHi : Nat := 0xA0104
/-- `SLT_STALL_LO` (R223). -/
def sltStallLo : Nat := 0xA0108
/-- `SLT_STALL_HI` (R223). -/
def sltStallHi : Nat := 0xA010C
/-- `SLT_EVC_MISS` (R223). -/
def sltEvcMiss : Nat := 0xA0110
/-- `SLT_EVC_DEFER` (R223). -/
def sltEvcDefer : Nat := 0xA0114
/-- `SLT_EVC_DROP` (R223). -/
def sltEvcDrop : Nat := 0xA0118
/-- `SLT_EVC_WAIT` (R223). -/
def sltEvcWait : Nat := 0xA011C
/-- `SLT_EVC_RTHRU` (R223). -/
def sltEvcRthru : Nat := 0xA0120
/-- `SLT_EVC_WBACK` (R223). -/
def sltEvcWback : Nat := 0xA0124
/-- `SLT_EVC_CORR` (R223). -/
def sltEvcCorr : Nat := 0xA0128
/-- `SLT_EVC_UNCORR` (R223). -/
def sltEvcUncorr : Nat := 0xA012C
/-- `SLT_EVC_FORCED` (R223). -/
def sltEvcForced : Nat := 0xA0130
/-- `SLT_EVC_RETIRE` (R223). -/
def sltEvcRetire : Nat := 0xA0134
/-- `SLT_EVC_STALE` (R223). -/
def sltEvcStale : Nat := 0xA0138
/-- `SLT_EVC_VIOL` (R223). -/
def sltEvcViol : Nat := 0xA013C
/-- `SLT_EVC_SAT` (R223). -/
def sltEvcSat : Nat := 0xA014C
/-- `SLT_CH_STATUS` (R223). -/
def sltChStatus (k : Nat) : Nat := 0xA0200 + 4 * k
/-- `SLT_PART` (R223). -/
def sltPart (k : Nat) : Nat := 0xA0300 + 4 * k
/-- `BRM_ID` (R388). -/
def brmId : Nat := 0xC0000
/-- `BRM_STATUS` (R388). -/
def brmStatus : Nat := 0xC0004
/-- `BRM_CFG` (R388). -/
def brmCfg : Nat := 0xC0008
/-- `BRM_KEEP` (R388). -/
def brmKeep : Nat := 0xC000C
/-- `BRM_INTERVAL` (R388). -/
def brmInterval : Nat := 0xC0010
/-- `BRM_ROUND` (R388). -/
def brmRound : Nat := 0xC0014
/-- `BRM_XAREA_BASE_LO` (R388). -/
def brmXareaBaseLo : Nat := 0xC0020
/-- `BRM_XAREA_BASE_HI` (R388). -/
def brmXareaBaseHi : Nat := 0xC0024
/-- `BRM_XAREA_SIZE` (R388). -/
def brmXareaSize : Nat := 0xC0028
/-- `BRM_EVC_OPD` (R388). -/
def brmEvcOpd : Nat := 0xC0110
/-- `BRM_EVC_POSTPONE` (R388). -/
def brmEvcPostpone : Nat := 0xC0114
/-- `BRM_EVC_WITHHELD` (R388). -/
def brmEvcWithheld : Nat := 0xC0118
/-- `BRM_EVC_CONV` (R388). -/
def brmEvcConv : Nat := 0xC011C
/-- `BRM_EVC_VIOL` (R388). -/
def brmEvcViol : Nat := 0xC0120
/-- `BRM_EVC_LATE` (R388). -/
def brmEvcLate : Nat := 0xC0124
/-- `BRM_EVC_STALEDROP` (R388). -/
def brmEvcStaledrop : Nat := 0xC0128
/-- `BRM_EVC_DIVERGE` (R388). -/
def brmEvcDiverge : Nat := 0xC012C
/-- `BRM_EVC_PAUSE` (R388). -/
def brmEvcPause : Nat := 0xC0130
/-- `BRM_EVC_CONFLICT` (R388). -/
def brmEvcConflict : Nat := 0xC0134
/-- `BRM_EVC_CATCHUP` (R388). -/
def brmEvcCatchup : Nat := 0xC0138
/-- `BRM_EVC_SAT` (R388). -/
def brmEvcSat : Nat := 0xC014C
/-- `BRM_P_ID` (R390). -/
def brmPId (n : Nat) : Nat := 0xC1000 + 0x1000 * n
/-- `BRM_P_STATUS` (R390). -/
def brmPStatus (n : Nat) : Nat := 0xC1004 + 0x1000 * n
/-- `BRM_P_CFG` (R390). -/
def brmPCfg (n : Nat) : Nat := 0xC1008 + 0x1000 * n
/-- `BRM_P_RATE` (R390). -/
def brmPRate (n : Nat) : Nat := 0xC100C + 0x1000 * n
/-- `BRM_P_BURST` (R390). -/
def brmPBurst (n : Nat) : Nat := 0xC1010 + 0x1000 * n
/-- `BRM_P_FEC` (R390). -/
def brmPFec (n : Nat) : Nat := 0xC1014 + 0x1000 * n
/-- `BRM_P_TIMING` (R390). -/
def brmPTiming (n : Nat) : Nat := 0xC1018 + 0x1000 * n
/-- `BRM_P_ROUTE` (R390). -/
def brmPRoute (n : Nat) (k : Nat) : Nat := 0xC1020 + 0x1000 * n + 4 * k
/-- `BRM_P_JIT` (R390). -/
def brmPJit (n : Nat) (k : Nat) : Nat := 0xC1030 + 0x1000 * n + 4 * k
/-- `BRM_P_TXPSN_LO` (R390). -/
def brmPTxpsnLo (n : Nat) : Nat := 0xC1040 + 0x1000 * n
/-- `BRM_P_TXPSN_HI` (R390). -/
def brmPTxpsnHi (n : Nat) : Nat := 0xC1044 + 0x1000 * n
/-- `BRM_P_RXPSN_LO` (R390). -/
def brmPRxpsnLo (n : Nat) : Nat := 0xC1048 + 0x1000 * n
/-- `BRM_P_RXPSN_HI` (R390). -/
def brmPRxpsnHi (n : Nat) : Nat := 0xC104C + 0x1000 * n
/-- `BRM_P_LOSS` (R390). -/
def brmPLoss (n : Nat) : Nat := 0xC1050 + 0x1000 * n
/-- `BRM_P_TXBYTES_LO` (R390). -/
def brmPTxbytesLo (n : Nat) : Nat := 0xC1100 + 0x1000 * n
/-- `BRM_P_TXBYTES_HI` (R390). -/
def brmPTxbytesHi (n : Nat) : Nat := 0xC1104 + 0x1000 * n
/-- `BRM_P_RXBYTES_LO` (R390). -/
def brmPRxbytesLo (n : Nat) : Nat := 0xC1108 + 0x1000 * n
/-- `BRM_P_RXBYTES_HI` (R390). -/
def brmPRxbytesHi (n : Nat) : Nat := 0xC110C + 0x1000 * n
/-- `BRM_P_EVC_RECOVER` (R390). -/
def brmPEvcRecover (n : Nat) : Nat := 0xC1110 + 0x1000 * n
/-- `BRM_P_EVC_RESEND` (R390). -/
def brmPEvcResend (n : Nat) : Nat := 0xC1114 + 0x1000 * n
/-- `BRM_P_EVC_OBJLOST` (R390). -/
def brmPEvcObjlost (n : Nat) : Nat := 0xC1118 + 0x1000 * n
/-- `BRM_P_EVC_REORDER` (R390). -/
def brmPEvcReorder (n : Nat) : Nat := 0xC111C + 0x1000 * n
/-- `BRM_P_EVC_REPLAY` (R390). -/
def brmPEvcReplay (n : Nat) : Nat := 0xC1120 + 0x1000 * n
/-- `BRM_P_EVC_DUP` (R390). -/
def brmPEvcDup (n : Nat) : Nat := 0xC1124 + 0x1000 * n
/-- `BRM_P_EVC_REROUTE` (R390). -/
def brmPEvcReroute (n : Nat) : Nat := 0xC1128 + 0x1000 * n
/-- `BRM_P_EVC_ROUTEDOWN` (R390). -/
def brmPEvcRoutedown (n : Nat) : Nat := 0xC112C + 0x1000 * n
/-- `BRM_P_EVC_CRESEND` (R390). -/
def brmPEvcCresend (n : Nat) : Nat := 0xC1130 + 0x1000 * n
/-- `BRM_P_EVC_CLOST` (R390). -/
def brmPEvcClost (n : Nat) : Nat := 0xC1134 + 0x1000 * n
/-- `BRM_P_EVC_OREQ` (R390). -/
def brmPEvcOreq (n : Nat) : Nat := 0xC1138 + 0x1000 * n
/-- `BRM_P_EVC_RXDROP` (R390). -/
def brmPEvcRxdrop (n : Nat) : Nat := 0xC113C + 0x1000 * n
/-- `BRM_P_EVC_MACPAUSE` (R390). -/
def brmPEvcMacpause (n : Nat) : Nat := 0xC1140 + 0x1000 * n
/-- `BRM_P_EVC_LINKDOWN` (R390). -/
def brmPEvcLinkdown (n : Nat) : Nat := 0xC1144 + 0x1000 * n
/-- `BRM_P_EVC_SAT` (R390). -/
def brmPEvcSat (n : Nat) : Nat := 0xC114C + 0x1000 * n
/-- `SEAM_ID` (R326). -/
def seamId (n : Nat) : Nat := 0x100000 + 0x1000 * n
/-- `SEAM_STATUS` (R326). -/
def seamStatus (n : Nat) : Nat := 0x100004 + 0x1000 * n
/-- `SEAM_CFG` (R326). -/
def seamCfg (n : Nat) : Nat := 0x100008 + 0x1000 * n
/-- `SEAM_LAT_PLAN` (R326). -/
def seamLatPlan (n : Nat) : Nat := 0x10000C + 0x1000 * n
/-- `SEAM_LAT_MEAS` (R326). -/
def seamLatMeas (n : Nat) : Nat := 0x100010 + 0x1000 * n
/-- `SEAM_ELASTIC` (R326). -/
def seamElastic (n : Nat) : Nat := 0x100014 + 0x1000 * n
/-- `SEAM_PEER` (R326). -/
def seamPeer (n : Nat) : Nat := 0x100018 + 0x1000 * n
/-- `SEAM_PEER_EXP` (R326). -/
def seamPeerExp (n : Nat) : Nat := 0x10001C + 0x1000 * n
/-- `SEAM_TXSEQ` (R326). -/
def seamTxseq (n : Nat) : Nat := 0x100020 + 0x1000 * n
/-- `SEAM_TXACK` (R326). -/
def seamTxack (n : Nat) : Nat := 0x100024 + 0x1000 * n
/-- `SEAM_RXSEQ` (R326). -/
def seamRxseq (n : Nat) : Nat := 0x100028 + 0x1000 * n
/-- `SEAM_LANE` (R326). -/
def seamLane (n : Nat) : Nat := 0x10002C + 0x1000 * n
/-- `SEAM_SYMERR_LO` (R326). -/
def seamSymerrLo (n : Nat) : Nat := 0x100040 + 0x1000 * n
/-- `SEAM_SYMERR_HI` (R326). -/
def seamSymerrHi (n : Nat) : Nat := 0x100044 + 0x1000 * n
/-- `SEAM_BUSY_LO` (R326). -/
def seamBusyLo (n : Nat) : Nat := 0x100100 + 0x1000 * n
/-- `SEAM_BUSY_HI` (R326). -/
def seamBusyHi (n : Nat) : Nat := 0x100104 + 0x1000 * n
/-- `SEAM_STALL_LO` (R326). -/
def seamStallLo (n : Nat) : Nat := 0x100108 + 0x1000 * n
/-- `SEAM_STALL_HI` (R326). -/
def seamStallHi (n : Nat) : Nat := 0x10010C + 0x1000 * n
/-- `SEAM_EVC_UNCORR` (R326). -/
def seamEvcUncorr (n : Nat) : Nat := 0x100110 + 0x1000 * n
/-- `SEAM_EVC_CRC` (R326). -/
def seamEvcCrc (n : Nat) : Nat := 0x100114 + 0x1000 * n
/-- `SEAM_EVC_RETRY` (R326). -/
def seamEvcRetry (n : Nat) : Nat := 0x100118 + 0x1000 * n
/-- `SEAM_EVC_TIMEOUT` (R326). -/
def seamEvcTimeout (n : Nat) : Nat := 0x10011C + 0x1000 * n
/-- `SEAM_EVC_DUP` (R326). -/
def seamEvcDup (n : Nat) : Nat := 0x100120 + 0x1000 * n
/-- `SEAM_EVC_LATE` (R326). -/
def seamEvcLate (n : Nat) : Nat := 0x100124 + 0x1000 * n
/-- `SEAM_EVC_LCRED` (R326). -/
def seamEvcLcred (n : Nat) : Nat := 0x100128 + 0x1000 * n
/-- `SEAM_EVC_FWDWAIT` (R326). -/
def seamEvcFwdwait (n : Nat) : Nat := 0x10012C + 0x1000 * n
/-- `SEAM_EVC_RBFULL` (R326). -/
def seamEvcRbfull (n : Nat) : Nat := 0x100130 + 0x1000 * n
/-- `SEAM_EVC_EMPTY` (R326). -/
def seamEvcEmpty (n : Nat) : Nat := 0x100134 + 0x1000 * n
/-- `SEAM_EVC_VIOL` (R326). -/
def seamEvcViol (n : Nat) : Nat := 0x100138 + 0x1000 * n
/-- `SEAM_EVC_RXDROP` (R326). -/
def seamEvcRxdrop (n : Nat) : Nat := 0x10013C + 0x1000 * n
/-- `SEAM_EVC_DRIFT` (R326). -/
def seamEvcDrift (n : Nat) : Nat := 0x100140 + 0x1000 * n
/-- `SEAM_EVC_LANEFAIL` (R326). -/
def seamEvcLanefail (n : Nat) : Nat := 0x100144 + 0x1000 * n
/-- `SEAM_EVC_SAT` (R326). -/
def seamEvcSat (n : Nat) : Nat := 0x10014C + 0x1000 * n
/-- `SEAM_DOM_DEV` (R328). -/
def seamDomDev : Nat := 0x100800
/-- `SEAM_DOM_CFG` (R328). -/
def seamDomCfg : Nat := 0x100804
/-- `SEAM_DOM_ROUTE_BASE_LO` (R328). -/
def seamDomRouteBaseLo : Nat := 0x100808
/-- `SEAM_DOM_ROUTE_BASE_HI` (R328). -/
def seamDomRouteBaseHi : Nat := 0x10080C
/-- `SEAM_DOM_MCAST_BASE_LO` (R328). -/
def seamDomMcastBaseLo : Nat := 0x100810
/-- `SEAM_DOM_MCAST_BASE_HI` (R328). -/
def seamDomMcastBaseHi : Nat := 0x100814
/-- `SEAM_DOM_RXWIN_BASE_LO` (R328). -/
def seamDomRxwinBaseLo : Nat := 0x100818
/-- `SEAM_DOM_RXWIN_BASE_HI` (R328). -/
def seamDomRxwinBaseHi : Nat := 0x10081C
/-- `SEAM_DOM_UP0` (R328). -/
def seamDomUp0 : Nat := 0x100820
/-- `SEAM_DOM_UP1` (R328). -/
def seamDomUp1 : Nat := 0x100824
/-- `SEAM_DOM_HALF0` (R328). -/
def seamDomHalf0 : Nat := 0x100828
/-- `SEAM_DOM_HALF1` (R328). -/
def seamDomHalf1 : Nat := 0x10082C
/-- `SEAM_DOM_RECAL` (R328). -/
def seamDomRecal : Nat := 0x100830
/-- `ME_ID` (R105). -/
def meId (n : Nat) : Nat := 0x200000 + 0x1000 * n
/-- `ME_STATUS` (R105). -/
def meStatus (n : Nat) : Nat := 0x200004 + 0x1000 * n
/-- `ME_CFG` (R105). -/
def meCfg (n : Nat) : Nat := 0x200008 + 0x1000 * n
/-- `ME_DTBL_BASE` (R105). -/
def meDtblBase (n : Nat) : Nat := 0x20000C + 0x1000 * n
/-- `ME_LAST_DRAIN` (R105). -/
def meLastDrain (n : Nat) : Nat := 0x200010 + 0x1000 * n
/-- `ME_LAST_DRAIN_TENSOR` (R105). -/
def meLastDrainTensor (n : Nat) : Nat := 0x200014 + 0x1000 * n
/-- `ME_LAST_DRAIN_CYC_LO` (R105). -/
def meLastDrainCycLo (n : Nat) : Nat := 0x200018 + 0x1000 * n
/-- `ME_LAST_DRAIN_CYC_HI` (R105). -/
def meLastDrainCycHi (n : Nat) : Nat := 0x20001C + 0x1000 * n
/-- `ME_HIST_CTRL` (R105). -/
def meHistCtrl (n : Nat) : Nat := 0x200020 + 0x1000 * n
/-- `ME_TACC_SEL` (R105). -/
def meTaccSel (n : Nat) : Nat := 0x200030 + 0x1000 * n
/-- `ME_TACC_A20` (R105). -/
def meTaccA20 (n : Nat) : Nat := 0x200034 + 0x1000 * n
/-- `ME_TACC_A34_LO` (R105). -/
def meTaccA34Lo (n : Nat) : Nat := 0x200038 + 0x1000 * n
/-- `ME_TACC_A34_HI` (R105). -/
def meTaccA34Hi (n : Nat) : Nat := 0x20003C + 0x1000 * n
/-- `ME_BUSY_LO` (R105). -/
def meBusyLo (n : Nat) : Nat := 0x200100 + 0x1000 * n
/-- `ME_BUSY_HI` (R105). -/
def meBusyHi (n : Nat) : Nat := 0x200104 + 0x1000 * n
/-- `ME_STALL_LO` (R105). -/
def meStallLo (n : Nat) : Nat := 0x200108 + 0x1000 * n
/-- `ME_STALL_HI` (R105). -/
def meStallHi (n : Nat) : Nat := 0x20010C + 0x1000 * n
/-- `ME_EVC_OVF` (R105). -/
def meEvcOvf (n : Nat) : Nat := 0x200110 + 0x1000 * n
/-- `ME_EVC_UNF` (R105). -/
def meEvcUnf (n : Nat) : Nat := 0x200114 + 0x1000 * n
/-- `ME_EVC_NONFIN` (R105). -/
def meEvcNonfin (n : Nat) : Nat := 0x200118 + 0x1000 * n
/-- `ME_EVC_A20OVF` (R105). -/
def meEvcA20ovf (n : Nat) : Nat := 0x20011C + 0x1000 * n
/-- `ME_EVC_BOUND` (R105). -/
def meEvcBound (n : Nat) : Nat := 0x200120 + 0x1000 * n
/-- `ME_EVC_EMPTY` (R105). -/
def meEvcEmpty (n : Nat) : Nat := 0x200124 + 0x1000 * n
/-- `ME_EVC_HOLD` (R105). -/
def meEvcHold (n : Nat) : Nat := 0x200128 + 0x1000 * n
/-- `ME_EVC_DISCARD` (R105). -/
def meEvcDiscard (n : Nat) : Nat := 0x20012C + 0x1000 * n
/-- `ME_EVC_VIOL` (R105). -/
def meEvcViol (n : Nat) : Nat := 0x200130 + 0x1000 * n
/-- `ME_EVC_PORTWAIT` (R105). -/
def meEvcPortwait (n : Nat) : Nat := 0x200134 + 0x1000 * n
/-- `ME_EVC_SAT` (R105). -/
def meEvcSat (n : Nat) : Nat := 0x20013C + 0x1000 * n
/-- `ME_HIST0_BIN` (R105). -/
def meHist0Bin (n : Nat) (k : Nat) : Nat := 0x200400 + 0x1000 * n + 4 * k
/-- `ME_HIST1_BIN` (R105). -/
def meHist1Bin (n : Nat) (k : Nat) : Nat := 0x200600 + 0x1000 * n + 4 * k
/-- `CUF_ID` (R191). -/
def cufId (n : Nat) : Nat := 0x300000 + 0x2000 * n
/-- `CUF_STATUS` (R191). -/
def cufStatus (n : Nat) : Nat := 0x300004 + 0x2000 * n
/-- `CUF_CFG` (R191). -/
def cufCfg (n : Nat) : Nat := 0x300008 + 0x2000 * n
/-- `CUF_STALL_LIMIT` (R191). -/
def cufStallLimit (n : Nat) : Nat := 0x30000C + 0x2000 * n
/-- `CUF_GTBL_BASE_LO` (R191). -/
def cufGtblBaseLo (n : Nat) : Nat := 0x300010 + 0x2000 * n
/-- `CUF_GTBL_BASE_HI` (R191). -/
def cufGtblBaseHi (n : Nat) : Nat := 0x300014 + 0x2000 * n
/-- `CUF_SPROG_BASE_LO` (R191). -/
def cufSprogBaseLo (n : Nat) : Nat := 0x300018 + 0x2000 * n
/-- `CUF_SPROG_BASE_HI` (R191). -/
def cufSprogBaseHi (n : Nat) : Nat := 0x30001C + 0x2000 * n
/-- `CUF_PLAN_BASE_LO` (R191). -/
def cufPlanBaseLo (n : Nat) : Nat := 0x300020 + 0x2000 * n
/-- `CUF_PLAN_BASE_HI` (R191). -/
def cufPlanBaseHi (n : Nat) : Nat := 0x300024 + 0x2000 * n
/-- `CUF_EPOCH` (R191). -/
def cufEpoch (n : Nat) : Nat := 0x300028 + 0x2000 * n
/-- `CUF_STEP` (R191). -/
def cufStep (n : Nat) : Nat := 0x30002C + 0x2000 * n
/-- `CUF_SLOT_SEL` (R191). -/
def cufSlotSel (n : Nat) : Nat := 0x300030 + 0x2000 * n
/-- `CUF_SLOT_STATE` (R191). -/
def cufSlotState (n : Nat) : Nat := 0x300034 + 0x2000 * n
/-- `CUF_BUSY_LO` (R191). -/
def cufBusyLo (n : Nat) : Nat := 0x300100 + 0x2000 * n
/-- `CUF_BUSY_HI` (R191). -/
def cufBusyHi (n : Nat) : Nat := 0x300104 + 0x2000 * n
/-- `CUF_STALL_LO` (R191). -/
def cufStallLo (n : Nat) : Nat := 0x300108 + 0x2000 * n
/-- `CUF_STALL_HI` (R191). -/
def cufStallHi (n : Nat) : Nat := 0x30010C + 0x2000 * n
/-- `CUF_EVC_WFULL` (R191). -/
def cufEvcWfull (n : Nat) : Nat := 0x300110 + 0x2000 * n
/-- `CUF_EVC_RELAX` (R191). -/
def cufEvcRelax (n : Nat) : Nat := 0x300114 + 0x2000 * n
/-- `CUF_EVC_ABSTAIN` (R191). -/
def cufEvcAbstain (n : Nat) : Nat := 0x300118 + 0x2000 * n
/-- `CUF_EVC_SKIP` (R191). -/
def cufEvcSkip (n : Nat) : Nat := 0x30011C + 0x2000 * n
/-- `CUF_EVC_NONFIN` (R191). -/
def cufEvcNonfin (n : Nat) : Nat := 0x300120 + 0x2000 * n
/-- `CUF_EVC_BOUND` (R191). -/
def cufEvcBound (n : Nat) : Nat := 0x300124 + 0x2000 * n
/-- `CUF_EVC_EARLY` (R191). -/
def cufEvcEarly (n : Nat) : Nat := 0x300128 + 0x2000 * n
/-- `CUF_EVC_EPOCHHOLD` (R191). -/
def cufEvcEpochhold (n : Nat) : Nat := 0x30012C + 0x2000 * n
/-- `CUF_EVC_DUP` (R191). -/
def cufEvcDup (n : Nat) : Nat := 0x300130 + 0x2000 * n
/-- `CUF_EVC_VIOL` (R191). -/
def cufEvcViol (n : Nat) : Nat := 0x300134 + 0x2000 * n
/-- `CUF_EVC_ROLLFWD` (R191). -/
def cufEvcRollfwd (n : Nat) : Nat := 0x300138 + 0x2000 * n
/-- `CUF_EVC_TORN` (R191). -/
def cufEvcTorn (n : Nat) : Nat := 0x30013C + 0x2000 * n
/-- `CUF_EVC_ANCHOR` (R191). -/
def cufEvcAnchor (n : Nat) : Nat := 0x300140 + 0x2000 * n
/-- `CUF_EVC_LOST` (R191). -/
def cufEvcLost (n : Nat) : Nat := 0x300144 + 0x2000 * n
/-- `CUF_EVC_DISCARD` (R191). -/
def cufEvcDiscard (n : Nat) : Nat := 0x300148 + 0x2000 * n
/-- `CUF_EVC_WAIT` (R191). -/
def cufEvcWait (n : Nat) : Nat := 0x30014C + 0x2000 * n
/-- `CUF_EVC_CONV` (R191). -/
def cufEvcConv (n : Nat) : Nat := 0x300150 + 0x2000 * n
/-- `CUF_EVC_SAT` (R191). -/
def cufEvcSat (n : Nat) : Nat := 0x30015C + 0x2000 * n
/-- `LNR_ID` (R150). -/
def lnrId : Nat := 0x340000
/-- `LNR_STATUS` (R150). -/
def lnrStatus : Nat := 0x340004
/-- `LNR_DIR_USED` (R150). -/
def lnrDirUsed : Nat := 0x340008
/-- `LNR_BUSY_LO` (R150). -/
def lnrBusyLo : Nat := 0x340100
/-- `LNR_BUSY_HI` (R150). -/
def lnrBusyHi : Nat := 0x340104
/-- `LNR_STALL_LO` (R150). -/
def lnrStallLo : Nat := 0x340108
/-- `LNR_STALL_HI` (R150). -/
def lnrStallHi : Nat := 0x34010C
/-- `LNR_EVC_FULL` (R150). -/
def lnrEvcFull : Nat := 0x340110
/-- `LNR_EVC_SKIP` (R150). -/
def lnrEvcSkip : Nat := 0x340114
/-- `LNR_EVC_RBLK` (R150). -/
def lnrEvcRblk : Nat := 0x340118
/-- `LNR_EVC_NONFIN` (R150). -/
def lnrEvcNonfin : Nat := 0x34011C
/-- `LNR_EVC_EMPTY` (R150). -/
def lnrEvcEmpty : Nat := 0x340120
/-- `LNR_EVC_HOLD` (R150). -/
def lnrEvcHold : Nat := 0x340124
/-- `LNR_EVC_VIOL` (R150). -/
def lnrEvcViol : Nat := 0x340128
/-- `LNR_EVC_PORTWAIT` (R150). -/
def lnrEvcPortwait : Nat := 0x34012C
/-- `LNR_EVC_SAT` (R150). -/
def lnrEvcSat : Nat := 0x34013C
/-- `LNR_S_BASE_LO` (R150). -/
def lnrSBaseLo (k : Nat) : Nat := 0x340200 + 0x80 * k
/-- `LNR_S_BASE_HI` (R150). -/
def lnrSBaseHi (k : Nat) : Nat := 0x340204 + 0x80 * k
/-- `LNR_S_LIMIT_LO` (R150). -/
def lnrSLimitLo (k : Nat) : Nat := 0x340208 + 0x80 * k
/-- `LNR_S_LIMIT_HI` (R150). -/
def lnrSLimitHi (k : Nat) : Nat := 0x34020C + 0x80 * k
/-- `LNR_S_CKPT_BASE_LO` (R150). -/
def lnrSCkptBaseLo (k : Nat) : Nat := 0x340210 + 0x80 * k
/-- `LNR_S_CKPT_BASE_HI` (R150). -/
def lnrSCkptBaseHi (k : Nat) : Nat := 0x340214 + 0x80 * k
/-- `LNR_S_CKPT_TILE` (R150). -/
def lnrSCkptTile (k : Nat) : Nat := 0x340218 + 0x80 * k
/-- `LNR_S_CKPT_TILES` (R150). -/
def lnrSCkptTiles (k : Nat) : Nat := 0x34021C + 0x80 * k
/-- `LNR_S_SCR_BASE_LO` (R150). -/
def lnrSScrBaseLo (k : Nat) : Nat := 0x340220 + 0x80 * k
/-- `LNR_S_SCR_BASE_HI` (R150). -/
def lnrSScrBaseHi (k : Nat) : Nat := 0x340224 + 0x80 * k
/-- `LNR_S_SCR_SIZE` (R150). -/
def lnrSScrSize (k : Nat) : Nat := 0x340228 + 0x80 * k
/-- `LNR_S_CTRL` (R151). -/
def lnrSCtrl (k : Nat) : Nat := 0x34022C + 0x80 * k
/-- `LNR_S_DIR` (R151). -/
def lnrSDir (k : Nat) : Nat := 0x340230 + 0x80 * k
/-- `LNR_S_HEAD_LO` (R150). -/
def lnrSHeadLo (k : Nat) : Nat := 0x340238 + 0x80 * k
/-- `LNR_S_HEAD_HI` (R150). -/
def lnrSHeadHi (k : Nat) : Nat := 0x34023C + 0x80 * k
/-- `LNR_S_HWM_LO` (R150). -/
def lnrSHwmLo (k : Nat) : Nat := 0x340240 + 0x80 * k
/-- `LNR_S_HWM_HI` (R150). -/
def lnrSHwmHi (k : Nat) : Nat := 0x340244 + 0x80 * k
/-- `LNR_S_FULL` (R151). -/
def lnrSFull (k : Nat) : Nat := 0x340248 + 0x80 * k
/-- `LNR_S_RECOMP0` (R150). -/
def lnrSRecomp0 (k : Nat) : Nat := 0x340260 + 0x80 * k
/-- `LNR_S_RECOMP1` (R150). -/
def lnrSRecomp1 (k : Nat) : Nat := 0x340264 + 0x80 * k
/-- `LNR_S_RECOMP2` (R150). -/
def lnrSRecomp2 (k : Nat) : Nat := 0x340268 + 0x80 * k
/-- `LNR_S_RECOMP3` (R150). -/
def lnrSRecomp3 (k : Nat) : Nat := 0x34026C + 0x80 * k
/-- `LNR_S_RECOMP4` (R150). -/
def lnrSRecomp4 (k : Nat) : Nat := 0x340270 + 0x80 * k
/-- `LNR_S_RECOMP5` (R150). -/
def lnrSRecomp5 (k : Nat) : Nat := 0x340274 + 0x80 * k
/-- `LNR_S_RECOMP6` (R150). -/
def lnrSRecomp6 (k : Nat) : Nat := 0x340278 + 0x80 * k
/-- `LNR_S_RECOMP7` (R150). -/
def lnrSRecomp7 (k : Nat) : Nat := 0x34027C + 0x80 * k
/-- `VSR_ID` (R515). -/
def vsrId : Nat := 0x360000
/-- `VSR_STATUS` (R515). -/
def vsrStatus : Nat := 0x360004
/-- `VSR_CFG` (R515). -/
def vsrCfg : Nat := 0x360008
/-- `VSR_NOISE_N` (R515). -/
def vsrNoiseN : Nat := 0x36000C
/-- `VSR_NOISE_T` (R515). -/
def vsrNoiseT : Nat := 0x360010
/-- `VSR_NOISE_STEP` (R515). -/
def vsrNoiseStep : Nat := 0x360014
/-- `VSR_NOISE_S` (R515). -/
def vsrNoiseS : Nat := 0x360018
/-- `VSR_NOISE_Q` (R515). -/
def vsrNoiseQ : Nat := 0x36001C
/-- `VSR_SEG_BASE_LO` (R515). -/
def vsrSegBaseLo : Nat := 0x360020
/-- `VSR_SEG_BASE_HI` (R515). -/
def vsrSegBaseHi : Nat := 0x360024
/-- `VSR_HTBL_BASE_LO` (R515). -/
def vsrHtblBaseLo : Nat := 0x360028
/-- `VSR_HTBL_BASE_HI` (R515). -/
def vsrHtblBaseHi : Nat := 0x36002C
/-- `VSR_HAREA_BASE_LO` (R515). -/
def vsrHareaBaseLo : Nat := 0x360030
/-- `VSR_HAREA_BASE_HI` (R515). -/
def vsrHareaBaseHi : Nat := 0x360034
/-- `VSR_RING_BASE_LO` (R515). -/
def vsrRingBaseLo : Nat := 0x360038
/-- `VSR_RING_BASE_HI` (R515). -/
def vsrRingBaseHi : Nat := 0x36003C
/-- `VSR_DLOG_SIZE` (R515). -/
def vsrDlogSize : Nat := 0x360040
/-- `VSR_TLOG_SIZE` (R515). -/
def vsrTlogSize : Nat := 0x360044
/-- `VSR_TREC_LEN` (R515). -/
def vsrTrecLen : Nat := 0x360048
/-- `VSR_TPERIOD` (R515). -/
def vsrTperiod : Nat := 0x36004C
/-- `VSR_DLOG_HEAD_LO` (R515). -/
def vsrDlogHeadLo : Nat := 0x360050
/-- `VSR_DLOG_HEAD_HI` (R515). -/
def vsrDlogHeadHi : Nat := 0x360054
/-- `VSR_DLOG_WRAPS` (R515). -/
def vsrDlogWraps : Nat := 0x360058
/-- `VSR_TLOG_HEAD_LO` (R515). -/
def vsrTlogHeadLo : Nat := 0x360060
/-- `VSR_TLOG_HEAD_HI` (R515). -/
def vsrTlogHeadHi : Nat := 0x360064
/-- `VSR_TLOG_WRAPS` (R515). -/
def vsrTlogWraps : Nat := 0x360068
/-- `VSR_DLOG_POST` (R515). -/
def vsrDlogPost : Nat := 0x360070
/-- `VSR_EVC_HMIX` (R515). -/
def vsrEvcHmix : Nat := 0x360110
/-- `VSR_EVC_HLATE` (R515). -/
def vsrEvcHlate : Nat := 0x360114
/-- `VSR_EVC_VIOL` (R515). -/
def vsrEvcViol : Nat := 0x360118
/-- `VSR_EVC_SAT` (R515). -/
def vsrEvcSat : Nat := 0x36013C
/-- `VSR_DLOG_ENTRY` (R515). -/
def vsrDlogEntry (k : Nat) : Nat := 0x360200 + 4 * k
/-- `SEQ_ID` (R269). -/
def seqId : Nat := 0x380000
/-- `SEQ_STATUS` (R269). -/
def seqStatus : Nat := 0x380004
/-- `SEQ_CFG` (R269). -/
def seqCfg : Nat := 0x380008
/-- `SEQ_MODE` (R269). -/
def seqMode : Nat := 0x38000C
/-- `SEQ_MODE_NEXT` (R269). -/
def seqModeNext : Nat := 0x380010
/-- `SEQ_STEP` (R269). -/
def seqStep : Nat := 0x380014
/-- `SEQ_EPOCH` (R269). -/
def seqEpoch : Nat := 0x380018
/-- `SEQ_EPOCH_START_LO` (R269). -/
def seqEpochStartLo : Nat := 0x380020
/-- `SEQ_EPOCH_START_HI` (R269). -/
def seqEpochStartHi : Nat := 0x380024
/-- `SEQ_PERIOD` (R269). -/
def seqPeriod : Nat := 0x380028
/-- `SEQ_MB_COUNT` (R269). -/
def seqMbCount : Nat := 0x38002C
/-- `SEQ_LAG_LIMIT` (R269). -/
def seqLagLimit : Nat := 0x380030
/-- `SEQ_MAXLAG` (R269). -/
def seqMaxlag : Nat := 0x380034
/-- `SEQ_LASTLAG` (R269). -/
def seqLastlag : Nat := 0x380038
/-- `SEQ_STAGE_BASE_LO` (R269). -/
def seqStageBaseLo : Nat := 0x380040
/-- `SEQ_STAGE_BASE_HI` (R269). -/
def seqStageBaseHi : Nat := 0x380044
/-- `SEQ_BG_DL1` (R269). -/
def seqBgDl1 : Nat := 0x380050
/-- `SEQ_BG_DL2` (R269). -/
def seqBgDl2 : Nat := 0x380054
/-- `SEQ_BG_DL3` (R269). -/
def seqBgDl3 : Nat := 0x380058
/-- `SEQ_MEM` (R269). -/
def seqMem : Nat := 0x38005C
/-- `SEQ_BUSY_LO` (R269). -/
def seqBusyLo : Nat := 0x380100
/-- `SEQ_BUSY_HI` (R269). -/
def seqBusyHi : Nat := 0x380104
/-- `SEQ_STALL_LO` (R269). -/
def seqStallLo : Nat := 0x380108
/-- `SEQ_STALL_HI` (R269). -/
def seqStallHi : Nat := 0x38010C
/-- `SEQ_EVC_CUE` (R269). -/
def seqEvcCue : Nat := 0x380110
/-- `SEQ_EVC_QLATE` (R269). -/
def seqEvcQlate : Nat := 0x380114
/-- `SEQ_EVC_CREDIT` (R269). -/
def seqEvcCredit : Nat := 0x380118
/-- `SEQ_EVC_UNITFULL` (R269). -/
def seqEvcUnitfull : Nat := 0x38011C
/-- `SEQ_EVC_WAKE` (R269). -/
def seqEvcWake : Nat := 0x380120
/-- `SEQ_EVC_FETCH` (R269). -/
def seqEvcFetch : Nat := 0x380124
/-- `SEQ_EVC_RECOMP` (R269). -/
def seqEvcRecomp : Nat := 0x380128
/-- `SEQ_EVC_FORCED` (R269). -/
def seqEvcForced : Nat := 0x38012C
/-- `SEQ_EVC_BGWAIT` (R269). -/
def seqEvcBgwait : Nat := 0x380130
/-- `SEQ_EVC_REFWAIT` (R269). -/
def seqEvcRefwait : Nat := 0x380134
/-- `SEQ_EVC_NOGATE` (R269). -/
def seqEvcNogate : Nat := 0x380138
/-- `SEQ_EVC_EMPTY` (R269). -/
def seqEvcEmpty : Nat := 0x38013C
/-- `SEQ_EVC_VIOL` (R269). -/
def seqEvcViol : Nat := 0x380140
/-- `SEQ_EVC_SAT` (R269). -/
def seqEvcSat : Nat := 0x38014C
/-- `SEQ_S_CFG` (R269). -/
def seqSCfg (k : Nat) : Nat := 0x380200 + 0x20 * k
/-- `SEQ_S_BASE_LO` (R269). -/
def seqSBaseLo (k : Nat) : Nat := 0x380204 + 0x20 * k
/-- `SEQ_S_BASE_HI` (R269). -/
def seqSBaseHi (k : Nat) : Nat := 0x380208 + 0x20 * k
/-- `SEQ_S_LEN` (R269). -/
def seqSLen (k : Nat) : Nat := 0x38020C + 0x20 * k
/-- `SEQ_S_HEAD` (R269). -/
def seqSHead (k : Nat) : Nat := 0x380210 + 0x20 * k
/-- `SEQ_S_TAIL` (R269). -/
def seqSTail (k : Nat) : Nat := 0x380214 + 0x20 * k
/-- `SEQ_S_LAG` (R269). -/
def seqSLag (k : Nat) : Nat := 0x380218 + 0x20 * k
/-- `SEQ_S_STATUS` (R269). -/
def seqSStatus (k : Nat) : Nat := 0x38021C + 0x20 * k
/-- `SEQ_CUE` (R269). -/
def seqCue (k : Nat) : Nat := 0x380800 + 4 * k
/-- `SEQ_CUE_HW` (R269). -/
def seqCueHw (k : Nat) : Nat := 0x380B80 + 4 * k
/-- `SEQ_Q_CFG` (R269). -/
def seqQCfg (k : Nat) : Nat := 0x380C00 + 0x10 * k
/-- `SEQ_Q_CRED` (R269). -/
def seqQCred (k : Nat) : Nat := 0x380C04 + 0x10 * k
/-- `SEQ_Q_ARR` (R269). -/
def seqQArr (k : Nat) : Nat := 0x380C08 + 0x10 * k
/-- `SEQ_Q_CONS` (R269). -/
def seqQCons (k : Nat) : Nat := 0x380C0C + 0x10 * k
/-- `ROW_ID` (R148). -/
def rowId (n : Nat) : Nat := 0x3A0000 + 0x1000 * n
/-- `ROW_STATUS` (R148). -/
def rowStatus (n : Nat) : Nat := 0x3A0004 + 0x1000 * n
/-- `ROW_DTBL_BASE` (R148). -/
def rowDtblBase (n : Nat) : Nat := 0x3A000C + 0x1000 * n
/-- `ROW_CTBL_BASE` (R148). -/
def rowCtblBase (n : Nat) : Nat := 0x3A0010 + 0x1000 * n
/-- `ROW_TBL_VALID` (R148). -/
def rowTblValid (n : Nat) : Nat := 0x3A0014 + 0x1000 * n
/-- `ROW_BUSY_LO` (R148). -/
def rowBusyLo (n : Nat) : Nat := 0x3A0100 + 0x1000 * n
/-- `ROW_BUSY_HI` (R148). -/
def rowBusyHi (n : Nat) : Nat := 0x3A0104 + 0x1000 * n
/-- `ROW_STALL_LO` (R148). -/
def rowStallLo (n : Nat) : Nat := 0x3A0108 + 0x1000 * n
/-- `ROW_STALL_HI` (R148). -/
def rowStallHi (n : Nat) : Nat := 0x3A010C + 0x1000 * n
/-- `ROW_EVC_OVF` (R148). -/
def rowEvcOvf (n : Nat) : Nat := 0x3A0110 + 0x1000 * n
/-- `ROW_EVC_UNF` (R148). -/
def rowEvcUnf (n : Nat) : Nat := 0x3A0114 + 0x1000 * n
/-- `ROW_EVC_NONFIN` (R148). -/
def rowEvcNonfin (n : Nat) : Nat := 0x3A0118 + 0x1000 * n
/-- `ROW_EVC_RBLK` (R148). -/
def rowEvcRblk (n : Nat) : Nat := 0x3A011C + 0x1000 * n
/-- `ROW_EVC_EMPTY` (R148). -/
def rowEvcEmpty (n : Nat) : Nat := 0x3A0120 + 0x1000 * n
/-- `ROW_EVC_HOLD` (R148). -/
def rowEvcHold (n : Nat) : Nat := 0x3A0124 + 0x1000 * n
/-- `ROW_EVC_VIOL` (R148). -/
def rowEvcViol (n : Nat) : Nat := 0x3A0128 + 0x1000 * n
/-- `ROW_EVC_PORTWAIT` (R148). -/
def rowEvcPortwait (n : Nat) : Nat := 0x3A012C + 0x1000 * n
/-- `ROW_EVC_SAT` (R148). -/
def rowEvcSat (n : Nat) : Nat := 0x3A013C + 0x1000 * n
/-- `TPX_STATUS` (R516). -/
def tpxStatus : Nat := 0x3C0000
/-- `TPX_SD` (R516). -/
def tpxSd (k : Nat) : Nat := 0x3C0010 + 4 * k
/-- `TPX_CD` (R516). -/
def tpxCd (k : Nat) : Nat := 0x3C0020 + 4 * k
/-- `TPX_ST_CFG` (R516). -/
def tpxStCfg : Nat := 0x3C0030
/-- `TPX_ST_CMD` (R516). -/
def tpxStCmd : Nat := 0x3C0034
/-- `TPX_EVC_SEAMDLY` (R516). -/
def tpxEvcSeamdly : Nat := 0x3C0110
/-- `TPX_EVC_CDENY` (R516). -/
def tpxEvcCdeny : Nat := 0x3C0114
/-- `TPX_EVC_STRETCH` (R516). -/
def tpxEvcStretch : Nat := 0x3C0118
/-- `TPX_EVC_VIOL` (R516). -/
def tpxEvcViol : Nat := 0x3C011C
/-- `TPX_EVC_SAT` (R516). -/
def tpxEvcSat : Nat := 0x3C013C

end Sys2Proof.Machine.Reg
end

