-- ==== Sys2Proof/Config.lean ====
section
/-! DEFINITION. What one unit fixes and the manual does not, and the free values. Every constant here is opaque:
nothing in Lean can evaluate it, so a statement holds for every value of it. -/

namespace Sys2Proof.Config

/-- Free values (log 2): the value taken at count `n` of `State.free`. -/
opaque freeNat : Nat → Nat

/-- The fused device serial (R401), the unit's own (log 6). -/
opaque serial : BitVec 64

/-- `AON_ROMVER` (R478): published with each ROM release, not fixed by the manual (log 6). -/
opaque romVersion : BitVec 32

/-- The raw fused sensitivity of regulation domain `d` (R461, log 6). -/
opaque sigmaRaw : Nat → Nat

/-- DIK_PUB, SEAL_PUB and CERT as 32-bit words (R417, R423), the unit's own (log 6). -/
opaque dikPubWord : Nat → BitVec 32
opaque sealPubWord : Nat → BitVec 32
opaque certWord : Nat → BitVec 32

/-- The REVOKE and ARB fuses as blown at Jorsil's test (R401), the unit's own (log 6). -/
opaque revokeFuse : BitVec 4
opaque arbFuse : Nat

/-- SHAKE256 of a byte string with an output length in bytes (R402; FIPS 202, not restated by the manual; log 8). -/
opaque shake256 : List Byte → Nat → List Byte

/-- Ed448 verification of (public key, context, digest, signature) (R414, log 8). -/
opaque ed448Verify : List Byte → String → List Byte → List Byte → Bool

/-- Ed448 signature by a private key over (context, digest): 114 bytes (R405, R418, log 8). -/
opaque ed448Sign : List Byte → String → List Byte → List Byte

/-- X448 of a private and a public key: 56 bytes (R407, log 8). -/
opaque x448 : List Byte → List Byte → List Byte

/-- AES-256-GCM: key, nonce, additional data, plaintext to ciphertext and tag (R395, R397, log 8). -/
opaque gcmSeal : List Byte → List Byte → List Byte → List Byte → List Byte × List Byte

/-- The plaintext of an AES-256-GCM ciphertext (R397, log 8). -/
opaque gcmOpen : List Byte → List Byte → List Byte → List Byte → List Byte

/-- AES-256-XTS of a data unit under (key, tweak) and its inverse (R218, log 8). -/
opaque xtsEncrypt : List Byte → Nat → List Byte → List Byte
opaque xtsDecrypt : List Byte → Nat → List Byte → List Byte

/-! What a job image's BLOB holds, whose bytes have no form in the manual (R436 item 6, R445, R446; log 9): functions of the
image's digest, which stands for its bytes, and of a BLOB offset or a layout, and of a position of the layout. -/

/-- Stream programs at a BLOB offset, by stream (R227, R446). -/
opaque streamPrograms : List Byte → Nat → Nat → List (Nat × List (BitVec 256))

/-- Command `i` of the template at an HBM address (R235): digest, layout, position, address, index. -/
opaque templateCmd : List Byte → Nat → Nat → Nat → Nat → BitVec 256

/-- The 128 bytes of a stage descriptor (R236). -/
opaque stageDescriptor : List Byte → Nat → Nat → Nat → List Byte

/-- Slice entries of the slot programs at a BLOB offset, with their partitions (R153). -/
opaque slotEntries : List Byte → Nat → Nat → List (Nat × Nat)

/-- The runs of a plan at a BLOB offset for one micro-batch (R154, R276): position, partition, plan. -/
opaque planRuns : List Byte → Nat → Nat → Nat → Nat → List Nat

/-- ME busy cycles of an engine in each window of 65,536 cc (R19). -/
opaque engineBusy : List Byte → Nat → Nat → List Nat

/-- Format codes that the schedule names as array operands, and anywhere (R27, R43). -/
opaque operandFormats : List Byte → Nat → Nat → List Nat
opaque namedFormats : List Byte → Nat → Nat → List Nat

/-- At each planned gating of an engine: open tiles, shadow rows and commands in flight (R102). -/
opaque plannedGates : List Byte → Nat → Nat → List (Nat × Nat × Nat)

/-- Planned wakes: level and planned cycle (R252). -/
opaque plannedWakes : List Byte → Nat → Nat → List (Nat × Nat)

/-- DEST of each drain of a product marked as a weight-gradient product (R112). -/
opaque gradientDrains : List Byte → Nat → Nat → List Nat

/-- Each stage's region: BASE, LIMIT, checkpoint base, tile and tiles, scratch base and size, directory base, EPM, planned
size of a micro-batch and its scratch (R137, R138), and the bytes of its checkpoint area. -/
opaque stageRegions : List Byte → Nat → Nat → List (List Nat)
opaque checkpointRoom : List Byte → Nat → Nat → List Nat

/-- Address ranges that a position uses beside its records (R155, R295). -/
opaque usedAreas : List Byte → Nat → Nat → List (Nat × Nat)

/-- The gather area and what the stages read of it in one step (R278), in bytes. -/
opaque gatherArea : List Byte → Nat → Nat → Nat × Nat

/-- The parts of the sum of R282, in bytes. -/
opaque memoryParts : List Byte → Nat → Nat → List Nat

/-- CLAT of each link that the native-order schedule uses (R309). -/
opaque openLinks : List Byte → Nat → Nat → List Nat

/-- Planned transfers of a layout: bytes, window in cc, links (R281). -/
opaque plannedTransfers : List Byte → Nat → List (Nat × Nat × Nat)

/-- Routes of a layout as the devices they pass, each with the link it leaves on (R317), and the links that the layout holds
in service. -/
opaque routePaths : List Byte → Nat → List (List (Nat × Nat))
opaque linksInService : List Byte → Nat → List (Nat × Nat)

/-- Multicast groups of a layout: the devices each reaches, with their hops (R320). -/
opaque multicastReach : List Byte → Nat → List (List (Nat × Nat))

/-- The record map of a layout from the image's digest, which stands for its bytes, and the map's offset in its BLOB: per
slice TENSOR, FIRST, site shard, position of the owner and HBM address of its record. The manual names the map (R446) and gives no form of it (log 9). -/
opaque recordMap : List Byte → Nat → List (Nat × Nat × Nat × Nat × Nat)

/-- The learning rate of a group for a step (R172), from the image's schedules, whose form the manual does not give: image
digest, group, step (log 9). -/
opaque learnRate : List Byte → Nat → Nat → BitVec 32

/-- GS of a group for a step and a micro-batch count (R172), which scales the sum to the mean over the step's batch; the
manual gives no formula (log 9). -/
opaque gradScale : List Byte → Nat → Nat → Nat → BitVec 32

/-- The slices of the slow tier whose working copies the routine of a START reads, by ENTRY, ARG and step (R203): what a
routine does between its commands is software (log 98). -/
opaque routineReads : Nat → Nat → Nat → List Nat

/-- The device at the far end of a link of another device: the domain's wiring (R293, log 37). -/
opaque seamPeer : Nat → Nat → Nat

/-- Bytes read from another device's HBM: device, address, length, count (R187, R295, log 37). -/
opaque remoteHbm : Nat → Nat → Nat → Nat → List Byte

/-- Random bytes of the ID block's generator (R405), the `n`-th draw (log 8). -/
opaque randomBytes : Nat → Nat → List Byte

/-- A function table of a KIND or POWER that R129 to R131 do not define: its result for an FP32 code (log 10). -/
opaque tableOther : Nat → BitVec 32 → BitVec 32

/-- Refresh commands of a window at a frequency step (R254): the stacks' refresh rate is not in the manual (log 2). -/
opaque refreshCount : Nat → Nat

/-- A fresh reading of a slack monitor: the part's own silicon (R462, log 2); the draw and the monitor, in units of
0.25 ps from -32,768. -/
opaque slackReading : Nat → Nat → BitVec 16

/-- DUS, the device-unique secret (R401), and the digests ROOTD0 to ROOTD3 of Jorsil's keys (log 6). -/
opaque dus : List Byte
opaque rootDigest : Nat → List Byte

/-- The X448 and Ed448 public keys of a private key (R402, log 8). -/
opaque x448Public : List Byte → List Byte
opaque ed448Public : List Byte → List Byte

end Sys2Proof.Config
end

