-- ==== Sys2Proof/Machine/RegMap.lean ====
section
/-! DEFINITION. The registers of the control window: every row of the chapters' register and field tables, with its
block, offset, reset value (R6) and field access codes (R7), and the place of each block in the window (R520). A bit
that no field range names is RWT and reads 0 after reset (R533). -/

namespace Sys2Proof.Machine

/-- Field access codes (R7). -/
inductive Access where
  | ro | rw | w1c | wo | rwt
  deriving DecidableEq, Repr

/-- A field `[hi:lo]` with its access code. -/
structure RegField where
  hi : Nat
  lo : Nat
  acc : Access
  deriving DecidableEq, Repr

/-- One row of a register table: `count` registers `stride` bytes apart from `off`; `reset` is given the block
instance and the register's index in the row. -/
structure RegRow where
  name : String
  off : Nat
  count : Nat
  stride : Nat
  reset : Nat → Nat → Word
  fields : List RegField

/-- The kinds of block instance (R520): a row of the window's table, or an engine, link, partition, row unit,
association area or port area within one. -/
inductive Block where
  | aon | gnt | ident | cph | cphA | hpt | hptP | slt | brm | brmP | seam | me | cuf | lnr | vsr | seq | row | tpx
  deriving DecidableEq, Repr

/-- `VSR_TREC_LEN`: the bytes of a telemetry record by R506 (64-byte header, 2440 32-bit event counters, 238 SAT
registers, 455 64-bit busy, stall and byte counters). DEDUCED (log 7). -/
def telemetryRecordLength : Word := 14416

/-- The registers of AON (R478). -/
def aonRows0 : List RegRow := [
  ⟨"AON_ID", 0x0, 1, 0x4, fun _ _ => 0x200, [⟨11, 0, .ro⟩, ⟨31, 12, .rwt⟩]⟩,
  ⟨"AON_STATE", 0x4, 1, 0x4, fun _ _ => 0x20, [⟨2, 0, .ro⟩, ⟨3, 3, .rwt⟩, ⟨7, 4, .ro⟩, ⟨31, 8, .rwt⟩]⟩,
  ⟨"AON_BOOT", 0x8, 1, 0x4, fun _ _ => 0x0, [⟨3, 0, .ro⟩, ⟨7, 4, .ro⟩, ⟨10, 8, .ro⟩, ⟨11, 11, .ro⟩, ⟨12, 12, .ro⟩, ⟨14, 13, .ro⟩, ⟨31, 15, .rwt⟩]⟩,
  ⟨"AON_RESET_CAUSE", 0xC, 1, 0x4, fun _ _ => 0x1, [⟨0, 0, .ro⟩, ⟨1, 1, .ro⟩, ⟨2, 2, .ro⟩, ⟨3, 3, .ro⟩, ⟨4, 4, .ro⟩, ⟨5, 5, .ro⟩, ⟨7, 6, .rwt⟩, ⟨11, 8, .ro⟩, ⟨13, 12, .ro⟩, ⟨31, 14, .rwt⟩]⟩,
  ⟨"AON_RESET_CTRL", 0x10, 1, 0x4, fun _ _ => 0x0, [⟨0, 0, .wo⟩, ⟨1, 1, .wo⟩, ⟨31, 2, .rwt⟩]⟩,
  ⟨"AON_FAULT_ROOT", 0x14, 1, 0x4, fun _ _ => 0x0, [⟨11, 0, .ro⟩, ⟨15, 12, .ro⟩, ⟨16, 16, .w1c⟩, ⟨31, 17, .rwt⟩]⟩,
  ⟨"AON_FREQ", 0x18, 1, 0x4, fun _ _ => 0x303030, [⟨6, 0, .ro⟩, ⟨7, 7, .w1c⟩, ⟨14, 8, .ro⟩, ⟨15, 15, .rwt⟩, ⟨22, 16, .ro⟩, ⟨31, 23, .rwt⟩]⟩,
  ⟨"AON_VCORE", 0x1C, 1, 0x4, fun _ _ => 0x30C02EE, [⟨9, 0, .ro⟩, ⟨15, 10, .rwt⟩, ⟨25, 16, .ro⟩, ⟨31, 26, .rwt⟩]⟩,
  ⟨"AON_FCNT_LO", 0x30, 1, 0x4, fun _ _ => 0x0, [⟨31, 0, .ro⟩]⟩,
  ⟨"AON_FCNT_HI", 0x34, 1, 0x4, fun _ _ => 0x0, [⟨31, 0, .ro⟩]⟩,
  ⟨"AON_TOD_NS", 0x38, 1, 0x4, fun _ _ => 0x0, [⟨31, 0, .ro⟩]⟩,
  ⟨"AON_TOD_SLO", 0x3C, 1, 0x4, fun _ _ => 0x0, [⟨31, 0, .ro⟩]⟩,
  ⟨"AON_TOD_SHI", 0x40, 1, 0x4, fun _ _ => 0x0, [⟨15, 0, .ro⟩, ⟨31, 16, .rwt⟩]⟩,
  ⟨"AON_TIME", 0x44, 1, 0x4, fun _ _ => 0x0, [⟨0, 0, .ro⟩, ⟨1, 1, .ro⟩, ⟨2, 2, .ro⟩, ⟨3, 3, .rwt⟩, ⟨13, 4, .ro⟩, ⟨31, 14, .rwt⟩]⟩,
  ⟨"AON_POWER", 0x48, 1, 0x4, fun _ _ => 0x6400000, [⟨11, 0, .ro⟩, ⟨15, 12, .rwt⟩, ⟨27, 16, .ro⟩, ⟨31, 28, .rwt⟩]⟩,
  ⟨"AON_TEMP", 0x4C, 1, 0x4, fun _ _ => 0x0, [⟨9, 0, .ro⟩, ⟨31, 10, .rwt⟩]⟩,
  ⟨"AON_MARGIN", 0x50, 1, 0x4, fun _ _ => 0x300A18, [⟨7, 0, .rw⟩, ⟨15, 8, .rw⟩, ⟨23, 16, .ro⟩, ⟨31, 24, .rwt⟩]⟩,
  ⟨"AON_MEPOCH", 0x54, 1, 0x4, fun _ _ => 0x0, [⟨31, 0, .ro⟩]⟩,
  ⟨"AON_WORST", 0x58, 1, 0x4, fun _ _ => 0x0, [⟨9, 0, .ro⟩, ⟨15, 10, .rwt⟩, ⟨31, 16, .ro⟩]⟩,
  ⟨"AON_ROMVER", 0x5C, 1, 0x4, fun _ _ => Config.romVersion, [⟨31, 0, .ro⟩]⟩,
  ⟨"AON_EVC_FSWITCH", 0x110, 1, 0x4, fun _ _ => 0x0, [⟨31, 0, .ro⟩]⟩,
  ⟨"AON_EVC_REPLAN", 0x114, 1, 0x4, fun _ _ => 0x0, [⟨31, 0, .ro⟩]⟩,
  ⟨"AON_EVC_EXHAUST", 0x118, 1, 0x4, fun _ _ => 0x0, [⟨31, 0, .ro⟩]⟩,
  ⟨"AON_EVC_PWROVER", 0x11C, 1, 0x4, fun _ _ => 0x0, [⟨31, 0, .ro⟩]⟩]

/-- The registers of AON, continued. -/
def aonRows1 : List RegRow := [
  ⟨"AON_EVC_ALIGNERR", 0x120, 1, 0x4, fun _ _ => 0x0, [⟨31, 0, .ro⟩]⟩,
  ⟨"AON_EVC_HOLDOVER", 0x124, 1, 0x4, fun _ _ => 0x0, [⟨31, 0, .ro⟩]⟩,
  ⟨"AON_EVC_VIOL", 0x128, 1, 0x4, fun _ _ => 0x0, [⟨31, 0, .ro⟩]⟩,
  ⟨"AON_EVC_SAT", 0x13C, 1, 0x4, fun _ _ => 0x0, [⟨6, 0, .w1c⟩, ⟨31, 7, .rwt⟩]⟩,
  ⟨"AON_VDOM", 0x200, 33, 0x4, fun _ d => BitVec.ofNat 32 ((20 + Config.sigmaRaw d % 381) * 256), [⟨5, 0, .ro⟩, ⟨7, 6, .rwt⟩, ⟨17, 8, .ro⟩, ⟨31, 18, .rwt⟩]⟩,
  ⟨"AON_SLACK", 0x1000, 1024, 0x4, fun _ _ => 0x0, [⟨15, 0, .ro⟩, ⟨31, 16, .ro⟩]⟩]

/-- All registers of AON. -/
def aonRows : List RegRow := aonRows0 ++ aonRows1

/-- The registers of GNT (R513). -/
def gntRows : List RegRow := [
  ⟨"GNT_ID", 0x0, 1, 0x4, fun _ _ => 0x40, [⟨6, 0, .ro⟩, ⟨31, 7, .rwt⟩]⟩,
  ⟨"GNT_STATUS", 0x4, 1, 0x4, fun _ _ => 0x0, [⟨1, 0, .ro⟩, ⟨8, 2, .ro⟩, ⟨9, 9, .ro⟩, ⟨10, 10, .ro⟩, ⟨31, 11, .rwt⟩]⟩,
  ⟨"GNT_GRACE", 0x8, 1, 0x4, fun _ _ => 0x61A8, [⟨23, 0, .rw⟩, ⟨31, 24, .rwt⟩]⟩,
  ⟨"GNT_HEAD", 0xC, 1, 0x4, fun _ _ => 0x1, [⟨5, 0, .ro⟩, ⟨31, 6, .rwt⟩]⟩,
  ⟨"GNT_WRAPS", 0x10, 1, 0x4, fun _ _ => 0x0, [⟨31, 0, .ro⟩]⟩,
  ⟨"GNT_ACK", 0x14, 1, 0x4, fun _ _ => 0x0, [⟨5, 0, .wo⟩, ⟨7, 6, .rwt⟩, ⟨9, 8, .wo⟩, ⟨31, 10, .rwt⟩]⟩,
  ⟨"GNT_OPEN0", 0x18, 1, 0x4, fun _ _ => 0x0, [⟨31, 0, .w1c⟩]⟩,
  ⟨"GNT_OPEN1", 0x1C, 1, 0x4, fun _ _ => 0x0, [⟨31, 0, .w1c⟩]⟩,
  ⟨"GNT_WDT", 0x20, 1, 0x4, fun _ _ => 0x0, [⟨0, 0, .wo⟩, ⟨31, 1, .rwt⟩]⟩,
  ⟨"GNT_WDT_LIMIT", 0x24, 1, 0x4, fun _ _ => 0x2625A0, [⟨31, 0, .rw⟩]⟩,
  ⟨"GNT_CTRL", 0x28, 1, 0x4, fun _ _ => 0x0, [⟨0, 0, .wo⟩, ⟨31, 1, .rwt⟩]⟩,
  ⟨"GNT_EVC_FAULT", 0x110, 1, 0x4, fun _ _ => 0x0, [⟨31, 0, .ro⟩]⟩,
  ⟨"GNT_EVC_COALESCE", 0x114, 1, 0x4, fun _ _ => 0x0, [⟨31, 0, .ro⟩]⟩,
  ⟨"GNT_EVC_DISMISS", 0x118, 1, 0x4, fun _ _ => 0x0, [⟨31, 0, .ro⟩]⟩,
  ⟨"GNT_EVC_NOTIFY", 0x11C, 1, 0x4, fun _ _ => 0x0, [⟨31, 0, .ro⟩]⟩,
  ⟨"GNT_EVC_ABORT", 0x120, 1, 0x4, fun _ _ => 0x0, [⟨31, 0, .ro⟩]⟩,
  ⟨"GNT_EVC_PEERABORT", 0x124, 1, 0x4, fun _ _ => 0x0, [⟨31, 0, .ro⟩]⟩,
  ⟨"GNT_EVC_ISOCMD", 0x128, 1, 0x4, fun _ _ => 0x0, [⟨31, 0, .ro⟩]⟩,
  ⟨"GNT_EVC_LOGFULL", 0x12C, 1, 0x4, fun _ _ => 0x0, [⟨31, 0, .ro⟩]⟩,
  ⟨"GNT_EVC_VIOL", 0x130, 1, 0x4, fun _ _ => 0x0, [⟨31, 0, .ro⟩]⟩,
  ⟨"GNT_EVC_SAT", 0x13C, 1, 0x4, fun _ _ => 0x0, [⟨8, 0, .w1c⟩, ⟨31, 9, .rwt⟩]⟩,
  ⟨"GNT_LOG", 0x800, 512, 0x4, fun _ _ => 0x0, [⟨31, 0, .ro⟩]⟩]

/-- The registers of ID (R423). -/
def identRows : List RegRow := [
  ⟨"ID_SERIAL_LO", 0x0, 1, 0x4, fun _ _ => Config.serial.setWidth 32, [⟨31, 0, .ro⟩]⟩,
  ⟨"ID_SERIAL_HI", 0x4, 1, 0x4, fun _ _ => (Config.serial >>> 32).setWidth 32, [⟨31, 0, .ro⟩]⟩,
  ⟨"ID_STATUS", 0x8, 1, 0x4, fun _ _ => 0x0, [⟨1, 0, .ro⟩, ⟨5, 2, .ro⟩, ⟨12, 6, .ro⟩, ⟨13, 13, .ro⟩, ⟨14, 14, .ro⟩, ⟨15, 15, .ro⟩, ⟨19, 16, .ro⟩, ⟨31, 20, .rwt⟩]⟩,
  ⟨"ID_SVN", 0xC, 1, 0x4, fun _ _ => 0x0, [⟨15, 0, .ro⟩, ⟨31, 16, .ro⟩]⟩,
  ⟨"ID_ATTEST", 0x10, 1, 0x4, fun _ _ => 0x0, [⟨0, 0, .wo⟩, ⟨31, 1, .rwt⟩]⟩,
  ⟨"ID_EVC_VIOL", 0x14, 1, 0x4, fun _ _ => 0x0, [⟨31, 0, .ro⟩]⟩,
  ⟨"ID_NONCE", 0x20, 8, 0x4, fun _ _ => 0x0, [⟨31, 0, .rw⟩]⟩,
  ⟨"ID_DIK_PUB", 0x100, 15, 0x4, fun _ k => Config.dikPubWord k, [⟨31, 0, .ro⟩]⟩,
  ⟨"ID_SEAL_PUB", 0x140, 14, 0x4, fun _ k => Config.sealPubWord k, [⟨31, 0, .ro⟩]⟩,
  ⟨"ID_CERT", 0x200, 64, 0x4, fun _ k => Config.certWord k, [⟨31, 0, .ro⟩]⟩,
  ⟨"ID_REPORT", 0x400, 160, 0x4, fun _ _ => 0x0, [⟨31, 0, .ro⟩]⟩]

/-- The registers of CPH (R421). -/
def cphRows : List RegRow := [
  ⟨"CPH_ID", 0x0, 1, 0x4, fun _ _ => 0x1F0, [⟨11, 0, .ro⟩, ⟨31, 12, .rwt⟩]⟩,
  ⟨"CPH_STATUS", 0x4, 1, 0x4, fun _ _ => 0x0, [⟨0, 0, .ro⟩, ⟨4, 1, .ro⟩, ⟨8, 5, .ro⟩, ⟨14, 9, .ro⟩, ⟨31, 15, .rwt⟩]⟩,
  ⟨"CPH_LIMITS", 0x8, 1, 0x4, fun _ _ => 0x281C, [⟨7, 0, .ro⟩, ⟨15, 8, .ro⟩, ⟨31, 16, .rwt⟩]⟩,
  ⟨"CPH_ENC_BYTES_LO", 0x100, 1, 0x4, fun _ _ => 0x0, [⟨31, 0, .ro⟩]⟩,
  ⟨"CPH_ENC_BYTES_HI", 0x104, 1, 0x4, fun _ _ => 0x0, [⟨31, 0, .ro⟩]⟩,
  ⟨"CPH_DEC_BYTES_LO", 0x108, 1, 0x4, fun _ _ => 0x0, [⟨31, 0, .ro⟩]⟩,
  ⟨"CPH_DEC_BYTES_HI", 0x10C, 1, 0x4, fun _ _ => 0x0, [⟨31, 0, .ro⟩]⟩,
  ⟨"CPH_XTS_BYTES_LO", 0x110, 1, 0x4, fun _ _ => 0x0, [⟨31, 0, .ro⟩]⟩,
  ⟨"CPH_XTS_BYTES_HI", 0x114, 1, 0x4, fun _ _ => 0x0, [⟨31, 0, .ro⟩]⟩,
  ⟨"CPH_EVC_SUSPEND", 0x120, 1, 0x4, fun _ _ => 0x0, [⟨31, 0, .ro⟩]⟩,
  ⟨"CPH_EVC_NOBUF", 0x124, 1, 0x4, fun _ _ => 0x0, [⟨31, 0, .ro⟩]⟩,
  ⟨"CPH_EVC_VIOL", 0x128, 1, 0x4, fun _ _ => 0x0, [⟨31, 0, .ro⟩]⟩,
  ⟨"CPH_EVC_SAT", 0x13C, 1, 0x4, fun _ _ => 0x0, [⟨2, 0, .w1c⟩, ⟨31, 3, .rwt⟩]⟩]

/-- The registers of CPHA (R421). -/
def cphARows : List RegRow := [
  ⟨"CPH_A_STATE", 0x0, 1, 0x4, fun _ _ => 0x0, [⟨1, 0, .ro⟩, ⟨2, 2, .ro⟩, ⟨3, 3, .ro⟩, ⟨7, 4, .ro⟩, ⟨31, 8, .rwt⟩]⟩,
  ⟨"CPH_A_TXGEN", 0x4, 1, 0x4, fun _ _ => 0x0, [⟨31, 0, .ro⟩]⟩,
  ⟨"CPH_A_RXGEN", 0x8, 1, 0x4, fun _ _ => 0x0, [⟨31, 0, .ro⟩]⟩,
  ⟨"CPH_A_TXREC", 0xC, 1, 0x4, fun _ _ => 0x0, [⟨31, 0, .ro⟩]⟩,
  ⟨"CPH_A_TXBYTES_LO", 0x10, 1, 0x4, fun _ _ => 0x0, [⟨31, 0, .ro⟩]⟩,
  ⟨"CPH_A_TXBYTES_HI", 0x14, 1, 0x4, fun _ _ => 0x0, [⟨31, 0, .ro⟩]⟩,
  ⟨"CPH_A_EVC_TAGFAIL", 0x20, 1, 0x4, fun _ _ => 0x0, [⟨31, 0, .ro⟩]⟩,
  ⟨"CPH_A_EVC_HELLOFAIL", 0x24, 1, 0x4, fun _ _ => 0x0, [⟨31, 0, .ro⟩]⟩,
  ⟨"CPH_A_EVC_KEYWAIT", 0x28, 1, 0x4, fun _ _ => 0x0, [⟨31, 0, .ro⟩]⟩,
  ⟨"CPH_A_EVC_KEYUPD", 0x2C, 1, 0x4, fun _ _ => 0x0, [⟨31, 0, .ro⟩]⟩,
  ⟨"CPH_A_EVC_ASSOC", 0x30, 1, 0x4, fun _ _ => 0x0, [⟨31, 0, .ro⟩]⟩,
  ⟨"CPH_A_EVC_SAT", 0x3C, 1, 0x4, fun _ _ => 0x0, [⟨4, 0, .w1c⟩, ⟨31, 5, .rwt⟩]⟩]

/-- The registers of HPT (R449). -/
def hptRows : List RegRow := [
  ⟨"HPT_ID", 0x0, 1, 0x4, fun _ _ => 0x401E0, [⟨11, 0, .ro⟩, ⟨15, 12, .rwt⟩, ⟨18, 16, .ro⟩, ⟨31, 19, .rwt⟩]⟩,
  ⟨"HPT_STATUS", 0x4, 1, 0x4, fun _ _ => 0x0, [⟨2, 0, .ro⟩, ⟨3, 3, .ro⟩, ⟨7, 4, .ro⟩, ⟨31, 8, .rwt⟩]⟩,
  ⟨"HPT_CFG", 0x8, 1, 0x4, fun _ _ => 0x0, [⟨0, 0, .rw⟩, ⟨31, 1, .rwt⟩]⟩,
  ⟨"HPT_QP_USE", 0x10, 1, 0x4, fun _ _ => 0x0, [⟨16, 0, .ro⟩, ⟨31, 17, .rwt⟩]⟩,
  ⟨"HPT_TRK_USE", 0x14, 1, 0x4, fun _ _ => 0x0, [⟨18, 0, .ro⟩, ⟨31, 19, .rwt⟩]⟩,
  ⟨"HPT_EVQ_PROD_LO", 0x18, 1, 0x4, fun _ _ => 0x0, [⟨31, 0, .ro⟩]⟩,
  ⟨"HPT_EVQ_PROD_HI", 0x1C, 1, 0x4, fun _ _ => 0x0, [⟨31, 0, .ro⟩]⟩,
  ⟨"HPT_EVQ_CONS_LO", 0x20, 1, 0x4, fun _ _ => 0x0, [⟨31, 0, .rw⟩]⟩,
  ⟨"HPT_EVQ_CONS_HI", 0x24, 1, 0x4, fun _ _ => 0x0, [⟨31, 0, .rw⟩]⟩,
  ⟨"HPT_STAGE_BASE_LO", 0x28, 1, 0x4, fun _ _ => 0x0, [⟨31, 0, .rw⟩]⟩,
  ⟨"HPT_STAGE_BASE_HI", 0x2C, 1, 0x4, fun _ _ => 0x0, [⟨31, 0, .rw⟩]⟩,
  ⟨"HPT_STAGE_SIZE", 0x30, 1, 0x4, fun _ _ => 0x0, [⟨31, 0, .rw⟩]⟩,
  ⟨"HPT_EVC_WREFUSED", 0x110, 1, 0x4, fun _ _ => 0x0, [⟨31, 0, .ro⟩]⟩,
  ⟨"HPT_EVC_TRKWAIT", 0x114, 1, 0x4, fun _ _ => 0x0, [⟨31, 0, .ro⟩]⟩,
  ⟨"HPT_EVC_EVDROP", 0x118, 1, 0x4, fun _ _ => 0x0, [⟨31, 0, .ro⟩]⟩,
  ⟨"HPT_EVC_DATALATE", 0x11C, 1, 0x4, fun _ _ => 0x0, [⟨31, 0, .ro⟩]⟩,
  ⟨"HPT_EVC_VIOL", 0x120, 1, 0x4, fun _ _ => 0x0, [⟨31, 0, .ro⟩]⟩,
  ⟨"HPT_EVC_SAT", 0x13C, 1, 0x4, fun _ _ => 0x0, [⟨4, 0, .w1c⟩, ⟨31, 5, .rwt⟩]⟩]

/-- The registers of HPTP (R450). -/
def hptPRows : List RegRow := [
  ⟨"HPT_H_ID", 0x0, 1, 0x4, fun h _ => BitVec.ofNat 32 (h + (0x1E0 + h) * 65536), [⟨1, 0, .ro⟩, ⟨15, 2, .rwt⟩, ⟨27, 16, .ro⟩, ⟨31, 28, .rwt⟩]⟩,
  ⟨"HPT_H_STATUS", 0x4, 1, 0x4, fun _ _ => 0x0, [⟨0, 0, .ro⟩, ⟨1, 1, .ro⟩, ⟨8, 2, .ro⟩, ⟨31, 9, .rwt⟩]⟩,
  ⟨"HPT_H_PTPOFS", 0x8, 1, 0x4, fun _ _ => 0x0, [⟨31, 0, .ro⟩]⟩,
  ⟨"HPT_H_TXBYTES_LO", 0x100, 1, 0x4, fun _ _ => 0x0, [⟨31, 0, .ro⟩]⟩,
  ⟨"HPT_H_TXBYTES_HI", 0x104, 1, 0x4, fun _ _ => 0x0, [⟨31, 0, .ro⟩]⟩,
  ⟨"HPT_H_RXBYTES_LO", 0x108, 1, 0x4, fun _ _ => 0x0, [⟨31, 0, .ro⟩]⟩,
  ⟨"HPT_H_RXBYTES_HI", 0x10C, 1, 0x4, fun _ _ => 0x0, [⟨31, 0, .ro⟩]⟩,
  ⟨"HPT_H_EVC_REPLAY", 0x110, 1, 0x4, fun _ _ => 0x0, [⟨31, 0, .ro⟩]⟩,
  ⟨"HPT_H_EVC_RXDROP", 0x114, 1, 0x4, fun _ _ => 0x0, [⟨31, 0, .ro⟩]⟩,
  ⟨"HPT_H_EVC_QPERR", 0x118, 1, 0x4, fun _ _ => 0x0, [⟨31, 0, .ro⟩]⟩,
  ⟨"HPT_H_EVC_LINKDOWN", 0x11C, 1, 0x4, fun _ _ => 0x0, [⟨31, 0, .ro⟩]⟩,
  ⟨"HPT_H_EVC_SAT", 0x13C, 1, 0x4, fun _ _ => 0x0, [⟨3, 0, .w1c⟩, ⟨31, 4, .rwt⟩]⟩]

/-- The registers of SLT (R223). -/
def sltRows0 : List RegRow := [
  ⟨"SLT_ID", 0x0, 1, 0x4, fun _ _ => 0x1F4, [⟨11, 0, .ro⟩, ⟨31, 12, .rwt⟩]⟩,
  ⟨"SLT_STATUS", 0x4, 1, 0x4, fun _ _ => 0x0, [⟨0, 0, .ro⟩, ⟨1, 1, .ro⟩, ⟨9, 2, .ro⟩, ⟨31, 10, .rwt⟩]⟩,
  ⟨"SLT_CFG", 0x8, 1, 0x4, fun _ _ => 0x0, [⟨0, 0, .rw⟩, ⟨1, 1, .rw⟩, ⟨31, 2, .rwt⟩]⟩,
  ⟨"SLT_GEOM", 0xC, 1, 0x4, fun _ _ => 0x0, [⟨1, 0, .ro⟩, ⟨3, 2, .ro⟩, ⟨15, 4, .ro⟩, ⟨23, 16, .ro⟩, ⟨31, 24, .rwt⟩]⟩,
  ⟨"SLT_CACHE_BASE_LO", 0x10, 1, 0x4, fun _ _ => 0x0, [⟨31, 0, .rw⟩]⟩,
  ⟨"SLT_CACHE_BASE_HI", 0x14, 1, 0x4, fun _ _ => 0x0, [⟨7, 0, .rw⟩, ⟨31, 8, .rwt⟩]⟩,
  ⟨"SLT_CACHE_LINES", 0x18, 1, 0x4, fun _ _ => 0x0, [⟨31, 0, .rw⟩]⟩,
  ⟨"SLT_MAP_BASE_LO", 0x20, 1, 0x4, fun _ _ => 0x0, [⟨31, 0, .rw⟩]⟩,
  ⟨"SLT_MAP_BASE_HI", 0x24, 1, 0x4, fun _ _ => 0x0, [⟨7, 0, .rw⟩, ⟨31, 8, .rwt⟩]⟩,
  ⟨"SLT_SLOTS", 0x28, 1, 0x4, fun _ _ => 0x0, [⟨10, 0, .rw⟩, ⟨21, 11, .rw⟩, ⟨31, 22, .rwt⟩]⟩,
  ⟨"SLT_PEND_SLOTS", 0x2C, 1, 0x4, fun _ _ => 0x0, [⟨10, 0, .rw⟩, ⟨31, 11, .rwt⟩]⟩,
  ⟨"SLT_BG", 0x30, 1, 0x4, fun _ _ => 0xA80040, [⟨15, 0, .rw⟩, ⟨31, 16, .rw⟩]⟩,
  ⟨"SLT_WEAR", 0x34, 1, 0x4, fun _ _ => 0x400BB8, [⟨15, 0, .rw⟩, ⟨31, 16, .rw⟩]⟩,
  ⟨"SLT_TLIST_LO", 0x38, 1, 0x4, fun _ _ => 0x0, [⟨31, 0, .rw⟩]⟩,
  ⟨"SLT_TLIST_HI", 0x3C, 1, 0x4, fun _ _ => 0x0, [⟨7, 0, .rw⟩, ⟨31, 8, .rwt⟩]⟩,
  ⟨"SLT_RD_BYTES_LO", 0x40, 1, 0x4, fun _ _ => 0x0, [⟨31, 0, .ro⟩]⟩,
  ⟨"SLT_RD_BYTES_HI", 0x44, 1, 0x4, fun _ _ => 0x0, [⟨31, 0, .ro⟩]⟩,
  ⟨"SLT_WR_BYTES_LO", 0x48, 1, 0x4, fun _ _ => 0x0, [⟨31, 0, .ro⟩]⟩,
  ⟨"SLT_WR_BYTES_HI", 0x4C, 1, 0x4, fun _ _ => 0x0, [⟨31, 0, .ro⟩]⟩,
  ⟨"SLT_MAX_ERASE", 0x50, 1, 0x4, fun _ _ => 0x0, [⟨31, 0, .ro⟩]⟩,
  ⟨"SLT_FREE_BLOCKS", 0x54, 1, 0x4, fun _ _ => 0x0, [⟨31, 0, .ro⟩]⟩,
  ⟨"SLT_TLIST_POST", 0x58, 1, 0x4, fun _ _ => 0x0, [⟨31, 0, .wo⟩]⟩,
  ⟨"SLT_BUSY_LO", 0x100, 1, 0x4, fun _ _ => 0x0, [⟨31, 0, .ro⟩]⟩,
  ⟨"SLT_BUSY_HI", 0x104, 1, 0x4, fun _ _ => 0x0, [⟨31, 0, .ro⟩]⟩]

/-- The registers of SLT, continued. -/
def sltRows1 : List RegRow := [
  ⟨"SLT_STALL_LO", 0x108, 1, 0x4, fun _ _ => 0x0, [⟨31, 0, .ro⟩]⟩,
  ⟨"SLT_STALL_HI", 0x10C, 1, 0x4, fun _ _ => 0x0, [⟨31, 0, .ro⟩]⟩,
  ⟨"SLT_EVC_MISS", 0x110, 1, 0x4, fun _ _ => 0x0, [⟨31, 0, .ro⟩]⟩,
  ⟨"SLT_EVC_DEFER", 0x114, 1, 0x4, fun _ _ => 0x0, [⟨31, 0, .ro⟩]⟩,
  ⟨"SLT_EVC_DROP", 0x118, 1, 0x4, fun _ _ => 0x0, [⟨31, 0, .ro⟩]⟩,
  ⟨"SLT_EVC_WAIT", 0x11C, 1, 0x4, fun _ _ => 0x0, [⟨31, 0, .ro⟩]⟩,
  ⟨"SLT_EVC_RTHRU", 0x120, 1, 0x4, fun _ _ => 0x0, [⟨31, 0, .ro⟩]⟩,
  ⟨"SLT_EVC_WBACK", 0x124, 1, 0x4, fun _ _ => 0x0, [⟨31, 0, .ro⟩]⟩,
  ⟨"SLT_EVC_CORR", 0x128, 1, 0x4, fun _ _ => 0x0, [⟨31, 0, .ro⟩]⟩,
  ⟨"SLT_EVC_UNCORR", 0x12C, 1, 0x4, fun _ _ => 0x0, [⟨31, 0, .ro⟩]⟩,
  ⟨"SLT_EVC_FORCED", 0x130, 1, 0x4, fun _ _ => 0x0, [⟨31, 0, .ro⟩]⟩,
  ⟨"SLT_EVC_RETIRE", 0x134, 1, 0x4, fun _ _ => 0x0, [⟨31, 0, .ro⟩]⟩,
  ⟨"SLT_EVC_STALE", 0x138, 1, 0x4, fun _ _ => 0x0, [⟨31, 0, .ro⟩]⟩,
  ⟨"SLT_EVC_VIOL", 0x13C, 1, 0x4, fun _ _ => 0x0, [⟨31, 0, .ro⟩]⟩,
  ⟨"SLT_EVC_SAT", 0x14C, 1, 0x4, fun _ _ => 0x0, [⟨11, 0, .w1c⟩, ⟨31, 12, .rwt⟩]⟩,
  ⟨"SLT_CH_STATUS", 0x200, 32, 0x4, fun _ _ => 0x0, [⟨0, 0, .ro⟩, ⟨1, 1, .ro⟩, ⟨2, 2, .ro⟩, ⟨31, 3, .rwt⟩]⟩,
  ⟨"SLT_PART", 0x300, 8, 0x4, fun _ _ => 0x0, [⟨12, 0, .ro⟩, ⟨26, 13, .ro⟩, ⟨31, 27, .rwt⟩]⟩]

/-- All registers of SLT. -/
def sltRows : List RegRow := sltRows0 ++ sltRows1

/-- The registers of BRM (R388). -/
def brmRows : List RegRow := [
  ⟨"BRM_ID", 0x0, 1, 0x4, fun _ _ => 0x801E8, [⟨11, 0, .ro⟩, ⟨15, 12, .rwt⟩, ⟨19, 16, .ro⟩, ⟨31, 20, .rwt⟩]⟩,
  ⟨"BRM_STATUS", 0x4, 1, 0x4, fun _ _ => 0x0, [⟨3, 0, .ro⟩, ⟨11, 4, .ro⟩, ⟨12, 12, .ro⟩, ⟨13, 13, .ro⟩, ⟨14, 14, .ro⟩, ⟨31, 15, .rwt⟩]⟩,
  ⟨"BRM_CFG", 0x8, 1, 0x4, fun _ _ => 0x0, [⟨0, 0, .rw⟩, ⟨31, 1, .rwt⟩]⟩,
  ⟨"BRM_KEEP", 0xC, 1, 0x4, fun _ _ => 0x40, [⟨9, 0, .ro⟩, ⟨31, 10, .rwt⟩]⟩,
  ⟨"BRM_INTERVAL", 0x10, 1, 0x4, fun _ _ => 0x64, [⟨31, 0, .ro⟩]⟩,
  ⟨"BRM_ROUND", 0x14, 1, 0x4, fun _ _ => 0x0, [⟨31, 0, .ro⟩]⟩,
  ⟨"BRM_XAREA_BASE_LO", 0x20, 1, 0x4, fun _ _ => 0x0, [⟨31, 0, .rw⟩]⟩,
  ⟨"BRM_XAREA_BASE_HI", 0x24, 1, 0x4, fun _ _ => 0x0, [⟨7, 0, .rw⟩, ⟨31, 8, .rwt⟩]⟩,
  ⟨"BRM_XAREA_SIZE", 0x28, 1, 0x4, fun _ _ => 0x0, [⟨31, 0, .rw⟩]⟩,
  ⟨"BRM_EVC_OPD", 0x110, 1, 0x4, fun _ _ => 0x0, [⟨31, 0, .ro⟩]⟩,
  ⟨"BRM_EVC_POSTPONE", 0x114, 1, 0x4, fun _ _ => 0x0, [⟨31, 0, .ro⟩]⟩,
  ⟨"BRM_EVC_WITHHELD", 0x118, 1, 0x4, fun _ _ => 0x0, [⟨31, 0, .ro⟩]⟩,
  ⟨"BRM_EVC_CONV", 0x11C, 1, 0x4, fun _ _ => 0x0, [⟨31, 0, .ro⟩]⟩,
  ⟨"BRM_EVC_VIOL", 0x120, 1, 0x4, fun _ _ => 0x0, [⟨31, 0, .ro⟩]⟩,
  ⟨"BRM_EVC_LATE", 0x124, 1, 0x4, fun _ _ => 0x0, [⟨31, 0, .ro⟩]⟩,
  ⟨"BRM_EVC_STALEDROP", 0x128, 1, 0x4, fun _ _ => 0x0, [⟨31, 0, .ro⟩]⟩,
  ⟨"BRM_EVC_DIVERGE", 0x12C, 1, 0x4, fun _ _ => 0x0, [⟨31, 0, .ro⟩]⟩,
  ⟨"BRM_EVC_PAUSE", 0x130, 1, 0x4, fun _ _ => 0x0, [⟨31, 0, .ro⟩]⟩,
  ⟨"BRM_EVC_CONFLICT", 0x134, 1, 0x4, fun _ _ => 0x0, [⟨31, 0, .ro⟩]⟩,
  ⟨"BRM_EVC_CATCHUP", 0x138, 1, 0x4, fun _ _ => 0x0, [⟨31, 0, .ro⟩]⟩,
  ⟨"BRM_EVC_SAT", 0x14C, 1, 0x4, fun _ _ => 0x0, [⟨10, 0, .w1c⟩, ⟨31, 11, .rwt⟩]⟩]

/-- The registers of BRMP (R390). -/
def brmPRows0 : List RegRow := [
  ⟨"BRM_P_ID", 0x0, 1, 0x4, fun p _ => BitVec.ofNat 32 (p + (0x1E8 + p) * 65536), [⟨2, 0, .ro⟩, ⟨15, 3, .rwt⟩, ⟨27, 16, .ro⟩, ⟨31, 28, .rwt⟩]⟩,
  ⟨"BRM_P_STATUS", 0x4, 1, 0x4, fun _ _ => 0x0, [⟨0, 0, .ro⟩, ⟨4, 1, .ro⟩, ⟨6, 5, .ro⟩, ⟨10, 7, .ro⟩, ⟨17, 11, .ro⟩, ⟨31, 18, .rwt⟩]⟩,
  ⟨"BRM_P_CFG", 0x8, 1, 0x4, fun _ _ => 0x0, [⟨0, 0, .rw⟩, ⟨2, 1, .rw⟩, ⟨31, 3, .rwt⟩]⟩,
  ⟨"BRM_P_RATE", 0xC, 1, 0x4, fun _ _ => 0x0, [⟨16, 0, .rw⟩, ⟨31, 17, .rwt⟩]⟩,
  ⟨"BRM_P_BURST", 0x10, 1, 0x4, fun _ _ => 0x200, [⟨12, 0, .rw⟩, ⟨31, 13, .rwt⟩]⟩,
  ⟨"BRM_P_FEC", 0x14, 1, 0x4, fun _ _ => 0x4100308, [⟨4, 0, .ro⟩, ⟨7, 5, .rwt⟩, ⟨12, 8, .rw⟩, ⟨15, 13, .rwt⟩, ⟨20, 16, .rw⟩, ⟨23, 21, .rwt⟩, ⟨28, 24, .ro⟩, ⟨31, 29, .rwt⟩]⟩,
  ⟨"BRM_P_TIMING", 0x18, 1, 0x4, fun _ _ => 0x3E803E8, [⟨15, 0, .rw⟩, ⟨31, 16, .rw⟩]⟩,
  ⟨"BRM_P_ROUTE", 0x20, 4, 0x4, fun _ _ => 0x0, [⟨0, 0, .ro⟩, ⟨7, 1, .rwt⟩, ⟨31, 8, .ro⟩]⟩,
  ⟨"BRM_P_JIT", 0x30, 4, 0x4, fun _ _ => 0x0, [⟨23, 0, .ro⟩, ⟨31, 24, .rwt⟩]⟩,
  ⟨"BRM_P_TXPSN_LO", 0x40, 1, 0x4, fun _ _ => 0x0, [⟨31, 0, .ro⟩]⟩,
  ⟨"BRM_P_TXPSN_HI", 0x44, 1, 0x4, fun _ _ => 0x0, [⟨31, 0, .ro⟩]⟩,
  ⟨"BRM_P_RXPSN_LO", 0x48, 1, 0x4, fun _ _ => 0x0, [⟨31, 0, .ro⟩]⟩,
  ⟨"BRM_P_RXPSN_HI", 0x4C, 1, 0x4, fun _ _ => 0x0, [⟨31, 0, .ro⟩]⟩,
  ⟨"BRM_P_LOSS", 0x50, 1, 0x4, fun _ _ => 0x0, [⟨15, 0, .ro⟩, ⟨31, 16, .rwt⟩]⟩,
  ⟨"BRM_P_TXBYTES_LO", 0x100, 1, 0x4, fun _ _ => 0x0, [⟨31, 0, .ro⟩]⟩,
  ⟨"BRM_P_TXBYTES_HI", 0x104, 1, 0x4, fun _ _ => 0x0, [⟨31, 0, .ro⟩]⟩,
  ⟨"BRM_P_RXBYTES_LO", 0x108, 1, 0x4, fun _ _ => 0x0, [⟨31, 0, .ro⟩]⟩,
  ⟨"BRM_P_RXBYTES_HI", 0x10C, 1, 0x4, fun _ _ => 0x0, [⟨31, 0, .ro⟩]⟩,
  ⟨"BRM_P_EVC_RECOVER", 0x110, 1, 0x4, fun _ _ => 0x0, [⟨31, 0, .ro⟩]⟩,
  ⟨"BRM_P_EVC_RESEND", 0x114, 1, 0x4, fun _ _ => 0x0, [⟨31, 0, .ro⟩]⟩,
  ⟨"BRM_P_EVC_OBJLOST", 0x118, 1, 0x4, fun _ _ => 0x0, [⟨31, 0, .ro⟩]⟩,
  ⟨"BRM_P_EVC_REORDER", 0x11C, 1, 0x4, fun _ _ => 0x0, [⟨31, 0, .ro⟩]⟩,
  ⟨"BRM_P_EVC_REPLAY", 0x120, 1, 0x4, fun _ _ => 0x0, [⟨31, 0, .ro⟩]⟩,
  ⟨"BRM_P_EVC_DUP", 0x124, 1, 0x4, fun _ _ => 0x0, [⟨31, 0, .ro⟩]⟩]

/-- The registers of BRMP, continued. -/
def brmPRows1 : List RegRow := [
  ⟨"BRM_P_EVC_REROUTE", 0x128, 1, 0x4, fun _ _ => 0x0, [⟨31, 0, .ro⟩]⟩,
  ⟨"BRM_P_EVC_ROUTEDOWN", 0x12C, 1, 0x4, fun _ _ => 0x0, [⟨31, 0, .ro⟩]⟩,
  ⟨"BRM_P_EVC_CRESEND", 0x130, 1, 0x4, fun _ _ => 0x0, [⟨31, 0, .ro⟩]⟩,
  ⟨"BRM_P_EVC_CLOST", 0x134, 1, 0x4, fun _ _ => 0x0, [⟨31, 0, .ro⟩]⟩,
  ⟨"BRM_P_EVC_OREQ", 0x138, 1, 0x4, fun _ _ => 0x0, [⟨31, 0, .ro⟩]⟩,
  ⟨"BRM_P_EVC_RXDROP", 0x13C, 1, 0x4, fun _ _ => 0x0, [⟨31, 0, .ro⟩]⟩,
  ⟨"BRM_P_EVC_MACPAUSE", 0x140, 1, 0x4, fun _ _ => 0x0, [⟨31, 0, .ro⟩]⟩,
  ⟨"BRM_P_EVC_LINKDOWN", 0x144, 1, 0x4, fun _ _ => 0x0, [⟨31, 0, .ro⟩]⟩,
  ⟨"BRM_P_EVC_SAT", 0x14C, 1, 0x4, fun _ _ => 0x0, [⟨13, 0, .w1c⟩, ⟨31, 14, .rwt⟩]⟩]

/-- All registers of BRMP. -/
def brmPRows : List RegRow := brmPRows0 ++ brmPRows1

/-- The registers of SEAM (R326, R328). -/
def seamRows0 : List RegRow := [
  ⟨"SEAM_ID", 0x0, 1, 0x4, fun n _ => BitVec.ofNat 32 (n + (0x1B0 + n) * 65536), [⟨5, 0, .ro⟩, ⟨15, 6, .rwt⟩, ⟨27, 16, .ro⟩, ⟨31, 28, .rwt⟩]⟩,
  ⟨"SEAM_STATUS", 0x4, 1, 0x4, fun _ _ => 0x0, [⟨2, 0, .ro⟩, ⟨3, 3, .ro⟩, ⟨4, 4, .ro⟩, ⟨5, 5, .w1c⟩, ⟨9, 6, .ro⟩, ⟨31, 10, .rwt⟩]⟩,
  ⟨"SEAM_CFG", 0x8, 1, 0x4, fun _ _ => 0x2, [⟨0, 0, .rw⟩, ⟨1, 1, .rw⟩, ⟨31, 2, .rwt⟩]⟩,
  ⟨"SEAM_LAT_PLAN", 0xC, 1, 0x4, fun _ _ => 0x1A4, [⟨11, 0, .rw⟩, ⟨31, 12, .rwt⟩]⟩,
  ⟨"SEAM_LAT_MEAS", 0x10, 1, 0x4, fun _ _ => 0x0, [⟨11, 0, .ro⟩, ⟨31, 12, .rwt⟩]⟩,
  ⟨"SEAM_ELASTIC", 0x14, 1, 0x4, fun _ _ => 0x0, [⟨11, 0, .ro⟩, ⟨31, 12, .rwt⟩]⟩,
  ⟨"SEAM_PEER", 0x18, 1, 0x4, fun _ _ => 0x0, [⟨9, 0, .ro⟩, ⟨15, 10, .ro⟩, ⟨16, 16, .ro⟩, ⟨31, 17, .rwt⟩]⟩,
  ⟨"SEAM_PEER_EXP", 0x1C, 1, 0x4, fun _ _ => 0x0, [⟨9, 0, .rw⟩, ⟨15, 10, .rw⟩, ⟨16, 16, .rw⟩, ⟨31, 17, .rwt⟩]⟩,
  ⟨"SEAM_TXSEQ", 0x20, 1, 0x4, fun _ _ => 0x0, [⟨23, 0, .ro⟩, ⟨31, 24, .rwt⟩]⟩,
  ⟨"SEAM_TXACK", 0x24, 1, 0x4, fun _ _ => 0xFFFFFF, [⟨23, 0, .ro⟩, ⟨31, 24, .rwt⟩]⟩,
  ⟨"SEAM_RXSEQ", 0x28, 1, 0x4, fun _ _ => 0x0, [⟨23, 0, .ro⟩, ⟨31, 24, .rwt⟩]⟩,
  ⟨"SEAM_LANE", 0x2C, 1, 0x4, fun _ _ => 0x0, [⟨3, 0, .ro⟩, ⟨7, 4, .ro⟩, ⟨31, 8, .rwt⟩]⟩,
  ⟨"SEAM_SYMERR_LO", 0x40, 1, 0x4, fun _ _ => 0x0, [⟨31, 0, .ro⟩]⟩,
  ⟨"SEAM_SYMERR_HI", 0x44, 1, 0x4, fun _ _ => 0x0, [⟨31, 0, .ro⟩]⟩,
  ⟨"SEAM_BUSY_LO", 0x100, 1, 0x4, fun _ _ => 0x0, [⟨31, 0, .ro⟩]⟩,
  ⟨"SEAM_BUSY_HI", 0x104, 1, 0x4, fun _ _ => 0x0, [⟨31, 0, .ro⟩]⟩,
  ⟨"SEAM_STALL_LO", 0x108, 1, 0x4, fun _ _ => 0x0, [⟨31, 0, .ro⟩]⟩,
  ⟨"SEAM_STALL_HI", 0x10C, 1, 0x4, fun _ _ => 0x0, [⟨31, 0, .ro⟩]⟩,
  ⟨"SEAM_EVC_UNCORR", 0x110, 1, 0x4, fun _ _ => 0x0, [⟨31, 0, .ro⟩]⟩,
  ⟨"SEAM_EVC_CRC", 0x114, 1, 0x4, fun _ _ => 0x0, [⟨31, 0, .ro⟩]⟩,
  ⟨"SEAM_EVC_RETRY", 0x118, 1, 0x4, fun _ _ => 0x0, [⟨31, 0, .ro⟩]⟩,
  ⟨"SEAM_EVC_TIMEOUT", 0x11C, 1, 0x4, fun _ _ => 0x0, [⟨31, 0, .ro⟩]⟩,
  ⟨"SEAM_EVC_DUP", 0x120, 1, 0x4, fun _ _ => 0x0, [⟨31, 0, .ro⟩]⟩,
  ⟨"SEAM_EVC_LATE", 0x124, 1, 0x4, fun _ _ => 0x0, [⟨31, 0, .ro⟩]⟩]

/-- The registers of SEAM, continued. -/
def seamRows1 : List RegRow := [
  ⟨"SEAM_EVC_LCRED", 0x128, 1, 0x4, fun _ _ => 0x0, [⟨31, 0, .ro⟩]⟩,
  ⟨"SEAM_EVC_FWDWAIT", 0x12C, 1, 0x4, fun _ _ => 0x0, [⟨31, 0, .ro⟩]⟩,
  ⟨"SEAM_EVC_RBFULL", 0x130, 1, 0x4, fun _ _ => 0x0, [⟨31, 0, .ro⟩]⟩,
  ⟨"SEAM_EVC_EMPTY", 0x134, 1, 0x4, fun _ _ => 0x0, [⟨31, 0, .ro⟩]⟩,
  ⟨"SEAM_EVC_VIOL", 0x138, 1, 0x4, fun _ _ => 0x0, [⟨31, 0, .ro⟩]⟩,
  ⟨"SEAM_EVC_RXDROP", 0x13C, 1, 0x4, fun _ _ => 0x0, [⟨31, 0, .ro⟩]⟩,
  ⟨"SEAM_EVC_DRIFT", 0x140, 1, 0x4, fun _ _ => 0x0, [⟨31, 0, .ro⟩]⟩,
  ⟨"SEAM_EVC_LANEFAIL", 0x144, 1, 0x4, fun _ _ => 0x0, [⟨31, 0, .ro⟩]⟩,
  ⟨"SEAM_EVC_SAT", 0x14C, 1, 0x4, fun _ _ => 0x0, [⟨13, 0, .w1c⟩, ⟨31, 14, .rwt⟩]⟩,
  ⟨"SEAM_DOM_DEV", 0x800, 1, 0x4, fun _ _ => 0x0, [⟨9, 0, .ro⟩, ⟨20, 10, .ro⟩, ⟨31, 21, .rwt⟩]⟩,
  ⟨"SEAM_DOM_CFG", 0x804, 1, 0x4, fun _ _ => 0x0, [⟨0, 0, .rw⟩, ⟨31, 1, .rwt⟩]⟩,
  ⟨"SEAM_DOM_ROUTE_BASE_LO", 0x808, 1, 0x4, fun _ _ => 0x0, [⟨31, 0, .rw⟩]⟩,
  ⟨"SEAM_DOM_ROUTE_BASE_HI", 0x80C, 1, 0x4, fun _ _ => 0x0, [⟨7, 0, .rw⟩, ⟨31, 8, .rwt⟩]⟩,
  ⟨"SEAM_DOM_MCAST_BASE_LO", 0x810, 1, 0x4, fun _ _ => 0x0, [⟨31, 0, .rw⟩]⟩,
  ⟨"SEAM_DOM_MCAST_BASE_HI", 0x814, 1, 0x4, fun _ _ => 0x0, [⟨7, 0, .rw⟩, ⟨31, 8, .rwt⟩]⟩,
  ⟨"SEAM_DOM_RXWIN_BASE_LO", 0x818, 1, 0x4, fun _ _ => 0x0, [⟨31, 0, .rw⟩]⟩,
  ⟨"SEAM_DOM_RXWIN_BASE_HI", 0x81C, 1, 0x4, fun _ _ => 0x0, [⟨7, 0, .rw⟩, ⟨31, 8, .rwt⟩]⟩,
  ⟨"SEAM_DOM_UP0", 0x820, 1, 0x4, fun _ _ => 0x0, [⟨31, 0, .ro⟩]⟩,
  ⟨"SEAM_DOM_UP1", 0x824, 1, 0x4, fun _ _ => 0x0, [⟨3, 0, .ro⟩, ⟨31, 4, .rwt⟩]⟩,
  ⟨"SEAM_DOM_HALF0", 0x828, 1, 0x4, fun _ _ => 0x0, [⟨31, 0, .ro⟩]⟩,
  ⟨"SEAM_DOM_HALF1", 0x82C, 1, 0x4, fun _ _ => 0x0, [⟨3, 0, .ro⟩, ⟨31, 4, .rwt⟩]⟩,
  ⟨"SEAM_DOM_RECAL", 0x830, 1, 0x4, fun _ _ => 0x0, [⟨5, 0, .ro⟩, ⟨31, 6, .rwt⟩]⟩]

/-- All registers of SEAM. -/
def seamRows : List RegRow := seamRows0 ++ seamRows1

/-- The registers of ME (R105). -/
def meRows0 : List RegRow := [
  ⟨"ME_ID", 0x0, 1, 0x4, fun n _ => BitVec.ofNat 32 (n + n / 4 * 128 + n * 65536), [⟨6, 0, .ro⟩, ⟨11, 7, .ro⟩, ⟨15, 12, .rwt⟩, ⟨27, 16, .ro⟩, ⟨31, 28, .rwt⟩]⟩,
  ⟨"ME_STATUS", 0x4, 1, 0x4, fun _ _ => 0x60, [⟨0, 0, .ro⟩, ⟨1, 1, .ro⟩, ⟨2, 2, .ro⟩, ⟨3, 3, .ro⟩, ⟨5, 4, .ro⟩, ⟨7, 6, .ro⟩, ⟨15, 8, .ro⟩, ⟨31, 16, .rwt⟩]⟩,
  ⟨"ME_CFG", 0x8, 1, 0x4, fun _ _ => 0x0, [⟨0, 0, .rw⟩, ⟨31, 1, .rwt⟩]⟩,
  ⟨"ME_DTBL_BASE", 0xC, 1, 0x4, fun _ _ => 0x0, [⟨23, 0, .rw⟩, ⟨31, 24, .rwt⟩]⟩,
  ⟨"ME_LAST_DRAIN", 0x10, 1, 0x4, fun _ _ => 0x0, [⟨0, 0, .ro⟩, ⟨1, 1, .ro⟩, ⟨2, 2, .ro⟩, ⟨3, 3, .ro⟩, ⟨4, 4, .ro⟩, ⟨5, 5, .ro⟩, ⟨20, 6, .ro⟩, ⟨22, 21, .ro⟩, ⟨31, 23, .rwt⟩]⟩,
  ⟨"ME_LAST_DRAIN_TENSOR", 0x14, 1, 0x4, fun _ _ => 0x0, [⟨31, 0, .ro⟩]⟩,
  ⟨"ME_LAST_DRAIN_CYC_LO", 0x18, 1, 0x4, fun _ _ => 0x0, [⟨31, 0, .ro⟩]⟩,
  ⟨"ME_LAST_DRAIN_CYC_HI", 0x1C, 1, 0x4, fun _ _ => 0x0, [⟨31, 0, .ro⟩]⟩,
  ⟨"ME_HIST_CTRL", 0x20, 1, 0x4, fun _ _ => 0x0, [⟨0, 0, .wo⟩, ⟨1, 1, .wo⟩, ⟨7, 2, .rwt⟩, ⟨8, 8, .w1c⟩, ⟨9, 9, .w1c⟩, ⟨31, 10, .rwt⟩]⟩,
  ⟨"ME_TACC_SEL", 0x30, 1, 0x4, fun _ _ => 0x0, [⟨6, 0, .rw⟩, ⟨13, 7, .rw⟩, ⟨14, 14, .rw⟩, ⟨31, 15, .rwt⟩]⟩,
  ⟨"ME_TACC_A20", 0x34, 1, 0x4, fun _ _ => 0x0, [⟨19, 0, .ro⟩, ⟨31, 20, .rwt⟩]⟩,
  ⟨"ME_TACC_A34_LO", 0x38, 1, 0x4, fun _ _ => 0x0, [⟨31, 0, .ro⟩]⟩,
  ⟨"ME_TACC_A34_HI", 0x3C, 1, 0x4, fun _ _ => 0x0, [⟨1, 0, .ro⟩, ⟨31, 2, .rwt⟩]⟩,
  ⟨"ME_BUSY_LO", 0x100, 1, 0x4, fun _ _ => 0x0, [⟨31, 0, .ro⟩]⟩,
  ⟨"ME_BUSY_HI", 0x104, 1, 0x4, fun _ _ => 0x0, [⟨31, 0, .ro⟩]⟩,
  ⟨"ME_STALL_LO", 0x108, 1, 0x4, fun _ _ => 0x0, [⟨31, 0, .ro⟩]⟩,
  ⟨"ME_STALL_HI", 0x10C, 1, 0x4, fun _ _ => 0x0, [⟨31, 0, .ro⟩]⟩,
  ⟨"ME_EVC_OVF", 0x110, 1, 0x4, fun _ _ => 0x0, [⟨31, 0, .ro⟩]⟩,
  ⟨"ME_EVC_UNF", 0x114, 1, 0x4, fun _ _ => 0x0, [⟨31, 0, .ro⟩]⟩,
  ⟨"ME_EVC_NONFIN", 0x118, 1, 0x4, fun _ _ => 0x0, [⟨31, 0, .ro⟩]⟩,
  ⟨"ME_EVC_A20OVF", 0x11C, 1, 0x4, fun _ _ => 0x0, [⟨31, 0, .ro⟩]⟩,
  ⟨"ME_EVC_BOUND", 0x120, 1, 0x4, fun _ _ => 0x0, [⟨31, 0, .ro⟩]⟩,
  ⟨"ME_EVC_EMPTY", 0x124, 1, 0x4, fun _ _ => 0x0, [⟨31, 0, .ro⟩]⟩,
  ⟨"ME_EVC_HOLD", 0x128, 1, 0x4, fun _ _ => 0x0, [⟨31, 0, .ro⟩]⟩]

/-- The registers of ME, continued. -/
def meRows1 : List RegRow := [
  ⟨"ME_EVC_DISCARD", 0x12C, 1, 0x4, fun _ _ => 0x0, [⟨31, 0, .ro⟩]⟩,
  ⟨"ME_EVC_VIOL", 0x130, 1, 0x4, fun _ _ => 0x0, [⟨31, 0, .ro⟩]⟩,
  ⟨"ME_EVC_PORTWAIT", 0x134, 1, 0x4, fun _ _ => 0x0, [⟨31, 0, .ro⟩]⟩,
  ⟨"ME_EVC_SAT", 0x13C, 1, 0x4, fun _ _ => 0x0, [⟨9, 0, .w1c⟩, ⟨31, 10, .rwt⟩]⟩,
  ⟨"ME_HIST0_BIN", 0x400, 68, 0x4, fun _ _ => 0x0, [⟨31, 0, .ro⟩]⟩,
  ⟨"ME_HIST1_BIN", 0x600, 68, 0x4, fun _ _ => 0x0, [⟨31, 0, .ro⟩]⟩]

/-- All registers of ME. -/
def meRows : List RegRow := meRows0 ++ meRows1

/-- The registers of CUF (R191). -/
def cufRows0 : List RegRow := [
  ⟨"CUF_ID", 0x0, 1, 0x4, fun p _ => BitVec.ofNat 32 (p + (0x1A0 + p) * 65536), [⟨2, 0, .ro⟩, ⟨15, 3, .rwt⟩, ⟨27, 16, .ro⟩, ⟨31, 28, .rwt⟩]⟩,
  ⟨"CUF_STATUS", 0x4, 1, 0x4, fun _ _ => 0x0, [⟨11, 0, .ro⟩, ⟨16, 12, .ro⟩, ⟨25, 17, .ro⟩, ⟨26, 26, .ro⟩, ⟨27, 27, .ro⟩, ⟨31, 28, .rwt⟩]⟩,
  ⟨"CUF_CFG", 0x8, 1, 0x4, fun _ _ => 0x0, [⟨0, 0, .rw⟩, ⟨1, 1, .rw⟩, ⟨31, 2, .rwt⟩]⟩,
  ⟨"CUF_STALL_LIMIT", 0xC, 1, 0x4, fun _ _ => 0x100000, [⟨31, 0, .rw⟩]⟩,
  ⟨"CUF_GTBL_BASE_LO", 0x10, 1, 0x4, fun _ _ => 0x0, [⟨31, 0, .rw⟩]⟩,
  ⟨"CUF_GTBL_BASE_HI", 0x14, 1, 0x4, fun _ _ => 0x0, [⟨7, 0, .rw⟩, ⟨31, 8, .rwt⟩]⟩,
  ⟨"CUF_SPROG_BASE_LO", 0x18, 1, 0x4, fun _ _ => 0x0, [⟨31, 0, .rw⟩]⟩,
  ⟨"CUF_SPROG_BASE_HI", 0x1C, 1, 0x4, fun _ _ => 0x0, [⟨7, 0, .rw⟩, ⟨31, 8, .rwt⟩]⟩,
  ⟨"CUF_PLAN_BASE_LO", 0x20, 1, 0x4, fun _ _ => 0x0, [⟨31, 0, .rw⟩]⟩,
  ⟨"CUF_PLAN_BASE_HI", 0x24, 1, 0x4, fun _ _ => 0x0, [⟨7, 0, .rw⟩, ⟨31, 8, .rwt⟩]⟩,
  ⟨"CUF_EPOCH", 0x28, 1, 0x4, fun _ _ => 0x0, [⟨15, 0, .ro⟩, ⟨16, 16, .ro⟩, ⟨31, 17, .rwt⟩]⟩,
  ⟨"CUF_STEP", 0x2C, 1, 0x4, fun _ _ => 0x0, [⟨31, 0, .ro⟩]⟩,
  ⟨"CUF_SLOT_SEL", 0x30, 1, 0x4, fun _ _ => 0x0, [⟨10, 0, .rw⟩, ⟨31, 11, .rwt⟩]⟩,
  ⟨"CUF_SLOT_STATE", 0x34, 1, 0x4, fun _ _ => 0x0, [⟨2, 0, .ro⟩, ⟨3, 3, .ro⟩, ⟨15, 4, .ro⟩, ⟨19, 16, .ro⟩, ⟨31, 20, .rwt⟩]⟩,
  ⟨"CUF_BUSY_LO", 0x100, 1, 0x4, fun _ _ => 0x0, [⟨31, 0, .ro⟩]⟩,
  ⟨"CUF_BUSY_HI", 0x104, 1, 0x4, fun _ _ => 0x0, [⟨31, 0, .ro⟩]⟩,
  ⟨"CUF_STALL_LO", 0x108, 1, 0x4, fun _ _ => 0x0, [⟨31, 0, .ro⟩]⟩,
  ⟨"CUF_STALL_HI", 0x10C, 1, 0x4, fun _ _ => 0x0, [⟨31, 0, .ro⟩]⟩,
  ⟨"CUF_EVC_WFULL", 0x110, 1, 0x4, fun _ _ => 0x0, [⟨31, 0, .ro⟩]⟩,
  ⟨"CUF_EVC_RELAX", 0x114, 1, 0x4, fun _ _ => 0x0, [⟨31, 0, .ro⟩]⟩,
  ⟨"CUF_EVC_ABSTAIN", 0x118, 1, 0x4, fun _ _ => 0x0, [⟨31, 0, .ro⟩]⟩,
  ⟨"CUF_EVC_SKIP", 0x11C, 1, 0x4, fun _ _ => 0x0, [⟨31, 0, .ro⟩]⟩,
  ⟨"CUF_EVC_NONFIN", 0x120, 1, 0x4, fun _ _ => 0x0, [⟨31, 0, .ro⟩]⟩,
  ⟨"CUF_EVC_BOUND", 0x124, 1, 0x4, fun _ _ => 0x0, [⟨31, 0, .ro⟩]⟩]

/-- The registers of CUF, continued. -/
def cufRows1 : List RegRow := [
  ⟨"CUF_EVC_EARLY", 0x128, 1, 0x4, fun _ _ => 0x0, [⟨31, 0, .ro⟩]⟩,
  ⟨"CUF_EVC_EPOCHHOLD", 0x12C, 1, 0x4, fun _ _ => 0x0, [⟨31, 0, .ro⟩]⟩,
  ⟨"CUF_EVC_DUP", 0x130, 1, 0x4, fun _ _ => 0x0, [⟨31, 0, .ro⟩]⟩,
  ⟨"CUF_EVC_VIOL", 0x134, 1, 0x4, fun _ _ => 0x0, [⟨31, 0, .ro⟩]⟩,
  ⟨"CUF_EVC_ROLLFWD", 0x138, 1, 0x4, fun _ _ => 0x0, [⟨31, 0, .ro⟩]⟩,
  ⟨"CUF_EVC_TORN", 0x13C, 1, 0x4, fun _ _ => 0x0, [⟨31, 0, .ro⟩]⟩,
  ⟨"CUF_EVC_ANCHOR", 0x140, 1, 0x4, fun _ _ => 0x0, [⟨31, 0, .ro⟩]⟩,
  ⟨"CUF_EVC_LOST", 0x144, 1, 0x4, fun _ _ => 0x0, [⟨31, 0, .ro⟩]⟩,
  ⟨"CUF_EVC_DISCARD", 0x148, 1, 0x4, fun _ _ => 0x0, [⟨31, 0, .ro⟩]⟩,
  ⟨"CUF_EVC_WAIT", 0x14C, 1, 0x4, fun _ _ => 0x0, [⟨31, 0, .ro⟩]⟩,
  ⟨"CUF_EVC_CONV", 0x150, 1, 0x4, fun _ _ => 0x0, [⟨31, 0, .ro⟩]⟩,
  ⟨"CUF_EVC_SAT", 0x15C, 1, 0x4, fun _ _ => 0x0, [⟨16, 0, .w1c⟩, ⟨31, 17, .rwt⟩]⟩]

/-- All registers of CUF. -/
def cufRows : List RegRow := cufRows0 ++ cufRows1

/-- The registers of LNR (R150, R151). -/
def lnrRows0 : List RegRow := [
  ⟨"LNR_ID", 0x0, 1, 0x4, fun _ _ => 0x1A8, [⟨11, 0, .ro⟩, ⟨31, 12, .rwt⟩]⟩,
  ⟨"LNR_STATUS", 0x4, 1, 0x4, fun _ _ => 0x0, [⟨7, 0, .ro⟩, ⟨31, 8, .rwt⟩]⟩,
  ⟨"LNR_DIR_USED", 0x8, 1, 0x4, fun _ _ => 0x0, [⟨16, 0, .ro⟩, ⟨31, 17, .rwt⟩]⟩,
  ⟨"LNR_BUSY_LO", 0x100, 1, 0x4, fun _ _ => 0x0, [⟨31, 0, .ro⟩]⟩,
  ⟨"LNR_BUSY_HI", 0x104, 1, 0x4, fun _ _ => 0x0, [⟨31, 0, .ro⟩]⟩,
  ⟨"LNR_STALL_LO", 0x108, 1, 0x4, fun _ _ => 0x0, [⟨31, 0, .ro⟩]⟩,
  ⟨"LNR_STALL_HI", 0x10C, 1, 0x4, fun _ _ => 0x0, [⟨31, 0, .ro⟩]⟩,
  ⟨"LNR_EVC_FULL", 0x110, 1, 0x4, fun _ _ => 0x0, [⟨31, 0, .ro⟩]⟩,
  ⟨"LNR_EVC_SKIP", 0x114, 1, 0x4, fun _ _ => 0x0, [⟨31, 0, .ro⟩]⟩,
  ⟨"LNR_EVC_RBLK", 0x118, 1, 0x4, fun _ _ => 0x0, [⟨31, 0, .ro⟩]⟩,
  ⟨"LNR_EVC_NONFIN", 0x11C, 1, 0x4, fun _ _ => 0x0, [⟨31, 0, .ro⟩]⟩,
  ⟨"LNR_EVC_EMPTY", 0x120, 1, 0x4, fun _ _ => 0x0, [⟨31, 0, .ro⟩]⟩,
  ⟨"LNR_EVC_HOLD", 0x124, 1, 0x4, fun _ _ => 0x0, [⟨31, 0, .ro⟩]⟩,
  ⟨"LNR_EVC_VIOL", 0x128, 1, 0x4, fun _ _ => 0x0, [⟨31, 0, .ro⟩]⟩,
  ⟨"LNR_EVC_PORTWAIT", 0x12C, 1, 0x4, fun _ _ => 0x0, [⟨31, 0, .ro⟩]⟩,
  ⟨"LNR_EVC_SAT", 0x13C, 1, 0x4, fun _ _ => 0x0, [⟨7, 0, .w1c⟩, ⟨31, 8, .rwt⟩]⟩,
  ⟨"LNR_S_BASE_LO", 0x200, 4, 0x80, fun _ _ => 0x0, [⟨31, 0, .rw⟩]⟩,
  ⟨"LNR_S_BASE_HI", 0x204, 4, 0x80, fun _ _ => 0x0, [⟨7, 0, .rw⟩, ⟨31, 8, .rwt⟩]⟩,
  ⟨"LNR_S_LIMIT_LO", 0x208, 4, 0x80, fun _ _ => 0x0, [⟨31, 0, .rw⟩]⟩,
  ⟨"LNR_S_LIMIT_HI", 0x20C, 4, 0x80, fun _ _ => 0x0, [⟨7, 0, .rw⟩, ⟨31, 8, .rwt⟩]⟩,
  ⟨"LNR_S_CKPT_BASE_LO", 0x210, 4, 0x80, fun _ _ => 0x0, [⟨31, 0, .rw⟩]⟩,
  ⟨"LNR_S_CKPT_BASE_HI", 0x214, 4, 0x80, fun _ _ => 0x0, [⟨7, 0, .rw⟩, ⟨31, 8, .rwt⟩]⟩,
  ⟨"LNR_S_CKPT_TILE", 0x218, 4, 0x80, fun _ _ => 0x0, [⟨31, 0, .rw⟩]⟩,
  ⟨"LNR_S_CKPT_TILES", 0x21C, 4, 0x80, fun _ _ => 0x0, [⟨31, 0, .rw⟩]⟩]

/-- The registers of LNR, continued. -/
def lnrRows1 : List RegRow := [
  ⟨"LNR_S_SCR_BASE_LO", 0x220, 4, 0x80, fun _ _ => 0x0, [⟨31, 0, .rw⟩]⟩,
  ⟨"LNR_S_SCR_BASE_HI", 0x224, 4, 0x80, fun _ _ => 0x0, [⟨7, 0, .rw⟩, ⟨31, 8, .rwt⟩]⟩,
  ⟨"LNR_S_SCR_SIZE", 0x228, 4, 0x80, fun _ _ => 0x0, [⟨31, 0, .rw⟩]⟩,
  ⟨"LNR_S_CTRL", 0x22C, 4, 0x80, fun _ _ => 0x0, [⟨0, 0, .rw⟩, ⟨31, 1, .rwt⟩]⟩,
  ⟨"LNR_S_DIR", 0x230, 4, 0x80, fun _ _ => 0x0, [⟨15, 0, .rw⟩, ⟨31, 16, .rw⟩]⟩,
  ⟨"LNR_S_HEAD_LO", 0x238, 4, 0x80, fun _ _ => 0x0, [⟨31, 0, .ro⟩]⟩,
  ⟨"LNR_S_HEAD_HI", 0x23C, 4, 0x80, fun _ _ => 0x0, [⟨7, 0, .ro⟩, ⟨31, 8, .rwt⟩]⟩,
  ⟨"LNR_S_HWM_LO", 0x240, 4, 0x80, fun _ _ => 0x0, [⟨31, 0, .ro⟩]⟩,
  ⟨"LNR_S_HWM_HI", 0x244, 4, 0x80, fun _ _ => 0x0, [⟨7, 0, .ro⟩, ⟨31, 8, .rwt⟩]⟩,
  ⟨"LNR_S_FULL", 0x248, 4, 0x80, fun _ _ => 0x0, [⟨7, 0, .ro⟩, ⟨8, 8, .ro⟩, ⟨31, 9, .rwt⟩]⟩,
  ⟨"LNR_S_RECOMP0", 0x260, 4, 0x80, fun _ _ => 0x0, [⟨31, 0, .ro⟩]⟩,
  ⟨"LNR_S_RECOMP1", 0x264, 4, 0x80, fun _ _ => 0x0, [⟨31, 0, .ro⟩]⟩,
  ⟨"LNR_S_RECOMP2", 0x268, 4, 0x80, fun _ _ => 0x0, [⟨31, 0, .ro⟩]⟩,
  ⟨"LNR_S_RECOMP3", 0x26C, 4, 0x80, fun _ _ => 0x0, [⟨31, 0, .ro⟩]⟩,
  ⟨"LNR_S_RECOMP4", 0x270, 4, 0x80, fun _ _ => 0x0, [⟨31, 0, .ro⟩]⟩,
  ⟨"LNR_S_RECOMP5", 0x274, 4, 0x80, fun _ _ => 0x0, [⟨31, 0, .ro⟩]⟩,
  ⟨"LNR_S_RECOMP6", 0x278, 4, 0x80, fun _ _ => 0x0, [⟨31, 0, .ro⟩]⟩,
  ⟨"LNR_S_RECOMP7", 0x27C, 4, 0x80, fun _ _ => 0x0, [⟨31, 0, .ro⟩]⟩]

/-- All registers of LNR. -/
def lnrRows : List RegRow := lnrRows0 ++ lnrRows1

/-- The registers of VSR (R515). -/
def vsrRows0 : List RegRow := [
  ⟨"VSR_ID", 0x0, 1, 0x4, fun _ _ => 0x1FC, [⟨11, 0, .ro⟩, ⟨31, 12, .rwt⟩]⟩,
  ⟨"VSR_STATUS", 0x4, 1, 0x4, fun _ _ => 0x0, [⟨6, 0, .ro⟩, ⟨7, 7, .ro⟩, ⟨31, 8, .rwt⟩]⟩,
  ⟨"VSR_CFG", 0x8, 1, 0x4, fun _ _ => 0x0, [⟨0, 0, .rw⟩, ⟨31, 1, .rwt⟩]⟩,
  ⟨"VSR_NOISE_N", 0xC, 1, 0x4, fun _ _ => 0x1, [⟨18, 0, .rw⟩, ⟨31, 19, .rwt⟩]⟩,
  ⟨"VSR_NOISE_T", 0x10, 1, 0x4, fun _ _ => 0x1, [⟨31, 0, .rw⟩]⟩,
  ⟨"VSR_NOISE_STEP", 0x14, 1, 0x4, fun _ _ => 0x0, [⟨31, 0, .ro⟩]⟩,
  ⟨"VSR_NOISE_S", 0x18, 1, 0x4, fun _ _ => 0x0, [⟨31, 0, .ro⟩]⟩,
  ⟨"VSR_NOISE_Q", 0x1C, 1, 0x4, fun _ _ => 0x0, [⟨31, 0, .ro⟩]⟩,
  ⟨"VSR_SEG_BASE_LO", 0x20, 1, 0x4, fun _ _ => 0x0, [⟨31, 0, .rw⟩]⟩,
  ⟨"VSR_SEG_BASE_HI", 0x24, 1, 0x4, fun _ _ => 0x0, [⟨7, 0, .rw⟩, ⟨31, 8, .rwt⟩]⟩,
  ⟨"VSR_HTBL_BASE_LO", 0x28, 1, 0x4, fun _ _ => 0x0, [⟨31, 0, .rw⟩]⟩,
  ⟨"VSR_HTBL_BASE_HI", 0x2C, 1, 0x4, fun _ _ => 0x0, [⟨7, 0, .rw⟩, ⟨31, 8, .rwt⟩]⟩,
  ⟨"VSR_HAREA_BASE_LO", 0x30, 1, 0x4, fun _ _ => 0x0, [⟨31, 0, .rw⟩]⟩,
  ⟨"VSR_HAREA_BASE_HI", 0x34, 1, 0x4, fun _ _ => 0x0, [⟨7, 0, .rw⟩, ⟨31, 8, .rwt⟩]⟩,
  ⟨"VSR_RING_BASE_LO", 0x38, 1, 0x4, fun _ _ => 0x0, [⟨31, 0, .rw⟩]⟩,
  ⟨"VSR_RING_BASE_HI", 0x3C, 1, 0x4, fun _ _ => 0x0, [⟨7, 0, .rw⟩, ⟨31, 8, .rwt⟩]⟩,
  ⟨"VSR_DLOG_SIZE", 0x40, 1, 0x4, fun _ _ => 0x1000, [⟨31, 0, .rw⟩]⟩,
  ⟨"VSR_TLOG_SIZE", 0x44, 1, 0x4, fun _ _ => 0x400, [⟨31, 0, .rw⟩]⟩,
  ⟨"VSR_TREC_LEN", 0x48, 1, 0x4, fun _ _ => telemetryRecordLength, [⟨31, 0, .ro⟩]⟩,
  ⟨"VSR_TPERIOD", 0x4C, 1, 0x4, fun _ _ => 0x400, [⟨31, 0, .rw⟩]⟩,
  ⟨"VSR_DLOG_HEAD_LO", 0x50, 1, 0x4, fun _ _ => 0x0, [⟨31, 0, .ro⟩]⟩,
  ⟨"VSR_DLOG_HEAD_HI", 0x54, 1, 0x4, fun _ _ => 0x0, [⟨31, 0, .ro⟩]⟩,
  ⟨"VSR_DLOG_WRAPS", 0x58, 1, 0x4, fun _ _ => 0x0, [⟨31, 0, .ro⟩]⟩,
  ⟨"VSR_TLOG_HEAD_LO", 0x60, 1, 0x4, fun _ _ => 0x0, [⟨31, 0, .ro⟩]⟩]

/-- The registers of VSR, continued. -/
def vsrRows1 : List RegRow := [
  ⟨"VSR_TLOG_HEAD_HI", 0x64, 1, 0x4, fun _ _ => 0x0, [⟨31, 0, .ro⟩]⟩,
  ⟨"VSR_TLOG_WRAPS", 0x68, 1, 0x4, fun _ _ => 0x0, [⟨31, 0, .ro⟩]⟩,
  ⟨"VSR_DLOG_POST", 0x70, 1, 0x4, fun _ _ => 0x0, [⟨0, 0, .wo⟩, ⟨31, 1, .rwt⟩]⟩,
  ⟨"VSR_EVC_HMIX", 0x110, 1, 0x4, fun _ _ => 0x0, [⟨31, 0, .ro⟩]⟩,
  ⟨"VSR_EVC_HLATE", 0x114, 1, 0x4, fun _ _ => 0x0, [⟨31, 0, .ro⟩]⟩,
  ⟨"VSR_EVC_VIOL", 0x118, 1, 0x4, fun _ _ => 0x0, [⟨31, 0, .ro⟩]⟩,
  ⟨"VSR_EVC_SAT", 0x13C, 1, 0x4, fun _ _ => 0x0, [⟨2, 0, .w1c⟩, ⟨31, 3, .rwt⟩]⟩,
  ⟨"VSR_DLOG_ENTRY", 0x200, 32, 0x4, fun _ _ => 0x0, [⟨31, 0, .rw⟩]⟩]

/-- All registers of VSR. -/
def vsrRows : List RegRow := vsrRows0 ++ vsrRows1

/-- The registers of SEQ (R269). -/
def seqRows0 : List RegRow := [
  ⟨"SEQ_ID", 0x0, 1, 0x4, fun _ _ => 0x2801F8, [⟨11, 0, .ro⟩, ⟨15, 12, .rwt⟩, ⟨21, 16, .ro⟩, ⟨31, 22, .rwt⟩]⟩,
  ⟨"SEQ_STATUS", 0x4, 1, 0x4, fun _ _ => 0x0, [⟨0, 0, .ro⟩, ⟨6, 1, .ro⟩, ⟨31, 7, .rwt⟩]⟩,
  ⟨"SEQ_CFG", 0x8, 1, 0x4, fun _ _ => 0x0, [⟨0, 0, .rw⟩, ⟨1, 1, .rw⟩, ⟨7, 2, .rw⟩, ⟨31, 8, .rwt⟩]⟩,
  ⟨"SEQ_MODE", 0xC, 1, 0x4, fun _ _ => 0x28, [⟨1, 0, .ro⟩, ⟨2, 2, .ro⟩, ⟨4, 3, .ro⟩, ⟨6, 5, .ro⟩, ⟨7, 7, .ro⟩, ⟨31, 8, .rwt⟩]⟩,
  ⟨"SEQ_MODE_NEXT", 0x10, 1, 0x4, fun _ _ => 0x28, [⟨1, 0, .rw⟩, ⟨2, 2, .rw⟩, ⟨4, 3, .rw⟩, ⟨6, 5, .rw⟩, ⟨7, 7, .rw⟩, ⟨31, 8, .rwt⟩]⟩,
  ⟨"SEQ_STEP", 0x14, 1, 0x4, fun _ _ => 0x0, [⟨31, 0, .ro⟩]⟩,
  ⟨"SEQ_EPOCH", 0x18, 1, 0x4, fun _ _ => 0x0, [⟨15, 0, .ro⟩, ⟨31, 16, .rwt⟩]⟩,
  ⟨"SEQ_EPOCH_START_LO", 0x20, 1, 0x4, fun _ _ => 0x0, [⟨31, 0, .rw⟩]⟩,
  ⟨"SEQ_EPOCH_START_HI", 0x24, 1, 0x4, fun _ _ => 0x0, [⟨31, 0, .rw⟩]⟩,
  ⟨"SEQ_PERIOD", 0x28, 1, 0x4, fun _ _ => 0x0, [⟨31, 0, .rw⟩]⟩,
  ⟨"SEQ_MB_COUNT", 0x2C, 1, 0x4, fun _ _ => 0x1, [⟨8, 0, .rw⟩, ⟨31, 9, .rwt⟩]⟩,
  ⟨"SEQ_LAG_LIMIT", 0x30, 1, 0x4, fun _ _ => 0x1000000, [⟨31, 0, .rw⟩]⟩,
  ⟨"SEQ_MAXLAG", 0x34, 1, 0x4, fun _ _ => 0x0, [⟨31, 0, .ro⟩]⟩,
  ⟨"SEQ_LASTLAG", 0x38, 1, 0x4, fun _ _ => 0x0, [⟨31, 0, .ro⟩]⟩,
  ⟨"SEQ_STAGE_BASE_LO", 0x40, 1, 0x4, fun _ _ => 0x0, [⟨31, 0, .rw⟩]⟩,
  ⟨"SEQ_STAGE_BASE_HI", 0x44, 1, 0x4, fun _ _ => 0x0, [⟨7, 0, .rw⟩, ⟨31, 8, .rwt⟩]⟩,
  ⟨"SEQ_BG_DL1", 0x50, 1, 0x4, fun _ _ => 0x400, [⟨31, 0, .rw⟩]⟩,
  ⟨"SEQ_BG_DL2", 0x54, 1, 0x4, fun _ _ => 0x14F46B, [⟨31, 0, .rw⟩]⟩,
  ⟨"SEQ_BG_DL3", 0x58, 1, 0x4, fun _ _ => 0x37E12, [⟨31, 0, .rw⟩]⟩,
  ⟨"SEQ_MEM", 0x5C, 1, 0x4, fun _ _ => 0x0, [⟨3, 0, .ro⟩, ⟨31, 4, .rwt⟩]⟩,
  ⟨"SEQ_BUSY_LO", 0x100, 1, 0x4, fun _ _ => 0x0, [⟨31, 0, .ro⟩]⟩,
  ⟨"SEQ_BUSY_HI", 0x104, 1, 0x4, fun _ _ => 0x0, [⟨31, 0, .ro⟩]⟩,
  ⟨"SEQ_STALL_LO", 0x108, 1, 0x4, fun _ _ => 0x0, [⟨31, 0, .ro⟩]⟩,
  ⟨"SEQ_STALL_HI", 0x10C, 1, 0x4, fun _ _ => 0x0, [⟨31, 0, .ro⟩]⟩]

/-- The registers of SEQ, continued. -/
def seqRows1 : List RegRow := [
  ⟨"SEQ_EVC_CUE", 0x110, 1, 0x4, fun _ _ => 0x0, [⟨31, 0, .ro⟩]⟩,
  ⟨"SEQ_EVC_QLATE", 0x114, 1, 0x4, fun _ _ => 0x0, [⟨31, 0, .ro⟩]⟩,
  ⟨"SEQ_EVC_CREDIT", 0x118, 1, 0x4, fun _ _ => 0x0, [⟨31, 0, .ro⟩]⟩,
  ⟨"SEQ_EVC_UNITFULL", 0x11C, 1, 0x4, fun _ _ => 0x0, [⟨31, 0, .ro⟩]⟩,
  ⟨"SEQ_EVC_WAKE", 0x120, 1, 0x4, fun _ _ => 0x0, [⟨31, 0, .ro⟩]⟩,
  ⟨"SEQ_EVC_FETCH", 0x124, 1, 0x4, fun _ _ => 0x0, [⟨31, 0, .ro⟩]⟩,
  ⟨"SEQ_EVC_RECOMP", 0x128, 1, 0x4, fun _ _ => 0x0, [⟨31, 0, .ro⟩]⟩,
  ⟨"SEQ_EVC_FORCED", 0x12C, 1, 0x4, fun _ _ => 0x0, [⟨31, 0, .ro⟩]⟩,
  ⟨"SEQ_EVC_BGWAIT", 0x130, 1, 0x4, fun _ _ => 0x0, [⟨31, 0, .ro⟩]⟩,
  ⟨"SEQ_EVC_REFWAIT", 0x134, 1, 0x4, fun _ _ => 0x0, [⟨31, 0, .ro⟩]⟩,
  ⟨"SEQ_EVC_NOGATE", 0x138, 1, 0x4, fun _ _ => 0x0, [⟨31, 0, .ro⟩]⟩,
  ⟨"SEQ_EVC_EMPTY", 0x13C, 1, 0x4, fun _ _ => 0x0, [⟨31, 0, .ro⟩]⟩,
  ⟨"SEQ_EVC_VIOL", 0x140, 1, 0x4, fun _ _ => 0x0, [⟨31, 0, .ro⟩]⟩,
  ⟨"SEQ_EVC_SAT", 0x14C, 1, 0x4, fun _ _ => 0x0, [⟨12, 0, .w1c⟩, ⟨31, 13, .rwt⟩]⟩,
  ⟨"SEQ_S_CFG", 0x200, 40, 0x20, fun _ _ => 0x0, [⟨0, 0, .rw⟩, ⟨31, 1, .rwt⟩]⟩,
  ⟨"SEQ_S_BASE_LO", 0x204, 40, 0x20, fun _ _ => 0x0, [⟨31, 0, .rw⟩]⟩,
  ⟨"SEQ_S_BASE_HI", 0x208, 40, 0x20, fun _ _ => 0x0, [⟨7, 0, .rw⟩, ⟨31, 8, .rwt⟩]⟩,
  ⟨"SEQ_S_LEN", 0x20C, 40, 0x20, fun _ _ => 0x0, [⟨31, 0, .rw⟩]⟩,
  ⟨"SEQ_S_HEAD", 0x210, 40, 0x20, fun _ _ => 0x0, [⟨31, 0, .ro⟩]⟩,
  ⟨"SEQ_S_TAIL", 0x214, 40, 0x20, fun _ _ => 0x0, [⟨31, 0, .rw⟩]⟩,
  ⟨"SEQ_S_LAG", 0x218, 40, 0x20, fun _ _ => 0x0, [⟨31, 0, .ro⟩]⟩,
  ⟨"SEQ_S_STATUS", 0x21C, 40, 0x20, fun _ _ => 0x0, [⟨3, 0, .ro⟩, ⟨4, 4, .ro⟩, ⟨5, 5, .ro⟩, ⟨31, 6, .rwt⟩]⟩,
  ⟨"SEQ_CUE", 0x800, 224, 0x4, fun _ _ => 0x0, [⟨31, 0, .rw⟩]⟩,
  ⟨"SEQ_CUE_HW", 0xB80, 32, 0x4, fun _ _ => 0x0, [⟨31, 0, .ro⟩]⟩]

/-- The registers of SEQ, continued. -/
def seqRows2 : List RegRow := [
  ⟨"SEQ_Q_CFG", 0xC00, 64, 0x10, fun _ _ => 0x0, [⟨0, 0, .rw⟩, ⟨1, 1, .rw⟩, ⟨5, 2, .rw⟩, ⟨15, 6, .rw⟩, ⟨21, 16, .rw⟩, ⟨31, 22, .rwt⟩]⟩,
  ⟨"SEQ_Q_CRED", 0xC04, 64, 0x10, fun _ _ => 0x0, [⟨4, 0, .ro⟩, ⟨31, 5, .rwt⟩]⟩,
  ⟨"SEQ_Q_ARR", 0xC08, 64, 0x10, fun _ _ => 0x0, [⟨31, 0, .ro⟩]⟩,
  ⟨"SEQ_Q_CONS", 0xC0C, 64, 0x10, fun _ _ => 0x0, [⟨31, 0, .ro⟩]⟩]

/-- All registers of SEQ. -/
def seqRows : List RegRow := seqRows0 ++ seqRows1 ++ seqRows2

/-- The registers of ROW (R148). -/
def rowRows : List RegRow := [
  ⟨"ROW_ID", 0x0, 1, 0x4, fun n _ => BitVec.ofNat 32 (n + (0x80 + n) * 65536), [⟨4, 0, .ro⟩, ⟨15, 5, .rwt⟩, ⟨27, 16, .ro⟩, ⟨31, 28, .rwt⟩]⟩,
  ⟨"ROW_STATUS", 0x4, 1, 0x4, fun _ _ => 0x4, [⟨0, 0, .ro⟩, ⟨2, 1, .ro⟩, ⟨7, 3, .rwt⟩, ⟨15, 8, .ro⟩, ⟨31, 16, .rwt⟩]⟩,
  ⟨"ROW_DTBL_BASE", 0xC, 1, 0x4, fun _ _ => 0x0, [⟨23, 0, .rw⟩, ⟨31, 24, .rwt⟩]⟩,
  ⟨"ROW_CTBL_BASE", 0x10, 1, 0x4, fun _ _ => 0x0, [⟨23, 0, .rw⟩, ⟨31, 24, .rwt⟩]⟩,
  ⟨"ROW_TBL_VALID", 0x14, 1, 0x4, fun _ _ => 0x0, [⟨15, 0, .ro⟩, ⟨31, 16, .ro⟩]⟩,
  ⟨"ROW_BUSY_LO", 0x100, 1, 0x4, fun _ _ => 0x0, [⟨31, 0, .ro⟩]⟩,
  ⟨"ROW_BUSY_HI", 0x104, 1, 0x4, fun _ _ => 0x0, [⟨31, 0, .ro⟩]⟩,
  ⟨"ROW_STALL_LO", 0x108, 1, 0x4, fun _ _ => 0x0, [⟨31, 0, .ro⟩]⟩,
  ⟨"ROW_STALL_HI", 0x10C, 1, 0x4, fun _ _ => 0x0, [⟨31, 0, .ro⟩]⟩,
  ⟨"ROW_EVC_OVF", 0x110, 1, 0x4, fun _ _ => 0x0, [⟨31, 0, .ro⟩]⟩,
  ⟨"ROW_EVC_UNF", 0x114, 1, 0x4, fun _ _ => 0x0, [⟨31, 0, .ro⟩]⟩,
  ⟨"ROW_EVC_NONFIN", 0x118, 1, 0x4, fun _ _ => 0x0, [⟨31, 0, .ro⟩]⟩,
  ⟨"ROW_EVC_RBLK", 0x11C, 1, 0x4, fun _ _ => 0x0, [⟨31, 0, .ro⟩]⟩,
  ⟨"ROW_EVC_EMPTY", 0x120, 1, 0x4, fun _ _ => 0x0, [⟨31, 0, .ro⟩]⟩,
  ⟨"ROW_EVC_HOLD", 0x124, 1, 0x4, fun _ _ => 0x0, [⟨31, 0, .ro⟩]⟩,
  ⟨"ROW_EVC_VIOL", 0x128, 1, 0x4, fun _ _ => 0x0, [⟨31, 0, .ro⟩]⟩,
  ⟨"ROW_EVC_PORTWAIT", 0x12C, 1, 0x4, fun _ _ => 0x0, [⟨31, 0, .ro⟩]⟩,
  ⟨"ROW_EVC_SAT", 0x13C, 1, 0x4, fun _ _ => 0x0, [⟨7, 0, .w1c⟩, ⟨31, 8, .rwt⟩]⟩]

/-- The registers of TPX (R516). -/
def tpxRows : List RegRow := [
  ⟨"TPX_STATUS", 0x0, 1, 0x4, fun _ _ => 0x0, [⟨0, 0, .ro⟩, ⟨1, 1, .ro⟩, ⟨31, 2, .rwt⟩]⟩,
  ⟨"TPX_SD", 0x10, 4, 0x4, fun _ _ => 0x0, [⟨5, 0, .rw⟩, ⟨6, 6, .rw⟩, ⟨7, 7, .rwt⟩, ⟨23, 8, .rw⟩, ⟨31, 24, .rwt⟩]⟩,
  ⟨"TPX_CD", 0x20, 4, 0x4, fun _ _ => 0x0, [⟨5, 0, .rw⟩, ⟨6, 6, .rw⟩, ⟨7, 7, .rwt⟩, ⟨15, 8, .rw⟩, ⟨23, 16, .rw⟩, ⟨31, 24, .rwt⟩]⟩,
  ⟨"TPX_ST_CFG", 0x30, 1, 0x4, fun _ _ => 0x0, [⟨5, 0, .rw⟩, ⟨6, 6, .rw⟩, ⟨7, 7, .rw⟩, ⟨15, 8, .rwt⟩, ⟨31, 16, .rw⟩]⟩,
  ⟨"TPX_ST_CMD", 0x34, 1, 0x4, fun _ _ => 0x0, [⟨15, 0, .rw⟩, ⟨31, 16, .rwt⟩]⟩,
  ⟨"TPX_EVC_SEAMDLY", 0x110, 1, 0x4, fun _ _ => 0x0, [⟨31, 0, .ro⟩]⟩,
  ⟨"TPX_EVC_CDENY", 0x114, 1, 0x4, fun _ _ => 0x0, [⟨31, 0, .ro⟩]⟩,
  ⟨"TPX_EVC_STRETCH", 0x118, 1, 0x4, fun _ _ => 0x0, [⟨31, 0, .ro⟩]⟩,
  ⟨"TPX_EVC_VIOL", 0x11C, 1, 0x4, fun _ _ => 0x0, [⟨31, 0, .ro⟩]⟩,
  ⟨"TPX_EVC_SAT", 0x13C, 1, 0x4, fun _ _ => 0x0, [⟨3, 0, .w1c⟩, ⟨31, 4, .rwt⟩]⟩]

/-- The register table of a block. -/
def Block.rows : Block → List RegRow
  | .aon => aonRows
  | .gnt => gntRows
  | .ident => identRows
  | .cph => cphRows
  | .cphA => cphARows
  | .hpt => hptRows
  | .hptP => hptPRows
  | .slt => sltRows
  | .brm => brmRows
  | .brmP => brmPRows
  | .seam => seamRows
  | .me => meRows
  | .cuf => cufRows
  | .lnr => lnrRows
  | .vsr => vsrRows
  | .seq => seqRows
  | .row => rowRows
  | .tpx => tpxRows

/-- The event counters of a block: the offset of the first and how many (R495). -/
def Block.counters : Block → Nat × Nat
  | .aon => (0x110, 7)
  | .gnt => (0x110, 9)
  | .ident => (0x14, 1)
  | .cph => (0x120, 3)
  | .cphA => (0x20, 5)
  | .hpt => (0x110, 5)
  | .hptP => (0x110, 4)
  | .slt => (0x110, 12)
  | .brm => (0x110, 11)
  | .brmP => (0x110, 14)
  | .seam => (0x110, 14)
  | .me => (0x110, 10)
  | .cuf => (0x110, 17)
  | .lnr => (0x110, 8)
  | .vsr => (0x110, 3)
  | .seq => (0x110, 13)
  | .row => (0x110, 8)
  | .tpx => (0x110, 4)

/-- The offset of a block's `*_EVC_SAT` register; the ID block has none (R423). -/
def Block.satOff : Block → Option Nat
  | .aon => some 0x13C
  | .gnt => some 0x13C
  | .ident => none
  | .cph => some 0x13C
  | .cphA => some 0x3C
  | .hpt => some 0x13C
  | .hptP => some 0x13C
  | .slt => some 0x14C
  | .brm => some 0x14C
  | .brmP => some 0x14C
  | .seam => some 0x14C
  | .me => some 0x13C
  | .cuf => some 0x15C
  | .lnr => some 0x13C
  | .vsr => some 0x13C
  | .seq => some 0x14C
  | .row => some 0x13C
  | .tpx => some 0x13C

/-- The base address of instance `n` of a block (R520). -/
def Block.base (b : Block) (n : Nat) : Nat :=
  match b with
  | .aon => 0x0
  | .gnt => 0x10000
  | .ident => 0x20000
  | .cph => 0x40000
  | .cphA => 0x40400 + 0x40 * n
  | .hpt => 0x80000
  | .hptP => 0x81000 + 0x1000 * n
  | .slt => 0xA0000
  | .brm => 0xC0000
  | .brmP => 0xC1000 + 0x1000 * n
  | .seam => 0x100000 + 0x1000 * n
  | .me => 0x200000 + 0x1000 * n
  | .cuf => 0x300000 + 0x2000 * n
  | .lnr => 0x340000
  | .vsr => 0x360000
  | .seq => 0x380000
  | .row => 0x3A0000 + 0x1000 * n
  | .tpx => 0x3C0000

/-- The block instance and offset that an address below 0x0040_0000 lies in; none: unassigned (R520). -/
def locate (a : Nat) : Option (Block × Nat × Nat) :=
  if a < 0x10000 then some (.aon, 0, a)
  else if a < 0x20000 then some (.gnt, 0, a - 0x10000)
  else if a < 0x40000 then some (.ident, 0, a - 0x20000)
  else if a < 0x80000 then
    if 0x40400 ≤ a ∧ a < 0x40700 then some (.cphA, (a - 0x40400) / 0x40, (a - 0x40400) % 0x40)
    else some (.cph, 0, a - 0x40000)
  else if a < 0xA0000 then
    if 0x81000 ≤ a ∧ a < 0x85000 then some (.hptP, (a - 0x81000) / 0x1000, a % 0x1000)
    else some (.hpt, 0, a - 0x80000)
  else if a < 0xC0000 then some (.slt, 0, a - 0xA0000)
  else if a < 0x100000 then
    if 0xC1000 ≤ a ∧ a < 0xC9000 then some (.brmP, (a - 0xC1000) / 0x1000, a % 0x1000)
    else some (.brm, 0, a - 0xC0000)
  else if a < 0x124000 then some (.seam, (a - 0x100000) / 0x1000, a % 0x1000)
  else if a < 0x200000 then none
  else if a < 0x280000 then some (.me, (a - 0x200000) / 0x1000, a % 0x1000)
  else if a < 0x300000 then none
  else if a < 0x310000 then some (.cuf, (a - 0x300000) / 0x2000, a % 0x2000)
  else if a < 0x340000 then none
  else if a < 0x360000 then some (.lnr, 0, a - 0x340000)
  else if a < 0x380000 then some (.vsr, 0, a - 0x360000)
  else if a < 0x3A0000 then some (.seq, 0, a - 0x380000)
  else if a < 0x3C0000 then some (.row, (a - 0x3A0000) / 0x1000, a % 0x1000)
  else if a < 0x400000 then some (.tpx, 0, a - 0x3C0000)
  else none

/-- The row that places a register at offset `off` (R533: none when no row does). -/
def findRow (rows : List RegRow) (off : Nat) : Option RegRow :=
  rows.find? fun r => r.off ≤ off && (off - r.off) % r.stride == 0 && (off - r.off) / r.stride < r.count

/-- The register at offset `off` of instance `n` of a block; the offsets from 0x800 of a Seam link exist in link 0
only (R326, R328). -/
def Block.regRow (b : Block) (n off : Nat) : Option RegRow :=
  if b = .seam ∧ n ≠ 0 ∧ 0x800 ≤ off then none else findRow b.rows off

/-- The value a register holds after a full device reset (R6); 0 where there is no register. -/
def resetWord (a : Nat) : Word :=
  match locate a with
  | none => 0
  | some (b, n, off) =>
    match b.regRow n off with
    | none => 0
    | some r => r.reset n ((off - r.off) / r.stride)

end Sys2Proof.Machine
end

