-- ==== Sys2Proof/Machine/Store.lean ====
section
/-! DEFINITION. Sparse stores: `Tbl`, values by key with keys strictly rising, and byte memory in canonical form (keys
strictly rising, no cell equal to 0, what an unlisted address reads as). -/

namespace Sys2Proof.Machine

/-- Values by key, keys strictly rising. -/
abbrev Tbl (α : Type) := List (Nat × α)

/-- The value at a key; `d` where none is listed. -/
def Tbl.get {α : Type} (d : α) (t : Tbl α) (k : Nat) : α :=
  match t.find? (·.1 == k) with
  | some p => p.2
  | none => d

/-- The value at a key, if listed. -/
def Tbl.get? {α : Type} (t : Tbl α) (k : Nat) : Option α := (t.find? (·.1 == k)).map (·.2)

/-- The table with the value at `k` replaced by `v`. -/
def Tbl.set {α : Type} (t : Tbl α) (k : Nat) (v : α) : Tbl α :=
  t.filter (·.1 < k) ++ (k, v) :: t.filter (k < ·.1)

/-- The table without an entry at `k`. -/
def Tbl.erase {α : Type} (t : Tbl α) (k : Nat) : Tbl α := t.filter (·.1 != k)

/-- The value at `k` passed through `f`. -/
def Tbl.modify {α : Type} (d : α) (t : Tbl α) (k : Nat) (f : α → α) : Tbl α := t.set k (f (t.get d k))

/-- Keys strictly rising. -/
def Tbl.wf {α : Type} (t : Tbl α) : Bool := decide (t.Pairwise fun a b => a.1 < b.1)

/-- Byte memory: cells with addresses strictly rising and no cell of value 0. -/
abbrev Memory := List Host.Cell

/-- One byte; an unlisted address reads 0. -/
def Memory.get (m : Memory) (a : Nat) : Byte := Tbl.get 0 m a

/-- The cells that `bs` from address `a` lists: those that are not 0. -/
def Memory.cells : Nat → List Byte → Memory
  | _, [] => []
  | a, b :: bs => if b = 0 then cells (a + 1) bs else (a, b) :: cells (a + 1) bs

/-- The memory with the bytes `bs` stored from address `a`. -/
def Memory.write (m : Memory) (a : Nat) (bs : List Byte) : Memory :=
  m.filter (·.1 < a) ++ Memory.cells a bs ++ m.filter (a + bs.length ≤ ·.1)

/-- `n` bytes from address `a`. -/
def Memory.read (m : Memory) (a n : Nat) : List Byte := (List.range n).map fun i => m.get (a + i)

/-- The canonical form. -/
def Memory.wf (m : Memory) : Bool := Tbl.wf m && m.all (·.2 != 0)

/-- A little-endian number from bytes. -/
def leNat : List Byte → Nat
  | [] => 0
  | b :: bs => b.toNat + 256 * leNat bs

/-- The `n` little-endian bytes of a number. -/
def leBytes : Nat → Nat → List Byte
  | 0, _ => []
  | n + 1, v => BitVec.ofNat 8 v :: leBytes n (v / 256)

/-- The big-endian number of a byte list. -/
def beNat (bs : List Byte) : Nat := bs.foldl (fun acc b => acc * 256 + b.toNat) 0

/-- The `n` big-endian bytes of a number. -/
def beBytes (n v : Nat) : List Byte := (leBytes n v).reverse

/-- A little-endian number of `n` bytes in memory. -/
def Memory.readNat (m : Memory) (a n : Nat) : Nat := leNat (m.read a n)

/-- The memory with the `n` little-endian bytes of `v` stored. -/
def Memory.writeNat (m : Memory) (a n v : Nat) : Memory := m.write a (leBytes n v)

/-- Bits `[lo + w - 1 : lo]` of a number. -/
def bits (v lo w : Nat) : Nat := v / 2 ^ lo % 2 ^ w

/-- Bit `i` of a number. -/
def bit (v i : Nat) : Bool := v / 2 ^ i % 2 == 1

/-- 1 for true. -/
def b2n (b : Bool) : Nat := if b then 1 else 0

/-- `w` with its bits `[lo + n - 1 : lo]` replaced by `v`. -/
def putBits (w lo n v : Nat) : Nat := w - bits w lo n * 2 ^ lo + v % 2 ^ n * 2 ^ lo

/-- The bytes that `n` elements of `w` bits take with their padding: 6-bit elements fill groups of 3 bytes (R28). -/
def packedBytes (w n : Nat) : Nat := if w = 6 then 3 * ((n + 3) / 4) else (n * w + 7) / 8

/-- Elements of `w` bits packed as one little-endian bit string (R28), padding zero, as bytes. -/
def packBits (w : Nat) (codes : List Nat) : List Byte :=
  leBytes (packedBytes w codes.length)
    ((codes.foldl (fun (acc : Nat × Nat) c => (acc.1 + (c % 2 ^ w) * 2 ^ acc.2, acc.2 + w)) (0, 0)).1)

/-- Element `i` of a packed line of `w`-bit elements that starts at byte `a` (R28). -/
def elemCode (m : Memory) (a w i : Nat) : Nat :=
  bits (m.readNat (a + w * i / 8) (if w % 8 = 0 then w / 8 else 2)) (w * i % 8) w

end Sys2Proof.Machine
end

