-- ==== Sys2Proof/Machine/State.lean ====
section
/-! DEFINITION. The state of the block as plain data, the stops, and the machine right after reset. Everything that a
register shows and that has no other home lies in `regs`. INVENTORY.md lists every field with its rule and reset. -/

namespace Sys2Proof.Machine

/-! ### Clocks, pins, register window -/

/-- The two clocks and the time of day (R5, R454, R459). -/
structure Clk where
  /-- The fabric cycle counter (R454). -/
  fcnt : Nat := 0
  /-- Always-on cycles counted (R5). -/
  acnt : Nat := 0
  /-- Sixteenths of an always-on cycle counted since its last edge, of `15 * k` (R453). -/
  phase : Nat := 0
  todSec : Nat := 0
  todNs : Nat := 0
  /-- The core clock is stopped for a frequency switch (R470). -/
  held : Bool := false
  deriving DecidableEq, Repr

/-- Pins (R544, R549): true means asserted. -/
structure Pins where
  porst : Bool := false
  resetN : Bool := false
  pwrgood : Bool := true
  strap : BitVec 2 := 0
  safe : Bool := false
  alert : Bool := false
  thermTrip : Bool := false
  mainEn : Bool := false
  hbmEn : Bool := false
  /-- The JTAG instruction in force (R545). -/
  jtag : JtagInsn := .bypass
  deriving DecidableEq, Repr

/-- The shadow of a block instance (R529); `hi2` is the second latched word of `AON_TOD_NS` (R478), and `refused` says that
a refused test access loaded it (R109). -/
structure Shadow where
  off : Nat
  master : Nat
  hi : Word
  hi2 : Word := 0
  refused : Bool := false
  deriving DecidableEq, Repr

/-! ### Gauntlet (15_gauntlet_faults_counters_test) -/

/-- A fault record (R482) with its capture time in ac and its grace G (R487). -/
structure FaultRec where
  unit : Nat
  access : Nat
  cause : Nat
  stage : Nat
  isOpen : Bool
  detail : Nat
  rep : Nat
  addr : Nat
  fcyc : Nat
  todSec : Nat
  todNs : Nat
  capAc : Nat
  grace : Nat
  deriving DecidableEq, Repr

/-- Gauntlet's state that no register holds (R481 to R493). -/
structure Gauntlet where
  /-- The log's records by entry (R482). -/
  recs : Tbl FaultRec := []
  /-- The always-on cycle of each policy core's last `GNT_WDT` write or miss (R486). -/
  wdt : List Nat := [0, 0, 0, 0]
  /-- Isolated units (R488). -/
  isolated : List Nat := []
  /-- The step this device aborted last (R489). -/
  aborted : Option Nat := none
  /-- Offsets of the words whose stored parity no longer matches (R492). -/
  bad : List Nat := []
  deriving DecidableEq, Repr

/-! ### Events to the coordinator (R439, R440) -/

/-- An event: its fields and the 24 bytes of ARG (R440). -/
structure HostEvent where
  kind : Nat
  unit : Nat
  fcyc : Nat
  todSec : Nat
  todNs : Nat
  arg : List Byte
  deriving DecidableEq, Repr

/-! ### Matrix engines (03_matrix_engines) -/

/-- One accumulator set (R79 to R84, R103): rows of A34 codes, unlisted +0. -/
structure AccSet where
  rows : Tbl (List (BitVec 34)) := []
  /-- A promotion has been made into the set since it was reset (R84). -/
  promoted : Bool := false
  promo : Nat := 0
  boundOk : Bool := true
  /-- Holds an open tile (R79). -/
  opened : Bool := false
  /-- PREC code in force for the tile (R82). -/
  prec : Nat := 1
  /-- Cycle in which the latest promotion starts (R78), once one has been made. -/
  lastPromo : Option Nat := none
  /-- Earliest cycle of a legal swap (R89). -/
  ready : Nat := 0
  /-- Rows marked poisoned (R103). -/
  poisoned : List Nat := []
  /-- Rows whose stored parity no longer matches (R103); no command of the table changes it (DESIGN CHOICE, log 127). -/
  badRows : List Nat := []
  deriving DecidableEq, Repr

/-- A PROD issued and not complete (R71, R77): its number in the order of issue, its issue cycle and the cycles by which
holds have moved it, the 16 bytes of its operands' descriptors as read at its acceptance (R68, R75, log 41), its first
operand entry once made, and the next partial: pass, first entry, and whether its first half was promoted by R83. -/
structure ProdRun where
  cmd : Cmd
  serial : Nat := 0
  issue : Nat
  moved : Nat := 0
  aDesc : Nat := 0
  bDesc : Nat := 0
  first : Option Nat := none
  pass : Nat := 0
  next : Nat := 0
  half : Bool := false
  deriving DecidableEq, Repr

/-- A DRAIN issued and not swapped yet (R71): its number in the order of issue, its issue cycle and the cycles by which
holds have moved it, the 16 bytes of its output descriptor as read at its acceptance (log 41), and the step of its
stochastic draws (R50) and the layout epoch of its issue (R158). -/
structure DrainRun where
  cmd : Cmd
  serial : Nat := 0
  issue : Nat
  moved : Nat := 0
  desc : Nat := 0
  step : Nat
  lepoch : Nat
  deriving DecidableEq, Repr

/-- A command that moves nothing, or starts nothing, until its minimum cycle count has passed (R75, R76, R558). -/
structure ShortRun where
  serial : Nat
  issue : Nat
  doneAt : Nat
  deriving DecidableEq, Repr

/-- A drain that has swapped and is not complete (R558): the beats still to be added or accepted (partition, TENSOR and
flat index), or the cycle in which it completes. -/
structure Draining where
  dest : Nat
  left : List (Nat × Nat × Nat)
  doneAt : Nat
  /-- What `ME_LAST_DRAIN_CYC`, `ME_LAST_DRAIN` and `ME_LAST_DRAIN_TENSOR` take when it completes (R91, R108). -/
  cyc : Nat
  last : Word
  tensor : Word
  deriving DecidableEq, Repr

/-- A slot-drain beat on its way to the cluster port (R95, R96): where it goes, and when it is converted. -/
structure OutBeat where
  /-- Remote device, or none for the local partition. -/
  device : Option Nat
  part : Nat
  beat : Beat
  readyAt : Nat
  deriving DecidableEq, Repr

/-- What the conversion of one line or beat counts, and the histogram bins of its values (R93, R99). -/
structure LineCounts where
  ovf : Nat := 0
  unf : Nat := 0
  nonfin : Nat := 0
  bank : Nat := 0
  bins : List Nat := []
  deriving DecidableEq, Repr

/-- A matrix engine. -/
structure Engine where
  act : AccSet := {}
  /-- The shadow set (R89). -/
  shadow : AccSet := {}
  /-- The A20 partials of the cells (R34, R109). -/
  a20 : Tbl (List (BitVec 20)) := []
  prods : List ProdRun := []
  drains : List DrainRun := []
  draining : List Draining := []
  short : List ShortRun := []
  /-- Beats read from the shadow that the port has not accepted, and beats the shadow still holds (R96). -/
  beats : List OutBeat := []
  unread : List (OutBeat × LineCounts) := []
  /-- Cycle in which the shadow's latest beat left it. -/
  lastRead : Nat := 0
  /-- What the drain in progress counts, and its histogram bins, by the cycle of the conversion (R97, R98). -/
  counts : List (Nat × LineCounts) := []
  /-- Cycle from which the shadow is empty, once no beat is left in it (R97, R98). -/
  shadowFree : Nat := 0
  /-- Cycle after the last operand entry of the latest PROD that entered (R77). -/
  entriesEnd : Nat := 0
  /-- Commands accepted, by which they are numbered (R71). -/
  serial : Nat := 0
  /-- Holds by which a command issued until their end is moved: end and length (R71). -/
  holds : List (Nat × Nat) := []
  /-- Runs of cycles that `ME_STALL` has counted: first and end (R71). -/
  stalled : List (Nat × Nat) := []
  deriving DecidableEq, Repr

/-! ### Row units and the Liner (04_backward_pass) -/

/-- The row-unit commands (R119); `undef` is an opcode of the range that none of them has (R128). -/
inductive RowOp where
  | red | ew | fn | rblk | tblld | undef
  deriving DecidableEq, Repr

/-- A row-unit or Liner command that waits to start: its issue cycle, the step of its draws (R50) and the layout epoch
of its issue (R158). -/
structure HeldCmd where
  cmd : Cmd
  issue : Nat
  step : Nat
  lepoch : Nat
  deriving DecidableEq, Repr

/-- A row unit (R117, R118). -/
structure RowUnit where
  /-- Row-scalar vectors RV0 to RV14. -/
  rv : Tbl (List Word) := []
  /-- Table memory: the image of slot t's forward table at 2t, of its derivative table at 2t + 1 (R125). -/
  tables : Tbl (List Byte) := []
  held : List (RowOp × HeldCmd) := []
  busyTo : Nat := 0
  beats : List OutBeat := []
  deriving DecidableEq, Repr

/-- A directory entry: address, kind and shape, with the element width in bits, the code lines and their length (R139). -/
structure DirEntry where
  addr : Nat
  kind : Nat
  rows : Nat
  cols : Nat
  width : Nat
  codeLines : Nat
  codeLen : Nat
  deriving DecidableEq, Repr

/-- The Liner commands (R134); `undef` is an opcode of the range that none of them has. -/
inductive LnrOp where
  | stash | unstash | sreset | undef
  deriving DecidableEq, Repr

/-- One cluster's Liner commands (R134); those of no cluster, SRESET, stand at key 32. -/
structure LnrQueue where
  streamTo : Nat := 0
  held : List (LnrOp × HeldCmd) := []
  /-- Completion cycles of the commands that have started (R140). -/
  doneAt : List Nat := []
  /-- Places of the port that the stream in progress leaves unused in its last cycle (R96, R140). -/
  spare : Nat := 0
  /-- Stage of the STASH that streams (R244). -/
  stash : Option Nat := none
  deriving DecidableEq, Repr

/-- The Liner's state that no register holds. -/
structure Liner where
  queues : Tbl LnrQueue := []
  /-- The 65,536-entry directory, valid entries only (R137). -/
  dir : Tbl DirEntry := []
  /-- Scratch directories: stage s, entry e at 65536 s + e (R139). -/
  scrDir : Tbl DirEntry := []
  /-- Micro-batch the latest SCR 1 STASH of a stage named, and the scratch bytes allocated for it (R139). -/
  scrMb : Tbl Nat := []
  scrUsed : Tbl Nat := []
  /-- First dynamic-area address that a stage's micro-batch allocated, at 256 s + b (R143). -/
  firstAlloc : Tbl Nat := []
  /-- Shapes of checkpoint tiles, at 2^32 s + 2^24 b + t (R141). -/
  ckpt : Tbl DirEntry := []
  /-- Completion cycle of the latest STASH of each stage (R143). -/
  stageDone : Tbl Nat := []
  /-- `LNR_BUSY` is counted up to this cycle. -/
  busyTo : Nat := 0
  deriving DecidableEq, Repr

/-! ### The sequencer and the service cores (07_clockwork) -/

/-- Where an EXPAND stands (R237, R238): forward passes, the wait for the stage's stashes, the recompute preamble, the
recomputed forward template, the backward templates, the wait for UNSTASH commands, and the lead's wait. -/
inductive ExpandPhase where
  | forward | stashWait | preamble | refwd | backward | unstashWait | leadWait
  deriving DecidableEq, Repr

/-- An EXPAND under way (R237): its command, phase, micro-batch and index in the template. -/
structure Expansion where
  cmd : Cmd
  phase : ExpandPhase
  mb : Nat
  idx : Nat
  /-- Clusters this stream's backward pass sent UNSTASH commands to. -/
  clusters : List Nat
  deriving DecidableEq, Repr

/-- An issue stream (R225, R227, R228). -/
structure Stream where
  /-- Step whose program runs. -/
  step : Nat := 0
  /-- Planned offset that the next DELTA counts from. -/
  offset : Nat := 0
  lastIssue : Nat := 0
  /-- No command has issued in the program yet, so that the compatibility order has no previous one. -/
  fresh : Bool := true
  /-- Commands in the prefetch buffer (R225); a count (DEDUCED, log 129). -/
  fetched : Nat := 0
  /-- Cycles in which commands that `zc.issue` appended reach the ring, by index (R265). -/
  ringAt : Tbl Nat := []
  expand : Option Expansion := none
  /-- The next command waits for an RONLY UNSTASH of this cluster (R238). -/
  ronly : Option Nat := none
  /-- Earliest cycle by a stretch (R511), and forced slots (R259). -/
  notBefore : Nat := 0
  deriving DecidableEq, Repr

/-- A SLEEP whose gating has not taken effect, or a unit that is gated or waking (R250). -/
structure Gate where
  level : Nat
  /-- Cycle in which the wake starts; none for NEXT = 0xFFFF_FFFF (R251). -/
  wakeAt : Option Nat
  /-- 0 waits for idleness, 1 gated, 2 waking. -/
  phase : Nat
  /-- Cycle in which the phase's own action falls due: entry complete, or wake complete. -/
  at' : Nat
  /-- A SLEEP that found the unit in its wake: level and wake cycle. -/
  next : Option (Nat × Option Nat) := none
  deriving DecidableEq, Repr

/-- A service core (R232, R265, R267): its START, registers x1 to x31, and what its hart waits for. -/
structure Core where
  busy : Bool := false
  entry : Nat := 0
  regs : Tbl (BitVec 64) := []
  /-- zc.wait's target (R265). -/
  waitUntil : Option Nat := none
  /-- zc.cuewait's cue and value (R265). -/
  waitCue : Option (Nat × Nat) := none
  illegal : Bool := false
  beats : List OutBeat := []
  /-- Working copies and codes that its routine's forward reads have taken, by slow-tier number (R203). -/
  copies : Tbl (List Byte) := []
  deriving DecidableEq, Repr

/-- A background slot that is open (R258). -/
structure BgSlot where
  classes : Nat
  closes : Nat
  deriving DecidableEq, Repr

/-- After a full reset every engine and row unit is power-gated, as the reset values of `ME_STATUS` and `ROW_STATUS` say,
until a command reaches it (R107, R149, R251). -/
def powerOnGates : Tbl Gate := (List.range 160).map fun u => (u, ⟨2, none, 1, 0, none⟩)

/-- The sequencer's state that no register holds. -/
structure Sequencer where
  streams : Tbl Stream := []
  /-- Recent and coming changes of cues: cycle and amount modulo 2^32 (R244). -/
  cueHist : Tbl (List (Nat × Nat)) := []
  /-- The latest cycle in which any stream issued (R269). -/
  lastIssue : Option Nat := none
  gates : Tbl Gate := powerOnGates
  /-- Recomputed micro-batches counted, by step, stage and micro-batch (R238). -/
  recomputed : List (Nat × Nat × Nat) := []
  /-- Start cycles of power-gate wakes and of cluster wakes (R252). -/
  wakes : List Nat := []
  clusterWakes : List Nat := []
  cores : Tbl Core := []
  slots : List BgSlot := []
  /-- End of the background quantum in progress, of its hold on HBM, and of the forced slot in progress (R258, R259). -/
  quantumTo : Nat := 0
  hbmTo : Nat := 0
  forcedTo : Nat := 0
  /-- Cycle from which each class's deadline counts (R257). -/
  served : Tbl Nat := []
  /-- Every stream issues nothing further: an abort (R489). -/
  halted : Bool := false
  deriving DecidableEq, Repr

/-! ### Seam (09_seam_links) -/

/-- A sequenced frame without the fields its link writes at sending (R300, R301). -/
structure SFrame where
  ty : Nat
  vc : Nat
  dest : Nat
  payload : List Byte
  deriving DecidableEq, Repr

/-- A frame that waits for an egress slot (R306): its priority (3 VC 0, 4 forwarded, 5 atomic burst, 6 message), the
message or burst it belongs to, and whether it is the last of it. -/
structure EFrame where
  f : SFrame
  prio : Nat
  key : Nat
  last : Bool
  /-- Belongs to a queued command of the link, which completes with it (R313, R314). -/
  cmd : Bool
  readyAt : Nat
  /-- Ingress link whose buffer it frees (R305). -/
  from' : Option Nat
  /-- Counted as waiting for a link credit, for its VC, and for retry-buffer space (R304 to R306). -/
  lcred : Bool := false
  fwdWait : Bool := false
  rbfull : Bool := false
  deriving DecidableEq, Repr

/-- A message or burst that is arriving on a VC of a link (R315, R318): header payload, data, data frames left, and where
it is forwarded to. -/
structure Arriving where
  header : List Byte
  data : List Byte
  left : Nat
  key : Nat
  egress : List Nat
  local' : Bool
  deriving DecidableEq, Repr

/-- What a LINK frame says (R301); the manual gives no layout of its payload. -/
inductive LinkMsg where
  | nak (seq : Nat)
  | probe
  | identity (dev link : Nat)
  | laneChange (pair : Nat)
  | align (cycle refDev : Nat)
  deriving DecidableEq, Repr

/-- A frame as it leaves on the wire (R300, R301): header and payload of a sequenced frame, a LINK frame, or IDLE. -/
inductive Wire where
  | idle
  | link (m : LinkMsg)
  | frame (header : Nat) (payload : List Byte)
  deriving DecidableEq, Repr

/-- A link's state that no register holds. -/
structure SLink where
  out : List EFrame := []
  /-- LINK frames to send (R301). -/
  linkOut : List LinkMsg := []
  /-- Commands without a frame that are not complete (R313, R314): behind which command's key each waits, and the cycle of
  its completion, or how many cycles after that command's last frame it follows. -/
  shortCmds : List (Option Nat × Nat) := []
  /-- Unacknowledged sequenced frames, oldest first (R304). -/
  retry : List (Nat × SFrame) := []
  /-- Frames of the retry buffer still to be replayed. -/
  replay : List (Nat × SFrame) := []
  /-- Where the latest replays started, and how many in a row (R304). -/
  replayFrom : Option Nat := none
  replays : Nat := 0
  /-- Link credits held per VC, and credits to return (R305). -/
  cred : List Nat := [32, 256, 256, 256]
  ret : List Nat := [0, 0, 0, 0]
  /-- VCs held by a message in progress: its key (R306). -/
  held : Tbl Nat := []
  slotFree : Nat := 0
  /-- Cycle until which a recalibration quantum holds the link (R258, R310). -/
  recalTo : Nat := 0
  /-- Cycle of the latest advance of the acknowledgement (R304). -/
  ackAt : Nat := 0
  nakSent : Bool := false
  /-- The latest frame on the wire. -/
  wire : Wire := .idle
  /-- Frames arriving by VC (R306). -/
  arriving : Tbl Arriving := []
  /-- Beats crossing to the link, with cycle of arrival and target device and partition (R319). -/
  beats : List (Nat × Nat × Beat) := []
  /-- Largest one-way latency probed so far, and probes received (R308, R310). -/
  probed : Nat := 0
  probes : Nat := 0
  retraining : Bool := false
  deriving DecidableEq, Repr

/-- Seam's state that no register holds. -/
structure Seam where
  links : Tbl SLink := []
  nextKey : Nat := 0
  /-- Complete messages that have arrived, with the link and the cycle of their last frame. -/
  inbox : List (Nat × Nat × SeamMsg) := []
  /-- CTRL messages delivered to the policy cores: source and data (R315). -/
  ctrl : List (Nat × List Byte) := []
  /-- The route, multicast and window tables as last read from HBM (R329). -/
  tables : Memory := []
  /-- Ingress links of the beats that wait at the partitions' Seam ingress, by partition (R162, R305). -/
  owed : Tbl (List Nat) := []
  deriving DecidableEq, Repr

/-! ### Memory partitions and the Cuff (05_reduction_and_cuff) -/

/-- A slice entry (R153); of a slow-tier slice, with its slow-tier number and piece mask (R204). -/
structure SliceEntry where
  tensor : Nat := 0
  first : Nat := 0
  /-- HBM address of the record, or the slow-tier number. -/
  record : Nat := 0
  e : Nat := 0
  plan : Nat := 0
  pieces : Nat := 0
  group : Nat := 0
  lepoch : Nat := 0
  cut : Bool := false
  slt : Bool := false
  repl : Bool := false
  replDev : Nat := 0
  last : Bool := false
  reserved : Bool := false
  mask : Nat := 0
  deriving DecidableEq, Repr

/-- A piece of a slot: rank pointer, ranks added ahead of it, contributions seen per source, the sums (valid bit as a
non-empty list), abstentions, and Visor's segment sum and norm (R152, R161 to R167, R500). -/
structure Piece where
  ptr : Nat := 0
  skip : List Nat := []
  seen : Tbl Nat := []
  sums : List Word := []
  abst : Nat := 0
  seg : List Word := []
  n2 : Word := 0
  deriving DecidableEq, Repr

/-- A beat with its piece and rank (R161). -/
structure RankBeat where
  piece : Nat
  rank : Nat
  beat : Beat
  deriving DecidableEq, Repr

/-- A slot (R156). -/
structure Slot where
  state : Nat := 0
  /-- Index of the current entry, and passes of the program completed. -/
  entry : Nat := 0
  pass : Nat := 0
  slice : SliceEntry := {}
  /-- Runs of the slice's plan: device, unit, count (R154). -/
  runs : List (Nat × Nat × Nat) := []
  pieces : Tbl Piece := []
  window : List RankBeat := []
  /-- Beats whose turn has come, not added yet. -/
  ready : List RankBeat := []
  /-- Beats of the slice that left the pending buffer and are not handled yet, the first of them counted as finding the
  window full or not, and the cycle in which the last one is handled (R164). -/
  taking : List Beat := []
  takeFull : Bool := false
  takeTo : Nat := 0
  /-- The cycle in which the latest add completes. -/
  lastAdd : Nat := 0
  /-- The cycles in which the slot enters UPDATING and leaves it, until its next entry opens. -/
  readAt : Nat := 0
  freeAt : Option Nat := none
  deriving DecidableEq, Repr

/-- A wait at an ingress (R162, R164): since when, whether it was counted as one for a full window, at which slot, and
whether the fault of R162 has been reported. -/
structure IngressWait where
  since : Nat
  window : Bool
  slot : Nat
  reported : Bool
  deriving DecidableEq, Repr

/-- An ingress of a partition: beats with their cycles of arrival, and the first one's wait (R162). -/
structure Ingress where
  queue : List (Nat × Beat) := []
  wait : Option IngressWait := none
  deriving DecidableEq, Repr

/-- An entry of the Cuff queue: an inner update (or skip) of a completed slot, or an outer apply of a round (R169, R184). -/
structure CuffEntry where
  outer : Option Nat
  slot : Nat
  slice : SliceEntry
  step : Nat
  entered : Nat
  /-- Counted in `CUF_EVC_WAIT`. -/
  waited : Bool
  deriving DecidableEq, Repr

/-- An entry in the Cuff's pipeline (R169, R170, R185): the cycle its offsets count from, its record's HBM address, the
cycle in which its computation is complete, and, once its data have returned, its writes as (acceptance, address, bytes) in
order, and the cycle of the last acknowledgement. -/
structure CuffRun where
  entry : CuffEntry
  anchor : Nat
  base : Nat
  skip : Bool
  dataAt : Nat
  returned : Bool := false
  writes : List (Nat × Nat × List Byte) := []
  ackAt : Nat := 0
  deriving DecidableEq, Repr

/-- A partition's state that no register holds. -/
structure Partition where
  slots : Tbl Slot := []
  /-- The pass that a slot not listed stands before (R153, R172). -/
  pass0 : Nat := 0
  /-- The step of each slice's last inner update, by slice key (R174). -/
  updated : Tbl Nat := []
  /-- The pending buffer: 256 beats (R164, R189). -/
  pend : List Beat := []
  /-- Ingress of cluster port c at c, of Seam at 32 (R162). -/
  ingress : Tbl Ingress := []
  /-- First cycle in which an add may start (R161). -/
  addFree : Nat := 0
  queue : List CuffEntry := []
  pipe : List CuffRun := []
  /-- Earliest cycle of the next start (R169). -/
  startFree : Nat := 0
  /-- Entries and deferred slices ended, by step (R10). -/
  ended : Tbl Nat := []
  /-- The step of the latest out-of-order add, from that add to the first trigger of a later step (R162). -/
  flagStep : Option Nat := none
  /-- Discards every beat, from an abort until the slots open after the recovery (R182). -/
  aborting : Bool := false
  /-- CUF_BUSY is counted up to here. -/
  busyTo : Nat := 0
  /-- Latest use of each bank (R255). -/
  bankUse : Tbl Nat := []
  deriving DecidableEq, Repr

/-! ### The job, its layout and its epochs (08_mapping_a_job) -/

/-- A slice in the record map of a layout (R276, R280, R295): its site shard, the position of its owner, and its record. -/
structure MapEntry where
  tensor : Nat
  first : Nat
  shard : Nat
  position : Nat
  record : Nat
  deriving DecidableEq, Repr

/-- A census record (R291). -/
structure CensusRecord where
  engines : Nat
  halfLinks : Nat
  lastStep : Nat
  epoch : Nat
  deriving DecidableEq, Repr

/-- A membership census in progress: its round, the always-on cycle that the round began in, and what has arrived (R291,
R292). -/
structure Census where
  second : Bool := false
  since : Nat
  records : Tbl CensusRecord := []
  sets : Tbl (List Nat) := []
  deriving DecidableEq, Repr

/-- The job as firmware keeps it (R10, R172, R227, R283 to R297, R436, R467). -/
structure Job where
  /-- A job image has been accepted and not stopped (R436, R437). -/
  active : Bool := false
  /-- Firmware may write configuration registers: job start or a layout-epoch boundary (R193, R271, R559). -/
  config : Bool := false
  /-- Cycle up to which a boundary's configuration window stays open: the agreed start cycle (R559). -/
  configTo : Nat := 0
  /-- The interval of job start (R559). -/
  start : Bool := false
  firstStep : Nat := 0
  /-- The job goes on after a reset that kept HBM (R186, R188). -/
  resumed : Bool := false
  /-- First step of the epoch in force (R227). -/
  n0 : Nat := 0
  /-- First step of the next epoch, once a boundary has been fixed (R283). -/
  boundary : Option Nat := none
  /-- The steps whose constants sets 0 and 1 hold (R172). -/
  const0 : Option Nat := none
  const1 : Option Nat := none
  /-- Fields of the job image by tag, in order, its BLOB apart, and the HBM address of the BLOB (R445). -/
  fields : List (Nat × List Byte) := []
  blob : Nat := 0
  digest : List Byte := []
  /-- Layout in force, the one a census chose, and their record maps (R293, R295). -/
  layout : Nat := 0
  nextLayout : Option Nat := none
  map : List MapEntry := []
  nextMap : List MapEntry := []
  /-- The device of each position of the layout in force (R294), and of the next one. -/
  positions : List Nat := []
  nextPositions : List Nat := []
  /-- The member set (R292). -/
  members : List Nat := []
  census : Option Census := none
  /-- Training is stopped by R292, R293 or R295 until the census repeats. -/
  held : Bool := false
  /-- Step of the boundary in progress that has been reached: 1 completing, 2 migrating, 4 frequency, 5 start cycle
  (R284). -/
  phase : Nat := 0
  /-- Ready cycles by device (R285). -/
  readyAt : Tbl Nat := []
  /-- Decided values and the first steps that they hold for (R283): the micro-batch count and the frequency step. -/
  newMb : Option Nat := none
  newMbAt : Nat := 0
  newK : Option Nat := none
  newKAt : Nat := 0
  /-- Frequency proposals by device, PROP and step, and when the re-plan's were sent (R467). -/
  props : Tbl (Nat × Nat) := []
  propsSince : Option Nat := none
  /-- Step-3 completion cycles by device and the switch cycle (R469). -/
  switchAt : Tbl Nat := []
  fsw : Option Nat := none
  /-- The running means of R287 and the steps fed. -/
  aBar : Word := 0
  cBar : Word := 0
  fed : Nat := 0
  /-- Steering is held from an abort to the first boundary of normal service (R289). -/
  recovering : Bool := false
  /-- A reset has lost HBM, and no slice census has followed it (R222). -/
  hbmLost : Bool := false
  /-- Steps whose shard-steps the census recorded as lost (R287). -/
  lost : List Nat := []
  /-- A STOP (false) or REPLACE (true) that waits for the step boundary (R437). -/
  stopping : Option Bool := none
  deriving DecidableEq, Repr
/-! ### The slow tier (06_slow_tier) -/

/-- How a step's plan serves a slice (R201, R207): from its line, through the miss buffer, or deferred. -/
inductive Residency where
  | resident | miss | deferred
  deriving DecidableEq, Repr

/-- A slice of a step's residency plan: its piece mask, how it is served, for a deferred slice the pieces that hold a
pending entry (R209, R210), and whether it is a deferred slice of the step before that the list does not name and that is
not queued yet (log 31). -/
structure SltSlice where
  mask : Nat
  how : Residency
  room : Nat := 0
  waits : Bool := false
  deriving DecidableEq, Repr

/-- An image under fetch: its slow-tier number and the line it goes to; lines from `SLT_CACHE_LINES` on are the 64
read-through lines (R200, R203). It is issued once no write-back of the line or of the slice is under way (R201); `reader`
is the service core of a forward read and the cycle since when it waits. -/
structure SltFetch where
  num : Nat
  line : Nat
  since : Nat := 0
  issued : Bool := true
  reader : Option (Nat × Nat) := none
  deriving DecidableEq, Repr

/-- A forward read that waits (R203): for the fetch of a resident slice's line, or for a read-through line. -/
structure SltRead where
  num : Nat
  core : Nat
  since : Nat
  through : Bool
  deriving DecidableEq, Repr

/-- An image being programmed: its line (2^32 for an image that only moves), GEN and bytes (R220), the cycle of its
command, and for a wear move the erase count that its new block must exceed. -/
structure SltProgram where
  num : Nat
  line : Nat
  gen : Nat
  bytes : List Byte
  since : Nat := 0
  above : Option Nat := none
  deriving DecidableEq, Repr

/-- A flash image: the key it was written under and its plaintext (R196, R218). -/
structure FlashImage where
  key : List Byte
  gen : Nat
  block : Nat
  bytes : List Byte
  deriving DecidableEq, Repr

/-- A flash block: erase count, whether it is retired, whether it has been written since its last erase, and how many of
its pages (R220), and the cycle in which its erase could start. -/
structure FlashBlock where
  erases : Nat := 0
  retired : Bool := false
  written : Bool := false
  pages : Nat := 0
  emptied : Nat := 0
  deriving DecidableEq, Repr

/-- The slow tier's state that no register holds. -/
structure SlowTier where
  /-- Residency plans by step and slow-tier number (R201). -/
  plans : Tbl (Tbl SltSlice) := []
  fetches : List SltFetch := []
  /-- Slices held by read-through lines: line to number. -/
  through : Tbl Nat := []
  /-- Forward reads that wait (R203). -/
  reads : List SltRead := []
  /-- Miss-buffer entries (R207): sums and factor by `missKey`, and entries allocated per slice and step. -/
  miss : Tbl (List Word × Word) := []
  missTaken : Tbl Nat := []
  /-- Pending entries (R209) by 64 NUM + piece: the latest step that defers the slice, and the sums. -/
  pending : Tbl (Nat × List Word) := []
  /-- Shard-steps recorded as skipped, by slow-tier number and step (R210). -/
  skipped : List (Nat × Nat) := []
  flash : Tbl FlashImage := []
  blocks : Tbl FlashBlock := []
  /-- `SLT_BUSY` is counted up to this cycle. -/
  busyTo : Nat := 0
  programs : List SltProgram := []
  /-- Last GEN of each channel group (R220). -/
  gens : Tbl Nat := []
  /-- Step of each dirty line's first dirtying (R219). -/
  dirtied : Tbl Nat := []
  /-- The map as last checkpointed to flash: number to GEN (R221). -/
  checkpoint : Tbl Nat := []
  /-- Always-on cycle in which each image was written or scrub-read last (R219). -/
  scrubbed : Tbl Nat := []
  /-- Blocks that garbage collection empties (R219, R224). -/
  collecting : List Nat := []
  deriving DecidableEq, Repr

/-! ### Visor (15_gauntlet_faults_counters_test) -/

/-- Visor's state that no register holds. -/
structure Visor where
  /-- The two fixed-point accumulators in units of 2^-149 (R500), and whether a value that is not finite was added. -/
  accS : Nat := 0
  accQ : Nat := 0
  openS : Bool := false
  openQ : Bool := false
  /-- Value of `LNR_EVC_FULL` when the step began (R501). -/
  fullBase : Nat := 0
  /-- Noise messages by step and device: s, q, f (R501). -/
  noise : Tbl (Tbl (Word × Word × Bool)) := []
  /-- Decision-log entries staged for the ring, oldest first, with SEQ (R504). -/
  staged : List (Nat × List Byte) := []
  /-- SEQ of the next decision-log entry (R504). -/
  dlogSeq : Nat := 0
  /-- Entries of GO writes that wait for room: KIND, FLAGS, step and body as written (R504). -/
  goWaits : List (List Byte) := []
  /-- Collections made of each histogram entry since the epoch's first step (R502). -/
  taken : Tbl Nat := []
  /-- The bank a collection holds, and until when (R503). -/
  collecting : Option (Nat × Nat) := none
  /-- Telemetry records due and not written (R506), and records written. -/
  recordsDue : Nat := 0
  records : Nat := 0
  deriving DecidableEq, Repr


/-! ### Brim (10_outer_sync, 11_partner_ports) -/

/-- An owned shard in outer sync (R332, R341 to R355). -/
structure Shard where
  /-- Round of the shard's anchor: the latest whose applies have been entered, and the latest whose applies are complete. -/
  applied : Nat := 0
  done : Nat := 0
  /-- COMMIT messages accepted and retained, by round (R356). -/
  commits : Tbl ClassC := []
  /-- Weights of sites 0 to 8, by round (R332). -/
  weights : Tbl (List Nat) := []
  /-- Latest ROUND message of each site, and its arrival in ac (R342, R344). -/
  rounds : Tbl (Nat × ClassC) := []
  joins : Tbl ClassC := []
  /-- Arrival of the last ROUND message that the leader waited for (R344). -/
  t0 : Option Nat := none
  /-- The leader's deadline for the round has passed (R344). -/
  expired : Bool := false
  /-- The site of the leader that this device accepts (R332, R352). -/
  leader : Nat := 0
  /-- Round counted in `BRM_EVC_PAUSE` last (R351). -/
  paused : Option Nat := none
  /-- Included DELTAs (site, round) of the commits accepted. -/
  committed : List (Nat × Nat) := []
  /-- Slice ordinals under catch-up, and whether a census marked them (R353, R354). -/
  catchup : List (Nat × Bool) := []
  /-- This device is joining the shard, or has sent JOIN for it and awaits the COMMIT that lists it (R355). -/
  joining : Bool := false
  asked : Bool := false
  /-- HAVE, LATE or READY changed since the last ROUND message, and when that was sent, in ac (R342). -/
  changed : Bool := false
  sentAt : Nat := 0
  /-- Digest of the shard at its anchor (R343). -/
  digest : List Byte := []
  deriving DecidableEq, Repr, Inhabited

/-- A message or object that leaves for another site or another owner (R334). -/
inductive Outgoing where
  | message (m : ClassC)
  | object (o : DObject) (background : Bool)
  deriving DecidableEq, Repr

/-- Brim's state that no register holds (R330 to R358). -/
structure Brim where
  /-- The latest round cut, and the step after its cut step (R335). -/
  round : Nat := 0
  cutStep : Nat := 0
  /-- The step in which the next round is being cut. -/
  cutting : Option Nat := none
  /-- Time of day in ns of the latest two cuts, and of holding every included DELTA of the round before (R350). -/
  cutNs : Nat := 0
  prevCutNs : Nat := 0
  /-- The latest cut in ac (R344). -/
  cutAc : Nat := 0
  prevCutStep : Nat := 0
  heldNs : Option Nat := none
  /-- Round whose cut has been counted as postponed (R335). -/
  postponed : Option Nat := none
  /-- This device's proposals (R350). -/
  pi : Nat := 0
  pk : Nat := 0
  shards : Tbl Shard := []
  /-- Retained DELTA objects by shard, round and site (R356). -/
  objects : Tbl DObject := []
  /-- K buffers by slice and round parity (R336): the round and the BF16 codes; and slice digests (R343). -/
  kbuf : Tbl (Nat × List Nat) := []
  digests : Tbl (List Byte) := []
  /-- Records of the round being cut by slice, and dl and e1 of the slices cut (R336, R350). -/
  records : Tbl (List Byte) := []
  cutVals : Tbl (List Word × List Word) := []
  /-- Arrival in ac of the last class C message of each site (R351), and the sites removed (R352). -/
  heard : Tbl Nat := []
  silent : List Nat := []
  removed : List Nat := []
  /-- Applies that a Cuff reported as refused (R184): shard, slice ordinal, round. -/
  refused : List (Nat × Nat × Nat) := []
  /-- What waits for the Seam leg to a gateway or an owner (R334), with its site. -/
  relay : List (Nat × Outgoing) := []
  /-- Slices asked for by FETCH whose tags showed OIP: site, shard, ordinal (R353). -/
  serve : List (Nat × Nat × Nat) := []
  /-- Objects asked for by OREQ: OKIND, SITE, SHARD, ROUND and the port asked (R383). -/
  wanted : List (Nat × Nat × Nat × Nat × Nat) := []
  deriving DecidableEq, Repr

/-- A shard's Brim state as the migration copies it (R358): its rounds, retained objects, K buffers and slice digests. -/
structure MovedShard where
  shard : Shard := {}
  objects : Tbl DObject := []
  kbuf : Tbl (Nat × List Nat) := []
  digests : Tbl (List Byte) := []
  deriving DecidableEq, Repr, Inhabited

/-- A route of a partner port (R368, R379, R380). -/
structure PRoute where
  /-- Arrival of its last packet, and of its last probe, in ns. -/
  lastNs : Nat := 0
  probeNs : Nat := 0
  /-- Consecutive probes that have arrived, and their route sequence. -/
  run : Nat := 0
  /-- Delays in ns of the last 256 probes, oldest first. -/
  delays : List Int := []
  /-- The latest consecutive probes that differ from the baseline by more than 0.5 ms in one direction. -/
  off : List Int := []
  /-- Times in ns and amounts by which packets arrived below the baseline (the fall F). -/
  falls : List (Nat × Nat) := []
  /-- State and baseline in µs that the peer's feedback reports. -/
  peerUp : Bool := false
  peerB : Nat := 0
  /-- Highest RSN received, packets since the last report, longest run of lost RSNs, most frames of one window lost. -/
  rsn : Option Nat := none
  rcv : Nat := 0
  lostRun : Nat := 0
  worst : Nat := 0
  txRsn : Nat := 0
  /-- The peer's report before the last: RSN_HI (R385). -/
  peerRsn : Nat := 0
  deriving DecidableEq, Repr

/-- A class C message that awaits acknowledgement: fragments still to send and the time of its last sending (R375). -/
structure CMsg where
  mid : Nat
  bytes : List Byte
  frags : List Nat
  sentNs : Nat
  deriving DecidableEq, Repr

/-- A class C message that is arriving (R374). -/
structure CArriving where
  mlen : Nat
  frags : Tbl (List Byte)
  firstNs : Nat
  deriving DecidableEq, Repr

/-- A class D object that is sent (R376, R377): the rest of its block, its next window and the block's R and ILV. -/
structure DSend where
  obj : Nat
  bytes : List Byte
  background : Bool
  nextWin : Nat := 0
  block : List (Nat × Nat) := []
  r : Nat := 8
  ilv : Nat := 4
  deriving DecidableEq, Repr

/-- A window that is arriving (R378, R381): its frames, the route and TXT of its last frame, and the requests made. -/
structure DWindow where
  kd : Nat
  r : Nat
  frames : Tbl (List Byte) := []
  route : Nat := 0
  lastTxt : Nat := 0
  requests : Nat := 0
  due : Bool := false
  deriving DecidableEq, Repr

/-- An object that is arriving: open windows and the data of complete ones. -/
structure DArriving where
  wins : Tbl DWindow := []
  done : Tbl (List Byte) := []
  deriving DecidableEq, Repr

/-- A partner port's state that no register holds. -/
structure PPort where
  routes : Tbl PRoute := []
  /-- Next MID, messages that wait for one of the 64 places, and unacknowledged messages (R373, R375). -/
  txMid : Nat := 1
  cwait : List (List Byte) := []
  cun : List CMsg := []
  /-- Arriving messages, and the MIDs delivered or released above CACK (R374, R382). -/
  crx : Tbl CArriving := []
  cack : Nat := 0
  cdone : List (Nat × Bool) := []
  /-- Messages and objects delivered and not acted on yet (R374, R378). -/
  inC : List (List Byte) := []
  inD : List (List Byte) := []
  /-- Routes on which a probe or a feedback report is ready (R368). -/
  probes : List Nat := []
  feedback : List Nat := []
  /-- When the two timers last ran, in ns. -/
  probeAt : Option Nat := none
  feedbackAt : Option Nat := none
  /-- Objects that wait or are being sent, and those kept for RESEND (R377, R381). -/
  sending : List DSend := []
  sent : Tbl DSend := []
  resend : List (Nat × Nat × Nat) := []
  nextObj : Nat := 0
  arriving : Tbl DArriving := []
  /-- Objects delivered, and objects abandoned (R378, R381). -/
  finished : List Nat := []
  abandoned : List Nat := []
  /-- RESEND entries of the next reports: OBJ, WIN, missing data frames (R381). -/
  asks : List (Nat × Nat × Nat) := []
  /-- Time in ns of the latest resending of a window, by 2^32 OBJ + WIN. -/
  resent : Tbl Nat := []
  /-- The data route in use (R369). -/
  dataRoute : Option Nat := none
  /-- PSNs accepted in the last 2^20 (R367). -/
  psns : List Nat := []
  /-- Bits of the token bucket and the time they were last formed, in ns (R370). -/
  tokens : Nat := 0
  tokensNs : Nat := 0
  /-- Background bytes sent in the 10 ms that began at the given time (R371). -/
  bgBytes : Nat := 0
  bgNs : Nat := 0
  /-- Windows still sent with ILV 16 after a step, and windows since R was last computed (R380, R385). -/
  stepWins : Nat := 0
  sinceR : Nat := 0
  /-- The data route's reports of the last 65,536 packets: packets, lost, RUN; and the largest WLOST (R385, R386). -/
  lossHist : List (Nat × Nat × Nat) := []
  wMax : Nat := 0
  /-- R and ILV that the next block takes. -/
  nextR : Nat := 8
  nextIlv : Nat := 4
  /-- Next-hop MAC addresses learnt, by route, and routes for whose next hop a Neighbor Solicitation has been sent (R362). -/
  macs : Tbl Nat := []
  solicited : List Nat := []
  /-- Answers given to Neighbor Solicitations (135) and Echo Requests (128): kind, peer or target, data (R362). -/
  answers : List (Nat × Nat × List Byte) := []
  /-- The last packet that left. -/
  wire : Option Packet := none
  deriving DecidableEq, Repr

/-! ### The cipher engine (12_cipher_and_trust) -/

/-- A record in a lane, saved, or waiting (R399). -/
structure LaneRec where
  assoc : Nat
  prio : Nat
  len : Nat
  /-- The cycle from which its offsets count; of a saved record, the cycles it has spent in lanes (R398, R400, log 124). -/
  start : Nat
  suspended : Nat := 0
  deriving DecidableEq, Repr

/-- An association (R404 to R411): the secrets of the key slots of the sending and the receiving direction by KID with the
generation each holds, the handshake's messages, and the generations acknowledged. -/
structure Assoc where
  tx : Tbl (Nat × List Byte) := []
  rx : Tbl (Nat × List Byte) := []
  eph : List Byte := []
  ownHello : List Byte := []
  peerHello : List Byte := []
  /-- Cycle of the always-on clock in which the last HELLO was sent, and whether FINISH has been sent. -/
  helloAt : Option Nat := none
  finished : Bool := false
  /-- Highest generation the peer has acknowledged (R409). -/
  acked : Nat := 1
  /-- This wait has been counted in `CPH_EVC_KEYWAIT`, and the reserve is spent (R409). -/
  waitCounted : Bool := false
  /-- A new generation verified first at this always-on cycle (R410). -/
  newGen : Option (Nat × Nat) := none
  /-- Next sequence number to send: HSEQ of a host association (R395). -/
  seq : Nat := 0
  /-- Cycle of the always-on clock in which the association was established (R408). -/
  since : Option Nat := none
  deriving DecidableEq, Repr

/-- The engine's state that no register holds. -/
structure Cipher where
  assocs : Tbl Assoc := []
  /-- Running records by lane, saved ones and waiting ones, of the encryption (0) and decryption (1) pipelines (R394). -/
  lanes : Tbl (Tbl LaneRec) := []
  saved : Tbl (List LaneRec) := []
  waiting : Tbl (List LaneRec) := []
  /-- Keys of R402 are held: not erased by an alarm (R413). -/
  keyed : Bool := false
  /-- The XTS key (R402); none without SLT_SEED. -/
  xts : List Byte := []
  /-- Random draws made (R405). -/
  draws : Nat := 0
  /-- Reports signed since reset, the nonces of those being signed, oldest first, and the report of boot step 11 (R418,
  R434). -/
  reports : Nat := 0
  signing : List (List Byte) := []
  bootReport : List Byte := []
  deriving DecidableEq, Repr

/-! ### Host ports and images (13_host_ports_and_images) -/

/-- A control message that awaits acknowledgement (R433). -/
structure Control where
  mid : Nat
  kind : Nat
  body : List Byte
  deriving DecidableEq, Repr

/-- What a request of the device is for: the job image, a step's index block or samples, or an event write (R436, R438,
R439). -/
inductive RoceWhat where
  | image
  | data (step : Nat)
  | event
  deriving DecidableEq, Repr

/-- A request of the device on a queue pair: PSN of its next packet, HBM address and length that have not arrived. -/
structure RoceReq where
  what : RoceWhat
  psn : Nat
  addr : Nat
  len : Nat
  /-- Its first response packet has arrived. -/
  begun : Bool := false
  deriving DecidableEq, Repr

/-- A queue pair (R427, R429): port, rate in sixteenths of a sixteenth of the line rate, retries, last CNP. -/
structure QueuePair where
  port : Nat
  rate : Nat := 65536
  retries : Nat := 0
  failed : Bool := false
  psn : Nat := 0
  reqs : List RoceReq := []
  cnpNs : Option Nat := none
  deriving DecidableEq, Repr

/-- A host port (R425, R428, R433): control messages to send, MIDs, HSEQs accepted, and what left last. -/
structure HPort where
  txMid : Nat := 1
  unacked : List Control := []
  /-- Highest MID received, and the MIDs acted on (R433). -/
  rxMid : Nat := 0
  rxSeen : List Nat := []
  hseqs : List Nat := []
  hseqHi : Option Nat := none
  /-- Handshake attempts failed on the present address, the address, and whether a restart waits since when (R436). -/
  failures : Nat := 0
  address : Nat := 0
  restartAt : Option Nat := none
  /-- The last control datagram that left: header, ciphertext and tag (R433). -/
  wire : List Byte := []
  deriving DecidableEq, Repr

/-- A data descriptor that serves a step (R438). -/
structure StepData where
  step : Nat
  /-- The descriptor has been read as valid. -/
  valid : Bool := false
  /-- Bytes of index block and samples that have not arrived. -/
  left : Nat := 0
  deriving DecidableEq, Repr

/-- The host ports' state that no register holds. -/
structure HostPorts where
  /-- Fields of the verified configuration image by tag, in order; its digests and SVN (R414, R445). -/
  config : List (Nat × List Byte) := []
  cfgDigest : List Byte := []
  fwDigest : List Byte := []
  cfgSvn : Nat := 0
  jobSvn : Nat := 0
  arbAdvance : Bool := false
  revoke : Nat := 0
  ports : Tbl HPort := []
  qps : Tbl QueuePair := []
  /-- Whether an ASSIGN has been acted on, the job image's address, key and length (R435), and bytes still to read. -/
  jobVa : Nat := 0
  jobKey : Nat := 0
  jobLen : Nat := 0
  jobLeft : Nat := 0
  /-- The always-on cycle of the latest CONTACT or of an ASSIGN without a job, from which the 10 s run (R435). -/
  waitJob : Option Nat := none
  dataEntries : Nat := 0
  data : List StepData := []
  /-- Consecutive Sync offsets within 100 ns (R432). -/
  syncs : Nat := 0
  /-- Entries of the coordinator's event ring; 0 before an ASSIGN (R439). -/
  evEntries : Nat := 0
  /-- The coordinator's event ring as written: entry to event and SEQ (R439). -/
  evRing : Tbl (Nat × HostEvent) := []
  /-- Events that wait for room, oldest first, at most 256 (R439). -/
  evWait : List HostEvent := []
  /-- Events dropped since the last OVERFLOW event (R439). -/
  evDropped : Nat := 0
  deriving DecidableEq, Repr

/-! ### Mitten (14_mitten_power_ageing) -/

/-- A full reset in progress (R474): its sources as `AON_RESET_CAUSE` bits, the always-on cycle of its source, whether it
retains, and how far it is: 0 started, 1 self-refresh confirmed or timed out. -/
structure ResetRun where
  cause : Nat
  at' : Nat
  noretain : Bool
  stage : Nat := 0
  confirmed : Bool := false
  deriving DecidableEq, Repr

/-- Mitten's state that no register holds; it lies in Mitten's SRAM (R451). -/
structure Mitten where
  reset : Option ResetRun := none
  /-- CFG_DIGEST of the boot before (R476), and whether HBM may still be retained by the reset in progress. -/
  prevDigest : List Byte := []
  retain : Bool := false
  /-- The stacks have confirmed self-refresh in the safe state (R475, R491). -/
  refreshed : Bool := false
  /-- Monitor that the next quantum reads first, and the readings of the latest complete sweep (R462, R463). -/
  monitor : Nat := 0
  sweep : Tbl Int := []
  /-- Seconds of PTP time of the last re-plan and of the last margin-epoch end, and since when one waits (R463). -/
  lastPlan : Option Nat := none
  deferred : Option Nat := none
  /-- Rail and trims that the latest re-plan would lower (R466). -/
  lower : Option (Nat × List Nat) := none
  /-- Consecutive milliseconds above and below the power limit (R471). -/
  overMs : Nat := 0
  underMs : Nat := 0
  powerAlert : Bool := false
  tempAlert : Bool := false
  /-- The PROP of the next re-plan is at most k - 1 (R471). -/
  powerCap : Bool := false
  /-- Source of the alarm in force (R412, R475). -/
  alarm : Option Nat := none
  /-- Always-on cycle in which a cause of an alarm was last present (R475). -/
  causeAt : Nat := 0
  /-- Cycle in which the clock restarts after a switch (R470). -/
  restartAt : Option Nat := none
  /-- Image slot in use: 0 A, 1 B (R414). -/
  slotB : Bool := false
  /-- The job under way at the latest reset that may keep HBM: its image's digest and its first step (R188). -/
  prevJob : Option (List Byte × Nat) := none
  deriving DecidableEq, Repr

/-! ### The whole state -/

/-- The tile stores, and what was on its way into them, as they stood until the write of cycle `upTo`. -/
structure TileWas where
  upTo : Nat
  tile : Memory
  due : List (Nat × Nat × List Byte)
  deriving DecidableEq, Repr

/-- The block's state: every register, buffer, counter, mode and pin, and the queue of waiting commands. -/
structure State where
  /-- The commands that are waiting, first in, first out. -/
  pending : List Instr := []
  /-- The model's own count of free values taken (log 2). -/
  free : Nat := 0
  clk : Clk := {}
  pins : Pins := {}
  /-- The REVOKE and ARB fuses as they stand (R401, R416); none while they are as blown at Jorsil's test. -/
  fuses : Option (Nat × Nat) := none
  /-- Registers by window address; an unlisted register holds its reset value (R6). -/
  regs : Tbl Word := []
  shadows : Tbl Shadow := []
  /-- The data that the latest register or RDMA read returned. -/
  bus : List Byte := []
  hbm : Memory := []
  /-- The tile stores: byte `a` of cluster `c` at `c * 2^24 + a` (R9, R250). -/
  tile : Memory := []
  /-- Lines on their way into the tile stores: the cycle in which each is written, its key and its bytes (R97). -/
  tileDue : List (Nat × Nat × List Byte) := []
  /-- The tile stores before the latest writes, for the operand reads of PRODs that are not complete (R77). -/
  tileWas : List TileWas := []
  gnt : Gauntlet := {}
  eng : Tbl Engine := []
  row : Tbl RowUnit := []
  lnr : Liner := {}
  part : Tbl Partition := []
  slt : SlowTier := {}
  job : Job := {}
  vsr : Visor := {}
  seq : Sequencer := {}
  /-- Cluster ports: the cycle in which each port next has free places (R96). -/
  ports : Tbl Nat := []
  seam : Seam := {}
  brim : Brim := {}
  pports : Tbl PPort := []
  cph : Cipher := {}
  host : HostPorts := {}
  aon : Mitten := {}
  deriving DecidableEq, Repr

/-- The machine right after a full reset by PORST_N: every register at the value of its table (R6), nothing listed,
nothing waiting; what the spec gives no reset value for as log 5 says. -/
def State.reset : State := {}

/-! ### Stops -/

/-- Reasons a step stops with a fault. No command of the spec ends so (NOTES.md, Stops). -/
inductive Fault where
  /-- Raised by no meaning: the type is closed and the device's own faults go to Gauntlet. Safe. -/
  | none
  deriving DecidableEq, Repr

/-- Reasons a command is refused. -/
inductive Refusal where
  /-- Raised by an arm of `exec` for a command that has no meaning yet. Safe: nothing follows from it. -/
  | notModelled (mnemonic : String)
  deriving DecidableEq, Repr

end Sys2Proof.Machine
end

