-- ==== Sys2Proof/Machine/Ops.lean ====
section
/-! DEFINITION. The named operations on registers, counters, clocks and free values that every meaning uses. -/

namespace Sys2Proof.Machine

/-! ### Registers -/

/-- The value of a register: written last, or its reset value (R6). -/
def Regs.get (r : Tbl Word) (a : Nat) : Word :=
  match r.get? a with
  | some w => w
  | none => resetWord a

/-- A register's value as a number. -/
def Regs.nat (r : Tbl Word) (a : Nat) : Nat := (Regs.get r a).toNat

/-- Field `[lo + w - 1 : lo]` of a register. -/
def Regs.fld (r : Tbl Word) (a lo w : Nat) : Nat := bits (Regs.nat r a) lo w

/-- The registers with one written. -/
def Regs.put (r : Tbl Word) (a v : Nat) : Tbl Word := r.set a (BitVec.ofNat 32 v)

/-- The registers with one field written. -/
def Regs.putFld (r : Tbl Word) (a lo w v : Nat) : Tbl Word := Regs.put r a (putBits (Regs.nat r a) lo w v)

/-- A 64-bit pair whose low word is at `a` (R529). -/
def Regs.pair (r : Tbl Word) (a : Nat) : Nat := Regs.nat r a + 2 ^ 32 * Regs.nat r (a + 4)

/-- The registers with a 64-bit pair written. -/
def Regs.putPair (r : Tbl Word) (a v : Nat) : Tbl Word :=
  Regs.put (Regs.put r a (v % 2 ^ 32)) (a + 4) (v / 2 ^ 32)

/-- The SAT register of the event counter at `a` and the counter's bit in it (R495, R497). -/
def satOf (a : Nat) : Option (Nat × Nat) :=
  match locate a with
  | none => none
  | some (b, n, off) =>
    match b.satOff with
    | none => none
    | some o => some (b.base n + o, (off - b.counters.1) / 4)

/-- `n` occurrences counted in the event counter at `a` (R8): it saturates at 0xFFFF_FFFF and then sets its sticky
flag (R497). -/
def Regs.count (r : Tbl Word) (a n : Nat) : Tbl Word :=
  if n = 0 then r
  else
    let v := min 0xFFFFFFFF (Regs.nat r a + n)
    let r := Regs.put r a v
    if v < 0xFFFFFFFF then r
    else match satOf a with
      | none => r
      | some (sa, i) => Regs.putFld r sa i 1 1

/-- A list of counts, one after the other. -/
def Regs.counts (r : Tbl Word) (l : List (Nat × Nat)) : Tbl Word := l.foldl (fun r p => Regs.count r p.1 p.2) r

/-- `n` added to the 64-bit counter whose low word is at `a`; it never wraps (R497). -/
def Regs.count64 (r : Tbl Word) (a n : Nat) : Tbl Word :=
  if n = 0 then r else Regs.putPair r a ((Regs.pair r a + n) % 2 ^ 64)

/-- A register of the state as a number. -/
def State.reg (s : State) (a : Nat) : Nat := Regs.nat s.regs a

/-- A field of a register of the state. -/
def State.fld (s : State) (a lo w : Nat) : Nat := Regs.fld s.regs a lo w

/-- The state with a register written by hardware. -/
def State.put (s : State) (a v : Nat) : State := { s with regs := Regs.put s.regs a v }

/-- The state with a register field written by hardware. -/
def State.putFld (s : State) (a lo w v : Nat) : State := { s with regs := Regs.putFld s.regs a lo w v }

/-- The state with `n` occurrences counted at `a`. -/
def State.countN (s : State) (a n : Nat) : State := { s with regs := Regs.count s.regs a n }

/-- The state with one occurrence counted at `a` (R8). -/
def State.count (s : State) (a : Nat) : State := s.countN a 1

/-! ### Free values -/

/-- A free value below `n` (log 2): what the manual leaves open within a bound. -/
def State.freeBelow (s : State) (n : Nat) : Nat := Config.freeNat s.free % n

/-- The state after one free value has been taken. -/
def State.tookFree (s : State) : State := { s with free := s.free + 1 }

/-! ### Clocks -/

/-- `n` always-on edges: their count and the time of day, 40 ns each (R5, R459). -/
def Clk.edges (c : Clk) (n : Nat) : Clk :=
  let ns := c.todNs + 40 * n
  { c with acnt := c.acnt + n, todSec := (c.todSec + ns / 1000000000) % 2 ^ 48, todNs := ns % 1000000000 }

/-- `n` core cycles at frequency step `k`: the counter goes on by `n` (R454), and an always-on edge falls every
`15 * k / 16` core cycles (R453, R9). -/
def Clk.cycles (c : Clk) (k n : Nat) : Clk :=
  let t := c.phase + 16 * n
  { c.edges (t / (15 * k)) with fcnt := (c.fcnt + n) % 2 ^ 64, phase := t % (15 * k) }

/-- The frequency step in force (R479); from the stop of a switch the counter advances at the agreed one (R470). -/
def State.freqStep (s : State) : Nat := if s.clk.held then s.fld Reg.aonFreq 8 7 else s.fld Reg.aonFreq 0 7

/-- The power state (R460). -/
def State.power (s : State) : Nat := s.fld Reg.aonState 0 3

/-- The core clock is stopped: in the safe state, during a reset, with PORST_N asserted (R491, R474, R460). -/
def State.coreStopped (s : State) : Bool := s.power == 3 || s.power == 4 || s.pins.porst

/-- The present core cycle. -/
def State.now (s : State) : Nat := s.clk.fcnt

/-- The configuration window of job start or of a layout-epoch boundary is open (R559). -/
def State.configOpen (s : State) : Bool := s.job.config || decide (s.now < s.job.configTo)

/-- The state at core cycle `t`: the clock moves there if it has not reached it (log 1). -/
def State.atCycle (s : State) (t : Nat) : State :=
  if t ≤ s.clk.fcnt then s else { s with clk := s.clk.cycles s.freqStep (t - s.clk.fcnt) }

/-- The state at always-on cycle `t`: the clocks move there if they have not reached it (log 1); the core clock stands
while it is stopped. -/
def State.atAc (s : State) (t : Nat) : State :=
  if t ≤ s.clk.acnt then s
  else if s.coreStopped then { s with clk := s.clk.edges (t - s.clk.acnt) }
  else
    let k := s.freqStep
    { s with clk := s.clk.cycles k (((t - s.clk.acnt) * (15 * k) - s.clk.phase + 15) / 16) }

/-- A meaning of the core domain: nothing happens there while the core clock is stopped, in those states or for a
frequency switch (R491, R474, R470). -/
def State.core (s : State) (f : State → State) : State := if s.coreStopped || s.clk.held then s else f s

/-- A meaning of the always-on domain: nothing happens while PORST_N is asserted (R474). -/
def State.always (s : State) (f : State → State) : State := if s.pins.porst then s else f s

/-- What a step does when no command waits (log 1): one core cycle, or one always-on cycle while the core clock stands. -/
def State.tick (s : State) : State :=
  if s.pins.porst then s else if s.coreStopped then s.atAc (s.clk.acnt + 1) else s.atCycle (s.now + 1)

/-! ### Descriptors of commands (R231) -/

/-- Bits `[lo + w - 1 : lo]` of a command. -/
def cmdFld (c : Cmd) (lo w : Nat) : Nat := bits c.toNat lo w

/-- OPCODE (R231). -/
def cmdOpcode (c : Cmd) : Nat := cmdFld c 0 8
/-- UNIT (R231). -/
def cmdUnit (c : Cmd) : Nat := cmdFld c 8 12
/-- DELTA (R231). -/
def cmdDelta (c : Cmd) : Nat := cmdFld c 20 10
/-- PATCH (R231). -/
def cmdPatch (c : Cmd) : Nat := cmdFld c 30 2

/-- The byte `a` of cluster `c`'s tile store as a key of `State.tile`. -/
def tileKey (c a : Nat) : Nat := c * 2 ^ 24 + a

/-- A line due in cycle `t` placed among those that are due, in the order of their cycles. -/
def insertDue (w : Nat × Nat × List Byte) : List (Nat × Nat × List Byte) → List (Nat × Nat × List Byte)
  | [] => [w]
  | x :: xs => if x.1 ≤ w.1 then x :: insertDue w xs else w :: x :: xs

/-- A store with the lines written that are due before cycle `t`. -/
def landed (m : Memory) (due : List (Nat × Nat × List Byte)) (t : Nat) : Memory :=
  (due.filter fun w => decide (w.1 < t)).foldl (fun m w => m.write w.2.1 w.2.2) m

/-- The tile stores as they stand now (R97). -/
def State.tileNow (s : State) : Memory := landed s.tile s.tileDue (s.now + 1)

/-- The tile stores as a read in cycle `r` sees them: with the writes that complete before it (R77). -/
def State.tileSeen (s : State) (r : Nat) : Memory :=
  match s.tileWas.find? fun w => decide (r ≤ w.upTo) with
  | some w => landed w.tile w.due r
  | none => landed s.tile s.tileDue r

/-- The tile stores written: `m` takes the place of what `tileNow` gives. What they were is kept while a PROD may still
read its operands of an earlier cycle (R77). -/
def State.setTile (s : State) (m : Memory) : State :=
  { s with
    tile := m
    tileDue := s.tileDue.filter fun w => decide (s.now < w.1)
    tileWas := if s.eng.any fun e => !e.2.prods.isEmpty then s.tileWas ++ [⟨s.now, s.tile, s.tileDue⟩] else [] }

/-- The state with the tile stores as they stand now, for a command that reads them. -/
def State.landedTiles (s : State) : State := { s with tile := s.tileNow, tileDue := [] }

/-- Bytes of a tile store: 12 MiB (R9). -/
def tileSize : Nat := 12 * 2 ^ 20

/-- Bytes of HBM (R253). -/
def hbmSize : Nat := 0x9000000000

end Sys2Proof.Machine
end

