-- ==== Sys2Proof/Machine/Faults.lean ====
section
/-! DEFINITION. Events to the coordinator (R439, R440), fault capture in Gauntlet (R481 to R485) and entry into the safe
state (R491), which every unit's meaning calls. -/

namespace Sys2Proof.Machine

/-! ### Events -/

/-- An event stamped with the present time (R440); ARG is padded with zeros to 24 bytes. -/
def State.event (s : State) (kind unit : Nat) (arg : List Byte) : HostEvent :=
  { kind := kind, unit := unit, fcyc := s.clk.fcnt, todSec := s.clk.todSec, todNs := s.clk.todNs
    arg := (arg ++ List.replicate 24 0).take 24 }

/-- A request put on a queue pair; a read's response takes one PSN per 4,064 bytes (R428). -/
def QueuePair.request (x : QueuePair) (w : RoceWhat) (a n : Nat) : QueuePair :=
  { x with reqs := x.reqs ++ [{ what := w, psn := x.psn, addr := a, len := n }], psn := (x.psn + max 1 ((n + 4063) / 4064)) % 2 ^ 24 }

/-- The bytes of an Ethernet frame of the host network with `n` bytes above UDP (R428, R438); a VLAN tag where HPORT
gives one (R445). -/
def HostPorts.frame (x : HostPorts) (h n : Nat) : Nat :=
  let vlan := match x.config.find? fun f => f.1 == 0x0200 && leNat (f.2.take 1) == h with
    | some f => if leNat ((f.2.drop 4).take 2) = 0 then 0 else 4
    | none => 0
  18 + vlan + 40 + 8 + n

/-- The frame of a RoCE packet with `ext` bytes of extended headers and `n` of plaintext: BTH, seal header, tag and ICRC
take 48 (R428). -/
def HostPorts.roceFrame (x : HostPorts) (h ext n : Nat) : Nat := x.frame h (48 + ext + n)

/-- An event written to the coordinator's ring: entry SEQ mod EVQ_ENTRIES takes it, `HPT_EVQ_PROD` counts on, and the
RDMA WRITE waits for its acknowledgement on the first queue pair in service. -/
def writeEvent (h : HostPorts) (regs : Tbl Word) (e : HostEvent) : HostPorts × Tbl Word :=
  let q := Regs.pair regs Reg.hptEvqProdLo
  let ring := h.evRing.set (q % h.evEntries) (q, e)
  let regs := Regs.putPair regs Reg.hptEvqProdLo (q + 1)
  match h.qps.find? fun x => !x.2.failed with
  | some x =>
    ({ h with evRing := ring, qps := h.qps.set x.1 (x.2.request .event 0 64) },
      Regs.count64 regs (Reg.hptHTxbytesLo x.2.port) (h.roceFrame x.2.port 16 64))
  | none => ({ h with evRing := ring }, regs)

/-- The coordinator's ring has room for one more event (R439); before an ASSIGN there is no ring. -/
def ringHasRoom (h : HostPorts) (regs : Tbl Word) : Bool :=
  decide (Regs.pair regs Reg.hptEvqProdLo - Regs.pair regs Reg.hptEvqConsLo < h.evEntries)

/-- An event posted (R439): written to the ring, or held among 256 that wait for room, or dropped and counted. -/
def State.post (s : State) (kind unit : Nat) (arg : List Byte) : State :=
  let e := s.event kind unit arg
  if s.host.evWait.isEmpty && ringHasRoom s.host s.regs then
    let r := writeEvent s.host s.regs e
    { s with host := r.1, regs := r.2 }
  else if s.host.evWait.length < 256 then
    { s with host := { s.host with evWait := s.host.evWait ++ [e] } }
  else
    { s with host := { s.host with evDropped := s.host.evDropped + 1 }
             regs := Regs.count s.regs Reg.hptEvcEvdrop 1 }

/-- Events that wait are written while the ring has room, oldest first (R439). -/
def State.drainEvents : Nat → State → State
  | 0, s => s
  | n + 1, s =>
    match s.host.evWait with
    | [] => s
    | e :: rest =>
      if ringHasRoom s.host s.regs then
        let r := writeEvent { s.host with evWait := rest } s.regs e
        State.drainEvents n { s with host := r.1, regs := r.2 }
      else s

/-- Room has returned (R439): one OVERFLOW event for what was dropped is written first, then what waits. -/
def State.pumpEvents (s : State) : State :=
  if s.host.evDropped = 0 ∨ !ringHasRoom s.host s.regs then s.drainEvents 256
  else
    let r := writeEvent { s.host with evDropped := 0 } s.regs (s.event 9 0x1E0 (leBytes 4 s.host.evDropped))
    { s with host := r.1, regs := r.2 }.drainEvents 256

/-! ### The safe state -/

/-- `AON_FAULT_ROOT` takes a cause unless it already holds one (R477, R491). -/
def faultRoot (regs : Tbl Word) (unit stage : Nat) : Tbl Word :=
  if bit (Regs.nat regs Reg.aonFaultRoot) 16 then regs
  else Regs.putFld regs Reg.aonFaultRoot 0 17 (unit % 4096 + stage % 16 * 4096 + 65536)

/-- Volatile keys, secrets and buffers erased (R413). -/
def State.eraseKeys (s : State) : State :=
  let regs := (List.range 12).foldl (fun r a => Regs.putFld r (Reg.cphAState a) 0 2 0) s.regs
  let regs := Regs.putFld (Regs.putFld (Regs.putFld regs Reg.cphStatus 0 1 0) Reg.hptStatus 4 4 0) Reg.idStatus 14 1 0
  { s with
    regs := regs
    cph := { s.cph with
      assocs := s.cph.assocs.map fun (a : Nat × Assoc) =>
        (a.1, { a.2 with tx := [], rx := [], eph := [], ownHello := [], peerHello := [], newGen := none, finished := false })
      lanes := [], saved := [], waiting := [], keyed := false, xts := [], signing := [] } }

/-- Committed writes stored in HBM, in order (R181). -/
def commitWrites (m : Memory) (ws : List (Nat × Nat × List Byte)) : Memory := ws.foldl (fun m w => m.write w.2.1 w.2.2) m

/-- Every write that its controller has accepted is committed whole, in the order of issue (R181); a write counts as
accepted in the cycle in which it is issued (log 34). -/
def State.commitAccepted (s : State) : State :=
  let runs := s.part.flatMap fun p => p.2.pipe
  let ws := runs.flatMap fun r => r.writes.filter fun w => decide (w.1 ≤ s.now)
  { s with hbm := commitWrites s.hbm (ws.mergeSort fun a b => decide (a.1 ≤ b.1)) }

/-- Entry into the safe state (R491): SAFE_N, clocks stopped, keys erased, accepted writes committed, HBM in
self-refresh, STATE 3, and the cause in `AON_FAULT_ROOT`. -/
def State.enterSafe (s : State) (unit stage : Nat) : State :=
  if s.power = 3 then s
  else
    let s := s.commitAccepted.eraseKeys
    { s with pins := { s.pins with safe := true }
             regs := faultRoot (Regs.putFld s.regs Reg.aonState 0 3 3) unit stage }

/-! ### Fault capture -/

/-- The always-on edge at which a happening of the core domain reaches Gauntlet: the next one or the one after it,
which is left open (R557, log 2); faults of the always-on domain itself are taken at the present edge. -/
def State.captureEdges (s : State) (crossing : Bool) : Nat := if crossing then 1 + s.freeBelow 2 else 0

/-- The fabric cycle recorded at that edge: within 3 core cycles before it (R557). -/
def State.captureCycle (s : State) (edges : Nat) : Nat :=
  let k := s.freqStep
  s.clk.fcnt + (edges * (15 * k) - s.clk.phase + 15) / 16 * b2n (edges != 0) - Config.freeNat (s.free + 1) % 4

/-- `GNT_WRAPS` counts a return of HEAD to 1 and saturates (R485, R513). -/
def countWrap (regs : Tbl Word) (a : Nat) : Tbl Word := Regs.put regs a (min 0xFFFFFFFF (Regs.nat regs a + 1))

/-- A record of the present fault (R482). -/
def State.record (s : State) (unit cause access addr detail stage edges : Nat) : FaultRec :=
  let c := s.clk.edges edges
  { unit, access, cause, stage, isOpen := cause ≠ 0x0E, detail, rep := 0, addr, fcyc := s.captureCycle edges
    todSec := c.todSec, todNs := c.todNs, capAc := c.acnt, grace := s.fld Reg.gntGrace 0 24 }

/-- The causes whose entry stage is 3 (R484). -/
def entryStage (cause : Nat) : Nat := if cause = 0x09 ∨ cause = 0x0D ∨ cause = 0x0F then 3 else 0

/-- An open record with the same UNIT, CAUSE and DETAIL (R483). -/
def openTwin (g : Gauntlet) (unit cause detail : Nat) : Option (Nat × FaultRec) :=
  g.recs.find? fun p => p.2.isOpen && p.2.unit == unit && p.2.cause == cause && p.2.detail == detail

/-- FAULT event of a log entry and its stage (R440, R487). -/
def State.postFault (s : State) (entry unit stage : Nat) : State :=
  s.post 5 unit (leBytes 4 entry ++ leBytes 4 stage)

/-- The record placed in the log (R485): entry 0 while it holds none, else HEAD, which moves on; an open record at HEAD
is never overwritten. -/
def State.placeRecord (s : State) (r : FaultRec) : State :=
  if (s.gnt.recs.get? 0).isNone then
    { s with gnt := { s.gnt with recs := s.gnt.recs.set 0 r }, regs := Regs.count s.regs Reg.gntEvcFault 1 }
  else
    let h := s.fld Reg.gntHead 0 6
    let regs := Regs.count s.regs Reg.gntEvcFault 1
    { s with gnt := { s.gnt with recs := s.gnt.recs.set h r }
             regs := if h = 63 then countWrap (Regs.putFld regs Reg.gntHead 0 6 1) Reg.gntWraps
                     else Regs.putFld regs Reg.gntHead 0 6 (h + 1) }

/-- The entry at HEAD holds an open record, so that a new record has no place (R485). -/
def State.logFull (s : State) : Bool :=
  (s.gnt.recs.get? 0).isSome &&
  match s.gnt.recs.get? (s.fld Reg.gntHead 0 6) with
  | some r => r.isOpen
  | none => false

/-- The log entry the next record takes (R485). -/
def State.nextEntry (s : State) : Nat := if (s.gnt.recs.get? 0).isNone then 0 else s.fld Reg.gntHead 0 6

/-- A fault reported to Gauntlet (R481 to R485): coalesced with an open twin, or recorded, or, with no place for it,
the safe state; an entry stage of 3 enters the safe state at once, and GNT_PARITY is not recorded (R492). -/
def State.fault (s : State) (unit cause access addr detail : Nat) (crossing : Bool := true) : State :=
  if cause = 0x0D then s.enterSafe unit 3
  else match openTwin s.gnt unit cause detail with
  | some (e, r) =>
    { s with gnt := { s.gnt with recs := s.gnt.recs.set e { r with rep := min 255 (r.rep + 1) } }
             regs := Regs.count s.regs Reg.gntEvcCoalesce 1 }
  | none =>
    if s.logFull then (s.count Reg.gntEvcLogfull).enterSafe unit 3
    else
      let edges := s.captureEdges crossing
      let entry := s.nextEntry
      let st := entryStage cause
      let t := (s.placeRecord (s.record unit cause access addr detail st edges)).tookFree.tookFree
      if st = 3 then (t.postFault entry unit 3).enterSafe unit (if cause = 0x0F then 15 else 3) else t

end Sys2Proof.Machine
end

