-- ==== Sys2Proof/Machine/Cues.lean ====
section
/-! DEFINITION. Cues (07_clockwork, R243 to R245): a change in cycle c is visible to a wait from c + 2. -/

namespace Sys2Proof.Machine

/-- The register of a cue. -/
def cueReg (c : Nat) : Nat := if c < 224 then Reg.seqCue c else Reg.seqCueHw (c - 224)

/-- A cue without its changes of the cycles that `hidden` names, each an amount modulo 2^32. -/
def State.cueWithout (s : State) (c : Nat) (hidden : Nat → Bool) : Nat :=
  ((Tbl.get [] s.seq.cueHist c).filter fun h => hidden h.1).foldl (fun v h => (v + 2 ^ 32 - h.2) % 2 ^ 32) (s.reg (cueReg c))

/-- The value of a cue that a wait sees in cycle `t` (R244): with the changes of cycles up to `t - 2`. -/
def State.cueSeen (s : State) (c t : Nat) : Nat := s.cueWithout c fun x => decide (t < x + 2)

/-- The value that cue `c` holds in cycle `t`: with the changes of cycles up to `t`. -/
def State.cueAt (s : State) (c t : Nat) : Nat := s.cueWithout c fun x => decide (t < x)

/-- A change of cue `c` in cycle `t` noted, from `old` to `new` (R244). -/
def noteCue (q : Sequencer) (c t old new now : Nat) : Sequencer :=
  { q with cueHist := q.cueHist.set c (((Tbl.get [] q.cueHist c).filter fun h => decide (now < h.1 + 2)) ++
      [(t, (new + 2 ^ 32 - old) % 2 ^ 32)]) }

/-- The state with a cue set by hardware or by a post in cycle `t` (R244). -/
def State.setCue (s : State) (c v t : Nat) : State :=
  { s with
    seq := noteCue s.seq c t (s.reg (cueReg c)) (v % 2 ^ 32) s.now
    regs := Regs.put s.regs (cueReg c) (v % 2 ^ 32) }

/-- The state with `n` added to a cue (R244). -/
def State.addCue (s : State) (c n t : Nat) : State := s.setCue c (s.reg (cueReg c) + n) t

/-- A post to a cue (R245): cues 224 to 255 change nothing and count a violation. -/
def State.postCue (s : State) (c n t : Nat) : State :=
  if c < 224 then s.addCue c n t else s.count Reg.seqEvcViol

/-- `a ≥ v` on cues, modulo 2^32 (R243). -/
def cueReached (a v : Nat) : Bool := decide ((a + 2 ^ 32 - v % 2 ^ 32) % 2 ^ 32 < 2 ^ 31)

end Sys2Proof.Machine
end

