-- ==== Sys2Proof/Machine/Hbm.lean ====
section
/-! DEFINITION. HBM timing (07_clockwork, R253 to R255, R258): banks, refresh windows and background quanta, for the accesses of
the Cuff and the Liner. -/

namespace Sys2Proof.Machine

/-- Stack of an HBM address (R253). -/
def stackOf (a : Nat) : Nat := a / 0x1200000000

/-- A bank: stack, pseudo-channel, bank and bank group (R253). -/
def bankOf (a : Nat) : Nat := stackOf a * 1024 + bits (a % 0x1200000000) 8 10

/-- The refresh group of an address (R253). -/
def refreshGroup (a : Nat) : Nat := bits (a % 0x1200000000) 11 3

/-- Cycles since group `g`'s latest window began (R254). -/
def windowPhase (g t : Nat) : Nat := (t + (5850 - 731 * g % 5850)) % 5850

/-- Group `g` is in its window in cycle `t` (R254). -/
def inWindow (g t : Nat) : Bool := decide (windowPhase g t < 525)

/-- The start of an access to line `a` whose request arrives in cycle `t`, and whether it waited for a window (R255). -/
def accessStart (use : Tbl Nat) (a t : Nat) : Nat × Bool :=
  let t1 := match use.get? (bankOf a) with
    | some u => if t < u + 48 then u + 48 else t
    | none => t
  let g := refreshGroup a
  if inWindow g t1 then (t1 + 525 - windowPhase g t1, true) else (t1, false)

/-- The 256-byte lines that `n` bytes at `a` touch (R253). -/
def linesOf (a n : Nat) : List Nat :=
  (List.range ((a + n + 255) / 256 - a / 256)).map fun i => (a / 256 + i) * 256

/-- Accesses to `lines` requested in cycle `t` (R255): the latest start, how many waited for a window, and the banks' use. -/
def accessAll (use : Tbl Nat) (lines : List Nat) (t : Nat) : Nat × Nat × Tbl Nat :=
  lines.foldl (fun acc a =>
    let r := accessStart acc.2.2 a t
    (max acc.1 r.1, acc.2.1 + b2n r.2, acc.2.2.set (bankOf a) r.1)) (t, 0, use)

/-- An access to line `a` requested in cycle `t` while a quantum holds HBM until `hbmTo`: its delay beyond `late`, the windows
waited for, and the banks' use (R255, R258). -/
def lineDelay (hbmTo : Nat) (acc : Nat × Nat × Tbl Nat) (a t : Nat) : Nat × Nat × Tbl Nat :=
  let r := accessStart acc.2.2 a (max t hbmTo)
  (max acc.1 (r.1 - t), acc.2.1 + b2n r.2, acc.2.2.set (bankOf a) r.1)

/-- A stream of `n` bytes at `a`, two lines a cycle from cycle `t` on (R140, R255, R258): the state with its waits counted and
its banks used, and the cycles that its slowest line is late. -/
def State.streamAccess (s : State) (a n t : Nat) : State × Nat :=
  let p := stackOf a
  if n = 0 ∨ 8 ≤ p then (s, 0)
  else
    let x := Tbl.get ({} : Partition) s.part p
    let lines := linesOf a n
    let r := (List.range lines.length).foldl (fun acc i => lineDelay s.seq.hbmTo acc (lines.getD i 0) (t + i / 2)) (0, 0, x.bankUse)
    let bg := b2n (decide (t < s.seq.hbmTo))
    ({ s with part := s.part.set p { x with bankUse := r.2.2 }
              regs := Regs.counts s.regs [(Reg.seqEvcRefwait, r.2.1), (Reg.seqEvcBgwait, bg)] }, r.1)

end Sys2Proof.Machine
end

