-- ==== Sys2Proof/Machine/Matrix.lean ====
section
/-! DEFINITION. Matrix engines (03_matrix_engines): descriptors, PROD and DRAIN, the start of a tile, promotion, the swap
with its whole drain, and the histogram. -/

namespace Sys2Proof.Machine

/-! ### Descriptors (R68 to R70) -/

/-- An operand or output descriptor (R68). -/
structure Desc where
  base : Nat
  fmt : Nat
  orient : Bool
  scaled : Bool
  ld : Nat
  sbase : Nat
  sld : Nat
  pstride : Nat
  reserved : Bool
  deriving DecidableEq, Repr

/-- The fields of 16 descriptor bytes (R68). -/
def Desc.ofNat (v : Nat) : Desc :=
  { base := bits v 0 24, fmt := bits v 24 4, orient := bit v 28, scaled := bit v 29, ld := bits v 32 24
    sbase := bits v 56 24, sld := bits v 80 16, pstride := bits v 96 24
    reserved := bits v 30 2 != 0 || bits v 120 8 != 0 }

/-- Descriptor `idx` of an engine whose table starts at `tbl` in cluster `c`; none beyond the tile store (R68). -/
def readDesc (tile : Memory) (c tbl idx : Nat) : Option Desc :=
  if tileSize < tbl + 16 * idx + 16 then none
  else some (Desc.ofNat (tile.readNat (tileKey c (tbl + 16 * idx)) 16))

/-- BASE, LD and PSTRIDE are multiples of 64 (R68). -/
def Desc.aligned (d : Desc) : Bool := d.base % 64 == 0 && d.ld % 64 == 0 && d.pstride % 64 == 0

/-- An operand descriptor of R70. -/
def Desc.operandOk (d : Desc) : Bool := d.aligned && decide (d.fmt ≤ 7)

/-- An output descriptor of R70: the formats it may name, and no scaled A34. -/
def Desc.outputOk (d : Desc) : Bool :=
  d.aligned && (decide (d.fmt ≤ 8) || d.fmt == 0xB || d.fmt == 0xC || d.fmt == 0xD) && !(d.scaled && d.fmt == 8)

/-- The format an operand's elements are stored in: F8V for the pieces of a wide operand (R70). -/
def Desc.arrayFmt (d : Desc) : Fmt :=
  match Fmt.ofCode d.fmt with
  | some f => if 1 < f.pieces then .f8v else f
  | none => .f8v

/-- The pieces an operand has (R59, R70). -/
def Desc.pieces (d : Desc) : Nat := match Fmt.ofCode d.fmt with | some f => f.pieces | none => 1

/-- The end of the bytes that `lines` lines of `len` bytes in `p` pieces take (R69). -/
def Desc.dataEnd (d : Desc) (off lines len p : Nat) : Nat :=
  d.base + off + (lines - 1) * d.ld + (p - 1) * d.pstride + len

/-- The end of the SC8 codes of `lines` code lines of `n` codes in `p` pieces (R69). -/
def Desc.codeEnd (d : Desc) (off lines n p : Nat) : Nat :=
  d.sbase + off + (lines - 1) * d.sld + (p - 1) * d.pstride + n

/-- Data line and position of operand element (outer, k): `plainOuter` says whether the outer index is the line when
ORIENT is 0 (operand A) or when it is 1 (operand B) (R69). -/
def lineOf (isA orient : Bool) (outer k : Nat) : Nat × Nat := if isA != orient then (outer, k) else (k, outer)

/-- All addresses that an operand of `outer` × `k` resolves lie in the tile store (R75). -/
def Desc.operandInside (d : Desc) (isA : Bool) (off soff outer k : Nat) : Bool :=
  let (ls, n) := lineOf isA d.orient outer k
  let (cls, cn) := lineOf isA d.orient outer ((k + 31) / 32)
  decide (d.dataEnd off ls ((n * d.arrayFmt.storeBits + 7) / 8) d.pieces ≤ tileSize) &&
    (!d.scaled || decide (d.codeEnd soff cls cn d.pieces ≤ tileSize))

/-- The value of element (outer, k) of piece `p` of an operand, its block scale not applied (R35, R42, R69). -/
def Desc.elem (d : Desc) (tile : Memory) (c : Nat) (isA : Bool) (off p outer k : Nat) : Val :=
  let (l, i) := lineOf isA d.orient outer k
  d.arrayFmt.decode (elemCode tile (tileKey c (d.base + off + l * d.ld + p * d.pstride)) d.arrayFmt.storeBits i)

/-- The SC8 code of block `b` of the outer index; 127 of an unscaled operand (R69, R70). -/
def Desc.scale (d : Desc) (tile : Memory) (c : Nat) (isA : Bool) (soff p outer b : Nat) : Nat :=
  if d.scaled then
    let (l, i) := lineOf isA d.orient outer b
    (tile.get (tileKey c (d.sbase + soff + l * d.sld + p * d.pstride + i))).toNat
  else 127

/-! ### Commands -/

/-- Fields of PROD (R72). -/
structure ProdCmd where
  aDesc : Nat
  bDesc : Nat
  m : Nat
  n : Nat
  k : Nat
  acc : Bool
  aOff : Nat
  bOff : Nat
  aSoff : Nat
  bSoff : Nat
  reserved : Bool
  deriving DecidableEq, Repr

/-- PROD decoded (R72). -/
def ProdCmd.of (c : Cmd) : ProdCmd :=
  { aDesc := cmdFld c 32 8, bDesc := cmdFld c 40 8, m := cmdFld c 48 8, n := cmdFld c 56 8, k := cmdFld c 64 20
    acc := cmdFld c 84 1 == 1, aOff := cmdFld c 88 24, bOff := cmdFld c 112 24, aSoff := cmdFld c 136 24
    bSoff := cmdFld c 160 24, reserved := cmdFld c 85 3 != 0 || cmdFld c 184 72 != 0 }

/-- Fields of DRAIN (R73). -/
structure DrainCmd where
  desc : Nat
  dest : Nat
  rnd : Nat
  ieee : Bool
  split : Bool
  hist : Bool
  bank : Nat
  m : Nat
  n : Nat
  tensor : Nat
  origin : Nat
  rowstep : Nat
  off : Nat
  device : Nat
  part : Nat
  reserved : Bool
  deriving DecidableEq, Repr

/-- DRAIN decoded (R73). -/
def DrainCmd.of (c : Cmd) : DrainCmd :=
  { desc := cmdFld c 32 8, dest := cmdFld c 40 2, rnd := cmdFld c 42 2, ieee := cmdFld c 44 1 == 1
    split := cmdFld c 45 1 == 1, hist := cmdFld c 46 1 == 1, bank := cmdFld c 47 1, m := cmdFld c 48 8
    n := cmdFld c 56 8, tensor := cmdFld c 64 32, origin := cmdFld c 96 48, rowstep := cmdFld c 144 32
    off := cmdFld c 176 24, device := cmdFld c 200 10, part := cmdFld c 210 3, reserved := cmdFld c 213 43 != 0 }

/-- The descriptor an engine's command names. -/
def engineDesc (s : State) (n idx : Nat) : Option Desc := readDesc s.tileNow (n / 4) (s.fld (Reg.meDtblBase n) 0 24) idx

/-- The 16 bytes of the descriptor an engine's command names (R68). -/
def engineDescBytes (s : State) (n idx : Nat) : Nat :=
  s.tileNow.readNat (tileKey (n / 4) (s.fld (Reg.meDtblBase n) 0 24 + 16 * idx)) 16

/-- A PROD is invalid by R75. -/
def prodInvalid (p : ProdCmd) (a b : Option Desc) : Bool :=
  match a, b with
  | some a, some b =>
    decide (128 < p.m) || decide (128 < p.n) || !a.operandOk || !b.operandOk ||
      (p.m != 0 && p.n != 0 && p.k != 0 &&
        !(a.operandInside true p.aOff p.aSoff p.m p.k && b.operandInside false p.bOff p.bSoff p.n p.k))
  | _, _ => true

/-- Lines and line length of an output of M × N (R69). -/
def Desc.lines (d : Desc) (m n : Nat) : Nat × Nat := if d.orient then (n, m) else (m, n)

/-- The addresses of an output lie in the tile store (R75); SPLIT writes F8V pieces with their codes (R94). -/
def Desc.outputInside (d : Desc) (off m n : Nat) (split : Bool) : Bool :=
  let (ls, len) := d.lines m n
  let w := if split then 8 else (match Fmt.ofCode d.fmt with | some f => f.storeBits | none => 8)
  let p := if split then d.pieces else 1
  decide (d.dataEnd off ls (packedBytes w len) p ≤ tileSize) &&
    (!(split || d.scaled) || decide (d.codeEnd off ls ((len + 31) / 32) p ≤ tileSize))

/-- A DRAIN is invalid by R75. -/
def drainInvalid (d : DrainCmd) (o : Option Desc) : Bool :=
  decide (128 < d.m) || decide (128 < d.n) || (d.split && d.dest != 0) ||
    ((d.dest == 1 || d.dest == 2) && (d.origin % 64 != 0 || d.rowstep % 64 != 0)) ||
    (d.dest == 0 && match o with
      | none => true
      | some o => !o.outputOk || (d.split && !(decide (5 ≤ o.fmt) && decide (o.fmt ≤ 7))) ||
          (d.m != 0 && d.n != 0 && !o.outputInside d.off d.m d.n d.split))

/-- The command's and its descriptors' reserved bits, counted once per command (R68, R75). -/
def reservedOf (l : List (Option Desc)) : Bool := l.any fun o => match o with | some d => d.reserved | none => false

/-! ### Engines in the state -/

/-- Engine `n`. -/
def State.engine (s : State) (n : Nat) : Engine := Tbl.get {} s.eng n

/-- The state with engine `n` replaced. -/
def State.setEngine (s : State) (n : Nat) (e : Engine) : State := { s with eng := s.eng.set n e }

/-- A unit is isolated (R488). -/
def State.isolated (s : State) (unit : Nat) : Bool := s.gnt.isolated.contains unit

/-- A command to an isolated unit moves nothing and is counted (R488); otherwise `f` runs. -/
def State.toUnit (s : State) (unit : Nat) (f : State → State) : State :=
  if s.isolated unit then s.count Reg.gntEvcIsocmd else f s

/-- The cycles by which the holds that have not ended move a command issued now (R71). -/
def Engine.movedNow (e : Engine) (now : Nat) : Nat :=
  ((e.holds.filter fun h => decide (now ≤ h.1)).map (·.2)).foldl (· + ·) 0

/-- The cycle from which a PROD's offsets count, with the holds that moved it (R71). -/
def ProdRun.from' (r : ProdRun) : Nat := r.issue + r.moved

/-- The cycle from which a DRAIN's offsets count, with the holds that moved it (R71). -/
def DrainRun.from' (d : DrainRun) : Nat := d.issue + d.moved

/-- The parts of a run of cycles that no listed run covers. -/
def uncovered (l : List (Nat × Nat)) (a b : Nat) : List (Nat × Nat) :=
  l.foldl (fun segs c => segs.flatMap fun x =>
    [(x.1, min x.2 c.1), (max x.1 c.2, x.2)].filter fun y => decide (y.1 < y.2)) [(a, b)]

/-- A hold, by command number `serial`, of an action from cycle `due` to cycle `t`: every command issued after it and up
to the hold's end moves by as much (R71); also the cycles that `ME_STALL` has not counted yet. -/
def Engine.hold (e : Engine) (serial due t : Nat) : Engine × Nat :=
  if t ≤ due then (e, 0)
  else
    let h := t - due
    let mv (k issue : Nat) : Nat := if serial < k ∧ issue ≤ t then h else 0
    let segs := uncovered e.stalled due t
    ({ e with
        prods := e.prods.map fun p => { p with moved := p.moved + mv p.serial p.issue }
        drains := e.drains.map fun d => { d with moved := d.moved + mv d.serial d.issue }
        short := e.short.map fun x => { x with doneAt := x.doneAt + mv x.serial x.issue }
        holds := e.holds ++ [(t, h)]
        stalled := e.stalled ++ segs }, (segs.map fun x => x.2 - x.1).foldl (· + ·) 0)

/-- The engine takes one more command's number; with nothing waiting, the holds and counted cycles of the past are
forgotten. -/
def Engine.next (e : Engine) (now : Nat) : Engine :=
  { e with serial := e.serial + 1
           short := e.short.filter fun x => decide (now < x.doneAt)
           holds := e.holds.filter fun h => decide (now ≤ h.1)
           stalled := if e.prods.isEmpty ∧ e.drains.isEmpty then e.stalled.filter (fun x => decide (now < x.2)) else e.stalled }

/-- A command that is over after `n` cycles enters the engine (R75, R76, R558). -/
def Engine.brief (e : Engine) (now n : Nat) : Engine :=
  let x := e.next now
  { x with short := x.short ++ [⟨e.serial, now, now + e.movedNow now + n⟩] }

/-- Accept PROD (R71, R75, R76): invalid and zero-size commands are counted and move nothing for their 6 cycles; a K = 0
start keeps its place because it clears the set at its +6. -/
def prodEffect (c : Cmd) (s : State) : State :=
  let n := cmdUnit c
  s.toUnit n fun s =>
    let p := ProdCmd.of c
    let a := engineDesc s n p.aDesc
    let b := engineDesc s n p.bDesc
    let resv := b2n (p.reserved || reservedOf [a, b])
    let e := s.engine n
    if prodInvalid p a b then (s.countN (Reg.meEvcViol n) (1 + resv)).setEngine n (e.brief s.now 6)
    else
      let empty := p.m == 0 || p.n == 0 || p.k == 0
      let queued := p.m != 0 && p.n != 0 && (p.k != 0 || !p.acc)
      { s with
        regs := Regs.counts s.regs [(Reg.meEvcViol n, resv), (Reg.meEvcEmpty n, b2n empty)]
        eng := s.eng.set n
          (if queued then { e.next s.now with prods := e.prods ++
                      [{ cmd := c, serial := e.serial, issue := s.now, moved := e.movedNow s.now
                         aDesc := engineDescBytes s n p.aDesc, bDesc := engineDescBytes s n p.bDesc }] }
           else e.brief s.now 6) }

/-- Accept DRAIN (R73, R75, R76), with the step of its draws (R50). Rounding code 3 is counted as a violation (R44). A
DRAIN of DEST 3 that swaps counts nothing (R91). -/
def drainEffect (c : Cmd) (step : Nat) (s : State) : State :=
  let n := cmdUnit c
  s.toUnit n fun s =>
    let d := DrainCmd.of c
    let o := engineDesc s n d.desc
    let resv := b2n (d.reserved || (d.dest == 0 && reservedOf [o]))
    let e := s.engine n
    if drainInvalid d o then (s.countN (Reg.meEvcViol n) (1 + resv)).setEngine n (e.brief s.now 1)
    else
      let empty := d.m == 0 || d.n == 0
      let silent := d.dest == 3 && !empty
      { s with
        regs := Regs.counts s.regs [(Reg.meEvcViol n, if silent then 0 else resv + b2n (d.rnd == 3)), (Reg.meEvcEmpty n, b2n empty)]
        eng := s.eng.set n
          (if empty then e.brief s.now 1
           else { e.next s.now with drains := e.drains ++
                      [{ cmd := c, serial := e.serial, issue := s.now, moved := e.movedNow s.now
                         desc := engineDescBytes s n d.desc, step, lepoch := s.fld Reg.seqEpoch 0 16 }] }) }

/-- A matrix-engine command of an undefined opcode: over after 1 cycle (R75). -/
def engineUndefined (c : Cmd) (s : State) : State :=
  s.toUnit (cmdUnit c) fun s =>
    (s.count (Reg.meEvcViol (cmdUnit c))).setEngine (cmdUnit c) ((s.engine (cmdUnit c)).brief s.now 1)

/-! ### Operand entries and promotion -/

/-- Operand-entry cycles of one promotion interval (R82). -/
def intervalOf (prec : Nat) : Nat := if prec = 0 then 8 else if prec = 1 then 16 else 32

/-- Operand-entry cycles of a pass (R77). -/
def passEntries (k : Nat) : Nat := (k + 1) / 2

/-- Cycles from the start of a pass to the start of the next (R77). -/
def passCycles (k : Nat) : Nat := max (passEntries k) 4

/-- What an engine needs to run a PROD: its fields and operands. -/
structure Operands where
  p : ProdCmd
  a : Desc
  b : Desc
  deriving DecidableEq, Repr

/-- The operands of a PROD. -/
def ProdRun.operands (r : ProdRun) : Operands :=
  { p := ProdCmd.of r.cmd, a := Desc.ofNat r.aDesc, b := Desc.ofNat r.bDesc }

/-- The kept piece pairs of the product (R60, R61). -/
def Operands.pairs (o : Operands) : List (Nat × Nat) := passPairs o.a.pieces o.b.pieces

/-- The SC8 codes of block `blk`, per row and per column, for piece pair `pq`. -/
def Operands.codes (o : Operands) (tile : Memory) (cl : Nat) (pq : Nat × Nat) (blk : Nat) : List Nat × List Nat :=
  ((List.range o.p.m).map fun i => o.a.scale tile cl true o.p.aSoff pq.1 i blk,
   (List.range o.p.n).map fun j => o.b.scale tile cl false o.p.bSoff pq.2 j blk)

/-- R83: the scale sums of cell (i, j) differ between the two blocks of an interval. -/
def sumsDiffer (c0 c1 : List Nat × List Nat) (i j : Nat) : Bool :=
  c0.1.getD i 127 + c0.2.getD j 127 != c1.1.getD i 127 + c1.2.getD j 127

/-- R83 for the set: some cell's scale sums differ. -/
def anyDiffer (c0 c1 : List Nat × List Nat) (m n : Nat) : Bool :=
  (List.range m).any fun i => (List.range n).any fun j => sumsDiffer c0 c1 i j

/-- A partial of products in index order, from +0, each sum rounded in A20 (R35, R36): the partial and how many sums
overflowed. -/
def partialSum (as bs : List Val) : Val × Nat :=
  (as.zip bs).foldl (fun acc ab =>
    let r := a20.convert .rne true false (acc.1.add (ab.1.mul ab.2))
    (a20.decode r.code, acc.2 + b2n r.ovf)) (Val.zero false, 0)

/-- A34 := A34 + P × 2^(scale sum) (R37); a scale code 0xFF gives NaN. -/
def promoteCell (cell : BitVec 34) (p : Val) (sa sb : Nat) : BitVec 34 :=
  let v := if sa = 255 ∨ sb = 255 then Val.nan else p.scale ((sa : Int) - 127 + ((sb : Int) - 127))
  BitVec.ofNat 34 (a34.convert .rne true false ((a34.decode cell.toNat).add v)).code

/-- How a cell takes part in a promotion: the products from entry `lo` to `hi`, with the codes of block `blk`, and
whether a code of the next block counts for NaN as well. -/
structure CellSpan where
  lo : Nat
  hi : Nat
  codes : List Nat × List Nat
  also : List Nat × List Nat

/-- One promotion of rows `0..m-1` and columns `0..n-1`: new A34 rows, new A20 rows, and A20 overflows. `span` says
which products a cell takes, or none for a cell that does not promote now; `mem x` is the tile stores as entry `x` of the
pass reads them (R77). -/
def promoteRows (o : Operands) (mem : Nat → Memory) (cl : Nat) (pq : Nat × Nat) (acc : Tbl (List (BitVec 34)))
    (a20s : Tbl (List (BitVec 20))) (span : Nat → Nat → Option CellSpan) (lo hi : Nat) :
    Tbl (List (BitVec 34)) × Tbl (List (BitVec 20)) × Nat :=
  let ks := (List.range (min o.p.k (2 * hi) - 2 * lo)).map (2 * lo + ·)
  let cols := (List.range o.p.n).map fun j => ks.map fun k => o.b.elem (mem (k / 2)) cl false o.p.bOff pq.2 j k
  (List.range o.p.m).foldl (fun st i =>
    let av := ks.map fun k => o.a.elem (mem (k / 2)) cl true o.p.aOff pq.1 i k
    let row := st.1.get [] i
    let arow := st.2.1.get [] i
    let cells := (List.range (max o.p.n (max row.length arow.length))).map fun j =>
      let c := row.getD j 0
      let q := arow.getD j 0
      if j < o.p.n then
        match span i j with
        | none => (c, q, 0)
        | some sp =>
          let skip := 2 * sp.lo - 2 * lo
          let cnt := 2 * sp.hi - 2 * sp.lo
          let r := partialSum ((av.drop skip).take cnt) (((cols.getD j []).drop skip).take cnt)
          let nanAlso := sp.also.1.getD i 127 == 255 || sp.also.2.getD j 127 == 255
          (promoteCell c r.1 (if nanAlso then 255 else sp.codes.1.getD i 127) (sp.codes.2.getD j 127),
           BitVec.ofNat 20 (a20.convert .rne true false r.1).code, r.2)
      else (c, q, 0)
    (st.1.set i (cells.map (·.1)), st.2.1.set i (cells.map (·.2.1)),
     st.2.2 + (cells.map (·.2.2)).foldl (· + ·) 0)) (acc, a20s, 0)

/-- The set after one more promotion into it (R84), with whether BOUND_OK cleared now. -/
def AccSet.counted (a : AccSet) : AccSet × Bool :=
  if !a.promoted then ({ a with promoted := true }, false)
  else if a.promo < 0x7FFF then ({ a with promo := a.promo + 1 }, false)
  else ({ a with boundOk := false }, a.boundOk)

/-- The first operand entry of a PROD (R77 to R79): held behind the entries before it, by pending promotions of an
ACC = 0 start, or by the 4 cc between promotions of a continuation; the second part says whether R78 held it. -/
def firstEntry (e : Engine) (r : ProdRun) (p : ProdCmd) (firstLen : Nat) : Nat × Bool :=
  let t := max (r.from' + 6) e.entriesEnd
  if !p.acc then (max t e.act.ready, false)
  else match e.act.lastPromo with
    | none => (t, false)
    | some l => if t + firstLen + 8 < l + 4 then (l + 4 - firstLen - 8, true) else (t, false)

/-- A PROD starts: holds applied (R71), the set opened with the PREC mode in force (R79, R80, R82); `clear` for the
ACC = 0 start. DESIGN CHOICE (log 119): a start without operand entries uses its first cycle as an entry would. -/
def Engine.start (e : Engine) (r : ProdRun) (p : ProdCmd) (passes prec first : Nat) : Engine × Nat :=
  let h := e.hold r.serial (r.from' + 6) first
  let last := first + (passes - 1) * passCycles p.k + (passEntries p.k - 1)
  let e := h.1
  let act := if p.acc then (if e.act.opened then e.act else { e.act with opened := true, prec := prec })
             else { opened := true, prec := prec }
  let rest := e.prods.drop 1
  if p.k = 0 then ({ e with act := { act with ready := first }, prods := rest, entriesEnd := first + 1 }, h.2)
  else ({ e with act := { act with ready := last + 13 }, entriesEnd := last + 1
                 prods := { r with first := some first } :: rest }, h.2)

/-- The engine is running: neither isolated nor gated (R488, R250). -/
def State.engineRuns (s : State) (n : Nat) : Bool := !s.isolated n

/-- The cycle of a DRAIN's swap (R89, R90): held to the earliest legal swap and to an empty shadow. -/
def Engine.swapAt (e : Engine) (d : DrainRun) : Nat := max d.from' (max e.act.ready e.shadowFree)

/-- The PROD in front, whose first entry would fall in cycle `t`, stands behind the swap of the DRAIN in front: that DRAIN
was issued before it, or swaps before its entry (R71, R89). -/
def Engine.behindSwap (e : Engine) (r : ProdRun) (t : Nat) : Bool :=
  match e.drains with
  | [] => false
  | d :: _ => decide (d.serial < r.serial) || decide (e.swapAt d < t)

/-- The first operand entry of an ACC = 0 PROD (R79): once no promotion is pending, the active set clears and any open
tile is discarded. -/
def tileStartEffect (n : Nat) (s : State) : State :=
  let e := s.engine n
  match e.prods with
  | [] => s
  | r :: _ =>
    let o := r.operands
    let t := (firstEntry e r o.p 0).1
    if o.p.acc || r.first.isSome || !s.engineRuns n || e.behindSwap r t then s
    else
      let discard := b2n e.act.opened
      let st := e.start r o.p o.pairs.length (s.fld Reg.seqMode 3 2) t
      let s := s.atCycle t
      { s with eng := s.eng.set n st.1
               regs := Regs.count64 (Regs.count s.regs (Reg.meEvcDiscard n) discard) (Reg.meStallLo n) st.2 }

/-- Rows that a promotion or drain reads, whose parity fails and that are not reported yet in this tile (R103). -/
def AccSet.failing (a : AccSet) (m : Nat) : List Nat :=
  a.badRows.filter fun i => decide (i < m) && !a.poisoned.contains i

/-- A fault reported in cycle `c`, which the clock of the state need not have reached. -/
def State.faultAt (s : State) (c unit cause access addr detail : Nat) : State :=
  { (s.atCycle c).fault unit cause access addr detail with clk := s.clk }

/-- ACC_PARITY of each failing row, reported to Gauntlet (R103, R484). -/
def State.parityFaults (s : State) (n : Nat) (rows : List Nat) : State :=
  rows.foldl (fun s i => s.fault n 0x01 6 0 i) s

/-- Entries of the first partial of a PROD: a whole interval or what the pass holds, or half of an interval that R83
splits. -/
def firstPartial (s : State) (n : Nat) (o : Operands) (prec : Nat) : Nat :=
  let iv := min (intervalOf prec) (passEntries o.p.k)
  if 16 < iv then
    let pq := o.pairs.getD 0 (0, 0)
    if anyDiffer (o.codes s.tileNow (n / 4) pq 0) (o.codes s.tileNow (n / 4) pq 1) o.p.m o.p.n then 16 else iv
  else iv

/-- The first entry of a continuation (ACC = 1) in front of engine `n`, and whether R78 holds it. -/
def State.continuationEntry (s : State) (n : Nat) (r : ProdRun) (o : Operands) : Nat × Bool :=
  let e := s.engine n
  firstEntry e r o.p (firstPartial s n o (if e.act.opened then e.act.prec else s.fld Reg.seqMode 3 2))

/-- A continuation (ACC = 1) makes its first entry (R78, R80). -/
def State.startContinuation (s : State) (n : Nat) (r : ProdRun) (o : Operands) : State :=
  let f := s.continuationEntry n r o
  let st := (s.engine n).start r o.p o.pairs.length (s.fld Reg.seqMode 3 2) f.1
  { s with eng := s.eng.set n st.1
           regs := Regs.count64 (Regs.count s.regs (Reg.meEvcHold n) (b2n f.2)) (Reg.meStallLo n) st.2 }

/-- One promotion into the active set by the PROD in front, whose first entry is made (R37, R81 to R84, R103): each entry
reads its operands 4 cycles before it (R77), and the rows are checked in the cycle of the addition (logs 81, 111). -/
def State.promoteFront (s : State) (n : Nat) (r : ProdRun) (first : Nat) (o : Operands) : State :=
  let e := s.engine n
  let cl := n / 4
  let pairs := o.pairs
  let pq := pairs.getD r.pass (0, 0)
  let len := passEntries o.p.k
  let lo := r.next
  let hi := min (lo + intervalOf e.act.prec) len
  let blk := 2 * lo / 32
  let mem (x : Nat) : Memory := s.tileSeen (first + r.pass * passCycles o.p.k + x - 4)
  let c0 := o.codes (mem lo) cl pq blk
  let c1 := o.codes (mem (lo + 16)) cl pq (blk + 1)
  let two := decide (16 < hi - lo)
  let firstHalf := two && !r.half && anyDiffer c0 c1 o.p.m o.p.n
  let mid := lo + 16
  let span (i j : Nat) : Option CellSpan :=
    if firstHalf then (if sumsDiffer c0 c1 i j then some ⟨lo, mid, c0, c0⟩ else none)
    else if r.half && sumsDiffer c0 c1 i j then some ⟨mid, hi, c1, c1⟩
    else some ⟨lo, hi, c0, if two then c1 else c0⟩
  let res := promoteRows o mem cl pq e.act.rows e.a20 span lo (if firstHalf then mid else hi)
  let cnt := e.act.counted
  let failing := e.act.failing o.p.m
  let lastEntry := first + r.pass * passCycles o.p.k + (if firstHalf then mid else hi) - 1
  let act := { cnt.1 with rows := res.1, lastPromo := some (lastEntry + 9), poisoned := e.act.poisoned ++ failing }
  let passDone := !firstHalf && hi == len
  let r' := { r with half := firstHalf, next := if firstHalf then lo else if passDone then 0 else hi
                     pass := if passDone then r.pass + 1 else r.pass }
  let done := passDone && r.pass + 1 == pairs.length
  let entries := (if firstHalf then mid else hi) - (if r.half then mid else lo)
  let e' := { e with act := act, a20 := res.2.1
                     prods := if done then e.prods.drop 1 else r' :: e.prods.drop 1 }
  let s := ((s.atCycle (lastEntry + 12)).parityFaults n failing).atCycle (lastEntry + 13)
  { s with eng := s.eng.set n e'
           regs := Regs.count64 (Regs.counts s.regs [(Reg.meEvcA20ovf n, res.2.2), (Reg.meEvcBound n, b2n cnt.2)])
                     (Reg.meBusyLo n) entries }

/-- The next promotion of an engine: the front PROD's next partial (R82, R83); a continuation first makes its entry. -/
def promotionEffect (n : Nat) (s : State) : State :=
  match (s.engine n).prods with
  | [] => s
  | r :: _ =>
    let o := r.operands
    if !s.engineRuns n then s
    else match r.first with
      | some t => s.promoteFront n r t o
      | none =>
        if !o.p.acc || (s.engine n).behindSwap r (s.continuationEntry n r o).1 then s
        else
          let s := s.startContinuation n r o
          match (s.engine n).prods with
          | [] => s
          | r :: _ => match r.first with
            | some t => s.promoteFront n r t o
            | none => s

/-! ### Drain -/

/-- The histogram bin of a value (R99). -/
def histBin : Val → Nat
  | .nan => 65
  | .inf _ => 65
  | .fin _ m e =>
    if m = 0 then 64
    else
      let x := expOf m e
      if x < -48 then 66 else if 15 < x then 67 else (x + 48).toNat

/-- The address of bin `i` of a bank of engine `n` (R105). -/
def histAddr (n bank i : Nat) : Nat := if bank = 0 then Reg.meHist0Bin n i else Reg.meHist1Bin n i

/-- A bank's counters after one value in each listed bin (R99, R100): each saturates and then sets the bank's sticky
flag. -/
def countHist (regs : Tbl Word) (n bank : Nat) (bins : List Nat) : Tbl Word :=
  bins.foldl (fun regs b =>
    let a := histAddr n bank b
    let c := min 0xFFFFFFFF (Regs.nat regs a + 1)
    let regs := Regs.put regs a c
    if c < 0xFFFFFFFF then regs else Regs.putFld regs (Reg.meHistCtrl n) (8 + bank) 1 1) regs

/-- Consecutive runs of 32. -/
def chunks {α : Type} (k : Nat) : Nat → List α → List (List α)
  | 0, _ => []
  | fuel + 1, l => if l.isEmpty then [] else l.take k :: chunks k fuel (l.drop k)

/-- What one line of an output writes, as addresses and bytes, and what it counts. -/
structure LineOut where
  writes : List (Nat × List Byte)
  ovf : Nat := 0
  unf : Nat := 0
  nonfin : Nat := 0

/-- A sum. -/
def total (l : List Nat) : Nat := l.foldl (· + ·) 0

/-- One line of an output, not split (R92, R93). -/
def drainLine (f : Fmt) (ieee scaled : Bool) (dataAt codeAt : Nat) (line : List (Val × Round)) : LineOut :=
  let blocks := if scaled then (chunks 32 line.length line).map (writeBlock f ieee) else [writePlain f ieee line]
  { writes := (dataAt, packBits f.storeBits (blocks.flatMap (·.codes))) ::
      (if scaled then [(codeAt, blocks.map fun b => BitVec.ofNat 8 b.sc)] else [])
    ovf := total (blocks.map (·.ovf)), unf := total (blocks.map (·.unf)), nonfin := total (blocks.map (·.nonfin)) }

/-- One line of a SPLIT drain (R94): converted to `f`, split by R59, every piece written with its own codes. -/
def drainSplitLine (f : Fmt) (ieee : Bool) (dataAt codeAt stride : Nat) (line : List (Val × Round)) : LineOut :=
  let w := writePlain f ieee line
  let vals := w.codes.map f.decode
  let blocks := chunks 32 vals.length vals
  let split := blocks.map (splitBlock f.pieces)
  let unf := total ((blocks.zip split).map fun b => splitUnderflows b.1 b.2)
  { writes := (List.range f.pieces).flatMap fun p =>
      [(dataAt + p * stride, split.flatMap fun b => (b.getD p (127, [])).2.map fun c => BitVec.ofNat 8 c),
       (codeAt + p * stride, split.map fun b => BitVec.ofNat 8 (b.getD p (127, [])).1)]
    ovf := w.ovf, unf := w.unf + unf, nonfin := w.nonfin }

/-- The counts of a converted line or beat, with the bins of its values if its drain adds to a histogram bank. -/
def LineCounts.of (hist : Bool) (bank ovf unf nonfin : Nat) (vals : List Val) : LineCounts :=
  { ovf, unf, nonfin, bank, bins := if hist then vals.map histBin else [] }

/-- The event counters after a converted line or beat (R93). -/
def LineCounts.events (x : LineCounts) (regs : Tbl Word) (n : Nat) : Tbl Word :=
  Regs.counts regs [(Reg.meEvcOvf n, x.ovf), (Reg.meEvcUnf n, x.unf), (Reg.meEvcNonfin n, x.nonfin)]

/-- The A34 value of output element (i, j); NaN in a poisoned or failing row (R103). -/
def AccSet.value (a : AccSet) (bad : List Nat) (i j : Nat) : Val :=
  if bad.contains i then .nan else a34.decode ((a.rows.get [] i).getD j 0).toNat

/-- The rounding of output element (i, j): JSR32 of step, TENSOR and the flat index of R74. -/
def DrainCmd.round (d : DrainCmd) (step i j : Nat) : Round :=
  Round.ofCode d.rnd (BitVec.ofNat 32 step) (BitVec.ofNat 32 d.tensor) (d.origin + i * d.rowstep + j)

/-- The lines of a drain into tile store, in order (R92 to R94), and the values of each. -/
def drainLines (d : DrainCmd) (o : Desc) (cl step : Nat) (a : AccSet) (bad : List Nat) : List (LineOut × List Val) :=
  let (ls, len) := o.lines d.m d.n
  let f := (Fmt.ofCode o.fmt).getD .f8v
  (List.range ls).map fun l =>
    let line := (List.range len).map fun x =>
      let (i, j) := if o.orient then (x, l) else (l, x)
      (a.value bad i j, d.round step i j)
    let dataAt := tileKey cl (o.base + d.off + l * o.ld)
    let codeAt := tileKey cl (o.sbase + d.off + l * o.sld)
    (if d.split then drainSplitLine f d.ieee dataAt codeAt o.pstride line
     else drainLine f d.ieee o.scaled dataAt codeAt line, line.map (·.1))

/-- A beat of 64 FP32 values as it is sent (R159, R165): with a non-finite value it goes as zeros and abstains. -/
def makeBeat (tensor index dev unit lepoch part : Nat) (boundOk : Bool) (vals : List Word) : Beat :=
  let ok := vals.all ffinite
  { tensor, index, srcDev := dev, srcUnit := unit, lepoch, abstain := !ok, boundOk, part
    vals := if ok then (vals ++ List.replicate 64 0).take 64 else List.replicate 64 0 }

/-- Beats of a slot drain, row by row (R95), with what the conversion of each counts; none has left the shadow yet. -/
def drainBeats (d : DrainCmd) (dr : DrainRun) (dev unit : Nat) (a : AccSet) (bad : List Nat) :
    List (OutBeat × LineCounts) :=
  let per := (d.n + 63) / 64
  (List.range (d.m * per)).map fun b =>
    let i := b / per
    let j0 := 64 * (b % per)
    let vals := (List.range (min 64 (d.n - j0))).map fun x => (a.value bad i (j0 + x), d.round dr.step i (j0 + x))
    let w := writePlain .fp32 d.ieee vals
    let beat := makeBeat d.tensor (d.origin + i * d.rowstep + j0) dev unit dr.lepoch d.part a.boundOk
      (w.codes.map (BitVec.ofNat 32 ·))
    ({ device := if d.dest = 2 then some d.device else none, part := d.part, beat, readyAt := 0 },
     LineCounts.of d.hist d.bank w.ovf w.unf w.nonfin (vals.map (·.1)))

/-- Beats leave the shadow, one a cycle, while the engine holds fewer than 16 (R96, R98); the place that a beat accepted
in cycle `c` leaves is free from the next cycle on, so that the next beat leaves no earlier than `free` (DEDUCED, log 128). -/
def Engine.readShadow : Nat → Nat → Engine → Engine
  | 0, _, e => e
  | fuel + 1, free, e =>
    match e.unread with
    | [] => { e with shadowFree := max e.shadowFree (e.lastRead + 1) }
    | (b, c) :: rest =>
      if 16 ≤ e.beats.length then e
      else
        let t := max (e.lastRead + 1) free
        Engine.readShadow fuel free
          { e with unread := rest, lastRead := t, beats := e.beats ++ [{ b with readyAt := t + 7 }]
                   counts := e.counts ++ [(t + 7, c)] }

/-- `ME_LAST_DRAIN` of a completed drain (R108). -/
def lastDrainWord (boundOk nonfin ovf unf held : Bool) (promo dest : Nat) : Word :=
  BitVec.ofNat 32 (1 + 2 * b2n boundOk + 4 * b2n nonfin + 8 * b2n ovf + 16 * b2n unf + 32 * b2n held + 64 * promo +
    2 ^ 21 * dest)

/-- The registers that a completed drain updates (R91, R108). -/
def lastDrain (regs : Tbl Word) (n : Nat) (last tensor : Word) (cyc : Nat) : Tbl Word :=
  Regs.putPair (Regs.put (Regs.put regs (Reg.meLastDrain n) last.toNat) (Reg.meLastDrainTensor n) tensor.toNat)
    (Reg.meLastDrainCycLo n) cyc

/-- This device's number in its domain (R328). -/
def State.device (s : State) : Nat := s.fld Reg.seamDomDev 0 10

/-- The drain in front of an engine cannot swap yet: a PROD has entered and is not complete, or enters by the swap
(R89), or beats of the previous drain still lie in the shadow (R90, R96). `entry` is the first entry of a PROD in front
that has made none. -/
def Engine.swapBlocked (e : Engine) (d : DrainRun) (entry : Nat) : Bool :=
  (match e.prods with
   | [] => false
   | r :: _ => r.first.isSome || (decide (r.serial < d.serial) && decide (entry ≤ e.swapAt d))) || !e.unread.isEmpty

/-- The first entry of the PROD in front of engine `n`, which has made none (R77 to R79). -/
def State.entryOfFront (s : State) (n : Nat) : Nat :=
  match (s.engine n).prods with
  | [] => 0
  | r :: _ => if r.operands.p.acc then (s.continuationEntry n r r.operands).1 else (firstEntry (s.engine n) r r.operands.p 0).1

/-- The latest of the drains complete by cycle `t` (R558). -/
def Engine.latestDone (e : Engine) (t : Nat) : Option Draining :=
  e.draining.foldl (fun acc g =>
    if !g.left.isEmpty || decide (t < g.doneAt) then acc
    else match acc with
      | none => some g
      | some x => if x.doneAt ≤ g.doneAt then some g else acc) none

/-- `ME_LAST_DRAIN` and its companions show the latest drain complete by cycle `t` (R108). -/
def Engine.settleDone (e : Engine) (regs : Tbl Word) (n t : Nat) : Engine × Tbl Word :=
  ({ e with draining := e.draining.filter fun g => !g.left.isEmpty || decide (t < g.doneAt) },
   match e.latestDone t with
   | some g => lastDrain regs n g.last g.tensor g.cyc
   | none => regs)

/-- The event counters and histogram banks take what was converted by cycle `t` (R97 to R100). -/
def Engine.settleCounts (e : Engine) (regs : Tbl Word) (n t : Nat) : Engine × Tbl Word :=
  ({ e with counts := e.counts.filter fun c => decide (t < c.1) },
   (e.counts.filter fun c => decide (c.1 ≤ t)).foldl
     (fun regs c => countHist (c.2.events regs n) n c.2.bank c.2.bins) regs)

/-- Engine `n` and its registers as they stand now: what its drains have converted and completed shows. -/
def State.settleEngine (s : State) (n : Nat) : State :=
  let a := (s.engine n).settleCounts s.regs n s.now
  let b := a.1.settleDone a.2 n s.now
  { s with eng := s.eng.set n b.1, regs := b.2 }

/-- One bank of engine `n` with what its drains converted before cycle `t` (R100). -/
def State.settleBank (s : State) (bank t n : Nat) : State :=
  let e := s.engine n
  let mine (c : Nat × LineCounts) : Bool := c.2.bank == bank && decide (c.1 < t)
  { s with
    eng := s.eng.set n { e with counts := e.counts.map fun c => if mine c then (c.1, { c.2 with bins := [] }) else c }
    regs := (e.counts.filter mine).foldl (fun regs c => countHist regs n bank c.2.bins) s.regs }

/-- The sets swap and the shadow starts to drain (R89 to R99, R103): the filled set becomes the shadow, and its lines are
converted, counted, added to the histogram and written to tile store in the cycles of R97, or read out as beats for the
cluster port (R98). DESIGN CHOICE: `ME_LAST_DRAIN_CYC` of DEST 3 is the swap cycle (log 118), and the histogram and NONFIN
take a poisoned or failing row as NaN (log 127). -/
def State.swapAndDrain (s : State) (n : Nat) (dr : DrainRun) : State :=
  let e := s.engine n
  let d := DrainCmd.of dr.cmd
  let t := e.swapAt dr
  let h := e.hold dr.serial dr.from' t
  let held := decide (dr.from' < t)
  let failing := e.act.failing d.m
  let bad := e.act.poisoned ++ failing
  let a := e.act
  let o := Desc.ofNat dr.desc
  let s := s.atCycle t
  let vals := (List.range d.m).flatMap fun i => (List.range d.n).map fun j => a.value bad i j
  let base := { h.1 with act := {}, shadow := {}, drains := h.1.drains.drop 1, lastRead := t, shadowFree := t + 1 }
  let regs := Regs.putFld (Regs.count64 (Regs.count s.regs (Reg.meEvcHold n) (b2n (held && d.dest != 3))) (Reg.meStallLo n) h.2)
    (Reg.meStatus n) 0 1 (1 - Regs.fld s.regs (Reg.meStatus n) 0 1)
  let word (nf ov un : Nat) := lastDrainWord a.boundOk (decide (0 < nf)) (decide (0 < ov)) (decide (0 < un)) held a.promo d.dest
  let anyBad := b2n (vals.any fun v => !v.isFinite)
  let tensor := BitVec.ofNat 32 d.tensor
  if d.dest = 3 then
    { s with eng := s.eng.set n { base with draining := base.draining ++ [⟨3, [], t + 1, t, word 0 0 0, tensor⟩] }
             regs := regs }
  else
    let mixed := match s.vsr.collecting with
      | some c => d.hist && c.1 == d.bank && decide (t < c.2)
      | none => false
    let regs := Regs.count regs Reg.vsrEvcHmix (b2n mixed)
    if d.dest = 0 then
      let ls := drainLines d o (n / 4) dr.step a bad
      let doneAt := t + 1 + ls.length + 9
      let due := (ls.mapIdx fun l x => x.1.writes.map fun w => (t + 11 + l, w)).flatten
      let cnts := ls.mapIdx fun l x => (t + 8 + l, LineCounts.of d.hist d.bank x.1.ovf x.1.unf x.1.nonfin x.2)
      let s' := { s with
        tileDue := due.foldl (fun q w => insertDue w q) s.tileDue
        eng := s.eng.set n { base with
          shadowFree := t + 1 + ls.length, counts := base.counts ++ cnts
          draining := base.draining ++ [⟨0, [], doneAt, doneAt,
            word anyBad (total (ls.map (·.1.ovf))) (total (ls.map (·.1.unf))), tensor⟩] }
        regs := regs }
      failing.foldl (fun s i => s.faultAt (if o.orient then t + 1 else t + 1 + i) n 0x01 6 0 i) s'
    else
      let out := drainBeats d dr s.device n a bad
      let s' := { s with
        eng := s.eng.set n (Engine.readShadow 16 (t + 1) { base with
          unread := out
          draining := base.draining ++ [⟨d.dest, out.map fun b => (b.1.part, b.1.beat.tensor, b.1.beat.index), 0, 0,
            word anyBad (total (out.map (·.2.ovf))) (total (out.map (·.2.unf))), tensor⟩] })
        regs := regs }
      failing.foldl (fun s i => s.faultAt (t + 1 + i * ((d.n + 63) / 64)) n 0x01 6 0 i) s'

/-- The swap of an engine's oldest DRAIN once its tile's final promotion is complete and the shadow is empty (R89,
R90). -/
def swapEffect (n : Nat) (s : State) : State :=
  let e := s.engine n
  match e.drains with
  | [] => s
  | d :: _ => if e.swapBlocked d (s.entryOfFront n) || !s.engineRuns n then s else s.swapAndDrain n d

/-- One beat of engine `n`'s oldest slot drain of kind `dest` that sent it is done in cycle `t` (R558): after the last
one the drain is complete and `ME_LAST_DRAIN` shows it. -/
def State.beatDone (s : State) (n dest t : Nat) (beat : Nat × Nat × Nat) : State :=
  let e := s.engine n
  match e.draining.find? (fun g => g.dest == dest && g.left.contains beat) with
  | none => s
  | some g =>
    let g' := { g with left := g.left.erase beat, doneAt := max g.doneAt t, cyc := max g.doneAt t }
    s.setEngine n { e with draining := e.draining.map fun x => if x = g then g' else x }

end Sys2Proof.Machine
end

