-- ==== Sys2Proof/Machine/Rows.lean ====
section
/-! DEFINITION. Row units (04_backward_pass, R114 to R133): descriptors and contexts, function tables, and the five
commands, each run whole at its start. -/

namespace Sys2Proof.Machine

/-! ### Descriptors and contexts -/

/-- Bit [30] of a row-unit or Liner descriptor: column-blocked (R114). -/
structure RowDesc where
  d : Desc
  colblk : Bool
  reserved : Bool
  deriving DecidableEq, Repr

/-- The row-unit descriptor of 16 bytes (R114): bit [31] and bits [127:120] are reserved. -/
def RowDesc.ofNat (v : Nat) : RowDesc :=
  { d := Desc.ofNat v, colblk := bit v 30, reserved := bit v 31 || bits v 120 8 != 0 }

/-- Entry `idx` of a table of 16-byte entries in cluster `c`'s tile store; none when it lies beyond it (R128). -/
def readEntry (tile : Memory) (c tbl idx : Nat) : Option Nat :=
  if tileSize < tbl + 16 * idx + 16 then none else some (tile.readNat (tileKey c (tbl + 16 * idx)) 16)

/-- Descriptor `idx` of row unit `n` (R117). -/
def rowDesc (s : State) (n idx : Nat) : Option RowDesc :=
  (readEntry s.tile n (s.fld (Reg.rowDtblBase n) 0 24) idx).map RowDesc.ofNat

/-- A context entry (R120). -/
structure Context where
  tensor : Nat
  origin : Nat
  rowstep : Nat
  dest : Nat
  part : Nat
  device : Nat
  reserved : Bool
  deriving DecidableEq, Repr

/-- The context of 16 bytes (R120). -/
def Context.ofNat (v : Nat) : Context :=
  { tensor := bits v 0 32, origin := bits v 32 48, rowstep := bits v 80 32, dest := bits v 112 2
    part := bits v 114 3, device := bits v 117 10, reserved := bit v 127 }

/-- Context `idx` of row unit `n` (R117). -/
def rowContext (s : State) (n idx : Nat) : Option Context :=
  (readEntry s.tile n (s.fld (Reg.rowCtblBase n) 0 24) idx).map Context.ofNat

/-- The flat index of output element (i, j) (R120). -/
def Context.index (c : Context) (i j : Nat) : Nat := c.origin + i * c.rowstep + j

/-- Fields of a row-unit command (R119). -/
structure RowCmd where
  xd : Nat
  yd : Nat
  zd : Nat
  gd : Nat
  od : Nat
  rows : Nat
  cols : Nat
  op : Nat
  dir : Bool
  der : Bool
  tbl : Nat
  tblEn : Bool
  rvo : Nat
  s1a : Nat
  s1b : Nat
  s2a : Nat
  s2b : Nat
  rnd : Nat
  ieee : Bool
  ctx : Nat
  c1 : Word
  c2 : Word
  reserved : Bool
  deriving DecidableEq, Repr

/-- A row-unit command decoded (R119). -/
def RowCmd.of (c : Cmd) : RowCmd :=
  { xd := cmdFld c 32 8, yd := cmdFld c 40 8, zd := cmdFld c 48 8, gd := cmdFld c 56 8, od := cmdFld c 64 8
    rows := cmdFld c 72 8, cols := cmdFld c 80 16, op := cmdFld c 96 2, dir := cmdFld c 98 1 == 1
    der := cmdFld c 99 1 == 1, tbl := cmdFld c 100 4, tblEn := cmdFld c 104 1 == 1, rvo := cmdFld c 105 4
    s1a := cmdFld c 109 4, s1b := cmdFld c 113 4, s2a := cmdFld c 117 4, s2b := cmdFld c 121 4
    rnd := cmdFld c 125 2, ieee := cmdFld c 127 1 == 1, ctx := cmdFld c 128 8
    c1 := BitVec.ofNat 32 (cmdFld c 136 32), c2 := BitVec.ofNat 32 (cmdFld c 168 32)
    reserved := cmdFld c 200 56 != 0 }

/-- An operand format the row unit reads or writes (R121). -/
def rowFmtOk (f : Nat) : Bool := decide (f ≤ 7) || (decide (0xA ≤ f) && decide (f ≤ 0xE))

/-- The addresses that `r` rows of `c` columns resolve lie in the tile store (R128); a size of zero resolves none (R127). -/
def RowDesc.inside (x : RowDesc) (r c : Nat) : Bool :=
  let w := match Fmt.ofCode x.d.fmt with | some f => f.storeBits | none => 8
  r == 0 || c == 0 || (decide (x.d.dataEnd 0 r (packedBytes w c) 1 ≤ tileSize) &&
    (!x.d.scaled || decide (x.d.codeEnd 0 (if x.colblk then (r + 31) / 32 else r)
      (if x.colblk then c else (c + 31) / 32) 1 ≤ tileSize)))

/-- The bytes of a bit tile lie in the tile store (R123, R128). -/
def RowDesc.bitInside (x : RowDesc) (r c : Nat) : Bool :=
  r == 0 || c == 0 || decide (x.d.dataEnd 0 r (packedBytes 1 c) 1 ≤ tileSize)

/-- The descriptor is a bit tile's: U32 without scale (R123). -/
def RowDesc.isBits (x : RowDesc) : Bool := x.d.fmt == 0xE && !x.d.scaled

/-- A valid X, Y or Z operand of R114 and R121 over `r` × `c`. -/
def operandValid (x : Option RowDesc) (r c : Nat) : Bool :=
  match x with
  | none => false
  | some x => x.d.aligned && !x.d.orient && rowFmtOk x.d.fmt && !x.isBits && !x.colblk && x.inside r c

/-- A valid bit tile (R123). -/
def bitTileValid (x : Option RowDesc) (r c : Nat) : Bool :=
  match x with
  | none => false
  | some x => x.d.aligned && !x.d.orient && x.isBits && !x.colblk && x.bitInside r c

/-- A valid column vector G (R119): one line. -/
def columnValid (x : Option RowDesc) (c : Nat) : Bool :=
  match x with
  | none => false
  | some x => x.d.aligned && !x.d.orient && rowFmtOk x.d.fmt && !x.isBits && x.inside 1 c

/-- A valid output of any command but RBLK (R121): no bit tile (R123), and a block scale only on the formats that R57
gives one (log 103). -/
def outputValid (x : Option RowDesc) (r c : Nat) : Bool :=
  operandValid x r c && match x with | some x => !x.d.scaled || decide (x.d.fmt ≤ 4) | none => false

/-- An element decoded to FP32 with its block scale applied, and whether it overflowed (R121). -/
def RowDesc.load (x : RowDesc) (tile : Memory) (n i j : Nat) : Word × Bool :=
  let f := (Fmt.ofCode x.d.fmt).getD .f8v
  let v := f.decode (elemCode tile (tileKey n (x.d.base + i * x.d.ld)) f.storeBits j)
  let v := if x.d.scaled then
      scaledVal v (tile.get (tileKey n (x.d.sbase + (if x.colblk then i / 32 * x.d.sld + j
        else i * x.d.sld + j / 32)))).toNat
    else v
  let r := fp32.convert .rne true false v
  (BitVec.ofNat 32 r.code, r.ovf)

/-- Bit (i, j) of a bit tile (R123). -/
def RowDesc.loadBit (x : RowDesc) (tile : Memory) (n i j : Nat) : Bool :=
  bit (tile.get (tileKey n (x.d.base + i * x.d.ld + j / 8))).toNat (j % 8)

/-- 1.0 in FP32. -/
def fone : Word := 0x3f800000#32

/-- Operand (i, j) of a descriptor number; 0xFF reads 1.0 (R119). -/
def loadOr1 (x : Option RowDesc) (idx : Nat) (tile : Memory) (n i j : Nat) : Word × Bool :=
  if idx = 0xFF then (fone, false)
  else match x with
  | some x => x.load tile n i j
  | none => (fone, false)

/-! ### Function tables (R129 to R131) -/

/-- Word at byte `o` of a table image. -/
def tableWord (t : List Byte) (o : Nat) : Word := BitVec.ofNat 32 (leNat ((t.drop o).take 4))

/-- A linear range: the constant alone when the slope is +0 (R130). -/
def linRange (k1 x k0 : Word) : Word := if k1 = 0 then k0 else ffma k1 x k0

/-- Entry `i` at `x` whose segment starts at `x0` (R130). -/
def tableSegment (t : List Byte) (i : Nat) (x : Val) (x0 : Val) : Word :=
  toFp32 (((Val.ofFp32 (tableWord t (64 + 8 * i + 4))).mul (x.sub x0)).add (Val.ofFp32 (tableWord t (64 + 8 * i))))

/-- A KIND 0 table at `x` (R130). -/
def table0 (t : List Byte) (x : Word) : Word :=
  let emin := (t.getD 1 0).toInt
  match Val.ofFp32 x with
  | .nan => 0x7FC00000#32
  | .inf neg => if neg then linRange (tableWord t 24) x (tableWord t 20) else linRange (tableWord t 16) x (tableWord t 12)
  | .fin neg m e =>
    let ex := expOf m e
    if m = 0 ∨ ex < emin then linRange (tableWord t 8) x (tableWord t 4)
    else if emin + 16 ≤ ex then
      if neg then linRange (tableWord t 24) x (tableWord t 20) else linRange (tableWord t 16) x (tableWord t 12)
    else
      let f := m * 32 / 2 ^ Nat.log2 m - 32
      tableSegment t (b2n neg * 512 + (ex - emin).toNat * 32 + f) (.fin neg m e) (.fin neg (32 + f) (ex - 5))

/-- The result of a KIND 1 table for finite `x > 0` (R131). -/
def table1Pos (t : List Byte) (power m : Nat) (e : Int) : Word :=
  let ex := expOf m e
  let k := ex / 2
  let y : Val := .fin false m (e - 2 * k)
  let ey := ex - 2 * k
  let f := m * 32 / 2 ^ Nat.log2 m - 32
  let r := tableSegment t (ey.toNat * 32 + f) y (.fin false (32 + f) (ey - 5))
  toFp32 ((Val.ofFp32 r).scale (if power = 1 then -k else if power = 2 then -2 * k else k))

/-- A KIND 1 table at `x` (R131). -/
def table1 (t : List Byte) (power : Nat) (x : Word) : Word :=
  match Val.ofFp32 x with
  | .nan => 0x7FC00000#32
  | .inf neg =>
    if power = 2 then (if neg then 0x80000000#32 else 0)
    else if neg then 0x7FC00000#32 else if power = 1 then 0 else 0x7F800000#32
  | .fin neg m e =>
    if m = 0 then
      if power = 1 then 0x7F800000#32
      else if power = 2 then (if neg then 0xFF800000#32 else 0x7F800000#32) else x
    else if neg then
      if power = 2 then
        let r := table1Pos t power m e
        if (Val.ofFp32 r).isNan then 0x7FC00000#32 else fneg r
      else 0x7FC00000#32
    else table1Pos t power m e

/-- The function of a table image; a KIND or POWER that the manual does not define gives a free value (log 10). -/
def evalTable (t : List Byte) (x : Word) : Word :=
  let kind := (t.getD 0 0).toNat
  let power := (t.getD 2 0).toNat
  if kind = 0 then table0 t x
  else if kind = 1 ∧ 1 ≤ power ∧ power ≤ 3 then table1 t power x
  else Config.tableOther (kind * 256 + power) x

/-! ### Arithmetic of the commands -/

/-- RV[v](i); 0xF reads 1.0 (R119). -/
def RowUnit.rvAt (u : RowUnit) (v i : Nat) : Word := if v = 15 then fone else (u.rv.get [] v).getD i 0

/-- s1(i) (R121). -/
def s1At (u : RowUnit) (c : RowCmd) (i : Nat) : Word := fmul (fmul c.c1 (u.rvAt c.s1a i)) (u.rvAt c.s1b i)
/-- s2(i) (R121). -/
def s2At (u : RowUnit) (c : RowCmd) (i : Nat) : Word := fmul (fmul c.c2 (u.rvAt c.s2a i)) (u.rvAt c.s2b i)

/-- Six levels of pairwise sums, lanes 2q and 2q + 1 first (R122). -/
def pairTree : Nat → List Word → List Word
  | 0, l => l
  | n + 1, l => pairTree n ((List.range (l.length / 2)).map fun q => fadd (l.getD (2 * q) 0) (l.getD (2 * q + 1) 0))

/-- SUM over a row (R122): 64 lanes in ascending columns from +0, then the tree. -/
def sumLanes (ts : List Word) : Word :=
  let lanes := (List.range 64).map fun l =>
    (List.range ((ts.length + 63) / 64)).foldl (fun acc q =>
      if 64 * q + l < ts.length then fadd acc (ts.getD (64 * q + l) 0) else acc) (0 : Word)
  (pairTree 6 lanes).getD 0 0

/-- The larger of two FP32 values that are no NaN; max(+0, −0) is +0 (R122). -/
def fmax (a b : Word) : Word :=
  if flt a b then b else if flt b a then a else if a = 0x80000000#32 then b else a

/-- MAX over a non-empty row: any NaN gives the canonical NaN (R122). -/
def maxOf (ts : List Word) : Word :=
  if ts.any fun t => (Val.ofFp32 t).isNan then 0x7FC00000#32
  else match ts with
  | [] => 0xFF800000#32
  | t :: ts => ts.foldl fmax t

/-- The magnitude of an FP32 code. -/
def fabs (a : Word) : Word := a &&& 0x7FFFFFFF#32

/-- The reduction of a row by OP; the empty reduction of R127. -/
def reduceRow (op : Nat) (ts : List Word) : Word :=
  if ts.isEmpty then (if op = 1 then 0xFF800000#32 else 0)
  else if op = 0 then sumLanes ts
  else if op = 1 then maxOf ts
  else if op = 2 then maxOf (ts.map fabs)
  else ts.getD 0 0

/-! ### Running a command -/

/-- What a row-unit command does when it runs: the unit, the tile store, its counts by counter address, and how long
it takes. -/
structure RowRun where
  unit : RowUnit
  tile : Memory
  regs : Tbl Word
  cycles : Nat

/-- Row unit `n`. -/
def State.rowUnit (s : State) (n : Nat) : RowUnit := Tbl.get {} s.row n

/-- An invalid command (R128): 2 cc, counted; a reserved bit is counted beside it. -/
def rowInvalid (s : State) (n : Nat) (resv : Bool) : RowRun :=
  { unit := s.rowUnit n, tile := s.tile, regs := Regs.count s.regs (Reg.rowEvcViol n) (1 + b2n resv), cycles := 2 }

/-- A zero-size command (R127). -/
def rowEmpty (s : State) (n : Nat) (resv : Bool) : RowRun :=
  { unit := s.rowUnit n, tile := s.tile, cycles := 2
    regs := Regs.counts s.regs [(Reg.rowEvcViol n, b2n resv), (Reg.rowEvcEmpty n, 1)] }

/-- Reserved bits of a command and of what it names (R128). -/
def rowReserved (c : RowCmd) (ds : List (Option RowDesc)) (ctx : Option Context) : Bool :=
  c.reserved || (ds.any fun o => match o with | some d => d.reserved | none => false) ||
    (match ctx with | some x => x.reserved | none => false)

/-- Output lines, row-blocked (R121): element codes and SC8 codes of each, with the conversion counts. -/
def outputLines (o : RowDesc) (n : Nat) (ieee : Bool) (lines : List (List (Val × Round))) : List LineOut :=
  let f := (Fmt.ofCode o.d.fmt).getD .f8v
  lines.mapIdx fun i line =>
    drainLine f ieee o.d.scaled (tileKey n (o.d.base + i * o.d.ld)) (tileKey n (o.d.sbase + i * o.d.sld)) line

/-- The tile stores with the bytes of output lines stored, line after line. -/
def storeLines (tile : Memory) (out : List LineOut) : Memory :=
  (out.flatMap (·.writes)).foldl (fun m w => m.write w.1 w.2) tile

/-- The counts of an output (R121, R148). -/
def rowCounts (n : Nat) (resv : Bool) (decOvf : Nat) (rnd3 : Bool) (out : List LineOut) : List (Nat × Nat) :=
  [(Reg.rowEvcViol n, b2n resv + b2n rnd3), (Reg.rowEvcOvf n, decOvf + total (out.map (·.ovf))),
   (Reg.rowEvcUnf n, total (out.map (·.unf))), (Reg.rowEvcNonfin n, total (out.map (·.nonfin)))]

/-- The rounding of output element (i, j) (R120). -/
def rowRound (c : RowCmd) (ctx : Context) (step i j : Nat) : Round :=
  Round.ofCode c.rnd (BitVec.ofNat 32 step) (BitVec.ofNat 32 ctx.tensor) (ctx.index i j)

/-- t(i, j) = (X × Y) × G with the overflows of decoding (R122); an element of G is decoded, and counted, for every row
that uses it (log 104). -/
def tripleAt (s : State) (n : Nat) (c : RowCmd) (x y g : Option RowDesc) (i j : Nat) : Word × Nat :=
  let a := loadOr1 x 0 s.tile n i j
  let b := loadOr1 y c.yd s.tile n i j
  let d := loadOr1 g c.gd s.tile n 0 j
  (fmul (fmul a.1 b.1) d.1, b2n a.2 + b2n b.2 + b2n d.2)

/-- Sum of naturals. -/
def sumNat (l : List Nat) : Nat := l.foldl (· + ·) 0

/-- Cycles of R126 before the fixed tail. -/
def rowCycles (r c : Nat) : Nat := r * ((c + 63) / 64)

/-- X, Y and G of a command are valid over its size, 0xFF apart (R119, R128). -/
def xygValid (c : RowCmd) (x y g : Option RowDesc) : Bool :=
  operandValid x c.rows c.cols && (c.yd == 0xFF || operandValid y c.rows c.cols) &&
    (c.gd == 0xFF || columnValid g c.cols)

/-- A command's context, when it names none beyond the tile store and no DEST 3 (R120, R128). -/
def ctxOk (ctx : Option Context) : Bool := match ctx with | some x => x.dest != 3 | none => false

/-- A reduction along rows (R122, DIR 0). -/
def runRedRows (s : State) (n : Nat) (c : RowCmd) (x y g : Option RowDesc) (resv : Bool) : RowRun :=
  let u := s.rowUnit n
  let t := u.tables.get [] (2 * c.tbl)
  let rows := (List.range c.rows).map fun i =>
    let es := (List.range c.cols).map fun j => tripleAt s n c x y g i j
    let r := ffma (s1At u c i) (reduceRow c.op (es.map (·.1))) c.c2
    (if c.tblEn then evalTable t r else r, sumNat (es.map (·.2)))
  let rv := Tbl.set u.rv c.rvo (rows.map (·.1) ++ (Tbl.get [] u.rv c.rvo).drop c.rows)
  let u := if c.rvo = 15 then u else { u with rv := rv }
  { unit := u, tile := s.tile, cycles := if c.cols = 0 then 11 else rowCycles c.rows c.cols + 11
    regs := Regs.counts s.regs [(Reg.rowEvcViol n, b2n resv + b2n (c.rnd == 3)), (Reg.rowEvcEmpty n, b2n (c.cols == 0)),
      (Reg.rowEvcOvf n, sumNat (rows.map (·.2)))] }

/-- A reduction along columns (R122, DIR 1), to tile store or to reduction slots; `done` is its completion cycle. -/
def runRedCols (s : State) (n : Nat) (h : HeldCmd) (c : RowCmd) (x y g o : Option RowDesc) (ctx : Context) (resv : Bool)
    (start : Nat) : RowRun :=
  let u := s.rowUnit n
  let cols := (List.range c.cols).map fun j =>
    (List.range c.rows).foldl (fun acc i =>
      let t := tripleAt s n c x y g i j
      (fadd acc.1 (fmul t.1 (s1At u c i)), acc.2 + t.2)) ((0 : Word), 0)
  let vals := cols.map fun p => ffma fone p.1 c.c2
  let dec := sumNat (cols.map (·.2))
  let cyc := rowCycles c.rows c.cols + 11
  if ctx.dest = 0 then
    let out := outputLines (o.getD (RowDesc.ofNat 0)) n c.ieee
      [(List.range c.cols).map fun j => (Val.ofFp32 (vals.getD j 0), rowRound c ctx h.step 0 j)]
    { unit := u, tile := storeLines s.tile out, cycles := cyc, regs := Regs.counts s.regs (rowCounts n resv dec (c.rnd == 3) out) }
  else
    let beats := (List.range ((c.cols + 63) / 64)).map fun b =>
      { device := if ctx.dest = 2 then some ctx.device else none, part := ctx.part, readyAt := start + cyc + b
        beat := makeBeat ctx.tensor (ctx.origin + 64 * b) s.device (0x80 + n) h.lepoch ctx.part true
          ((vals.drop (64 * b)).take 64) : OutBeat }
    { unit := { u with beats := u.beats ++ beats }, tile := s.tile, cycles := cyc
      regs := Regs.counts s.regs [(Reg.rowEvcViol n, b2n resv + b2n (c.rnd == 3)), (Reg.rowEvcOvf n, dec)] }

/-- ROWRED (R122, R127, R128). -/
def runRowred (s : State) (n : Nat) (h : HeldCmd) (start : Nat) : RowRun :=
  let c := RowCmd.of h.cmd
  let x := rowDesc s n c.xd
  let y := if c.yd = 0xFF then none else rowDesc s n c.yd
  let g := if c.gd = 0xFF then none else rowDesc s n c.gd
  let ctx := rowContext s n c.ctx
  let cx := ctx.getD (Context.ofNat 0)
  let toTile := c.dir && cx.dest == 0
  let o := if toTile then rowDesc s n c.od else none
  let resv := rowReserved c [x, y, g, o] ctx
  let slot := cx.dest == 1 || cx.dest == 2
  let bad := decide (128 < c.rows) || !xygValid c x y g || !ctxOk ctx || (c.dir && (c.op != 0 || c.tblEn)) ||
    (slot && (!c.dir || cx.origin % 64 != 0)) || (toTile && !outputValid o 1 c.cols) ||
    (c.tblEn && !bit (s.reg (Reg.rowTblValid n)) c.tbl)
  if bad then rowInvalid s n resv
  else if c.rows = 0 ∨ (c.cols = 0 ∧ c.dir) then rowEmpty s n resv
  else if c.dir then runRedCols s n h c x y g o cx resv start
  else runRedRows s n c x y g resv

/-- One element of ROWEW by OP (R123), with the overflows of decoding. -/
def ewElem (s : State) (n : Nat) (c : RowCmd) (ctx : Context) (step : Nat) (x y z g : Option RowDesc) (i j : Nat) :
    Word × Nat :=
  let u := s.rowUnit n
  let yv := loadOr1 y c.yd s.tile n i j
  let gv := loadOr1 g c.gd s.tile n 0 j
  let yg := fmul yv.1 gv.1
  let nyg := b2n yv.2 + b2n gv.2
  let bitOf (d : Option RowDesc) : Bool := match d with | some d => d.loadBit s.tile n i j | none => true
  let masked := if bitOf x then fmul (s1At u c i) yg else fmul (s2At u c i) yg
  if c.op = 0 then
    let xv := loadOr1 x 0 s.tile n i j
    let zv := loadOr1 z c.zd s.tile n i j
    (ffma (s1At u c i) (fmul (fmul xv.1 yv.1) gv.1) (fmul (s2At u c i) zv.1), b2n xv.2 + nyg + b2n zv.2)
  else if c.op = 1 then
    let xv := loadOr1 x 0 s.tile n i j
    let h := jsr32 (BitVec.ofNat 32 step) (BitVec.ofNat 32 ctx.tensor) (ctx.index i j)
    (if c.c2.toNat % 2 ^ 24 ≤ h.toNat / 256 then fmul (s1At u c i) xv.1 else 0, b2n xv.2)
  else if c.op = 2 then (masked, nyg)
  else (if bitOf z then masked else 0, nyg)

/-- Elements of a command's output written to OD (R121). -/
def runOutput (s : State) (n : Nat) (h : HeldCmd) (c : RowCmd) (o : Option RowDesc) (ctx : Context) (resv : Bool)
    (elem : Nat → Nat → Word × Nat) : RowRun :=
  let es := (List.range c.rows).map fun i => (List.range c.cols).map fun j => elem i j
  let out := outputLines (o.getD (RowDesc.ofNat 0)) n c.ieee
    ((List.range c.rows).map fun i => (List.range c.cols).map fun j =>
      (Val.ofFp32 (((es.getD i []).getD j (0, 0)).1), rowRound c ctx h.step i j))
  { unit := s.rowUnit n, tile := storeLines s.tile out, cycles := rowCycles c.rows c.cols + 14
    regs := Regs.counts s.regs (rowCounts n resv (sumNat (es.map fun r => sumNat (r.map (·.2)))) (c.rnd == 3) out) }

/-- ROWEW (R123, R127, R128). For MASK2 a ZD of 0xFF names descriptor 255, as XD does (log 105). -/
def runRowew (s : State) (n : Nat) (h : HeldCmd) : RowRun :=
  let c := RowCmd.of h.cmd
  let mask := decide (2 ≤ c.op)
  let usesYG := c.op != 1
  let usesZ := c.op == 0 || c.op == 3
  let x := rowDesc s n c.xd
  let y := if c.yd = 0xFF ∨ !usesYG then none else rowDesc s n c.yd
  let g := if c.gd = 0xFF ∨ !usesYG then none else rowDesc s n c.gd
  let z := if !usesZ ∨ (c.zd = 0xFF ∧ c.op = 0) then none else rowDesc s n c.zd
  let o := rowDesc s n c.od
  let ctx := rowContext s n c.ctx
  let cx := ctx.getD (Context.ofNat 0)
  let resv := rowReserved c [x, y, g, z, o] ctx
  let xOk := if mask then bitTileValid x c.rows c.cols else operandValid x c.rows c.cols
  let zOk := if c.op = 3 then bitTileValid z c.rows c.cols
    else c.op != 0 || c.zd == 0xFF || operandValid z c.rows c.cols
  let ygOk := !usesYG || ((c.yd == 0xFF || operandValid y c.rows c.cols) && (c.gd == 0xFF || columnValid g c.cols))
  let bad := decide (128 < c.rows) || !xOk || !zOk || !ygOk || !ctxOk ctx || cx.dest != 0 ||
    !outputValid o c.rows c.cols
  if bad then rowInvalid s n resv
  else if c.rows = 0 ∨ c.cols = 0 then rowEmpty s n resv
  else runOutput s n h c o cx resv (ewElem s n c cx h.step x y z g)

/-- ROWFN (R124, R125, R127, R128). -/
def runRowfn (s : State) (n : Nat) (h : HeldCmd) : RowRun :=
  let c := RowCmd.of h.cmd
  let x := rowDesc s n c.xd
  let y := if c.yd = 0xFF then none else rowDesc s n c.yd
  let g := if c.gd = 0xFF then none else rowDesc s n c.gd
  let o := rowDesc s n c.od
  let ctx := rowContext s n c.ctx
  let cx := ctx.getD (Context.ofNat 0)
  let resv := rowReserved c [x, y, g, o] ctx
  let u := s.rowUnit n
  let bad := decide (128 < c.rows) || c.op != 0 || !xygValid c x y g || !ctxOk ctx || cx.dest != 0 ||
    !outputValid o c.rows c.cols || !bit (s.reg (Reg.rowTblValid n)) (c.tbl + 16 * b2n c.der)
  let t := u.tables.get [] (2 * c.tbl + b2n c.der)
  if bad then rowInvalid s n resv
  else if c.rows = 0 ∨ c.cols = 0 then rowEmpty s n resv
  else runOutput s n h c o cx resv fun i j =>
    let xv := loadOr1 x 0 s.tile n i j
    let yv := loadOr1 y c.yd s.tile n i j
    let gv := loadOr1 g c.gd s.tile n 0 j
    (fmul (fmul yv.1 gv.1) (evalTable t (ffma (s1At u c i) xv.1 (s2At u c i))), b2n xv.2 + b2n yv.2 + b2n gv.2)

/-- A source element of a re-blocking, its block scale applied exactly (R115 step 1). -/
def RowDesc.exact (x : RowDesc) (tile : Memory) (n i j : Nat) : Val :=
  let f := (Fmt.ofCode x.d.fmt).getD .f8v
  let v := f.decode (elemCode tile (tileKey n (x.d.base + i * x.d.ld)) f.storeBits j)
  if x.d.scaled then
    scaledVal v (tile.get (tileKey n (x.d.sbase + (if x.colblk then i / 32 * x.d.sld + j else i * x.d.sld + j / 32)))).toNat
  else v

/-- What a re-blocking gives (R115): element codes per row, the SC8 codes per block line, and its counts. -/
structure Reblocked where
  codes : List (List Nat)
  scales : List (List Nat)
  ovf : Nat
  unf : Nat
  nonfin : Nat
  changed : Nat

/-- A tensor of values re-blocked into format `f`, column-blocked or row-blocked (R115). -/
def reblock (f : Fmt) (colblk : Bool) (vals : List (List Val)) : Reblocked :=
  let r := vals.length
  let c := (vals.getD 0 []).length
  let lines := if colblk then (List.range c).map fun j => vals.map fun row => row.getD j .nan else vals
  let blocks := lines.map fun l => (chunks 32 l.length l).map fun b => writeBlock f false (b.map fun v => (v, .rne))
  let flat := blocks.map fun bs => bs.flatMap fun b => b.codes.map fun k => (k, b.sc)
  let at2 (i j : Nat) : Nat × Nat := if colblk then (flat.getD j []).getD i (0, 127) else (flat.getD i []).getD j (0, 127)
  let all := blocks.flatMap id
  { codes := (List.range r).map fun i => (List.range c).map fun j => (at2 i j).1
    scales := if colblk then (List.range ((r + 31) / 32)).map fun k => blocks.map fun bs => (bs.getD k ⟨127, [], 0, 0, 0⟩).sc
              else blocks.map fun bs => bs.map (·.sc)
    ovf := sumNat (all.map (·.ovf)), unf := sumNat (all.map (·.unf)), nonfin := sumNat (all.map (·.nonfin))
    changed := sumNat ((List.range r).map fun i => sumNat ((List.range c).map fun j =>
      let v := (vals.getD i []).getD j .nan
      let p := at2 i j
      b2n (v.isFinite && !(v.eqv (scaledVal (f.decode p.1) p.2))))) }

/-- The context that RBLK and TBLLD name takes no part in them, and is checked as any command's (R128). -/
def idleCtxOk (ctx : Option Context) : Bool := match ctx with | some x => x.dest == 0 | none => false

/-- RBLK (R115, R57, R127, R128): X of formats 0x0 to 0x7 into a block-scaled output of formats 0x0 to 0x4. -/
def runRblk (s : State) (n : Nat) (h : HeldCmd) : RowRun :=
  let c := RowCmd.of h.cmd
  let x := rowDesc s n c.xd
  let o := rowDesc s n c.od
  let ctx := rowContext s n c.ctx
  let resv := rowReserved c [x, o] ctx
  let xOk := match x with | some x => x.d.aligned && !x.d.orient && decide (x.d.fmt ≤ 7) && x.inside c.rows c.cols | none => false
  let oOk := match o with | some o => o.d.aligned && !o.d.orient && decide (o.d.fmt ≤ 4) && o.d.scaled && o.inside c.rows c.cols | none => false
  if decide (128 < c.rows) || c.op != 0 || !xOk || !oOk || !idleCtxOk ctx then rowInvalid s n resv
  else if c.rows = 0 ∨ c.cols = 0 then rowEmpty s n resv
  else
    let x := x.getD (RowDesc.ofNat 0)
    let o := o.getD (RowDesc.ofNat 0)
    let f := (Fmt.ofCode o.d.fmt).getD .f8v
    let rb := reblock f o.colblk ((List.range c.rows).map fun i => (List.range c.cols).map fun j => x.exact s.tile n i j)
    let tile := (List.range c.rows).foldl (fun t i =>
      t.write (tileKey n (o.d.base + i * o.d.ld)) (packBits f.storeBits (rb.codes.getD i []))) s.tile
    let tile := (List.range rb.scales.length).foldl (fun t k =>
      t.write (tileKey n (o.d.sbase + k * o.d.sld)) ((rb.scales.getD k []).map (BitVec.ofNat 8 ·))) tile
    { unit := s.rowUnit n, tile, cycles := rowCycles c.rows c.cols + 14
      regs := Regs.counts s.regs [(Reg.rowEvcViol n, b2n resv), (Reg.rowEvcOvf n, rb.ovf), (Reg.rowEvcUnf n, rb.unf),
        (Reg.rowEvcNonfin n, rb.nonfin), (Reg.rowEvcRblk n, rb.changed)] }

/-- TBLLD (R125, R126, R128): the 8,256 bytes at XD's BASE become a table of slot TBL. -/
def runTblld (s : State) (n : Nat) (h : HeldCmd) : RowRun :=
  let c := RowCmd.of h.cmd
  let x := rowDesc s n c.xd
  let ctx := rowContext s n c.ctx
  let resv := rowReserved c [x] ctx
  let empty := c.rows == 0 || c.cols == 0
  let ok := match x with
    | some x => x.d.aligned && !x.d.orient && x.d.fmt != 0xF && (empty || decide (x.d.base + 8256 ≤ tileSize))
    | none => false
  if decide (128 < c.rows) || c.op != 0 || !ok || !idleCtxOk ctx then rowInvalid s n resv
  else if empty then rowEmpty s n resv
  else
    let base := (x.getD (RowDesc.ofNat 0)).d.base
    let u := s.rowUnit n
    { unit := { u with tables := u.tables.set (2 * c.tbl + b2n c.der) (s.tile.read (tileKey n base) 8256) }
      tile := s.tile, cycles := 133
      regs := Regs.putFld (Regs.count s.regs (Reg.rowEvcViol n) (b2n resv)) (Reg.rowTblValid n) (c.tbl + 16 * b2n c.der) 1 1 }

/-- The run of a command of a kind, started in cycle `start`. -/
def runRow (s : State) (n : Nat) (k : RowOp) (h : HeldCmd) (start : Nat) : RowRun :=
  match k with
  | .red => runRowred s n h start
  | .ew => runRowew s n h
  | .fn => runRowfn s n h
  | .rblk => runRblk s n h
  | .tblld => runTblld s n h
  | .undef => rowInvalid s n false

/-- A command runs whole from cycle `start` (R118): a start after its issue is counted as a hold. -/
def State.rowStart (s : State) (n : Nat) (k : RowOp) (h : HeldCmd) (start : Nat) : State :=
  let s := s.atCycle start
  let r := runRow s.landedTiles n k h start
  let late := start - h.issue
  let regs := Regs.count64 (Regs.count64 (Regs.count r.regs (Reg.rowEvcHold n) (b2n (late != 0))) (Reg.rowStallLo n) late)
    (Reg.rowBusyLo n) r.cycles
  { s.setTile r.tile with regs := regs, row := s.row.set n { r.unit with busyTo := start + r.cycles } }

/-- A row-unit command is issued (R118): it starts now on an idle unit, or is held behind its predecessors. -/
def rowIssue (k : RowOp) (c : Cmd) (step : Nat) (s : State) : State :=
  let unit := cmdUnit c
  let n := unit - 0x80
  s.toUnit unit fun s =>
    let u := s.rowUnit n
    let h : HeldCmd := { cmd := c, issue := s.now, step, lepoch := s.fld Reg.seqEpoch 0 16 }
    if u.held.isEmpty && decide (u.busyTo ≤ s.now) then s.rowStart n k h s.now
    else { s with row := s.row.set n { u with held := u.held ++ [(k, h)] } }

/-- A held row-unit command starts when its predecessor completes (R118). -/
def rowCommandStartEffect (n : Nat) (s : State) : State :=
  let u := s.rowUnit n
  match u.held with
  | [] => s
  | (k, h) :: rest =>
    if s.isolated (0x80 + n) then s
    else
      let start := max u.busyTo h.issue
      { s with row := s.row.set n { u with held := rest } }.rowStart n k h start

end Sys2Proof.Machine
end

