-- ==== Sys2Proof/Machine/Liner.lean ====
section
/-! DEFINITION. The Liner (04_backward_pass, R134 to R147): stash entries in HBM, the directory, regions, a full stash and
recompute marks; STASH, UNSTASH and SRESET, each whole at its start. -/

namespace Sys2Proof.Machine

/-- Fields of a Liner command (R134); SRESET has no cluster and stands at 32. -/
structure LnrCmd where
  cluster : Nat
  desc : Nat
  rows : Nat
  cols : Nat
  kind : Nat
  scr : Bool
  stage : Nat
  mb : Nat
  entry : Nat
  ctx : Nat
  t : Nat
  reserved : Bool
  deriving DecidableEq, Repr

/-- A Liner command decoded (R134): the fields its opcode does not use are reserved. -/
def LnrCmd.of (op : LnrOp) (c : Cmd) : LnrCmd :=
  let gaps := cmdFld c 37 3 != 0 || cmdFld c 78 2 != 0 || cmdFld c 137 119 != 0
  let resv := match op with
    | .stash => gaps || cmdFld c 136 1 != 0
    | .unstash => gaps || cmdFld c 48 24 != 0 || cmdFld c 104 32 != 0
    | .sreset => gaps || cmdFld c 32 44 != 0 || cmdFld c 80 57 != 0
    | .undef => false
  { cluster := if op = .sreset then 32 else cmdFld c 32 5, desc := cmdFld c 40 8, rows := cmdFld c 48 8, cols := cmdFld c 56 16
    kind := cmdFld c 72 3, scr := cmdFld c 75 1 == 1, stage := cmdFld c 76 2, mb := cmdFld c 80 8
    entry := cmdFld c 88 16, ctx := cmdFld c 104 8, t := cmdFld c 112 24, reserved := resv }

/-- RONLY of an UNSTASH (R134, R238). -/
def lnrRonly (c : Cmd) : Bool := cmdFld c 136 1 == 1

/-- `n` bytes padded to a multiple of 64 (R135). -/
def pad64 (n : Nat) : Nat := (n + 63) / 64 * 64

/-- What a STASH writes: its bytes in entry order and the entry's shape. -/
structure StashData where
  bytes : List Byte
  shape : DirEntry
  /-- Bytes read from the tile store. -/
  readLen : Nat
  rblk : Nat := 0
  nonfin : Nat := 0

/-- The bytes of SC8 codes of a source of `r` rows and `c` columns (R114): code lines and their length. -/
def RowDesc.codeSize (x : RowDesc) (r c : Nat) : Nat × Nat :=
  (if !x.d.scaled then 0 else if x.colblk then (r + 31) / 32 else r, if x.colblk then c else (c + 31) / 32)

/-- The bytes that a read of `r` rows of `c` columns takes from the tile store, elements and codes (R140). -/
def RowDesc.readBytes (x : RowDesc) (r c : Nat) : Nat :=
  r * packedBytes ((Fmt.ofCode x.d.fmt).getD .f8v).storeBits c + (x.codeSize r c).1 * (x.codeSize r c).2

/-- Bytes padded with zeros to a multiple of 64. -/
def padded (bs : List Byte) : List Byte := bs ++ List.replicate (pad64 bs.length - bs.length) 0

/-- A plane of bits, row by row in the layout of R123, each row padded to 64 bytes (R135). -/
def bitPlane (rows cols : Nat) (f : Nat → Nat → Bool) : List Byte :=
  (List.range rows).flatMap fun i => padded (packBits 1 ((List.range cols).map fun j => b2n (f i j)))

/-- COPY and CKPT (R135): rows, then codes, as in the source. -/
def stashCopy (tile : Memory) (cl : Nat) (x : RowDesc) (c : LnrCmd) : StashData :=
  let w := ((Fmt.ofCode x.d.fmt).getD .f8v).storeBits
  let len := packedBytes w c.cols
  let (lines, clen) := x.codeSize c.rows c.cols
  { bytes := ((List.range c.rows).flatMap fun i => padded (tile.read (tileKey cl (x.d.base + i * x.d.ld)) len)) ++
      ((List.range lines).flatMap fun k => padded (tile.read (tileKey cl (x.d.sbase + k * x.d.sld)) clen))
    shape := ⟨0, c.kind, c.rows, c.cols, w, lines, clen⟩
    readLen := x.readBytes c.rows c.cols }

/-- REBLOCK (R115, R135): a column-blocked copy, in the source's format, or in F8V for a wide source (log 13). -/
def stashReblock (tile : Memory) (cl : Nat) (x : RowDesc) (c : LnrCmd) : StashData :=
  let f := if x.d.fmt ≤ 4 then (Fmt.ofCode x.d.fmt).getD .f8v else .f8v
  let rb := reblock f true ((List.range c.rows).map fun i => (List.range c.cols).map fun j => x.exact tile cl i j)
  { bytes := (rb.codes.flatMap fun row => padded (packBits f.storeBits row)) ++
      (rb.scales.flatMap fun l => padded (l.map (BitVec.ofNat 8 ·)))
    shape := ⟨0, 1, c.rows, c.cols, f.storeBits, rb.scales.length, c.cols⟩
    readLen := x.readBytes c.rows c.cols, rblk := rb.changed, nonfin := rb.nonfin }

/-- A value is above zero; NaN and the zeros are not (R135). -/
def positive (v : Val) : Bool := !v.isNan && !v.isZero && !v.isNeg

/-- The bit kinds SIGN, DROP, SIGNDROP and SIGN_DROP2 (R135), whose draws take step, TENSOR and index of context CTX. -/
def stashBits (tile : Memory) (cl step : Nat) (x : RowDesc) (ctx : Context) (c : LnrCmd) : StashData :=
  let sign (i j : Nat) : Bool := positive (x.exact tile cl i j)
  let drop (i j : Nat) : Bool :=
    decide (c.t ≤ (jsr32 (BitVec.ofNat 32 step) (BitVec.ofNat 32 ctx.tensor) (ctx.index i j)).toNat / 256)
  let nans := if c.kind = 3 then 0 else
    sumNat ((List.range c.rows).map fun i => sumNat ((List.range c.cols).map fun j => b2n (x.exact tile cl i j).isNan))
  let plane := bitPlane c.rows c.cols
  { bytes := if c.kind = 2 then plane sign else if c.kind = 3 then plane drop
      else if c.kind = 4 then plane fun i j => sign i j && drop i j
      else plane sign ++ plane drop
    shape := ⟨0, c.kind, c.rows, c.cols, 1, 0, 0⟩
    readLen := if c.kind = 3 then 0 else x.readBytes c.rows c.cols, nonfin := nans }

/-- ROWSCALAR (R135): the first column of an FP32 source. -/
def stashScalar (tile : Memory) (cl : Nat) (x : RowDesc) (c : LnrCmd) : StashData :=
  { bytes := padded ((List.range c.rows).flatMap fun i => tile.read (tileKey cl (x.d.base + i * x.d.ld)) 4)
    shape := ⟨0, 6, c.rows, 1, 32, 0, 0⟩, readLen := 4 * c.rows }

/-- What a STASH writes, by KIND (R135). -/
def stashData (tile : Memory) (step : Nat) (x : RowDesc) (ctx : Context) (c : LnrCmd) : StashData :=
  if c.kind = 0 ∨ c.kind = 7 then stashCopy tile c.cluster x c
  else if c.kind = 1 then stashReblock tile c.cluster x c
  else if c.kind = 6 then stashScalar tile c.cluster x c
  else stashBits tile c.cluster step x ctx c

/-- A descriptor that a Liner command may name (R114): aligned, and no SC8 or reserved format (R27, R57). -/
def lnrDesc (x : Option RowDesc) : Bool :=
  match x with
  | none => false
  | some x => x.d.aligned && !x.d.orient && x.d.fmt != 9 && x.d.fmt != 0xF

/-- A valid source: inside the tile store over the tensor's size. -/
def lnrDescOk (x : Option RowDesc) (r c : Nat) : Bool :=
  lnrDesc x && match x with | none => false | some x => x.inside r c

/-- Micro-batch `b` of stage `s` is marked for recompute (R143, R150). -/
def recompBit (regs : Tbl Word) (s b : Nat) : Bool :=
  bit (Regs.nat regs (Reg.lnrSRecomp0 s + 4 * (b / 32))) (b % 32)

/-- The RECOMP bits of micro-batches `b` to `n - 1` of stage `s` set (R143, R144). -/
def markRecomp (regs : Tbl Word) (s b n : Nat) : Tbl Word :=
  (List.range 8).foldl (fun r w =>
    let a := Reg.lnrSRecomp0 s + 4 * w
    let from' := min 32 (b - 32 * w)
    let to' := min 32 (n - 32 * w)
    if to' ≤ from' then r else Regs.put r a (Regs.nat r a ||| (2 ^ to' - 2 ^ from'))) regs

/-- The micro-batches of the step (R143): SEQ_MB_COUNT. -/
def stepMbs (regs : Tbl Word) : Nat := Regs.fld regs Reg.seqMbCount 0 9

/-- The head of a stage moves to `a` (R139, R142, R143), and the highest head follows (R150). -/
def setHead (regs : Tbl Word) (st a : Nat) : Tbl Word :=
  let regs := Regs.putPair regs (Reg.lnrSHeadLo st) a
  Regs.putPair regs (Reg.lnrSHwmLo st) (max (Regs.pair regs (Reg.lnrSHwmLo st)) a)

/-- One more STASH of the stage completed or skipped, whatever it moved: cue 232 + s (R244). -/
def cueStash (regs : Tbl Word) (stage : Nat) : Tbl Word :=
  Regs.put regs (Reg.seqCueHw (8 + stage)) (Regs.nat regs (Reg.seqCueHw (8 + stage)) + 1)

/-- What a Liner command does when it runs. -/
structure LnrRun where
  lnr : Liner
  hbm : Memory
  tile : Memory
  regs : Tbl Word
  /-- Cycles it streams, and cycles from its start to its completion (R140). -/
  stream : Nat
  total : Nat
  /-- Bytes of its stream, and a cycle before which it does not complete (R143). -/
  size : Nat := 0
  notBefore : Nat := 0
  /-- Its accesses to HBM (R255): address, bytes, and the offset of the first request. -/
  access : Nat × Nat × Nat := (0, 0, 0)

/-- A STASH's writes to HBM (R140, R255): the first reaches its controller 380 cc before the completion of a stream of no
cycles. -/
def stashAccess (a : Nat) (d : StashData) (lat : Nat) : Nat × Nat × Nat := (a, d.bytes.length, lat - 380)

/-- A command that moves nothing, with its counts (R134, R141, R143). -/
def lnrNothing (s : State) (regs : Tbl Word) : LnrRun :=
  { lnr := s.lnr, hbm := s.hbm, tile := s.tile, regs, stream := 0, total := 2 }

/-- An entry recorded in a directory, with its address. -/
def DirEntry.at (e : DirEntry) (a : Nat) : DirEntry := { e with addr := a }

/-- A STASH whose entry would pass LIMIT (R143): marks the micro-batch and the later ones, moves the head back and drops
the micro-batch's entries; it completes once the stage's STASH writes in flight have. -/
def stashFull (s : State) (c : LnrCmd) (regs : Tbl Word) : LnrRun :=
  let st := c.stage
  let key := 256 * st + c.mb
  let regs := Regs.count (markRecomp regs st c.mb (max (c.mb + 1) (stepMbs regs))) Reg.lnrEvcFull 1
  let regs := Regs.putFld regs (Reg.lnrSFull st) 0 9 (c.mb + 256)
  let dir0 := Regs.fld regs (Reg.lnrSDir st) 0 16 + c.mb * Regs.fld regs (Reg.lnrSDir st) 16 16
  let epm := Regs.fld regs (Reg.lnrSDir st) 16 16
  let regs := match s.lnr.firstAlloc.get? key with
    | some a => setHead regs st a
    | none => regs
  { lnr := { s.lnr with dir := s.lnr.dir.filter fun p => !(decide (dir0 ≤ p.1) && decide (p.1 < dir0 + epm)) }
    hbm := s.hbm, tile := s.tile, regs := regs, stream := 0, total := 2, notBefore := Tbl.get 0 s.lnr.stageDone st }

/-- A STASH into the dynamic area (R139): an entry at the head, recorded in the directory. An entry beyond the 65,536 of the
directory moves nothing and is a violation (log 107). -/
def stashDynamic (s : State) (c : LnrCmd) (d : StashData) (regs : Tbl Word) : LnrRun :=
  let st := c.stage
  let head := Regs.pair regs (Reg.lnrSHeadLo st)
  let size := d.bytes.length
  let idx := Regs.fld regs (Reg.lnrSDir st) 0 16 + c.mb * Regs.fld regs (Reg.lnrSDir st) 16 16 + c.entry
  let lat := (if c.kind = 1 then 420 else 413)
  let strm := (max size d.readLen + 511) / 512
  if recompBit regs st c.mb then lnrNothing s (Regs.count regs Reg.lnrEvcSkip 1)
  else if Regs.pair regs (Reg.lnrSLimitLo st) < head + size then stashFull s c regs
  else if 65536 ≤ idx then lnrNothing s (Regs.count regs Reg.lnrEvcViol 1)
  else
    let again := (s.lnr.dir.get? idx).isSome
    let key := 256 * st + c.mb
    let first := match s.lnr.firstAlloc.get? key with
      | some _ => s.lnr.firstAlloc
      | none => s.lnr.firstAlloc.set key head
    let regs := setHead regs st (head + size)
    { lnr := { s.lnr with dir := s.lnr.dir.set idx (d.shape.at head), firstAlloc := first }
      hbm := s.hbm.write head d.bytes, tile := s.tile, stream := strm, total := lat + strm, size := max size d.readLen
      access := stashAccess head d lat
      regs := Regs.counts regs [(Reg.lnrEvcViol, b2n again), (Reg.lnrEvcRblk, d.rblk), (Reg.lnrEvcNonfin, d.nonfin)] }

/-- A STASH into the scratch area (R139): its directory clears when another micro-batch is named. Neither the area's size nor
EPM bounds it (log 107). -/
def stashScratch (s : State) (c : LnrCmd) (d : StashData) (regs : Tbl Word) : LnrRun :=
  let st := c.stage
  let same := s.lnr.scrMb.get? st == some c.mb
  let dir := if same then s.lnr.scrDir else s.lnr.scrDir.filter fun p => p.1 / 65536 != st
  let used := if same then s.lnr.scrUsed.get 0 st else 0
  let at' := Regs.pair regs (Reg.lnrSScrBaseLo st) + used
  let again := (dir.get? (65536 * st + c.entry)).isSome
  let strm := (max d.bytes.length d.readLen + 511) / 512
  { lnr := { s.lnr with scrDir := dir.set (65536 * st + c.entry) (d.shape.at at'), scrMb := s.lnr.scrMb.set st c.mb
                        scrUsed := s.lnr.scrUsed.set st (used + d.bytes.length) }
    hbm := s.hbm.write at' d.bytes, tile := s.tile, stream := strm, total := (if c.kind = 1 then 420 else 413) + strm
    size := max d.bytes.length d.readLen
    access := stashAccess at' d (if c.kind = 1 then 420 else 413)
    regs := Regs.counts regs [(Reg.lnrEvcViol, b2n again), (Reg.lnrEvcRblk, d.rblk), (Reg.lnrEvcNonfin, d.nonfin)] }

/-- The address of checkpoint tile `t` of micro-batch `b` (R137). -/
def ckptAddr (regs : Tbl Word) (st b t : Nat) : Nat :=
  Regs.pair regs (Reg.lnrSCkptBaseLo st) +
    (b * Regs.nat regs (Reg.lnrSCkptTiles st) + t) * Regs.nat regs (Reg.lnrSCkptTile st)

/-- A STASH of KIND 7 (R137). -/
def stashCkpt (s : State) (c : LnrCmd) (d : StashData) (regs : Tbl Word) : LnrRun :=
  let a := ckptAddr regs c.stage c.mb c.entry
  let strm := (max d.bytes.length d.readLen + 511) / 512
  { lnr := { s.lnr with ckpt := s.lnr.ckpt.set (2 ^ 32 * c.stage + 2 ^ 24 * c.mb + c.entry) (d.shape.at a) }
    hbm := s.hbm.write a d.bytes, tile := s.tile, stream := strm, total := 413 + strm, regs := regs
    size := max d.bytes.length d.readLen, access := stashAccess a d 413 }

/-- STASH (R135, R139, R143, R144, R151). -/
def runStash (s : State) (h : HeldCmd) : LnrRun :=
  let c := LnrCmd.of .stash h.cmd
  let x := rowDesc s c.cluster c.desc
  let cx := rowContext s c.cluster c.ctx
  let draws := decide (3 ≤ c.kind) && decide (c.kind ≤ 5)
  let dresv := match x with | some x => x.reserved | none => false
  let resv := b2n (c.reserved || dresv)
  let regs := Regs.count s.regs Reg.lnrEvcViol resv
  let regs := if s.fld Reg.seqMode 5 2 = 2 then markRecomp regs c.stage 0 (stepMbs regs) else regs
  let reblockOk := match x with | some x => decide (x.d.fmt ≤ 7) | none => false
  let scalarOk := match x with | some x => x.d.fmt == 7 | none => false
  let bad := !bit (s.reg (Reg.lnrSCtrl c.stage)) 0 || decide (128 < c.rows) || !lnrDescOk x c.rows c.cols ||
    (draws && !ctxOk cx) || (c.kind == 1 && !reblockOk) || (c.kind == 6 && !scalarOk)
  if bad then lnrNothing s (Regs.count s.regs Reg.lnrEvcViol (1 + resv))
  else if c.rows = 0 ∨ c.cols = 0 then lnrNothing s (Regs.count regs Reg.lnrEvcEmpty 1)
  else
    let d := stashData s.tile h.step (x.getD (RowDesc.ofNat 0)) (cx.getD (Context.ofNat 0)) c
    if c.kind = 7 then stashCkpt s c d regs
    else if c.scr then stashScratch s c d regs
    else stashDynamic s c d regs

/-- Consecutive lines of `len` bytes, each padded to 64, from HBM address `a` to tile addresses `base + k * step`. -/
def restoreLines (hbm tile : Memory) (cl a base step lines len : Nat) : Memory :=
  (List.range lines).foldl (fun t k => t.write (tileKey cl (base + k * step)) (hbm.read (a + k * pad64 len) len)) tile

/-- An entry written to a destination descriptor's addresses in its shape and kind (R141): the second plane of
SIGN_DROP2 goes PSTRIDE bytes further (log 14). -/
def restoreEntry (hbm tile : Memory) (cl : Nat) (x : RowDesc) (e : DirEntry) : Memory :=
  let len := packedBytes e.width e.cols
  let body := e.rows * pad64 len
  if e.kind = 6 then
    (List.range e.rows).foldl (fun t i => t.write (tileKey cl (x.d.base + i * x.d.ld)) (hbm.read (e.addr + 4 * i) 4)) tile
  else
    let t := restoreLines hbm tile cl e.addr x.d.base x.d.ld e.rows len
    let t := restoreLines hbm t cl (e.addr + body) x.d.sbase x.d.sld e.codeLines e.codeLen
    if e.kind = 5 then restoreLines hbm t cl (e.addr + body) (x.d.base + x.d.pstride) x.d.ld e.rows len else t

/-- The tile addresses that a restored entry resolves lie in the tile store. -/
def restoreInside (x : RowDesc) (e : DirEntry) : Bool :=
  e.rows == 0 || e.cols == 0 ||
    decide (x.d.base + (e.rows - 1) * x.d.ld + (if e.kind = 5 then x.d.pstride else 0) + packedBytes e.width e.cols ≤ tileSize) &&
    (e.codeLines == 0 || decide (x.d.sbase + (e.codeLines - 1) * x.d.sld + e.codeLen ≤ tileSize))

/-- The entry an UNSTASH names, if valid in the current step (R141, R147). A checkpoint tile that no STASH wrote has no shape
and is an entry of size 0 (log 106). -/
def unstashEntry (s : State) (c : LnrCmd) : Option DirEntry :=
  let st := c.stage
  if c.kind = 7 then
    if c.entry < s.reg (Reg.lnrSCkptTiles st) then
      some (match s.lnr.ckpt.get? (2 ^ 32 * st + 2 ^ 24 * c.mb + c.entry) with
        | some e => e.at (ckptAddr s.regs st c.mb c.entry)
        | none => ⟨0, 7, 0, 0, 8, 0, 0⟩)
    else none
  else if c.scr then
    if s.lnr.scrMb.get? st = some c.mb then s.lnr.scrDir.get? (65536 * st + c.entry) else none
  else if recompBit s.regs st c.mb then none
  else s.lnr.dir.get? (s.fld (Reg.lnrSDir st) 0 16 + c.mb * s.fld (Reg.lnrSDir st) 16 16 + c.entry)

/-- UNSTASH (R141, R147, R151). -/
def runUnstash (s : State) (h : HeldCmd) : LnrRun :=
  let c := LnrCmd.of .unstash h.cmd
  let x := rowDesc s c.cluster c.desc
  let dresv := match x with | some x => x.reserved | none => false
  let resv := b2n (c.reserved || dresv)
  let x' := x.getD (RowDesc.ofNat 0)
  match unstashEntry s c with
  | none => lnrNothing s (Regs.count s.regs Reg.lnrEvcViol (1 + resv))
  | some e =>
    if !bit (s.reg (Reg.lnrSCtrl c.stage)) 0 || !lnrDesc x || !restoreInside x' e then
      lnrNothing s (Regs.count s.regs Reg.lnrEvcViol (1 + resv))
    else if e.rows = 0 ∨ e.cols = 0 then
      lnrNothing s (Regs.counts s.regs [(Reg.lnrEvcViol, resv), (Reg.lnrEvcEmpty, 1)])
    else
      let bytes := e.rows * pad64 (packedBytes e.width e.cols) * (if e.kind = 5 then 2 else 1) + e.codeLines * pad64 e.codeLen
      let strm := (bytes + 511) / 512
      { lnr := s.lnr, hbm := s.hbm, tile := restoreEntry s.hbm s.tile c.cluster x' e
        regs := Regs.count s.regs Reg.lnrEvcViol resv, stream := strm, total := 480 + strm, size := bytes
        access := (e.addr, bytes, 0) }

/-- SRESET of a stage (R142, R244): head to BASE, directories empty, RECOMP bits, FULL and the stage's cues cleared. -/
def resetStage (lnr : Liner) (regs : Tbl Word) (st : Nat) : Liner × Tbl Word :=
  let dir0 := Regs.fld regs (Reg.lnrSDir st) 0 16
  let span := 256 * Regs.fld regs (Reg.lnrSDir st) 16 16
  let regs := setHead regs st (Regs.pair regs (Reg.lnrSBaseLo st))
  let regs := (List.range 8).foldl (fun r w => Regs.put r (Reg.lnrSRecomp0 st + 4 * w) 0) regs
  let regs := Regs.putFld regs (Reg.lnrSFull st) 0 9 0
  let regs := Regs.put (Regs.put regs (Reg.seqCueHw (8 + st)) 0) (Reg.seqCueHw (12 + st)) 0
  ({ lnr with dir := lnr.dir.filter fun p => !(decide (dir0 ≤ p.1) && decide (p.1 < dir0 + span))
              scrDir := lnr.scrDir.filter fun p => p.1 / 65536 != st
              scrMb := lnr.scrMb.erase st, scrUsed := lnr.scrUsed.erase st
              firstAlloc := lnr.firstAlloc.filter fun p => p.1 / 256 != st }, regs)

/-- SRESET (R142). -/
def runSreset (s : State) (h : HeldCmd) : LnrRun :=
  let c := LnrCmd.of .sreset h.cmd
  let r := resetStage s.lnr (Regs.count s.regs Reg.lnrEvcViol (b2n c.reserved)) c.stage
  { lnr := r.1, hbm := s.hbm, tile := s.tile, regs := r.2, stream := 0, total := 2 }

/-- The run of a Liner command of a kind; an undefined opcode is invalid (R134). -/
def runLnr (s : State) (k : LnrOp) (h : HeldCmd) : LnrRun :=
  match k with
  | .stash => runStash s h
  | .unstash => runUnstash s h
  | .sreset => runSreset s h
  | .undef => lnrNothing s (Regs.count s.regs Reg.lnrEvcViol 1)

/-- The stage whose cue a command of a kind posts when it completes (R244). -/
def stashStage (k : LnrOp) (c : Cmd) : Option Nat := if k = .stash then some (LnrCmd.of .stash c).stage else none

/-- A Liner command of cluster `cl` starts streaming in cycle `start` (R134, R140): a start after its issue is counted
as a hold. The stream lasts ⌈S/512⌉ cycles (log 12); its completion waits for its HBM accesses (R255, R258, log 125). -/
def State.lnrStart (s : State) (cl : Nat) (k : LnrOp) (h : HeldCmd) (start : Nat) : State :=
  let s := s.atCycle start
  let r := runLnr s.landedTiles k h
  let r := match stashStage k h.cmd with
    | some st => { r with regs := cueStash r.regs st }
    | none => r
  let b := { s with regs := r.regs }.streamAccess r.access.1 r.access.2.1 (start + r.access.2.2)
  let r := { r with regs := b.1.regs }
  let doneAt := max (start + r.total + b.2) r.notBefore
  let late := start - h.issue
  let stop := start + r.stream
  let regs := Regs.count64 (Regs.count64 (Regs.count r.regs Reg.lnrEvcHold (b2n (late != 0))) Reg.lnrStallLo late)
    Reg.lnrBusyLo (stop - max start (min stop r.lnr.busyTo))
  let q : LnrQueue := Tbl.get ({} : LnrQueue) r.lnr.queues cl
  let moved := (List.range 8).filter fun i => Regs.nat r.regs (Reg.seqCueHw (8 + i)) != s.reg (Reg.seqCueHw (8 + i))
  { s.setTile r.tile with
           part := b.1.part
           seq := moved.foldl (fun q i => noteCue q (232 + i) doneAt (s.reg (Reg.seqCueHw (8 + i)))
             (Regs.nat r.regs (Reg.seqCueHw (8 + i))) s.now) s.seq
           hbm := r.hbm, regs := regs
           lnr := { r.lnr with busyTo := max r.lnr.busyTo stop
                               stageDone := match stashStage k h.cmd with
                                 | some st => r.lnr.stageDone.set st (max (Tbl.get 0 r.lnr.stageDone st) doneAt)
                                 | none => r.lnr.stageDone
                               queues := r.lnr.queues.set cl { q with
                                 streamTo := stop, doneAt := q.doneAt.filter (start < ·) ++ [doneAt]
                                 spare := 2 * r.stream - (r.size + 255) / 256, stash := stashStage k h.cmd } } }

/-- Cluster `cl`'s Liner loses `lost` places of the port in cycle `t`, in which it streams two beats of 256 bytes (R96, R140):
each beat that waits is counted, and a stream that needs one more cycle for them ends, completes and posts its cue one
cycle later. -/
def State.lnrWait (s : State) (cl t lost : Nat) : State :=
  let q := Tbl.get ({} : LnrQueue) s.lnr.queues cl
  if lost = 0 ∨ q.streamTo ≤ t then s
  else
    let s := s.countN Reg.lnrEvcPortwait lost
    if lost ≤ q.spare then
      { s with lnr := { s.lnr with queues := s.lnr.queues.set cl { q with spare := q.spare - lost } } }
    else
      let d := q.doneAt.getLastD 0
      let stop := q.streamTo + 1
      let late (l : List (Nat × Nat)) := l.map fun h => if h.1 = d then (d + 1, h.2) else h
      let hist := match q.stash with
        | some st => s.seq.cueHist.modify [] (232 + st) late
        | none => s.seq.cueHist
      let done := match q.stash with
        | some st => s.lnr.stageDone.set st (max (Tbl.get 0 s.lnr.stageDone st) (d + 1))
        | none => s.lnr.stageDone
      { s with
        regs := Regs.count64 s.regs Reg.lnrBusyLo (stop - min stop (max s.lnr.busyTo q.streamTo))
        seq := { s.seq with cueHist := hist }
        lnr := { s.lnr with
          busyTo := max s.lnr.busyTo stop
          stageDone := done
          queues := s.lnr.queues.set cl { q with
            streamTo := stop, spare := q.spare + 2 - lost, doneAt := q.doneAt.dropLast ++ [d + 1] } } }

/-- A Liner command is issued (R134): it starts now, or is held behind its cluster's previous command. -/
def lnrIssue (k : LnrOp) (c : Cmd) (step : Nat) (s : State) : State :=
  let cl := (LnrCmd.of k c).cluster
  let q := s.lnr.queues.get {} cl
  let h : HeldCmd := { cmd := c, issue := s.now, step, lepoch := s.fld Reg.seqEpoch 0 16 }
  if q.held.isEmpty && decide (q.streamTo ≤ s.now) then s.lnrStart cl k h s.now
  else { s with lnr := { s.lnr with queues := s.lnr.queues.set cl { q with held := q.held ++ [(k, h)] } } }

/-- A held Liner command of a cluster starts when the previous one has finished streaming (R134). -/
def linerCommandStartEffect (cl : Nat) (s : State) : State :=
  let q := s.lnr.queues.get {} cl
  match q.held with
  | [] => s
  | (k, h) :: rest =>
    { s with lnr := { s.lnr with queues := s.lnr.queues.set cl { q with held := rest } } }.lnrStart cl k h
      (max q.streamTo h.issue)

end Sys2Proof.Machine
end

