-- ==== Sys2Proof/Machine/Partition.lean ====
section
/-! DEFINITION. Memory partitions (05_reduction_and_cuff, R152 to R168, R189): slot programs, plans, the routing of
beats, the order of addition, and the opening of slots. -/

namespace Sys2Proof.Machine

/-! ### Slot programs and plans -/

/-- A partition of the state. -/
def State.partition (s : State) (p : Nat) : Partition := Tbl.get {} s.part p

/-- The state with a partition replaced. -/
def State.setPartition (s : State) (p : Nat) (x : Partition) : State := { s with part := s.part.set p x }

/-- A slot of the state. -/
def State.slot (s : State) (p k : Nat) : Slot :=
  let x := s.partition p
  x.slots.get { pass := x.pass0 } k

/-- The state with a slot replaced. -/
def State.setSlot (s : State) (p k : Nat) (x : Slot) : State :=
  s.setPartition p { s.partition p with slots := (s.partition p).slots.set k x }

/-- The state with an ingress of a partition replaced. -/
def State.setIngress (s : State) (p i : Nat) (g : Ingress) : State :=
  s.setPartition p { s.partition p with ingress := (s.partition p).ingress.set i g }

/-- A slice entry of 32 bytes, or of 64 for the slow tier (R153, R204). -/
def SliceEntry.ofNat (v : Nat) : SliceEntry :=
  let slt := bit v 180
  { tensor := bits v 0 32, first := bits v 32 48, record := if slt then bits v 80 30 else bits v 80 40
    e := bits v 120 16, plan := bits v 136 16, pieces := bits v 152 7, group := bits v 159 4, lepoch := bits v 163 16
    cut := bit v 179, slt, repl := bit v 181, replDev := bits v 182 10, last := bit v 192
    reserved := bits v 193 63 != 0 || (slt && (bits v 110 10 != 0 || bits v 320 192 != 0))
    mask := if slt then bits v 256 64 else 2 ^ 64 - 1 }

/-- A slot of partition `p` lies in the slow tier's range (R204). -/
def sltSlot (regs : Tbl Word) (k : Nat) : Bool :=
  let first := Regs.fld regs Reg.sltSlots 0 11
  decide (first ≤ k) && decide (k < first + Regs.fld regs Reg.sltSlots 11 11)

/-- The directory entry of slot `k`: program address and entry count (R191). -/
def slotProgram (s : State) (p k : Nat) : Nat × Nat :=
  let v := s.hbm.readNat (Regs.pair s.regs (Reg.cufSprogBaseLo p) + 8 * k) 8
  (bits v 0 40, bits v 40 16)

/-- Entry `i` of slot `k`'s program, if it has one (R153, R204). -/
def programEntry (s : State) (p k i : Nat) : Option SliceEntry :=
  let d := slotProgram s p k
  let w := if sltSlot s.regs k then 64 else 32
  if i < d.2 then some (SliceEntry.ofNat (s.hbm.readNat (d.1 + w * i) w)) else none

/-- Slots of partition `p` whose directory entry is not all zero, in ascending order. -/
def programSlots (s : State) (p : Nat) : List Nat :=
  let b := Regs.pair s.regs (Reg.cufSprogBaseLo p)
  ((s.hbm.filter fun c => decide (b ≤ c.1) && decide (c.1 < b + 8 * 2048)).map fun c => (c.1 - b) / 8).eraseDups

/-- Every slice entry in partition `p`'s programs, with its slot and index. -/
def partitionEntries (s : State) (p : Nat) : List (Nat × Nat × SliceEntry) :=
  (programSlots s p).flatMap fun k =>
    (List.range (slotProgram s p k).2).filterMap fun i => (programEntry s p k i).map fun e => (k, i, e)

/-- A beat belongs to a slice (R152). -/
def SliceEntry.holds (e : SliceEntry) (b : Beat) : Bool :=
  e.tensor == b.tensor && decide (e.first ≤ b.index) && decide (b.index < e.first + 4096)

/-- The runs of plan `idx` of partition `p` (R154). -/
def planRuns (s : State) (p idx : Nat) : List (Nat × Nat × Nat) :=
  let b := Regs.pair s.regs (Reg.cufPlanBaseLo p)
  let d := s.hbm.readNat (b + 8 * idx) 8
  (List.range (bits d 32 16)).map fun i =>
    let w := s.hbm.readNat (b + 4 * (bits d 0 32 + i)) 4
    (bits w 0 10, bits w 10 12, bits w 22 10)

/-- The rank of contribution `n` of a source, and none beyond what the plan gives it (R154). -/
def rankOf : List (Nat × Nat × Nat) → Nat → Nat → Nat → Nat → Option Nat
  | [], _, _, _, _ => none
  | (d, u, c) :: rs, dev, unit, n, at' =>
    if d = dev ∧ u = unit then (if n < c then some (at' + n) else rankOf rs dev unit (n - c) (at' + c))
    else rankOf rs dev unit n (at' + c)

/-- A source stands in a plan. -/
def inPlan (runs : List (Nat × Nat × Nat)) (dev unit : Nat) : Bool := runs.any fun r => r.1 == dev && r.2.1 == unit

/-! ### The order of addition -/

/-- The unit ID of partition `p` (R152). -/
def partUnit (p : Nat) : Nat := 0x1A0 + p

/-- A piece of a slot. -/
def Slot.piece (x : Slot) (q : Nat) : Piece := Tbl.get {} x.pieces q

/-- The rank that the next beat of piece `q` needs, counting the beats whose turn has come (R161). -/
def Slot.turn (x : Slot) (q : Nat) : Nat := (x.piece q).ptr + (x.ready.filter fun r => r.piece == q).length

/-- A pointer passes the ranks marked in the skip mask (R162). -/
def passSkips : Nat → List Nat → Nat → Nat × List Nat
  | 0, sk, p => (p, sk)
  | n + 1, sk, p => if sk.contains p then passSkips n (sk.filter (· != p)) (p + 1) else (p, sk)

/-- FP32 sum of two vectors, lane by lane; an empty one reads +0 (R157). -/
def addLanes (a b : List Word) : List Word :=
  (List.range 64).map fun i => fadd (a.getD i 0) (b.getD i 0)

/-- The segment map's bit of rank `j` (R499): every rank ends a segment of a slow-tier slice. -/
def segmentEnd (s : State) (p : Nat) (e : SliceEntry) (j : Nat) : Bool :=
  if e.slt then true
  else
    let b := Regs.pair s.regs Reg.vsrSegBaseLo
    let off := s.hbm.readNat (b + 8 * e.plan) 8
    let e1 := e.e / max 1 (s.fld Reg.seqMbCount 0 9)
    let i := j % max 1 e1
    let _ := p
    bit (s.hbm.get (b + off + i / 8)).toNat (i % 8)

/-- Visor's segment sum and norm after one more add (R500). -/
def Piece.segment (x : Piece) (vals : List Word) (ends : Bool) : Piece :=
  let u := addLanes x.seg vals
  if ends then { x with seg := [], n2 := fadd x.n2 (u.foldl (fun p l => ffma l l p) 0) } else { x with seg := u }

/-- A beat added into its piece (R161, R165, R500); the pointer moves when the rank is its turn. -/
def Piece.add (x : Piece) (b : Beat) (ends : Bool) : Piece :=
  { x.segment b.vals ends with sums := addLanes x.sums b.vals, abst := x.abst + b2n b.abstain }

/-- The counts of a beat's add (R165, R168). -/
def addCounts (p : Nat) (b : Beat) : List (Nat × Nat) :=
  [(Reg.cufEvcAbstain p, b2n b.abstain), (Reg.cufEvcBound p, b2n (!b.boundOk))]

/-- A local engine's beat is added, or discarded in place of its addition: its drain counts it as done (R558, log 108). -/
def State.beatAdded (s : State) (p : Nat) (b : Beat) (t : Nat) : State :=
  if b.srcDev = s.device ∧ b.srcUnit < 128 then s.beatDone b.srcUnit 1 t (p, b.tensor, b.index) else s

/-- One add into a slot (R161, R162): it starts in cycle `t` and completes 7 cycles later. -/
def State.addBeat (s : State) (p k : Nat) (r : RankBeat) (inTurn : Bool) (t : Nat) : State :=
  let part := s.partition p
  let x : Slot := part.slots.get { pass := part.pass0 } k
  let pc := (x.piece r.piece).add r.beat (segmentEnd s p x.slice r.rank)
  let pc := if inTurn then
      let ps := passSkips (pc.skip.length + 1) pc.skip (pc.ptr + 1)
      { pc with ptr := ps.1, skip := ps.2 }
    else { pc with skip := pc.skip ++ [r.rank] }
  let x := { x with pieces := x.pieces.set r.piece pc, state := if x.state = 1 then 2 else x.state
                    lastAdd := max x.lastAdd (t + 7) }
  let s := s.setPartition p { part with slots := part.slots.set k x, addFree := t + 1 }
  let s := { s with regs := Regs.counts s.regs (addCounts p r.beat) }
  s.beatAdded p r.beat (t + 7)

/-- What becomes of a beat that reaches its open slot (R161 to R163). -/
inductive Rank where
  /-- Counted in `CUF_EVC_DUP` (or in `CUF_EVC_VIOL`) and discarded. -/
  | discard (dup : Bool)
  | turn (r : RankBeat)
  | ahead (r : RankBeat)
  deriving DecidableEq, Repr

/-- The rank of a beat at its slot (R154, R163, R206). -/
def Slot.rank (x : Slot) (b : Beat) : Rank :=
  let q := (b.index - x.slice.first) / 64
  if x.slice.pieces ≤ q ∨ !bit x.slice.mask q then .discard false
  else if !inPlan x.runs b.srcDev b.srcUnit then .discard false
  else
    let pc := x.piece q
    match rankOf x.runs b.srcDev b.srcUnit (pc.seen.get 0 (b.srcDev * 4096 + b.srcUnit)) 0 with
    | none => .discard true
    | some r =>
      if r < pc.ptr then .discard true
      else if r = x.turn q then .turn ⟨q, r, b⟩ else .ahead ⟨q, r, b⟩

/-- The source of a beat has sent one more contribution to the piece. -/
def Slot.sawBeat (x : Slot) (r : RankBeat) : Slot :=
  let pc := x.piece r.piece
  let key := r.beat.srcDev * 4096 + r.beat.srcUnit
  { x with pieces := x.pieces.set r.piece { pc with seen := pc.seen.set key (pc.seen.get 0 key + 1) } }

/-- The outcome of handing a beat to its slot. -/
inductive Handed where
  | done (s : State)
  /-- It found the window full and waits (R162). -/
  | full

/-- The step of a slot's present pass (R172). -/
def State.passStep (s : State) (x : Slot) : Nat := s.job.firstStep + x.pass

/-- A beat handed to slot `k` of partition `p` (R161 to R163): discarded, made ready, put in the window, added out of
order under RELAXED, or left waiting. -/
def State.handBeat (s : State) (p k : Nat) (b : Beat) : Handed :=
  let x := s.slot p k
  let put (x : Slot) : State := s.setSlot p k x
  match x.rank b with
  | .discard dup => .done ((s.count (if dup then Reg.cufEvcDup p else Reg.cufEvcViol p)).beatAdded p b s.now)
  | .turn r => let x := x.sawBeat r; .done (put { x with ready := x.ready ++ [r] })
  | .ahead r =>
    if x.window.length < 8 then let x := x.sawBeat r; .done (put { x with window := x.window ++ [r] })
    else if s.fld Reg.seqMode 2 1 = 1 ∧ r.rank < (x.piece r.piece).ptr + 64 then
      let s := put (x.sawBeat r)
      let s := (s.setPartition p { s.partition p with flagStep := some (s.passStep x) }).count (Reg.cufEvcRelax p)
      .done (s.addBeat p k r false (max s.now (s.partition p).addFree))
    else .full

/-- Beats that left the pending buffer for a slot are handed to it in order, one a cycle, until one finds the window
full, which is counted once (R162, R164). -/
def State.takeBeats : Nat → State → Nat → Nat → State
  | 0, s, _, _ => s
  | n + 1, s, p, k =>
    let x := s.slot p k
    match x.taking with
    | [] => s
    | b :: rest =>
      match s.handBeat p k b with
      | .full => (s.setSlot p k { x with takeFull := true }).countN (Reg.cufEvcWfull p) (b2n (!x.takeFull))
      | .done s =>
        let x := s.slot p k
        State.takeBeats n (s.setSlot p k { x with taking := rest, takeFull := false
                                                  takeTo := max (x.takeTo + 1) (s.now + 1) }) p k

/-! ### Routing at an ingress -/

/-- The slot holds its slice in cycle `now`: from its opening until it leaves UPDATING (R156, R157). -/
def Slot.holdsSlice (x : Slot) (now : Nat) : Bool :=
  decide (1 ≤ x.state) && decide (x.state ≤ 4) && (match x.freeAt with | some t => decide (now < t) | none => true)

/-- The slot of a partition whose current slice a beat belongs to, once it has opened (R164). -/
def openSlotOf (part : Partition) (now : Nat) (b : Beat) : Option (Nat × Slot) :=
  part.slots.find? fun kx => kx.2.holdsSlice now && kx.2.slice.holds b

/-- Where a beat goes (R164, R182, R189). -/
inductive Route where
  | discard (counter : Nat)
  /-- Into the pending buffer, with the event counter. -/
  | pend (counter : Nat)
  | slot (k : Nat)
  deriving DecidableEq, Repr

/-- The route of a beat that reaches partition `p` (R164, R182, R189). -/
def routeBeat (s : State) (p : Nat) (b : Beat) : Route :=
  let part := s.partition p
  let cur := s.fld (Reg.cufEpoch p) 0 16
  if part.aborting then .discard (Reg.cufEvcDiscard p)
  else if s.fld (Reg.cufCfg p) 0 1 = 0 then .discard (Reg.cufEvcViol p)
  else if b.lepoch = (cur + 1) % 65536 then .pend (Reg.cufEvcEpochhold p)
  else if b.lepoch ≠ cur then .discard (Reg.cufEvcViol p)
  else match openSlotOf part s.now b with
    | some kx => .slot kx.1
    | none =>
      if (partitionEntries s p).any (fun e => e.2.2.lepoch == cur && e.2.2.holds b) then .pend (Reg.cufEvcEarly p)
      else .discard (Reg.cufEvcViol p)

/-- Beats in the pending buffer, those of slices that have opened included (R164, R192). -/
def Partition.pendCount (x : Partition) : Nat := x.pend.length + sumNat (x.slots.map fun k => k.2.taking.length)

/-- Cycles up to `now` of the waits at a partition's ingresses that go on (R162, R164). -/
def Partition.waiting (x : Partition) (now : Nat) : Nat :=
  sumNat (x.ingress.map fun g => match g.2.wait with | some w => now - w.since | none => 0)

/-- An ingress of a partition. -/
def Partition.ingressAt (x : Partition) (i : Nat) : Ingress := Tbl.get {} x.ingress i

/-- The receive buffer of the Seam ingress's first beat frees, and its link returns a VC 2 credit (R162, R305). -/
def State.releaseSeam (s : State) (p : Nat) : State :=
  match Tbl.get [] s.seam.owed p with
  | [] => s
  | n :: rest =>
    let l := Tbl.get {} s.seam.links n
    { s with
      seam := { s.seam with
        owed := s.seam.owed.set p rest
        links := s.seam.links.set n { l with ret := l.ret.set 2 (l.ret.getD 2 0 + 1) } } }

/-- The first beat leaves its ingress; the cycles it waited there are counted (R162, R164). -/
def State.leaveIngress (s : State) (p i : Nat) : State :=
  let g := (s.partition p).ingressAt i
  let waited := match g.wait with
    | some w => s.now - w.since
    | none => 0
  let s := if i = 32 then s.releaseSeam p else s
  let s := s.setIngress p i { queue := g.queue.drop 1 }
  { s with regs := Regs.count64 s.regs (Reg.cufStallLo p) waited }

/-- The first beat waits at its ingress from now on; a beat that finds the window full is counted once (R162). -/
def State.waitIngress (s : State) (p i : Nat) (window : Bool) (slot : Nat) : State :=
  let g := (s.partition p).ingressAt i
  match g.wait with
  | some w =>
    if window && !w.window then
      (s.setIngress p i { g with wait := some { w with window := true, slot } }).count (Reg.cufEvcWfull p)
    else s
  | none => (s.setIngress p i { g with wait := some ⟨s.now, window, slot, false⟩ }).countN (Reg.cufEvcWfull p) (b2n window)

/-- The first beat of an ingress is routed (R162 to R164, R189). -/
def State.routeFirst (s : State) (p i : Nat) (b : Beat) : State :=
  match routeBeat s p b with
  | .discard c => ((s.leaveIngress p i).count c).beatAdded p b s.now
  | .pend c =>
    let part := s.partition p
    if part.pendCount < 256 then
      let s := (s.leaveIngress p i).count c
      let part := s.partition p
      s.setPartition p { part with pend := part.pend ++ [b] }
    else s.waitIngress p i false 0
  | .slot k =>
    let x := s.slot p k
    if !x.taking.isEmpty then s.waitIngress p i false k
    else
      let late := if ((s.partition p).ingressAt i).wait.isSome then 0 else x.takeTo - s.now
      let s := { s.atCycle x.takeTo with regs := Regs.count64 s.regs (Reg.cufStallLo p) late }
      match s.handBeat p k b with
      | .done s => s.leaveIngress p i
      | .full => s.waitIngress p i true k

/-- A beat reaches a partition at an ingress (R164): the oldest one there, unless it already waits. -/
def beatArrivalEffect (p i : Nat) (s : State) : State :=
  let g := (s.partition p).ingressAt i
  match g.queue, g.wait with
  | (at', b) :: _, none => (s.atCycle at').routeFirst p i b
  | _, _ => s

/-- A beat that waits at an ingress leaves it once room has returned (R162, R164). -/
def windowEntryEffect (p i : Nat) (s : State) : State :=
  let g := (s.partition p).ingressAt i
  match g.queue, g.wait with
  | (_, b) :: _, some _ => s.routeFirst p i b
  | _, _ => s

/-- A wait at an ingress passes `CUF_STALL_LIMIT` cycles (R162): CUF_STALL, once per wait. -/
def ingressStallLimitEffect (p i : Nat) (s : State) : State :=
  let g := (s.partition p).ingressAt i
  match g.wait with
  | some w =>
    if w.reported then s
    else
      let s := s.atCycle (w.since + s.reg (Reg.cufStallLimit p) + 1)
      (s.setIngress p i { g with wait := some { w with reported := true } }).fault (partUnit p) 0x02 3 0 w.slot
  | none => s

/-- Waiting beats whose rank is the pointer's are added next, one a cycle (R161). -/
def State.addWaiting : Nat → State → Nat → Nat → Nat → State
  | 0, s, _, _, _ => s
  | n + 1, s, p, k, q =>
    let x := s.slot p k
    match x.window.find? fun r => r.piece == q && r.rank == (x.piece q).ptr with
    | none => s
    | some r =>
      if x.ready.any fun r => r.piece == q then s
      else
        let s := s.setSlot p k { x with window := x.window.filter (· != r) }
        State.addWaiting n (s.addBeat p k r true (s.partition p).addFree) p k q

/-- The next beat of a piece is added, then the waiting ones it unblocks (R161, R165, R168, R500); beats taken from the
pending buffer that waited for room follow (R164). -/
def beatAddEffect (p k q : Nat) (s : State) : State :=
  let x := s.slot p k
  match x.ready.find? fun r => r.piece == q with
  | none => s
  | some r =>
    let t := max s.now (s.partition p).addFree
    let s := (s.atCycle t).setSlot p k { x with ready := x.ready.erase r }
    let s := (s.addBeat p k r true t).addWaiting 8 p k q
    s.takeBeats (s.slot p k).taking.length p k

/-! ### Opening a slot -/

/-- Which pieces of a slice are expected and not complete (R166, R206). -/
def Slot.complete (x : Slot) : Bool :=
  (List.range x.slice.pieces).all fun q => !bit x.slice.mask q || decide (x.slice.e ≤ (x.piece q).ptr)

/-- A slot's next entry may open (R156, R157): no slice is assigned, or the cycle is known in which it leaves UPDATING. -/
def Slot.mayOpen (x : Slot) : Bool := x.state == 0 || x.freeAt.isSome

/-- A pass that belongs to the layout epoch after a boundary whose migration is not complete (R156, R190, R283). -/
def State.passHeld (s : State) (pass : Nat) : Bool :=
  match s.job.boundary with
  | some b => decide (b ≤ s.job.firstStep + pass) && decide (s.job.phase ≤ 2)
  | none => false

/-- A slot without a slice (R156): HELD where its program's next pass belongs to the next layout epoch, else IDLE. -/
def State.idle (s : State) (x : Slot) : Slot := { x with state := if s.passHeld x.pass then 5 else 0 }

/-- A slot once it has left UPDATING: no slice, and its program's next entry (R156, R157, log 109). -/
def State.slotAfter (s : State) (p k : Nat) : Slot :=
  let x := s.slot p k
  if x.freeAt.isNone then x
  else
    let passEnds := x.slice.last || (programEntry s p k (x.entry + 1)).isNone
    { entry := if passEnds then 0 else x.entry + 1, pass := x.pass + b2n passEnds, freeAt := x.freeAt }

/-- A slot as its state register shows it (R156, R192). -/
def State.slotNow (s : State) (p k : Nat) : Slot :=
  let x := s.slot p k
  match x.freeAt with
  | some t =>
    if s.now < x.readAt then x else if s.now < t then { x with state := 4 } else s.idle (s.slotAfter p k)
  | none => if x.state = 0 then s.idle x else x

/-- A slot opens its next program entry (R153, R157, R164): one cycle; pieces and pointers clear, the window empties, and
the pending beats of the slice are handled first. An SLT entry outside the reserved slots is invalid (R204). -/
def slotOpenEffect (p k : Nat) (s : State) : State :=
  let x := s.slotAfter p k
  match programEntry s p k x.entry with
  | none => s
  | some e =>
    if !x.mayOpen || ((s.partition p).aborting && s.job.census.isSome) || s.passHeld x.pass || s.fld (Reg.cufCfg p) 0 1 == 0 || e.lepoch != s.fld (Reg.cufEpoch p) 0 16 then s
    else if e.slt && !sltSlot s.regs k then
      (s.setSlot p k { x with entry := if e.last then 0 else x.entry + 1, pass := x.pass + b2n e.last }).count
        (Reg.cufEvcViol p)
    else
      let part := s.partition p
      let s := s.atCycle (match x.freeAt with | some t => t + 1 | none => s.now + 1)
      let y : Slot :=
        { state := 1, entry := x.entry, pass := x.pass, slice := e, runs := planRuns s p e.plan
          taking := part.pend.filter fun b => e.holds b && b.lepoch == e.lepoch }
      let s := s.setPartition p { part with slots := part.slots.set k y, aborting := false
                                            pend := part.pend.filter fun b => !(e.holds b && b.lepoch == e.lepoch) }
      s.takeBeats y.taking.length p k

end Sys2Proof.Machine
end

