-- ==== Sys2Proof/Machine/Cuff.lean ====
section
/-! DEFINITION. The Cuff's arithmetic (05_reduction_and_cuff, R171 to R178, R184; 06_slow_tier, R211): the group table,
the parameter record and its tag block, the inner update, the outer apply and the roll-forward, each as a function of the
record's bytes. -/

namespace Sys2Proof.Machine

/-! ### CRC-32C and the tag block -/

/-- One bit of the reflected CRC-32C (R178). -/
def crcBit (c : Word) : Word := if c.getLsbD 0 then (c >>> 1) ^^^ 0x82F63B78#32 else c >>> 1

/-- One byte of the reflected CRC-32C. -/
def crcByte (c : Word) (b : Byte) : Word :=
  crcBit (crcBit (crcBit (crcBit (crcBit (crcBit (crcBit (crcBit (c ^^^ b.setWidth 32))))))))

/-- CRC-32C of a byte string (R178). -/
def crc32c (bs : List Byte) : Nat := (~~~(bs.foldl crcByte 0xFFFFFFFF#32)).toNat

/-- A tag block (R178). -/
structure Tag where
  mtag : Nat
  wtag : Nat
  around : Nat
  lepoch : Nat
  oip : Bool
  skipped : Bool
  repaired : Bool
  resetm : Bool
  skips : Nat
  mcrc : Nat
  wcrc : Nat
  ocrc : Nat
  tensor : Nat
  first : Nat
  /-- TCRC matches bytes 0 to 59 (R179). -/
  intact : Bool
  deriving DecidableEq, Repr

/-- Little-endian field of `n` bytes at offset `o` of a byte string. -/
def fieldAt (bs : List Byte) (o n : Nat) : Nat := leNat ((bs.drop o).take n)

/-- A tag block read; its reserved bytes and bits are ignored (R178, R179). -/
def Tag.ofBytes (bs : List Byte) : Tag :=
  let fl := fieldAt bs 14 1
  { mtag := fieldAt bs 0 4, wtag := fieldAt bs 4 4, around := fieldAt bs 8 4, lepoch := fieldAt bs 12 2
    oip := bit fl 0, skipped := bit fl 1, repaired := bit fl 2, resetm := bit fl 3
    skips := fieldAt bs 16 4, mcrc := fieldAt bs 20 4, wcrc := fieldAt bs 24 4, ocrc := fieldAt bs 28 4
    tensor := fieldAt bs 32 4, first := fieldAt bs 36 8, intact := crc32c (bs.take 60) == fieldAt bs 60 4 }

/-- The 64 bytes of a tag block, with a fresh TCRC (R178). -/
def Tag.bytes (t : Tag) : List Byte :=
  let b := leBytes 4 t.mtag ++ leBytes 4 t.wtag ++ leBytes 4 t.around ++ leBytes 2 t.lepoch ++
    leBytes 2 (b2n t.oip + 2 * b2n t.skipped + 4 * b2n t.repaired + 8 * b2n t.resetm) ++
    leBytes 4 t.skips ++ leBytes 4 t.mcrc ++ leBytes 4 t.wcrc ++ leBytes 4 t.ocrc ++ leBytes 4 t.tensor ++
    leBytes 8 t.first ++ List.replicate 16 0
  b ++ leBytes 4 (crc32c b)

/-! ### The optimizer groups (R171) -/

/-- A group with the step constants of one set. -/
structure Group where
  opt : Nat
  mrnd : Nat
  wrnd : Nat
  abst : Nat
  b1 : Word
  ob1 : Word
  b2 : Word
  ob2 : Word
  eps : Word
  wd : Word
  clip : Word
  omu : Word
  olr : Word
  lr : Word
  bc1 : Word
  bc2 : Word
  gs : Word
  deriving DecidableEq, Repr

/-- Group `g` of the table at `base`, with the constants of step `step` (R171, R172). -/
def readGroup (hbm : Memory) (base g step : Nat) : Group :=
  let a := base + 128 * g
  let w (o : Nat) : Word := BitVec.ofNat 32 (hbm.readNat (a + o) 4)
  let c := hbm.readNat a 4
  let k := 64 + 16 * (step % 2)
  { opt := bits c 0 4, mrnd := bits c 4 2, wrnd := bits c 6 2, abst := bits c 8 6
    b1 := w 4, ob1 := w 8, b2 := w 12, ob2 := w 16, eps := w 20, wd := w 24, clip := w 28, omu := w 32, olr := w 36
    lr := w k, bc1 := w (k + 4), bc2 := w (k + 8), gs := w (k + 12) }

/-! ### The record (R177) -/

/-- Numbers of `k` little-endian bytes each. -/
def unpack (k : Nat) : Nat → List Byte → List Nat
  | 0, _ => []
  | n + 1, bs => leNat (bs.take k) :: unpack k n (bs.drop k)

/-- A parameter record's parts as codes; `rtag` is the RTAG table of a slow-tier image (R196). -/
structure Rec where
  w : List Word
  m : List Nat
  v : List Nat
  wc : List Nat
  sc : List Nat
  anchor : List Nat
  mom : List Nat
  resid : List Nat
  tag : Tag
  rtag : List Nat
  deriving DecidableEq, Repr

/-- The record at an HBM address (R177). -/
def readRec (hbm : Memory) (a : Nat) (slt : Bool) : Rec :=
  let rd (o n : Nat) : List Byte := hbm.read (a + o) n
  { w := (unpack 4 4096 (rd 0 16384)).map (BitVec.ofNat 32 ·), m := unpack 2 4096 (rd 0x4000 8192)
    v := unpack 2 4096 (rd 0x6000 8192), wc := unpack 1 4096 (rd 0x8000 4096), sc := unpack 1 128 (rd 0x9000 128)
    anchor := unpack 2 4096 (rd 0x9080 8192), mom := unpack 2 4096 (rd 0xB080 8192)
    resid := unpack 2 4096 (rd 0xD080 8192), tag := Tag.ofBytes (rd 0xF080 64)
    rtag := if slt then unpack 4 64 (rd 0xF0C0 256) else [] }

/-- Bytes of a list of numbers of `k` bytes each. -/
def pack (k : Nat) (l : List Nat) : List Byte := l.flatMap (leBytes k)

/-- The bytes MCRC covers: the m part, the v part, then RTAG of a slow-tier slice (R178, R197). -/
def Rec.moments (r : Rec) : List Byte := pack 2 r.m ++ pack 2 r.v ++ pack 4 r.rtag

/-- The bytes WCRC covers: master, working copy and codes (R178). -/
def Rec.weights (r : Rec) : List Byte := pack 4 (r.w.map (·.toNat)) ++ pack 1 r.wc ++ pack 1 r.sc

/-- The bytes OCRC covers: anchor and outer momentum (R178). -/
def Rec.outerBytes (r : Rec) : List Byte := pack 2 r.anchor ++ pack 2 r.mom

/-! ### Arithmetic (R173) -/

/-- A BF16 code as FP32: exact. -/
def bf (c : Nat) : Word := BitVec.ofNat 32 (c * 65536)

/-- rnd_m (R173): FP32 to BF16 by MRND with SAT. -/
def rndM (mrnd step tensor idx : Nat) (x : Word) : Conv :=
  bf16.convert (Round.ofCode mrnd (BitVec.ofNat 32 step) (BitVec.ofNat 32 tensor) idx) false false (Val.ofFp32 x)

/-- Counts of a conversion in `CUF_EVC_CONV` (R174). -/
def Conv.counts (c : Conv) : Nat := b2n c.ovf + b2n c.unf + b2n c.nonfin

/-- min(max(x, -c), c); a NaN stays (log 21). -/
def clip (x c : Word) : Word :=
  if (Val.ofFp32 x).isNan then x else if flt x (fneg c) then fneg c else if flt c x then c else x

/-- sign (R173): both zeros give +0. -/
def fsign (x : Word) : Word :=
  let v := Val.ofFp32 x
  if v.isNan then x else if v.isZero then 0 else if v.isNeg then 0xBF800000#32 else 0x3F800000#32

/-- What an update of a slice takes: its group, step, identifiers, and for each piece it updates the slot's sums, the
factor f of R167 and, for the slow tier, what its pending accumulator holds (R209). -/
structure UpdateIn where
  g : Group
  step : Nat
  tensor : Nat
  first : Nat
  pieces : List Nat
  sums : Nat → List Word
  factor : Nat → Word
  pending : Nat → Option (List Word)

/-- g of element `l` of piece `q` (R173, R209). -/
def UpdateIn.grad (u : UpdateIn) (q l : Nat) : Word :=
  let x := fmul (fmul ((u.sums q).getD l 0) (u.factor q)) u.g.gs
  clip (match u.pending q with | some p => fadd (p.getD l 0) x | none => x) u.g.clip

/-- pow(b, k) of R211; `fuel` bounds the bits of `k`. -/
def fpow : Nat → Word → Nat → Word → Word
  | 0, _, _, r => r
  | n + 1, p, k, r => if k = 0 then r else fpow n (fmul p p) (k / 2) (if k % 2 = 1 then fmul r p else r)

/-- The flat index of element `e` of the slice. -/
def UpdateIn.index (u : UpdateIn) (e : Nat) : Nat := u.first + e

/-- Lazy decay (R211) of the stored moments of element `e`, `k` steps untouched. -/
def UpdateIn.decayed (u : UpdateIn) (k e m0 v0 : Nat) : Nat × Nat × Nat :=
  if k = 0 then (m0, v0, 0)
  else
    let m := rndM u.g.mrnd u.step (u.tensor + 1) (u.index e) (fmul (fpow 32 u.g.b1 k 0x3F800000#32) (bf m0))
    let v := rndM u.g.mrnd u.step (u.tensor + 2) (u.index e) (fmul (fpow 32 u.g.b2 k 0x3F800000#32) (bf v0))
    if u.g.opt = 0 then (m.code, v.code, m.counts + v.counts) else (m.code, v0, m.counts)

/-- The new moments of an element from its stored ones and g, for OPT 0 to 3 (R173), with the conversions' counts. -/
def UpdateIn.moment (u : UpdateIn) (e : Nat) (gr : Word) (m0 v0 : Nat) : Nat × Nat × Nat :=
  let rm (x : Word) : Conv := rndM u.g.mrnd u.step (u.tensor + 1) (u.index e) x
  if u.g.opt = 0 then
    let m := rm (ffma u.g.b1 (bf m0) (fmul u.g.ob1 gr))
    let v := rndM u.g.mrnd u.step (u.tensor + 2) (u.index e) (ffma u.g.b2 (bf v0) (fmul (fmul u.g.ob2 gr) gr))
    (m.code, v.code, m.counts + v.counts)
  else if u.g.opt = 1 then
    let m := rm (ffma u.g.b1 (bf m0) gr)
    (m.code, v0, m.counts)
  else
    let m := rm (ffma u.g.b1 (bf m0) (fmul u.g.ob1 gr))
    (m.code, v0, m.counts)

/-- u of an element from its new moments (R173); `vh` is OPT 3's. -/
def Group.term (g : Group) (m1 v1 : Nat) (vh : Word) : Word :=
  if g.opt = 0 then fdiv (fmul (bf m1) g.bc1) (fadd (fsqrt (fmul (bf v1) g.bc2)) g.eps)
  else if g.opt = 1 then bf m1
  else if g.opt = 2 then fsign (bf m1)
  else fdiv (fmul (bf m1) g.bc1) (fadd (fsqrt vh) g.eps)

/-- w1 (R173). -/
def Group.master (g : Group) (w0 u : Word) : Word := ffma (fneg g.lr) (ffma g.wd w0 u) w0

/-- The sum of a list in order, from +0. -/
def fsum (l : List Word) : Word := l.foldl fadd 0

/-- The words of a list of 16-bit codes, as OPT 3 stores r and c (R177). -/
def rcWords (v : List Nat) : List Word :=
  (List.range 128).map fun i => BitVec.ofNat 32 (v.getD (2 * i) 0 + 65536 * v.getD (2 * i + 1) 0)

/-- 16-bit codes of words. -/
def rcCodes (l : List Word) : List Nat := l.flatMap fun x => [x.toNat % 65536, x.toNat / 65536]

/-- OPT 3's new r and c of the pieces below `n` from the gradients (R173). -/
def factored (g : Group) (n : Nat) (rc : List Word) (gr : Nat → Nat → Word) : List Word × List Word :=
  let sq (p q : Nat) : Word := fmul (gr p q) (gr p q)
  let r1 := (List.range n).map fun p =>
    ffma g.b2 (rc.getD p 0) (fmul g.ob2 (fmul (fsum ((List.range 64).map (sq p))) 0x3C800000#32))
  let c1 := (List.range 64).map fun q =>
    ffma g.b2 (rc.getD (64 + q) 0) (fmul g.ob2 (fdiv (fsum ((List.range n).map fun p => sq p q)) (fofNat n)))
  (r1, c1)

/-- vh of OPT 3 (R173). -/
def vHat (g : Group) (n : Nat) (r1 c1 : List Word) (p q : Nat) : Word :=
  let rm := fdiv (fsum (r1.take n)) (fofNat n)
  if rm = 0 then 0 else fmul (fdiv (fmul (r1.getD p 0) (c1.getD q 0)) rm) g.bc2

/-- The working copy of a list of masters of whole blocks from element `e0` (R40, R41, R173): codes, block codes, counts. -/
def workingCopy (g : Group) (step tensor first e0 : Nat) (ws : List Word) : List Nat × List Nat × Nat :=
  let bl := chunks 32 ws.length ((List.range ws.length).map fun i =>
    (Val.ofFp32 (ws.getD i 0),
     Round.ofCode g.wrnd (BitVec.ofNat 32 step) (BitVec.ofNat 32 (tensor + 3)) (first + e0 + i)))
  let bs := bl.map (writeBlock .f8v false)
  (bs.flatMap (·.codes), bs.map (·.sc), sumNat (bs.map fun b => b.ovf + b.unf + b.nonfin))

/-- Segment `q` of `n` elements of a list replaced. -/
def splice {α : Type} (l : List α) (q n : Nat) (x : List α) : List α := l.take (q * n) ++ x ++ l.drop (q * n + n)

/-- A record after an update or apply, whether every value that must be finite is, and the conversions counted. -/
structure Updated where
  r : Rec
  finite : Bool
  conv : Nat

/-- The masters, working copies and codes of one piece rewritten. -/
def Rec.setWeights (r : Rec) (g : Group) (step tensor first q : Nat) (ws : List Word) : Rec × Nat :=
  let c := workingCopy g step tensor first (64 * q) ws
  ({ r with w := splice r.w q 64 ws, wc := splice r.wc q 64 c.1, sc := splice r.sc q 2 c.2.1 }, c.2.2)

/-- One piece of an inner update of OPT 0, 1 or 2 (R173, R211). -/
def updatePiece (u : UpdateIn) (slt : Bool) (acc : Updated) (q : Nat) : Updated :=
  let r := acc.r
  let k := if slt then u.step - 1 - r.rtag.getD q 0 else 0
  let el : List (Word × Nat × Nat × Word × Nat) := (List.range 64).map fun l =>
    let e := 64 * q + l
    let d := u.decayed k e (r.m.getD e 0) (r.v.getD e 0)
    let gr := u.grad q l
    let mv := u.moment e gr d.1 d.2.1
    let w1 := u.g.master (r.w.getD e 0) (u.g.term mv.1 mv.2.1 0)
    (gr, mv.1, mv.2.1, w1, d.2.2 + mv.2.2)
  let ws := el.map (·.2.2.2.1)
  let r1 : Rec := { r with
    m := splice r.m q 64 (el.map (·.2.1))
    v := splice r.v q 64 (el.map (·.2.2.1))
    rtag := if slt then splice r.rtag q 1 [u.step] else r.rtag }
  let x := r1.setWeights u.g u.step u.tensor u.first q ws
  { r := x.1, conv := acc.conv + sumNat (el.map (·.2.2.2.2)) + x.2
    finite := acc.finite && el.all fun t => ffinite t.1 && ffinite (bf t.2.1) && ffinite (bf t.2.2.1) && ffinite t.2.2.2.1 }

/-- One piece of an inner update of OPT 3, after r1 and c1 are known. -/
def updatePiece3 (u : UpdateIn) (n : Nat) (r1 c1 : List Word) (acc : Updated) (q : Nat) : Updated :=
  let r := acc.r
  let el : List (Word × Nat × Word × Nat) := (List.range 64).map fun l =>
    let e := 64 * q + l
    let gr := u.grad q l
    let mv := u.moment e gr (r.m.getD e 0) 0
    let w1 := u.g.master (r.w.getD e 0) (u.g.term mv.1 0 (vHat u.g n r1 c1 q l))
    (gr, mv.1, w1, mv.2.2)
  let r1 : Rec := { r with m := splice r.m q 64 (el.map (·.2.1)) }
  let x := r1.setWeights u.g u.step u.tensor u.first q (el.map (·.2.2.1))
  { r := x.1, conv := acc.conv + sumNat (el.map (·.2.2.2)) + x.2
    finite := acc.finite && el.all fun t => ffinite t.1 && ffinite (bf t.2.1) && ffinite t.2.2.1 }

/-- An inner update of a record (R173, R211): only the pieces of `u`. -/
def updateRec (u : UpdateIn) (slt : Bool) (r : Rec) : Updated :=
  let start : Updated := { r := r, finite := true, conv := 0 }
  if u.g.opt = 3 then
    let n := u.pieces.length
    let rc := rcWords r.v
    let f := factored u.g n rc u.grad
    let rc' := f.1 ++ (rc.take 64).drop n ++ f.2
    let out := u.pieces.foldl (updatePiece3 u n f.1 f.2) start
    { out with r := { out.r with v := rcCodes rc' ++ r.v.drop 256 }
               finite := out.finite && f.1.all ffinite && f.2.all ffinite }
  else u.pieces.foldl (updatePiece u slt) start

/-- The master of a roll-forward (R187, R188): from the stored moments and the master; for the slow tier only the pieces
with RTAG = s (R212). -/
def rollForward (u : UpdateIn) (r : Rec) : Updated :=
  let n := u.pieces.length
  let rc := rcWords r.v
  u.pieces.foldl (fun acc q =>
    let ws := (List.range 64).map fun l =>
      let e := 64 * q + l
      u.g.master (acc.r.w.getD e 0)
        (u.g.term (r.m.getD e 0) (r.v.getD e 0) (vHat u.g n (rc.take n) (rc.drop 64) q l))
    let x := acc.r.setWeights u.g u.step u.tensor u.first q ws
    { r := x.1, finite := acc.finite, conv := acc.conv + x.2 }) { r := r, finite := true, conv := 0 }

/-- The part of an outer apply that follows u1 (R184): w1 from the stored or new momentum, D and K. -/
def outerMaster (g : Group) (u1 : Nat) (d k w0 : Word) : Word :=
  ffma (fneg g.olr) (ffma g.omu (bf u1) d) (fadd w0 k)

/-- An outer apply of D and K to a record (R184). -/
def applyRec (u : UpdateIn) (d k : List Word) (r : Rec) : Updated :=
  u.pieces.foldl (fun acc q =>
    let el : List (Nat × Nat × Word × Word × Nat) := (List.range 64).map fun l =>
      let e := 64 * q + l
      let de := d.getD e 0
      let m := rndM u.g.mrnd u.step (u.tensor + 5) (u.index e) (ffma u.g.omu (bf (r.mom.getD e 0)) de)
      let sn := ffma u.g.omu (bf m.code) de
      let a := rndM u.g.mrnd u.step (u.tensor + 4) (u.index e) (ffma (fneg u.g.olr) sn (bf (r.anchor.getD e 0)))
      let w1 := outerMaster u.g m.code de (k.getD e 0) (r.w.getD e 0)
      (m.code, a.code, w1, sn, m.counts + a.counts)
    let r1 : Rec := { acc.r with
      mom := splice acc.r.mom q 64 (el.map (·.1))
      anchor := splice acc.r.anchor q 64 (el.map (·.2.1)) }
    let x := r1.setWeights u.g u.step u.tensor u.first q (el.map (·.2.2.1))
    { r := x.1, conv := acc.conv + sumNat (el.map (·.2.2.2.2)) + x.2
      finite := acc.finite && el.all fun t => ffinite t.2.2.2.1 && ffinite (bf t.2.1) && ffinite t.2.2.1 })
    { r := r, finite := true, conv := 0 }

/-- An outer roll-forward (R187): the stored u1, Brim's D and K. -/
def outerForward (u : UpdateIn) (d k : List Word) (r : Rec) : Updated :=
  u.pieces.foldl (fun acc q =>
    let ws := (List.range 64).map fun l =>
      let e := 64 * q + l
      outerMaster u.g (r.mom.getD e 0) (d.getD e 0) (k.getD e 0) (r.w.getD e 0)
    let x := acc.r.setWeights u.g u.step u.tensor u.first q ws
    { r := x.1, finite := acc.finite, conv := acc.conv + x.2 }) { r := r, finite := true, conv := 0 }

/-! ### Tags written (R177, R178) -/

/-- The slice's identity and epoch in a tag. -/
def Tag.named (t : Tag) (e : SliceEntry) (epoch : Nat) : Tag :=
  { t with lepoch := epoch, tensor := e.tensor, first := e.first }

/-- The tag of a skip of step `s` (R177). -/
def Tag.skip (t : Tag) (e : SliceEntry) (epoch s : Nat) : Tag :=
  { t.named e epoch with mtag := s, wtag := s, skips := (t.skips + 1) % 2 ^ 32, skipped := true }

/-- The moment tag of an update of step `s` (R178, R180). -/
def Tag.moment (t : Tag) (e : SliceEntry) (epoch s mcrc : Nat) : Tag :=
  { t.named e epoch with mtag := s, mcrc := mcrc, oip := false, skipped := false }

/-- The weight tag after it. -/
def Tag.weight (t : Tag) (e : SliceEntry) (epoch s wcrc : Nat) : Tag :=
  { t.named e epoch with wtag := s, wcrc := wcrc, oip := false, skipped := false }

/-- The first tag of an outer apply of round `r` (R185). -/
def Tag.opened (t : Tag) (e : SliceEntry) (epoch r ocrc : Nat) : Tag :=
  { t.named e epoch with around := r, ocrc := ocrc, oip := true }

/-- The closing tag of an outer apply (R185). -/
def Tag.closed (t : Tag) (e : SliceEntry) (epoch wcrc : Nat) : Tag :=
  { t.named e epoch with wcrc := wcrc, oip := false }

/-- Where a part of the record begins. -/
def recM : Nat := 0x4000
/-- Working copy and codes. -/
def recWc : Nat := 0x8000
/-- Anchor and outer momentum. -/
def recOuter : Nat := 0x9080
/-- Error-feedback residual. -/
def recResid : Nat := 0xD080
/-- Tag block. -/
def recTag : Nat := 0xF080
/-- RTAG table of a slow-tier image (R196). -/
def recRtag : Nat := 0xF0C0

/-- A run of writes of 1,024 bytes a cycle from offset `off` (R170). -/
def burst (off a : Nat) (bs : List Byte) : List (Nat × Nat × List Byte) :=
  (List.range ((bs.length + 1023) / 1024)).map fun i => (off + i, a + 1024 * i, (bs.drop (1024 * i)).take 1024)

end Sys2Proof.Machine
end

