-- ==== Sys2Proof/Machine/Slow.lean ====
section
/-! DEFINITION. The slow tier (06_slow_tier): row cache, touch lists and the residency plan, miss buffer, deferral,
write-back, and the completion of programs and erases. -/

namespace Sys2Proof.Machine

/-! ### The row cache (R200) -/

/-- A line of the row cache as its directory entry gives it (R200). -/
structure CacheLine where
  num : Nat
  valid : Bool
  dirty : Bool
  used : Nat
  gen : Nat
  deriving DecidableEq, Repr

/-- Lines of the row cache. -/
def State.cacheLines (s : State) : Nat := s.reg Reg.sltCacheLines

/-- HBM address of a line; the read-through lines follow the cache lines (R200). -/
def State.lineAddr (s : State) (l : Nat) : Nat := Regs.pair s.regs Reg.sltCacheBaseLo + 65536 * l

/-- HBM address of line `l`'s directory entry. -/
def State.dirAddr (s : State) (l : Nat) : Nat := s.lineAddr (s.cacheLines + 64) + 16 * l

/-- Line `l`'s directory entry. -/
def State.cacheLine (s : State) (l : Nat) : CacheLine :=
  let v := s.hbm.readNat (s.dirAddr l) 16
  { num := bits v 0 30, valid := bit v 30, dirty := bit v 31, used := bits v 32 32, gen := bits v 64 64 }

/-- The state with line `l`'s directory entry written. -/
def State.putLine (s : State) (l : Nat) (c : CacheLine) : State :=
  { s with
    hbm := s.hbm.writeNat (s.dirAddr l) 16 (c.num % 2 ^ 30 + 2 ^ 30 * b2n c.valid + 2 ^ 31 * b2n c.dirty + 2 ^ 32 * (c.used % 2 ^ 32) + 2 ^ 64 * (c.gen % 2 ^ 64)) }

/-- Lines whose directory entry is not all zero. -/
def State.listedLines (s : State) : List Nat :=
  let b := s.dirAddr 0
  ((s.hbm.filter fun c => decide (b ≤ c.1) && decide (c.1 < b + 16 * s.cacheLines)).map fun c => (c.1 - b) / 16).eraseDups

/-- The valid line that holds a slice. -/
def State.lineOfNum (s : State) (num : Nat) : Option Nat :=
  s.listedLines.find? fun l => (s.cacheLine l).valid && (s.cacheLine l).num == num

/-- The lowest line that no directory entry makes valid. -/
def freeLine (s : State) (n : Nat) : Option Nat :=
  (List.range (min n (s.listedLines.length + 1))).find? fun l => !(s.cacheLine l).valid

/-- The line R201 takes for step `st`: an invalid one first, then the smallest USED below `st`, then the lowest. -/
def State.chooseLine (s : State) (st : Nat) : Option Nat :=
  match freeLine s s.cacheLines with
  | some l => some l
  | none =>
    s.listedLines.foldl (fun best l =>
      let u := (s.cacheLine l).used
      if st ≤ u then best
      else match best with
        | none => some l
        | some b => if u < (s.cacheLine b).used then some l else some b) none

/-- The trailer of an image (R196), with fresh CRCs, over the bytes before it. -/
def trailer (num gen tensor first : Nat) (body : List Byte) : List Byte :=
  let t := leBytes 4 num ++ List.replicate 4 0 ++ leBytes 8 gen ++ leBytes 4 tensor ++ leBytes 8 first ++
    leBytes 4 (crc32c body) ++ List.replicate 28 0
  t ++ leBytes 4 (crc32c t)

/-- A fresh image of a line under a new GEN (R196, R220). -/
def freshImage (line : List Byte) (num gen : Nat) : List Byte :=
  let body := line.take 0xFFC0
  let t := Tag.ofBytes ((line.drop recTag).take 64)
  body ++ trailer num gen t.tensor t.first body

/-- A program of an image that would be numbered `gen`, begun now. -/
def State.startProgram (s : State) (num line : Nat) (body : List Byte) (above : Option Nat) : State :=
  let g := num % 8
  let gen := s.slt.gens.get 0 g + 1
  { s with slt := { s.slt with
      programs := s.slt.programs ++ [⟨num, line, gen, freshImage body num gen, s.now, above⟩], gens := s.slt.gens.set g gen } }

/-- A line starts to be written back (R220): a fresh image with GEN one above its group's last. -/
def State.writeBack (s : State) (l num : Nat) : State :=
  s.startProgram num l (s.hbm.read (s.lineAddr l) 65536) none

/-! ### The request tracker (R431) -/

/-- Tracker entries that host requests hold (R431). -/
def State.trackerHost (s : State) : Nat := sumNat (s.host.qps.map fun q => q.2.reqs.length)

/-- Entries of the slow tier: fetches under way and write-backs (R431). -/
def State.trackerSlow (s : State) : Nat := (s.slt.fetches.filter (·.issued)).length + s.slt.programs.length

/-- Entries of the partner ports: class D windows awaiting completion (R431). -/
def State.trackerPartner (s : State) : Nat := sumNat (s.pports.map fun p => sumNat (p.2.arriving.map fun o => o.2.wins.length))

/-- A request of a user that holds `used` entries finds its share and the pool full (R431). -/
def State.trackerFull (s : State) (share used : Nat) : Bool :=
  decide (share ≤ used) &&
    decide (32768 ≤ (s.trackerHost - 65536) + (s.trackerSlow - 32768) + (s.trackerPartner - 65536))

/-- A fetch waits for no write-back of its line or of its slice (R201, R220). -/
def SlowTier.mayFetch (t : SlowTier) (num l : Nat) : Bool := !t.programs.any fun g => g.line == l || g.num == num

/-- The slow tier finds no tracker entry (R431). -/
def State.slowTrackerFull (s : State) : Bool := s.trackerFull 32768 s.trackerSlow

/-- A fetch of a slice into a line, issued as soon as it may be (R201, R203); one that waits for a tracker entry is counted
(R431). -/
def State.startFetch (s : State) (num l : Nat) (reader : Option (Nat × Nat)) : State :=
  let s := s.countN Reg.hptEvcTrkwait (b2n s.slowTrackerFull)
  { s with slt := { s.slt with fetches := s.slt.fetches ++
      [⟨num, l, s.now, s.slt.mayFetch num l && !s.slowTrackerFull, reader⟩] } }

/-- A line is assigned to a slice for step `st` and its fetch issued; a dirty one is written back first (R201). A fetch
for the slice that held it is dropped, and forward reads that waited for that go to read-through lines. -/
def State.assignLine (s : State) (l num st : Nat) : State :=
  let c := s.cacheLine l
  let late := s.slt.fetches.any fun f => f.line == l
  let s := if c.valid && c.dirty then s.writeBack l c.num else s
  let s := { s with slt := { s.slt with
    dirtied := s.slt.dirtied.erase l
    fetches := s.slt.fetches.filter fun f => f.line != l
    reads := s.slt.reads.map fun (r : SltRead) => if late && r.num == c.num then { r with through := true } else r } }
  (s.putLine l { num, valid := true, dirty := false, used := st, gen := 0 }).startFetch num l none

/-! ### Flash images (R196, R216, R218) -/

/-- An image's 16 data units of 4,096 bytes under a cipher; the tweak of unit j is NUM × 16 + j (R218). -/
def xtsUnits (f : Nat → List Byte → List Byte) (num : Nat) (bs : List Byte) : List Byte :=
  (List.range 16).flatMap fun j => f (16 * num + j) ((bs.drop (4096 * j)).take 4096)

/-- What flash holds of an image (R218). -/
def FlashImage.stored (f : FlashImage) (num : Nat) : List Byte := xtsUnits (Config.xtsEncrypt f.key) num f.bytes

/-- What decryption under a key makes of an image (R218). -/
def FlashImage.opened (f : FlashImage) (key : List Byte) (num : Nat) : List Byte :=
  if f.key = key then f.bytes else xtsUnits (Config.xtsDecrypt key) num (f.stored num)

/-- An image read as R216 accepts it: CRCs and NUM right; one read under the wrong key fails its ICRC (R218). -/
def readable (f : FlashImage) (key : List Byte) (num : Nat) : Bool :=
  let b := f.opened key num
  let t := b.drop 0xFFC0
  f.key == key && b.length == 65536 && fieldAt t 0 4 == num && fieldAt t 28 4 == crc32c (b.take 0xFFC0) &&
    fieldAt t 60 4 == crc32c (t.take 60)

/-- The channels of a group are in service (R216). -/
def State.groupWorks (s : State) (g : Nat) : Bool := (List.range 4).all fun i => s.fld (Reg.sltChStatus (4 * g + i)) 2 1 == 0

/-- A slice's image, if it can be read (R216, R218). -/
def State.flashImage (s : State) (num : Nat) : Option FlashImage :=
  match s.slt.flash.get? num with
  | some f => if s.groupWorks (num % 8) && readable f s.cph.xts num then some f else none
  | none => none

/-- An unreadable image: counted and reported (R216, R484). -/
def State.unreadable (s : State) (num : Nat) : State :=
  (s.count Reg.sltEvcUncorr).fault 0x1F4 0x04 0 num (num % 8)

/-! ### The touch list and the plan -/

/-- A bit count of 64 bits. -/
def popcount (m : Nat) : Nat := ((List.range 64).filter (bit m)).length

/-- The pieces of a mask, ascending. -/
def maskPieces (m : Nat) : List Nat := (List.range 64).filter (bit m)

/-- The entries of the touch list at an HBM address: number, mask, reserved bits (R198). -/
def touchList (hbm : Memory) (a : Nat) : List (Nat × Nat × Bool) :=
  (List.range (hbm.readNat a 4)).map fun i =>
    let v := hbm.readNat (a + 16 + 16 * i) 16
    (bits v 0 30, bits v 64 64, bits v 30 34 != 0)

/-- Numbers strictly ascending. -/
def ascending : List Nat → Bool
  | a :: b :: r => decide (a < b) && ascending (b :: r)
  | _ => true

/-- Deferred slices of a step's plan, ascending, with the pieces that hold a pending entry (R201, R209, R210). -/
def deferredOf (plan : Tbl SltSlice) : List (Nat × Nat) :=
  (plan.filter fun e => e.2.how == .deferred && e.2.room != 0).map fun e => (e.1, e.2.room)

/-- The order of R201: deferred slices of the step before with their masks joined, then the rest of the list. -/
def planOrder (deferred list : List (Nat × Nat)) : List (Nat × Nat) :=
  let head := deferred.map fun d => (d.1, d.2 ||| Tbl.get 0 list d.1)
  head ++ list.filter fun e => !(deferred.any fun d => d.1 == e.1)

/-- One slice of the plan (R201): resident in a line, or uncached. -/
def planSlice (st : Nat) (acc : State × List (Nat × Nat × Bool)) (x : Nat × Nat) : State × List (Nat × Nat × Bool) :=
  let s := acc.1
  match s.lineOfNum x.1 with
  | some l => (s.putLine l { s.cacheLine l with used := st }, acc.2 ++ [(x.1, x.2, true)])
  | none =>
    match s.chooseLine st with
    | some l => (s.assignLine l x.1 st, acc.2 ++ [(x.1, x.2, true)])
    | none => (s, acc.2 ++ [(x.1, x.2, false)])

/-- The miss buffer's allocation in plan order (R207): per partition, until the next slice would not fit; from there on
the partition's uncached slices are deferred. -/
def allocate : List (Nat × Nat × Bool) → Tbl Nat → List Nat → List (Nat × SltSlice)
  | [], _, _ => []
  | (num, mask, res) :: rest, used, full =>
    let p := num % 8
    if res then (num, { mask, how := .resident }) :: allocate rest used full
    else if full.contains p || decide (4096 < Tbl.get 0 used p + popcount mask) then
      (num, { mask, how := .deferred }) :: allocate rest used (p :: full)
    else (num, { mask, how := .miss }) :: allocate rest (used.set p (Tbl.get 0 used p + popcount mask)) full

/-- The key of a step's miss entries of a slice. -/
def missOf (st num : Nat) : Nat := st * 2 ^ 30 + num

/-- The key of the miss entry of a slice's piece. -/
def missKey (st num q : Nat) : Nat := 64 * missOf st num + q

/-- Miss-buffer entries in use in partition `p` (R207). -/
def missUsed (t : SlowTier) (p : Nat) : Nat :=
  min 4096 (sumNat ((t.missTaken.filter fun e => e.1 % 8 == p).map (·.2)))

/-- Pending entries in use in partition `p` (R209). -/
def pendUsed (t : SlowTier) (p : Nat) : Nat := min 8192 (t.pending.filter fun e => e.1 / 64 % 8 == p).length

/-- The pieces of a deferred slice that get a pending entry in plan order (R209, R210): a piece that has one keeps it, one
without takes the next free one, and with none free it has none, so that its contribution will drop. -/
def roomFor (held : Nat) : List Nat → Nat → Nat × Nat
  | [], used => (0, used)
  | q :: qs, used =>
    if bit held q then let r := roomFor held qs used; (r.1 + 2 ^ q, r.2)
    else if used < 8192 then let r := roomFor held qs (used + 1); (r.1 + 2 ^ q, r.2)
    else roomFor held qs used

/-- The deferred slices of a plan with their pending entries; the entries in use are those that the step before deferred,
whatever has been freed since (R202). -/
def reserveAll (deferred : List (Nat × Nat)) : List (Nat × SltSlice) → Tbl Nat → List (Nat × SltSlice)
  | [], _ => []
  | (num, x) :: rest, used =>
    if x.how ≠ .deferred then (num, x) :: reserveAll deferred rest used
    else
      let r := roomFor (Tbl.get 0 deferred num) (maskPieces x.mask) (Tbl.get 0 used (num % 8))
      (num, { x with room := r.1 }) :: reserveAll deferred rest (used.set (num % 8) r.2)

/-- The pending entries after a plan of step `st`: those of its deferred slices stand for it. -/
def pendAfter (st : Nat) (plan : List (Nat × SltSlice)) (pend : Tbl (Nat × List Word)) : Tbl (Nat × List Word) :=
  plan.foldl (fun t e => (maskPieces e.2.room).foldl (fun t q =>
    let k := 64 * e.1 + q
    Tbl.set t k (st, (Tbl.get (0, []) t k).2)) t) pend

/-- A read-through line that is free (R200). -/
def State.freeThrough (s : State) : Option Nat :=
  ((List.range 64).find? fun i => (s.slt.through.get? (s.cacheLines + i)).isNone).map (s.cacheLines + ·)

/-- A forward read's fetch into a read-through line, counted (R203); the read waits since cycle `since`. -/
def State.readThrough (s : State) (num core l since : Nat) : State :=
  let t := { s.slt with through := s.slt.through.set l num }
  ({ s with slt := t }.startFetch num l (some (core, since))).count Reg.sltEvcRthru

/-- Forward reads that wait for a read-through line take the free ones in order (R203). -/
def State.startReads (s : State) : State :=
  (s.slt.reads.filter (·.through)).foldl (fun (s : State) (r : SltRead) =>
    match s.freeThrough with
    | some l => { s with slt := { s.slt with reads := s.slt.reads.erase r } }.readThrough r.num r.core l r.since
    | none => s) s

/-- A post of step `st`'s touch list (R198, R199, R201, R207): refused, or planned, with cue 240 (R244). The plan depends on
the lists and the registers alone (R202): every step's misses have the whole miss buffer, and its deferred slices the
pending entries that the step before did not defer (DEDUCED, log 117). -/
def State.planList (s : State) (st : Nat) : State :=
  let list := touchList s.hbm (Regs.pair s.regs Reg.sltTlistLo)
  let step := s.reg Reg.seqStep
  if s.fld Reg.sltCfg 0 1 = 0 ∨ (st ≠ step ∧ st ≠ (step + 1) % 2 ^ 32) then s.count Reg.sltEvcViol
  else if !ascending (list.map (·.1)) || list.any fun e => e.2.1 == 0 then s.count Reg.sltEvcViol
  else
    let resv := b2n (list.any (·.2.2))
    let named := list.map fun e => (e.1, e.2.1)
    let deferred := deferredOf (Tbl.get [] s.slt.plans (st - 1))
    let r := (planOrder deferred named).foldl (planSlice st) (s, [])
    let used := (List.range 8).map fun p => (p, sumNat ((deferred.filter fun d => d.1 % 8 == p).map fun d => popcount d.2))
    let plan := (reserveAll deferred (allocate r.2 [] []) used).map fun e =>
      (e.1, { e.2 with waits := !(named.any fun x => x.1 == e.1) })
    let table : Tbl SltSlice := plan.foldl (fun t e => Tbl.set t e.1 e.2) []
    let s := r.1.setCue 240 st r.1.now
    { s with
      slt := { s.slt with
        plans := Tbl.set (s.slt.plans.filter fun q => decide (step ≤ q.1 + 1)) st table
        missTaken := plan.foldl (fun (t : Tbl Nat) (e : Nat × SltSlice) => if e.2.how = Residency.miss then Tbl.set t (missOf st e.1) (popcount e.2.mask) else t) s.slt.missTaken
        pending := pendAfter st plan s.slt.pending }
      regs := Regs.count s.regs Reg.sltEvcViol resv }.startReads

/-- The residency of a slice in a step's plan. -/
def State.residency (s : State) (st num : Nat) : Option SltSlice := Tbl.get? (Tbl.get [] s.slt.plans st) num

/-- The line, landed, that a slow-tier slice's record can be reached in: a cache line, or a read-through line that its
update holds. -/
def State.landedLine (s : State) (num : Nat) : Option Nat :=
  let own (f : SltFetch) : Bool := f.num == num && f.reader.isNone
  let reading (l : Nat) : Bool := s.slt.fetches.any fun f => f.line == l && f.reader.isSome
  let l := match s.lineOfNum num with
    | some l => some l
    | none => (s.slt.through.find? fun t => t.2 == num && !reading t.1).map (·.1)
  match l with
  | some l => if s.slt.fetches.any own then none else some l
  | none => none

/-- A line, or a fetch, serves a slice's update already. -/
def State.lineHeld (s : State) (num : Nat) : Bool :=
  (s.lineOfNum num).isSome || (s.slt.fetches.any fun f => f.num == num && f.reader.isNone) || (s.landedLine num).isSome

/-- A slice is fetched for its update or apply (R208, R212): into a line of R201's choice, else a read-through line; with
none free, or with the slow tier off (R224), it waits. -/
def State.fetchSlice (s : State) (st num : Nat) : State :=
  if s.lineHeld num then s
  else if s.fld Reg.sltCfg 0 1 = 0 then s.count Reg.sltEvcWait
  else match s.chooseLine st with
    | some l => s.assignLine l num st
    | none =>
      match s.freeThrough with
      | some l => { s with slt := { s.slt with through := s.slt.through.set l num } }.startFetch num l none
      | none => s.count Reg.sltEvcWait

/-- The queued Cuff entries whose slice holds no line are fetched where one can be had (R208, R212). -/
def State.retryFetches (s : State) : State :=
  let want := s.part.flatMap fun p => p.2.queue.filter fun e => e.slice.slt
  want.foldl (fun s e =>
    let room := s.fld Reg.sltCfg 0 1 == 1 && ((s.chooseLine e.step).isSome || s.freeThrough.isSome)
    if room then s.fetchSlice e.step e.slice.record else s) s

/-! ### Forward reads (R203) -/

/-- A slice's working copy and codes are handed to a core (R196, R203). -/
def State.deliverCopy (s : State) (core num : Nat) (copy : List Byte) : State :=
  let c : Core := s.seq.cores.get {} core
  { s with seq := { s.seq with cores := s.seq.cores.set core { c with copies := c.copies.set num copy } } }

/-- The working copy and codes in a line (R196, R203). -/
def State.lineCopy (s : State) (l : Nat) : List Byte := s.hbm.read (s.lineAddr l + recWc) 4224

/-- A forward read of a slice in step `st` (R203): from its line once that has landed, else, for an uncached slice, through
a read-through line. -/
def State.forwardRead (core st : Nat) (s : State) (num : Nat) : State :=
  let wait (through : Bool) : State :=
    let r : SltRead := { num, core, since := s.now, through }
    { s with slt := { s.slt with reads := s.slt.reads ++ [r] } }.count Reg.sltEvcWait
  match s.residency st num with
  | some ⟨_, .resident, _, _⟩ =>
    match s.landedLine num with
    | some l => s.deliverCopy core num (s.lineCopy l)
    | none => wait !((s.lineOfNum num).isSome)
  | some _ =>
    match s.freeThrough with
    | some l => s.readThrough num core l s.now
    | none => wait true
  | none => s

/-- The forward reads of the routine that a START begins in step `st` (log 98). -/
def State.routineReads (s : State) (core entry arg st : Nat) : State :=
  List.foldl (State.forwardRead core st) s (Config.routineReads entry arg st)

/-! ### Misses and deferral (R208 to R210) -/

/-- The sums of an uncached slice copied into its miss entries, with the factor of each piece (R207, R208). -/
def State.missCopy (s : State) (st num mask : Nat) (sums : Nat → List Word) (factor : Nat → Word) : State :=
  { s with
    slt := { s.slt with
      miss := (maskPieces mask).foldl (fun t q => t.set (missKey st num q) (sums q, factor q)) s.slt.miss } }

/-- A deferred slice folds its pieces into the pending accumulator of its partition (R209); a piece without an entry drops
its contribution, and the shard-step is recorded as skipped (R210). -/
def State.fold (s : State) (st num mask : Nat) (sums : Nat → List Word) (factor : Nat → Word) (gs : Word) : State :=
  let r := (maskPieces mask).foldl (fun (acc : Tbl (Nat × List Word) × Nat) q =>
    let key := 64 * num + q
    let add (old : List Word) : List Word :=
      (List.range 64).map fun l => fadd (old.getD l 0) (fmul (fmul ((sums q).getD l 0) (factor q)) gs)
    match acc.1.get? key with
    | some (n, old) => if st ≤ n then (acc.1.set key (n, add old), acc.2) else (acc.1, acc.2 + 1)
    | none => (acc.1, acc.2 + 1)) (s.slt.pending, 0)
  { s with
    slt := { s.slt with pending := r.1, skipped := if r.2 = 0 then s.slt.skipped else s.slt.skipped ++ [(num, st)] }
    regs := Regs.counts s.regs [(Reg.sltEvcDefer, 1), (Reg.sltEvcDrop, r.2)] }

/-- What the pending accumulator holds of a slice's piece for its update in step `st` (R209). -/
def State.pendingOf (s : State) (st num q : Nat) : Option (List Word) :=
  match s.slt.pending.get? (64 * num + q) with
  | some e => if e.1 < st then some e.2 else none
  | none => none

/-- The pending entries of a slice after its update in step `st` (R209): freed, but for those that a later step's deferral
already holds, which start from +0. -/
def freePending (st num : Nat) (pend : Tbl (Nat × List Word)) : Tbl (Nat × List Word) :=
  (pend.filter fun e => e.1 / 64 != num || decide (st ≤ e.2.1)).map fun e => if e.1 / 64 = num then (e.1, e.2.1, []) else e

/-- After the tag of a slice's inner update or skip of step `st` is acknowledged, its miss entries are released (R208); an
update frees its pending entries too (R209). -/
def State.sltReleased (s : State) (num st : Nat) (updated : Bool) : State :=
  let t := s.slt
  { s with slt := { t with
      miss := t.miss.filter fun e => e.1 / 64 != missOf st num
      missTaken := t.missTaken.erase (missOf st num)
      pending := if updated then freePending st num t.pending else t.pending } }

/-- After a tag of a slice has been written in its line, the line is dirty and used by the step (R208); a read-through line
is written back and released (log 22). -/
def State.sltWritten (s : State) (num st : Nat) : State :=
  match s.lineOfNum num with
  | some l =>
    let c := s.cacheLine l
    let s := s.putLine l { c with dirty := true, used := max c.used st }
    { s with slt := { s.slt with dirtied := match s.slt.dirtied.get? l with
        | some _ => s.slt.dirtied
        | none => s.slt.dirtied.set l st } }
  | none =>
    match s.landedLine num with
    | some l => s.writeBack l num
    | none => s

end Sys2Proof.Machine
end

