-- ==== Sys2Proof/Machine/Seam.lean ====
section
/-! DEFINITION. Seam (09_seam_links): frames, retry, link credits, egress, commands, messages, receive windows, routes,
remote atomic bursts, multicast, and lane loss. -/

namespace Sys2Proof.Machine

/-! ### Links -/

/-- A link of the state. -/
def State.link (s : State) (n : Nat) : SLink := Tbl.get {} s.seam.links n

/-- The state with a link replaced. -/
def State.setLink (s : State) (n : Nat) (l : SLink) : State :=
  { s with seam := { s.seam with links := s.seam.links.set n l } }

/-- The unit ID of a link (R298). -/
def linkUnit (n : Nat) : Nat := 0x1B0 + n

/-- A link's STATE (R327). -/
def State.linkState (s : State) (n : Nat) : Nat := s.fld (Reg.seamStatus n) 0 3

/-- A link is in service: at full width, or at half width (R327). -/
def State.linkUp (s : State) (n : Nat) : Bool := decide (3 ≤ s.linkState n) && decide (s.linkState n ≤ 5)

/-- Cycles of a frame slot: 4, or 8 at half width (R299). -/
def State.slotCycles (s : State) (n : Nat) : Nat := if s.linkState n = 3 then 4 else 8

/-- Devices in the domain (R328). -/
def State.domainSize (s : State) : Nat := s.fld Reg.seamDomDev 10 11

/-- The domain-wide record of links in service and at half width follows the links (R328). -/
def linkBits (regs : Tbl Word) (n : Nat) : Tbl Word :=
  let st := Regs.fld regs (Reg.seamStatus n) 0 3
  let w := n / 32
  let regs := Regs.putFld regs (if w = 0 then Reg.seamDomUp0 else Reg.seamDomUp1) (n % 32) 1
    (b2n (decide (3 ≤ st) && decide (st ≤ 5)))
  Regs.putFld regs (if w = 0 then Reg.seamDomHalf0 else Reg.seamDomHalf1) (n % 32) 1 (b2n (st == 4 || st == 5))

/-- A link enters a state (R327, R328). -/
def State.putLinkState (s : State) (n v : Nat) : State :=
  { s with regs := linkBits (Regs.putFld s.regs (Reg.seamStatus n) 0 3 v) n }

/-! ### Frames (R300) -/

/-- CRC-16 of R300 over bytes. -/
def crc16 (bs : List Byte) : Nat :=
  (bs.foldl (fun (c : BitVec 16) b =>
    (List.range 8).foldl (fun (c : BitVec 16) _ => if c.getLsbD 15 then (c <<< 1) ^^^ 0x1021#16 else c <<< 1)
      (c ^^^ ((BitVec.setWidth 16 b) <<< (8 : Nat)))) 0xFFFF#16).toNat

/-- A frame's 80-bit header with its CRC (R300). -/
def frameHeader (seq ty vc dest cvc crn ackl : Nat) (payload : List Byte) : Nat :=
  let h := seq % 2 ^ 24 + ty % 16 * 2 ^ 24 + vc % 4 * 2 ^ 28 + dest % 1024 * 2 ^ 30 + cvc % 4 * 2 ^ 40 +
    crn % 64 * 2 ^ 42 + ackl % 65536 * 2 ^ 48
  h + crc16 (leBytes 8 h ++ payload) * 2 ^ 64

/-- 256 bytes of payload. -/
def pad256 (bs : List Byte) : List Byte := (bs ++ List.replicate 256 0).take 256

/-- A frame's payload cut from data. -/
def dataFrames (bs : List Byte) : List (List Byte) :=
  (List.range ((bs.length + 255) / 256)).map fun i => pad256 ((bs.drop (256 * i)).take 256)

/-- The MSGH payload of a message (R315). -/
def messageHeader (m : SeamMsg) : List Byte :=
  pad256 (leBytes 1 m.kind ++ leBytes 1 (b2n m.last + 2 * b2n m.cueEn) ++ leBytes 2 m.src ++ leBytes 1 m.queue ++
    leBytes 1 m.cue ++ leBytes 2 0 ++ leBytes 4 m.len ++ leBytes 6 m.daddr ++ leBytes 4 m.add.toNat ++
    List.replicate 10 0 ++ (if m.kind = 5 then m.data else []))

/-- The message of an MSGH payload and its data frames (R315). -/
def messageOf (h data : List Byte) : SeamMsg :=
  let kind := fieldAt h 0 1
  let len := fieldAt h 8 4
  { kind, last := bit (fieldAt h 1 1) 0, cueEn := bit (fieldAt h 1 1) 1, src := fieldAt h 2 2 % 1024
    queue := fieldAt h 4 1, cue := fieldAt h 5 1, daddr := fieldAt h 12 6, add := BitVec.ofNat 32 (fieldAt h 18 4)
    len, data := if kind = 5 then h.drop 32 else data.take len }

/-! ### Memory by 48-bit address (R311) -/

/-- The range of `n` bytes at a 48-bit address is aligned and lies in its memory (R311, R313). -/
def addrOk (a n : Nat) : Bool :=
  a % 64 == 0 && n % 64 == 0 &&
    if bit a 47 then bits a 29 18 == 0 && bits a 24 5 < 32 && decide (bits a 0 24 + n ≤ tileSize)
    else bits a 40 7 == 0 && decide (bits a 0 40 + n ≤ hbmSize)

/-- Bytes read at a 48-bit address. -/
def State.read48 (s : State) (a n : Nat) : List Byte :=
  if bit a 47 then s.tileNow.read (tileKey (bits a 24 5) (bits a 0 24)) n else s.hbm.read (bits a 0 40) n

/-- Bytes written at a 48-bit address. -/
def State.write48 (s : State) (a : Nat) (bs : List Byte) : State :=
  if bit a 47 then s.setTile (s.tileNow.write (tileKey (bits a 24 5) (bits a 0 24)) bs)
  else { s with hbm := s.hbm.write (bits a 0 40) bs }

/-! ### Tables (R316, R317, R320, R329) -/

/-- The tables that the base registers name are read from HBM (R329). -/
def State.latchTables (s : State) : State :=
  let r := Regs.pair s.regs Reg.seamDomRouteBaseLo
  let m := Regs.pair s.regs Reg.seamDomMcastBaseLo
  let w := Regs.pair s.regs Reg.seamDomRxwinBaseLo
  { s with
    seam := { s.seam with tables := s.hbm.filter fun c =>
      (decide (r ≤ c.1) && decide (c.1 < r + 2048)) || (decide (m ≤ c.1) && decide (c.1 < m + 4096)) ||
        (decide (w ≤ c.1) && decide (c.1 < w + 128)) } }

/-- The route to a device: its first link and COUNT (R317). -/
def State.routeTo (s : State) (dest : Nat) : Nat × Nat :=
  let v := s.seam.tables.readNat (Regs.pair s.regs Reg.seamDomRouteBaseLo + 2 * dest) 2
  (bits v 0 6, bits v 6 2)

/-- A multicast group's MASK, LOCAL and LBASE (R320). -/
def State.group (s : State) (g : Nat) : Nat × Bool × Nat :=
  let v := s.seam.tables.readNat (Regs.pair s.regs Reg.seamDomMcastBaseLo + 16 * g) 16
  (bits v 0 36, bit v 36, bits v 40 48)

/-- `n` bytes at a 48-bit address lie inside an enabled receive window (R316, R328). -/
def State.inWindows (s : State) (a n : Nat) : Bool :=
  (List.range 8).any fun i =>
    let v := s.seam.tables.readNat (Regs.pair s.regs Reg.seamDomRxwinBaseLo + 16 * i) 16
    bit v 96 && decide (bits v 0 48 ≤ a) && decide (a + n ≤ bits v 48 48)

/-! ### Sending -/

/-- Frames of one message or burst put in a link's egress (R306). -/
def State.sendFrames (s : State) (n prio vc dest readyAt : Nat) (cmd : Bool) (ty : Nat) (payloads : List (List Byte)) :
    State :=
  let l := s.link n
  let k := s.seam.nextKey
  let fr := (List.range payloads.length).map fun i =>
    ({ f := { ty := if i = 0 then ty else ty + 1, vc, dest, payload := payloads.getD i [] }
       prio, key := k, last := i + 1 == payloads.length, cmd, readyAt, from' := none } : EFrame)
  let s := s.setLink n { l with out := l.out ++ fr }
  { s with seam := { s.seam with nextKey := k + 1 } }

/-- The MSGH and MSGD payloads of a message with its data (R315). -/
def messageFrames (m : SeamMsg) (data : List Byte) : List (List Byte) := messageHeader m :: dataFrames data

/-- A one-frame message on VC 0 (R306): QCRED, CUE or CTRL. -/
def State.sendSmall (s : State) (n dest : Nat) (cmd : Bool) (m : SeamMsg) : State :=
  s.sendFrames n 3 0 dest s.now cmd 2 [messageHeader m]

/-- A message with nothing set but its kind and sender. -/
def emptyMsg (kind src : Nat) : SeamMsg :=
  { kind, last := false, cueEn := false, src, queue := 0, cue := 0, daddr := 0, add := 0, len := 0, data := [] }

/-- A CTRL message of the firmware to a device, on the first link of its route (R315, R317); its fields stand in its
inline data little-endian, in the order the rule lists them (log 23). -/
def State.sendCtrl (s : State) (dest : Nat) (data : List Byte) : State :=
  let r := s.routeTo dest
  if r.2 = 0 ∨ dest = s.device then s
  else s.sendSmall r.1 dest false { emptyMsg 5 s.device with data := data }

/-- A CTRL message to every other device of a list. -/
def State.sendCtrlAll (s : State) (devs : List Nat) (data : List Byte) : State :=
  devs.foldl (fun s d => s.sendCtrl d data) s

/-- The devices of the domain (R328). -/
def State.devices (s : State) : List Nat := List.range s.domainSize

/-- Seam commands issued and not complete on a link (R314). -/
def SLink.commands (l : SLink) (now : Nat) : Nat :=
  ((l.out.filter (·.cmd)).map (·.key)).eraseDups.length + (l.shortCmds.filter fun c => c.1.isSome || decide (now < c.2)).length

/-- Fields of a Seam command (R312). -/
structure SeamCmd where
  dest : Nat
  group : Nat
  queue : Nat
  last : Bool
  cueEn : Bool
  cue : Nat
  saddr : Nat
  daddr : Nat
  len : Nat
  add : Nat
  deriving DecidableEq, Repr

/-- A Seam command decoded (R312). -/
def SeamCmd.of (c : Cmd) : SeamCmd :=
  { dest := cmdFld c 32 10, group := cmdFld c 32 8, queue := cmdFld c 42 6, last := cmdFld c 48 1 == 1
    cueEn := cmdFld c 49 1 == 1, cue := cmdFld c 50 8, saddr := cmdFld c 64 48, daddr := cmdFld c 112 48
    len := cmdFld c 160 24, add := cmdFld c 184 32 }

/-- The Seam commands (R312); `undef` is an opcode of the range that is none of them (R313). -/
inductive SeamOp where
  | send | write | mcast | post | undef
  deriving DecidableEq, Repr

/-- A field that the opcode does not use is not zero (R312). -/
def seamReserved (op : SeamOp) (c : Cmd) : Bool :=
  let z (lo w : Nat) : Bool := cmdFld c lo w != 0
  z 58 6 || z 216 40 || match op with
    | .send => z 32 10 || z 49 9 || z 184 32
    | .write => z 42 7 || z 184 32
    | .mcast => z 40 9 || z 184 32
    | .post => z 42 8 || z 64 120
    | .undef => false

/-- The device a SEND goes to (R312). -/
def State.peerOf (s : State) (q : Nat) : Nat × Nat := (s.fld (Reg.seqQCfg q) 6 10, s.fld (Reg.seqQCfg q) 16 6)

/-- A device can be sent to from here (R313). -/
def State.destOk (s : State) (d : Nat) : Bool :=
  decide (d < s.domainSize) && d != s.device && (s.routeTo d).2 != 0

/-- A Seam command is invalid (R313). -/
def seamInvalid (s : State) (op : SeamOp) (c : Cmd) : Bool :=
  let x := SeamCmd.of c
  let n := cmdUnit c - 0x1B0
  !s.linkUp n || match op with
    | .send => s.fld (Reg.seqQCfg x.queue) 0 2 != 1 || !s.destOk (s.peerOf x.queue).1 || !addrOk x.saddr x.len ||
        !addrOk x.daddr x.len
    | .write => !s.destOk x.dest || decide (223 < x.cue) || !addrOk x.saddr x.len || !addrOk x.daddr x.len
    | .mcast => (s.group x.group).1 == 0 && !(s.group x.group).2.1 || decide (223 < x.cue) || !addrOk x.saddr x.len ||
        x.daddr % 64 != 0
    | .post => !s.destOk x.dest || decide (223 < x.cue)
    | .undef => true

/-- A command that completes in 1 cc without a frame (R313), once the commands of the link before it have (R314). -/
def State.shortCommand (s : State) (n : Nat) : State :=
  let l := s.link n
  let open' := l.shortCmds.filter fun c => c.1.isSome || decide (s.now < c.2)
  let entry : Option Nat × Nat := match (l.out.filter (·.cmd)).getLast? with
    | some f => (some f.key, (open'.filter fun c => c.1 == some f.key).length + 1)
    | none => (none, open'.foldl (fun m c => max m c.2) s.now + 1)
  s.setLink n { l with shortCmds := open' ++ [entry] }

/-- The links that an MCAST leaves on besides its own (R320). -/
def maskLinks (mask : Nat) : List Nat := (List.range 36).filter (bit mask)

/-- A Seam command is issued to its link (R312 to R315, R320). -/
def seamIssue (op : SeamOp) (c : Cmd) (s : State) : State :=
  let n := cmdUnit c - 0x1B0
  s.toUnit (cmdUnit c) fun s =>
    let x := SeamCmd.of c
    let resv := b2n (seamReserved op c)
    if seamInvalid s op c then (s.countN (Reg.seamEvcViol n) (1 + b2n (op != .undef) * resv)).shortCommand n
    else
      let s := s.countN (Reg.seamEvcViol n) resv
      let dev := s.device
      match op with
      | .post =>
        s.sendFrames n 3 0 x.dest s.now true 2
          [messageHeader { emptyMsg 2 dev with cue := x.cue, add := BitVec.ofNat 32 x.add }]
      | .send =>
        let s := s.countN (Reg.seamEvcEmpty n) (b2n (x.len == 0))
        if x.len = 0 ∧ !x.last then s.shortCommand n
        else
          let p := s.peerOf x.queue
          let m : SeamMsg := { emptyMsg 0 dev with last := x.last, queue := p.2, daddr := x.daddr, len := x.len }
          s.sendFrames n 6 1 p.1 s.now true 2 (messageFrames m (s.read48 x.saddr x.len))
      | .write =>
        if x.len = 0 then (s.count (Reg.seamEvcEmpty n)).shortCommand n
        else
          let m : SeamMsg := { emptyMsg 3 dev with cueEn := x.cueEn, cue := x.cue, daddr := x.daddr, len := x.len }
          s.sendFrames n 6 3 x.dest s.now true 2 (messageFrames m (s.read48 x.saddr x.len))
      | .mcast =>
        if x.len = 0 then (s.count (Reg.seamEvcEmpty n)).shortCommand n
        else
          let m : SeamMsg :=
            { emptyMsg 4 dev with cueEn := x.cueEn, cue := x.cue, queue := x.group, daddr := x.daddr, len := x.len }
          let fr := messageFrames m (s.read48 x.saddr x.len)
          let s := s.sendFrames n 6 3 (s.fld (Reg.seamPeer n) 0 10) s.now true 2 fr
          ((maskLinks (s.group x.group).1).filter (· != n)).foldl (fun s k =>
            s.sendFrames k 6 3 (s.fld (Reg.seamPeer k) 0 10) s.now false 2 fr) s
      | .undef => s

/-! ### Egress (R304 to R306, R509) -/

/-- The frames that may compete for a slot: the first of each message, in the order of R306; of the link's commands only
the oldest (R314). -/
def SLink.candidates (l : SLink) (t : Nat) : List EFrame :=
  let firsts := l.out.foldl (fun acc f => if acc.any fun (g : EFrame) => g.key == f.key then acc else acc ++ [f]) []
  let cmdKey := (firsts.find? (·.cmd)).map (·.key)
  let ok := firsts.filter fun f => decide (f.readyAt ≤ t) && (!f.cmd || cmdKey == some f.key)
  [3, 4, 5, 6].flatMap fun p => ok.filter (·.prio == p)

/-- A VC is held by another message (R306). -/
def SLink.heldByOther (l : SLink) (f : EFrame) : Bool :=
  match l.held.get? f.f.vc with
  | some k => k != f.key
  | none => false

/-- A frame of the egress marked. -/
def SLink.mark (l : SLink) (f : EFrame) (g : EFrame → EFrame) : SLink :=
  { l with out := l.out.map fun x => if x = f then g x else x }

/-- The credits of a list changed at a VC. -/
def bump (l : List Nat) (vc : Nat) (f : Nat → Nat) : List Nat := l.set vc (f (l.getD vc 0))

/-- A frame that holds its VC, or may take it, has no link credit (R305). -/
def SLink.dry (l : SLink) (f : EFrame) : Bool := !l.heldByOther f && l.cred.getD f.f.vc 0 == 0

/-- The frames that wait in a slot from cycle `t` (R305, R306): forwarded ones for their VC, and those without a credit. -/
def SLink.waiting (l : SLink) (t : Nat) : List EFrame × List EFrame :=
  let c := l.candidates t
  (c.filter fun f => f.prio == 4 && l.heldByOther f, c.filter l.dry)

/-- The link with its waits of a slot of `w` cycles marked, and what they count (R305, R306; log 120): each frame once, and
the cycles in which any waited for a credit. -/
def SLink.noteWaits (l : SLink) (n t w : Nat) : SLink × List (Nat × Nat) × Nat :=
  let x := l.waiting t
  ({ l with out := l.out.map fun f =>
      { f with fwdWait := f.fwdWait || x.1.contains f, lcred := f.lcred || x.2.contains f } },
    [(Reg.seamEvcFwdwait n, (x.1.filter (!·.fwdWait)).length), (Reg.seamEvcLcred n, (x.2.filter (!·.lcred)).length)],
    if x.2.isEmpty then 0 else w)

/-- The first candidate that can leave (R306). -/
def SLink.pick (l : SLink) (t : Nat) : Option EFrame :=
  (l.candidates t).find? fun f => !l.heldByOther f && !l.dry f

/-- The credits returned in the next frame: the lowest VC that has any (R300, R305). -/
def SLink.returns (l : SLink) : Nat × Nat :=
  match (List.range 4).find? fun v => l.ret.getD v 0 != 0 with
  | some v => (v, min 63 (l.ret.getD v 0))
  | none => (0, 0)

/-- The header fields every frame carries: ACKL and the credits returned (R301). -/
def State.wireHeader (s : State) (n seq ty vc dest : Nat) (payload : List Byte) : Nat :=
  let r := (s.link n).returns
  frameHeader seq ty vc dest r.1 r.2 ((s.reg (Reg.seamRxseq n) + 2 ^ 24 - 1) % 2 ^ 24) payload

/-- The link after a slot of `w` cycles from `t` carried a frame of some kind: the credits it returned are spent. -/
def SLink.slot (l : SLink) (t w : Nat) (x : Wire) : SLink :=
  let r := l.returns
  { l with wire := x, slotFree := t + w, ret := bump l.ret r.1 (· - r.2) }

/-- A beat delay slot of TPX holds this link's sequenced frames (R509, R517). -/
def State.seamDelay (s : State) (n : Nat) : Option Nat :=
  (((List.range 4).filter fun k => s.fld (Reg.tpxSd k) 6 1 == 1 && s.fld (Reg.tpxSd k) 0 6 == n).map fun k =>
    s.fld (Reg.tpxSd k) 8 16).head?

/-- A new sequenced frame leaves (R300, R303 to R305). -/
def State.sendSequenced (s : State) (n t w : Nat) (f : EFrame) : State :=
  let l := s.link n
  let seq := s.reg (Reg.seamTxseq n)
  let l1 := { l with
    out := l.out.erase f
    retry := l.retry ++ [(seq, f.f)]
    cred := bump l.cred f.f.vc (· - 1)
    held := if f.last then l.held.erase f.f.vc else l.held.set f.f.vc f.key
    shortCmds := l.shortCmds.map fun (c : Option Nat × Nat) => if f.last && f.cmd && c.1 == some f.key then (none, t + c.2) else c
    ackAt := if l.retry.isEmpty then t else l.ackAt }
  let h := s.wireHeader n seq f.f.ty f.f.vc f.f.dest f.f.payload
  let s := s.setLink n (l1.slot t w (.frame h f.f.payload))
  let s := match f.from' with
    | some k => s.setLink k { s.link k with ret := bump (s.link k).ret f.f.vc (· + 1) }
    | none => s
  { s with regs := Regs.count64 (Regs.count (Regs.put s.regs (Reg.seamTxseq n) ((seq + 1) % 2 ^ 24))
      Reg.tpxEvcSeamdly (b2n (s.seamDelay n).isSome)) (Reg.seamBusyLo n) 1 }

/-- An egress slot of a link is given (R306): a replay, a LINK frame, the first candidate that can leave, or IDLE. Frames that
find the link held by a recalibration quantum wait for its end, counted once (R258). -/
def egressSlotEffect (n : Nat) (s : State) : State :=
  let l := s.link n
  if !s.linkUp n || s.isolated (linkUnit n) then s
  else if l.retraining then
    match l.linkOut with
    | .laneChange p :: rest =>
      s.setLink n { l.slot (max s.now l.slotFree) 8 (.link (.laneChange p)) with linkOut := rest }
    | _ => s
  else
    let t := max s.now l.slotFree
    let s := s.atCycle t
    let w := s.slotCycles n
    let x := l.noteWaits n t w
    let l := x.1
    let s : State := { s with regs := Regs.count64 (Regs.counts s.regs x.2.1) (Reg.seamStallLo n) x.2.2 }
    let quantum := decide (t < l.recalTo)
    if quantum && l.linkOut.isEmpty && (!l.replay.isEmpty || (l.pick t).isSome) then
      (s.setLink n { l with slotFree := l.recalTo }).count Reg.seqEvcBgwait
    else match (if quantum then [] else l.replay) with
    | (seq, f) :: rest =>
      let h := s.wireHeader n seq f.ty f.vc f.dest f.payload
      let s := s.setLink n { l.slot t w (.frame h f.payload) with replay := rest }
      { s with regs := Regs.count64 (Regs.count s.regs Reg.tpxEvcSeamdly (b2n (s.seamDelay n).isSome)) (Reg.seamBusyLo n) 1 }
    | [] =>
      match l.linkOut with
      | m :: rest => s.setLink n { l.slot t w (.link m) with linkOut := rest }
      | [] =>
        match l.pick t with
        | some f =>
          if l.retry.length < 512 then (s.setLink n l).sendSequenced n t w f
          else
            (s.countN (Reg.seamEvcRbfull n) (b2n (!f.rbfull))).setLink n
              ((l.mark f fun x => { x with rbfull := true }).slot t w .idle)
        | none => s.setLink n (l.slot t w .idle)

/-! ### A link goes down, and replays (R304, R322) -/

/-- A link is down (R322): it carries nothing, and the fault is reported. -/
def State.linkDown (s : State) (n : Nat) : State :=
  ((s.putLinkState n 6).setLink n { s.link n with replay := [], linkOut := [], retraining := false }).fault (linkUnit n) 0x07 5 0 0

/-- A replay from sequence number `e` (R304): eight in a row from the same frame take the link down. -/
def State.startReplay (s : State) (n e counter : Nat) : State :=
  let l := s.link n
  let again := if l.replayFrom = some e then l.replays + 1 else 1
  let l := { l with replayFrom := some e, replays := again, ackAt := s.now
                    replay := l.retry.dropWhile fun f => f.1 != e }
  let s := (s.setLink n l).count counter
  if again = 8 then s.linkDown n else s

/-- A NAK arrives (R304). -/
def nakEffect (n seq : Nat) (s : State) : State :=
  if !s.linkUp n || (s.link n).retry.all (fun f => f.1 != seq) then s else s.startReplay n seq (Reg.seamEvcRetry n)

/-- No acknowledgement has advanced for 2,048 cc (R304). -/
def retryTimeoutEffect (n : Nat) (s : State) : State :=
  let l := s.link n
  match l.retry with
  | [] => s
  | f :: _ => if !s.linkUp n then s else (s.atCycle (l.ackAt + 2048)).startReplay n f.1 (Reg.seamEvcTimeout n)

/-! ### Receiving (R302, R303, R305) -/

/-- Frames acknowledged by ACKL (R304): the number congruent to it among those outstanding. -/
def State.acknowledge (s : State) (n ackl : Nat) : State :=
  let l := s.link n
  match l.retry.find? fun f => f.1 % 65536 == ackl with
  | none => s
  | some f =>
    let rest := (l.retry.dropWhile fun g => g.1 != f.1).drop 1
    (s.setLink n { l with retry := rest, ackAt := s.now
                          replayFrom := l.replayFrom.filter fun e => rest.any fun x => x.1 == e
                          replay := l.replay.filter fun g => rest.any fun x => x.1 == g.1 }).put (Reg.seamTxack n) f.1

/-- A frame is discarded as ahead of sequence (R302, R303): one NAK until the expected frame comes. -/
def State.nakOnce (s : State) (n : Nat) : State :=
  let l := s.link n
  if l.nakSent then s
  else s.setLink n { l with nakSent := true, linkOut := l.linkOut ++ [.nak (s.reg (Reg.seamRxseq n))] }

/-- One received frame's buffer frees (R305). -/
def State.freeRx (s : State) (n vc : Nat) : State :=
  s.setLink n { s.link n with ret := bump (s.link n).ret vc (· + 1) }

/-- Whether a group's frames that arrive on a link go on (R320): the links of its MASK. -/
def forwardLinks (s : State) (n dest : Nat) (multicast : Option Nat) : List Nat × Bool :=
  match multicast with
  | some g => let x := s.group g; (maskLinks x.1, x.2.1)
  | none =>
    if dest = s.device then ([], true)
    else
      let r := s.routeTo dest
      if r.2 = 0 then ([], false) else ([r.1 + n % r.2], false)

/-- A frame of a message put in the egress of the links it is forwarded on (R306, R317, R320). -/
def State.forward (s : State) (n : Nat) (links : List Nat) (f : SFrame) (key : Nat) (last multicast : Bool) : State :=
  links.foldl (fun s k =>
    let l := s.link k
    s.setLink k { l with out := l.out ++
      [{ f := { f with dest := if multicast then s.fld (Reg.seamPeer k) 0 10 else f.dest }
         prio := if f.vc = 0 then 3 else 4, key, last, cmd := false, readyAt := s.now
         from' := if links.head? = some k then some n else none }] }) s

/-- The beat of slot `j` of an ATOMH payload with its data frame (R318). -/
def beatOf (h data : List Byte) (j : Nat) : Beat :=
  let v := leNat ((h.drop (16 * j)).take 16)
  { tensor := bits v 0 32, index := bits v 32 48, srcDev := bits v 80 10, srcUnit := bits v 90 12, lepoch := bits v 102 16
    abstain := bit v 118, boundOk := bit v 119, part := bits v 120 3
    vals := (unpack 4 64 data).map (BitVec.ofNat 32 ·) }

/-- The 128-bit header of a beat (R318). -/
def beatHeader (b : Beat) : List Byte :=
  leBytes 16 (b.tensor % 2 ^ 32 + b.index % 2 ^ 48 * 2 ^ 32 + b.srcDev % 1024 * 2 ^ 80 + b.srcUnit % 4096 * 2 ^ 90 +
    b.lepoch % 65536 * 2 ^ 102 + b2n b.abstain * 2 ^ 118 + b2n b.boundOk * 2 ^ 119 + b.part % 8 * 2 ^ 120)

/-- Beats in the slots of an ATOMH payload: the slots up to the last that is not zero (R318). -/
def burstSize (h : List Byte) : Nat :=
  ((List.range 16).filter fun j => leNat ((h.drop (16 * j)).take 16) != 0).foldl (fun m j => max m (j + 1)) 1

/-- A beat of a burst crosses to its partition in 28 cc (R319). -/
def State.crossBeat (s : State) (link : Option Nat) (b : Beat) : State :=
  let p := b.part % 8
  let g := (s.partition p).ingressAt 32
  let s := s.setIngress p 32 { g with queue := g.queue ++ [(s.now + 28, b)] }
  match link with
  | some n => { s with seam := { s.seam with owed := s.seam.owed.set p (Tbl.get [] s.seam.owed p ++ [n]) } }
  | none => s

/-- A header frame begins a message or burst on its VC (R306, R315, R318). -/
def State.beginMessage (s : State) (n : Nat) (f : SFrame) : State :=
  let l := s.link n
  let multicast := if f.ty = 2 ∧ fieldAt f.payload 0 1 = 4 then some (fieldAt f.payload 4 1) else none
  let left := if f.ty = 2 then (if fieldAt f.payload 0 1 = 5 then 0 else (fieldAt f.payload 8 4 + 255) / 256)
    else burstSize f.payload
  let r := forwardLinks s n f.dest multicast
  let k := s.seam.nextKey
  let a : Arriving := { header := f.payload, data := [], left, key := k, egress := r.1, local' := r.2 }
  let s := s.setLink n { l with arriving := l.arriving.set f.vc a }
  let s := { s with seam := { s.seam with nextKey := k + 1 } }
  let s := s.forward n r.1 f k (left == 0) multicast.isSome
  if r.1.isEmpty then s.freeRx n f.vc else s

/-- A data frame of the message on its VC; a beat of a burst goes to its partition (R315, R318). -/
def State.dataFrame (s : State) (n : Nat) (f : SFrame) : State :=
  let l := s.link n
  match l.arriving.get? f.vc with
  | none => (s.count (Reg.seamEvcRxdrop n)).freeRx n f.vc
  | some a =>
    let j := a.data.length / 256
    let a' := { a with data := a.data ++ f.payload, left := a.left - 1 }
    let s := s.setLink n { l with arriving := l.arriving.set f.vc a' }
    let s := s.forward n a.egress f a.key (a.left == 1) (f.vc == 3 && fieldAt a.header 0 1 == 4)
    if f.ty = 5 ∧ a.local' then s.crossBeat (some n) (beatOf a.header f.payload j)
    else if a.egress.isEmpty then s.freeRx n f.vc else s

/-- A message whose last frame is in goes to the inbox; its own command delivers it (R316). -/
def State.endMessage (s : State) (n vc : Nat) : State :=
  let l := s.link n
  match l.arriving.get? vc with
  | none => s
  | some a =>
    if a.left ≠ 0 then s
    else
      let s := s.setLink n { l with arriving := l.arriving.erase vc }
      if a.local' && vc != 2 then
        { s with seam := { s.seam with inbox := s.seam.inbox ++ [(n, s.now, messageOf a.header a.data)] } }
      else s

/-- An accepted sequenced frame (R303, R306, R328): assembled and forwarded; with the domain disabled it is dropped. -/
def State.acceptFrame (s : State) (n : Nat) (f : SFrame) : State :=
  if s.fld Reg.seamDomCfg 0 1 = 0 then (s.count (Reg.seamEvcRxdrop n)).freeRx n f.vc
  else if f.ty = 2 ∨ f.ty = 4 then (s.beginMessage n f).endMessage n f.vc
  else (s.dataFrame n f).endMessage n f.vc

/-- A frame passes the elastic buffer (R310): in constant-latency mode, whether it comes too late for its cycle is a free
value, since the command carries no time of departure (log 121). -/
def State.elastic (s : State) (n : Nat) : State :=
  if s.fld (Reg.seamCfg n) 1 1 = 0 then s
  else { s with free := s.free + 1, regs := Regs.count s.regs (Reg.seamEvcLate n) (Config.freeNat s.free % 2) }

/-- A frame arrives on a link (R300 to R305): `uncorrectable` codewords, `corrected` symbols. -/
def frameReceiveEffect (n : Nat) (header : BitVec 80) (payload : List Byte) (uncorrectable corrected : Nat) (s : State) :
    State :=
  if !s.linkUp n || s.isolated (linkUnit n) then s
  else
    let h := header.toNat
    let pl := pad256 payload
    let s : State := { s with regs := Regs.count64 (Regs.count s.regs (Reg.seamEvcUncorr n) uncorrectable) (Reg.seamSymerrLo n) corrected }
    let s := s.elastic n
    let crcBad := crc16 (leBytes 8 (h % 2 ^ 64) ++ pl) != bits h 64 16
    if uncorrectable ≠ 0 then s.nakOnce n
    else if crcBad then (s.count (Reg.seamEvcCrc n)).nakOnce n
    else
      let s := s.acknowledge n (bits h 48 16)
      let s := s.setLink n { s.link n with cred := bump (s.link n).cred (bits h 40 2) (· + bits h 42 6) }
      let ty := bits h 24 4
      if ty ≤ 1 then s
      else if 5 < ty then s.count (Reg.seamEvcRxdrop n)
      else
        let e := s.reg (Reg.seamRxseq n)
        let d := (bits h 0 24 + 2 ^ 24 - e) % 2 ^ 24
        if d = 0 then
          let s := (s.put (Reg.seamRxseq n) ((e + 1) % 2 ^ 24)).setLink n { s.link n with nakSent := false }
          s.acceptFrame n { ty, vc := bits h 28 2, dest := bits h 30 10, payload := pl }
        else if d < 2 ^ 23 then s.nakOnce n
        else s.count (Reg.seamEvcDup n)

/-! ### Messages delivered (R316) -/

/-- Which link an inbox message came on, and the cycle of its last frame; the message leaves the inbox. -/
def State.takeInbox (s : State) (m : SeamMsg) : State × Option (Nat × Nat) :=
  match s.seam.inbox.find? fun x => x.2.2 == m with
  | some x => ({ s with seam := { s.seam with inbox := s.seam.inbox.erase x } }, some (x.1, x.2.1))
  | none => (s, none)

/-- Cycles from the last frame to completion (R316). -/
def deliverCycles (a : Nat) : Nat := if bit a 47 then 31 else 408

/-- A data message delivered whole or dropped whole (R316). -/
def State.deliver (s : State) (a : Nat) (m : SeamMsg) (done : State → Nat → State) : State :=
  let r := s.takeInbox m
  let link := match r.2 with | some x => x.1 | none => 0
  let s := r.1
  if m.len ≠ 0 ∧ !(s.inWindows a m.len) then s.count (Reg.seamEvcRxdrop link)
  else
    let s := match r.2 with
      | some x => s.atCycle (x.2 + deliverCycles a)
      | none => s
    done (s.write48 a (m.data.take m.len)) s.now

/-- QDATA (R247, R316). -/
def qdataMessageEffect (m : SeamMsg) (s : State) : State :=
  s.deliver m.daddr m fun s _ =>
    if m.last then s.put (Reg.seqQArr m.queue) ((s.reg (Reg.seqQArr m.queue) + 1) % 2 ^ 32) else s

/-- QCRED (R247, R316): one credit more, at most 16. -/
def qcredMessageEffect (m : SeamMsg) (s : State) : State :=
  let s := (s.takeInbox m).1
  s.putFld (Reg.seqQCred m.queue) 0 5 (min 16 (s.fld (Reg.seqQCred m.queue) 0 5 + 1))

/-- CUE (R245, R316). -/
def cueMessageEffect (m : SeamMsg) (s : State) : State :=
  let s := (s.takeInbox m).1
  s.postCue m.cue m.add.toNat s.now

/-- WRITE (R316). -/
def writeMessageEffect (m : SeamMsg) (s : State) : State :=
  s.deliver m.daddr m fun s t => if m.cueEn then s.postCue m.cue 1 t else s

/-- MCAST (R316, R320): delivered at LBASE + DADDR when LOCAL is set; a message that came frame by frame has been
forwarded already, a whole one is forwarded on the group's links. -/
def mcastMessageEffect (link : Nat) (m : SeamMsg) (s : State) : State :=
  let g := s.group m.queue
  let s := if s.seam.inbox.any fun x => x.2.2 == m then s
    else (maskLinks g.1).foldl (fun s k =>
      s.sendFrames k 4 3 (s.fld (Reg.seamPeer k) 0 10) s.now false 2 (messageFrames m m.data)) s
  if g.2.1 then s.deliver ((g.2.2 + m.daddr) % 2 ^ 48) m fun s t => if m.cueEn then s.postCue m.cue 1 t else s
  else
    let _ := link
    (s.takeInbox m).1

/-- CTRL (R315): delivered to the policy cores. -/
def ctrlMessageEffect (m : SeamMsg) (s : State) : State :=
  let s := (s.takeInbox m).1
  { s with seam := { s.seam with ctrl := s.seam.ctrl ++ [(m.src, m.data.take 224)] } }

/-! ### Bursts (R318, R319) -/

/-- A burst of beats arrives whole (R318): each beat crosses to its partition. -/
def atomicBurstEffect (link : Nat) (beats : List Beat) (s : State) : State :=
  if s.fld Reg.seamDomCfg 0 1 = 0 then s.count (Reg.seamEvcRxdrop link)
  else (beats.take 16).foldl (fun s b => s.crossBeat none b) s

/-- The first beats of a link that make one burst (R319): one target, at most 16, no gap of 8 cc. -/
def burstRun : Nat → List (Nat × Nat × Beat) → List (Nat × Nat × Beat)
  | 0, _ => []
  | _, [] => []
  | _, [x] => [x]
  | n + 1, x :: y :: r =>
    if y.2.1 = x.2.1 ∧ y.2.2.part = x.2.2.part ∧ y.1 < x.1 + 8 then x :: burstRun n (y :: r) else [x]

/-- The cycle in which a burst closes (R319): with its 16th beat, with a beat for another target, or 8 cc after its last. -/
def burstEnd (run rest : List (Nat × Nat × Beat)) : Nat :=
  let lastAt := match run.getLast? with | some x => x.1 | none => 0
  if run.length = 16 then lastAt
  else match rest with
    | y :: _ => min y.1 (lastAt + 8)
    | [] => lastAt + 8

/-- A burst closes and enters the link's egress (R318, R319). -/
def burstCloseEffect (n : Nat) (s : State) : State :=
  let l := s.link n
  match l.beats with
  | [] => s
  | x :: _ =>
    let run := burstRun 16 l.beats
    let rest := l.beats.drop run.length
    let t := burstEnd run rest
    let s := (s.atCycle t).setLink n { l with beats := rest }
    let payloads := pad256 (run.flatMap fun y => beatHeader y.2.2) ::
      run.map fun y => pad256 (pack 4 (y.2.2.vals.map (·.toNat)))
    s.sendFrames n 5 2 x.2.1 (t + 1) false 4 payloads

/-- Beats that a link holds in its burst buffers: those collected and those of closed bursts not sent (R319). -/
def SLink.buffered (l : SLink) : Nat := l.beats.length + (l.out.filter fun f => f.f.ty == 5 && f.prio == 5).length

/-! ### Discovery, latency and lanes (R308, R310, R321) -/

/-- An identity frame at discovery (R308): a peer other than the expected keeps the link out of service. -/
def discoveryIdentityEffect (n dev plink : Nat) (s : State) : State :=
  if s.linkState n ≠ 2 then s else
  let peer := dev % 1024 + plink % 64 * 1024 + 65536
  let s := s.put (Reg.seamPeer n) peer
  if s.reg (Reg.seamPeerExp n) % 2 ^ 17 = peer then s
  else ((s.putFld (Reg.seamStatus n) 4 1 1).putLinkState n 6).fault (linkUnit n) 0x05 5 0 2

/-- A latency probe returns (R308, R310): in discovery, once the peer is known, the 64th fixes the latency, the elastic depth and the state; in
service a recalibration warns when the margin is below 8 cc. -/
def latencyProbeEffect (n oneWay : Nat) (s : State) : State :=
  let l := s.link n
  let c := s.fld (Reg.seamLatPlan n) 0 12 - (if s.linkState n = 4 ∨ s.linkState n = 5 then 4 else 0)
  let m := max l.probed oneWay
  if s.linkState n = 2 then
    if s.fld (Reg.seamPeer n) 16 1 = 0 then s
    else if l.probes + 1 < 64 then s.setLink n { l with probed := m, probes := l.probes + 1 }
    else
      let s := (s.setLink n { l with probed := 0, probes := 0 }).putFld (Reg.seamLatMeas n) 0 12 m
      if c < m + 8 then ((s.putFld (Reg.seamStatus n) 3 1 1).putLinkState n 6).fault (linkUnit n) 0x05 5 0 1
      else (s.putFld (Reg.seamElastic n) 0 12 (c - m)).putLinkState n 3
  else if s.linkUp n then
    let s := s.putFld (Reg.seamLatMeas n) 0 12 oneWay
    if c < oneWay + 8 then (s.putFld (Reg.seamStatus n) 5 1 1).count (Reg.seamEvcDrift n) else s
  else s

/-- A link re-measures at a boundary: its elastic depth is set again (R310). -/
def State.resetElastic (s : State) (n : Nat) : State :=
  s.putFld (Reg.seamElastic n) 0 12 (s.fld (Reg.seamLatPlan n) 0 12 - s.fld (Reg.seamLatMeas n) 0 12 -
    (if s.linkState n = 3 then 0 else 4))

/-- A lane fails (R321, R322): the peer is told the surviving pair and both ends retrain, or the link is down when each
pair has lost a lane; one of the pair no longer in use is counted only. -/
def laneFailEffect (n lane : Nat) (s : State) : State :=
  if !s.linkUp n then s
  else
    let s := (s.putFld (Reg.seamLane n) (4 + lane % 4) 1 1).putFld (Reg.seamLane n) (lane % 4) 1 0
    let s := s.count (Reg.seamEvcLanefail n)
    let unused := (s.linkState n = 4 ∧ 2 ≤ lane % 4) ∨ (s.linkState n = 5 ∧ lane % 4 < 2)
    let failed := s.fld (Reg.seamLane n) 4 4
    let pair := if bits failed 0 2 = 0 then 0 else 1
    if unused then s
    else if bits failed 0 2 ≠ 0 ∧ bits failed 2 2 ≠ 0 then s.linkDown n
    else
      let l := s.link n
      let s := s.setLink n { l with retraining := true, linkOut := l.linkOut ++ [.laneChange pair] }
      (s.putLinkState n (4 + pair)).fault (linkUnit n) 0x06 5 0 failed

/-- The peer's lane-change frame arrives (R321): this end retrains on the surviving pair. -/
def laneChangeEffect (n pair : Nat) (s : State) : State :=
  if !s.linkUp n || (s.link n).retraining then s
  else
    let lost := if pair = 0 then 12 else 3
    let s := s.putFld (Reg.seamLane n) 4 4 (s.fld (Reg.seamLane n) 4 4 ||| lost)
    let s := (s.setLink n { s.link n with retraining := true }).putLinkState n (4 + pair % 2)
    s.fault (linkUnit n) 0x06 5 0 (s.fld (Reg.seamLane n) 4 4)

/-- A training ends (R308, R321, R322): the first one leads to discovery, or leaves the link out of service; after a lane
failure the link re-measures, takes the hop constant C − 4 and replays from the oldest unacknowledged frame, or is down. -/
def retrainCompleteEffect (n : Nat) (ok : Bool) (oneWay : Nat) (s : State) : State :=
  let l := s.link n
  if s.linkState n = 1 then
    if ok then (s.putFld (Reg.seamLane n) 0 4 15).putLinkState n 2 else (s.putLinkState n 6).fault (linkUnit n) 0x05 5 0 3
  else if !l.retraining then s
  else if !ok then s.linkDown n
  else
    let s := (s.setLink n { l with retraining := false, replay := l.retry, ackAt := s.now }).putFld (Reg.seamLatMeas n) 0 12 oneWay
    (s.putFld (Reg.seamLane n) 0 4 (15 - s.fld (Reg.seamLane n) 4 4)).resetElastic n

end Sys2Proof.Machine
end

