-- ==== Sys2Proof/Machine/Ports.lean ====
section
/-! DEFINITION. The cluster ports (03_matrix_engines, R96): beats of engines, row unit and service cores leave for the
local partitions' ingresses or for Seam. -/

namespace Sys2Proof.Machine

/-- The unit IDs that share cluster `c`'s port, ascending (R64, R117, R522). -/
def portUnits (c : Nat) : List Nat :=
  (List.range 4).map (4 * c + ·) ++ [0x80 + c] ++ (List.range 8).map (0xA0 + 8 * c + ·)

/-- A service core of the state. -/
def State.serviceCore (s : State) (k : Nat) : Core := Tbl.get {} s.seq.cores k

/-- The beats a unit has for its port. -/
def State.unitBeats (s : State) (u : Nat) : List OutBeat :=
  if u < 0x80 then (s.engine u).beats
  else if u < 0xA0 then (s.rowUnit (u - 0x80)).beats
  else (s.serviceCore (u - 0xA0)).beats

/-- The state with a unit's beats replaced. -/
def State.putUnitBeats (s : State) (u : Nat) (b : List OutBeat) : State :=
  if u < 0x80 then s.setEngine u { s.engine u with beats := b }
  else if u < 0xA0 then { s with row := s.row.set (u - 0x80) { s.rowUnit (u - 0x80) with beats := b } }
  else { s with seq := { s.seq with cores := s.seq.cores.set (u - 0xA0) { s.serviceCore (u - 0xA0) with beats := b } } }

/-- The egress link of a remote beat (R317), if its device has a route. -/
def State.beatLink (s : State) (dev unit : Nat) : Option Nat :=
  let r := s.routeTo dev
  if r.2 = 0 then none else some (r.1 + unit % r.2)

/-- The port may accept a beat (R96, R162, R319): the partition's ingress of this cluster does not wait, or the link's
buffers have room. -/
def State.portAccepts (s : State) (c : Nat) (b : OutBeat) : Bool :=
  match b.device with
  | none => ((s.partition (b.part % 8)).ingressAt c).wait.isNone
  | some d =>
    match s.beatLink d b.beat.srcUnit with
    | some n => decide ((s.link n).buffered < 32)
    | none => false

/-- A unit's oldest beat that the port may accept. -/
def State.offered (s : State) (c u : Nat) : Option OutBeat := (s.unitBeats u).find? (s.portAccepts c)

/-- The port-wait counter of a unit (R96, R140); service cores have none. -/
def portWait (u : Nat) : Option Nat :=
  if u < 0x80 then some (Reg.meEvcPortwait u) else if u < 0xA0 then some (Reg.rowEvcPortwait (u - 0x80)) else none

/-- A beat leaves through the port in cycle `t` and crosses in 28 cc (R96, R319). -/
def State.sendBeat (s : State) (c u t : Nat) (b : OutBeat) : State :=
  let s := s.putUnitBeats u ((s.unitBeats u).erase b)
  let s := if u < 0x80 then s.setEngine u (Engine.readShadow 1 (t + 1) (s.engine u)) else s
  let s := match portWait u with
    | some a => s.countN a (b2n (decide (b.readyAt < t)))
    | none => s
  match b.device with
  | none =>
    let g := (s.partition (b.part % 8)).ingressAt c
    s.setIngress (b.part % 8) c { g with queue := g.queue ++ [(t + 28, b.beat)] }
  | some d =>
    match s.beatLink d b.beat.srcUnit with
    | none => s
    | some n =>
      let l := s.link n
      let s := s.setLink n { l with beats := l.beats ++ [(t + 28, d, b.beat)] }
      if u < 0x80 then s.beatDone u 2 (t + 28) (b.part, b.beat.tensor, b.beat.index) else s

/-- The units with a beat ready in cycle `t`, ascending. -/
def State.readyUnits (s : State) (c t : Nat) : List Nat :=
  (portUnits c).filter fun u => match s.offered c u with | some b => decide (b.readyAt ≤ t) | none => false

/-- One place of the port given to a unit. -/
def State.givePlace (s : State) (c u t : Nat) : State :=
  match s.offered c u with
  | some b => if b.readyAt ≤ t then s.sendBeat c u t b else s
  | none => s

/-- The port of cluster `c` fills its two places of one cycle (R96): in ascending unit ID, one place a unit, or both to a
unit that is alone. The cluster's Liner, of the highest unit ID, takes what is left while it streams (R140). -/
def slotBeatSendEffect (c : Nat) (s : State) : State :=
  let ready := ((portUnits c).filterMap (s.offered c)).map (·.readyAt)
  match ready with
  | [] => s
  | r :: rs =>
    let t : Nat := max (Tbl.get 0 s.ports c) (rs.foldl min r)
    let s : State := { s.atCycle t with ports := s.ports.set c (t + 1) }
    let units := s.readyUnits c t
    let streams := decide (t < (Tbl.get ({} : LnrQueue) s.lnr.queues c).streamTo)
    let s' : State := match units with
      | [] => s
      | [u] => if streams then s.givePlace c u t else (s.givePlace c u t).givePlace c u t
      | u :: v :: _ => (s.givePlace c u t).givePlace c v t
    s'.lnrWait c t (min 2 units.length)

end Sys2Proof.Machine
end

