-- ==== Sys2Proof/Machine/Sequencer.lean ====
section
/-! DEFINITION. The sequencer (07_clockwork): gating, the expansion of a stage, the streams' own commands, and the issue
of a stream's next command with its conditions, lag and counters. -/

namespace Sys2Proof.Machine

/-- A stream of the state. -/
def State.stream (s : State) (n : Nat) : Stream := Tbl.get {} s.seq.streams n

/-- The state with a stream replaced. -/
def State.setStream (s : State) (n : Nat) (x : Stream) : State :=
  { s with seq := { s.seq with streams := s.seq.streams.set n x } }

/-! ### Gating (R101, R102, R250 to R252) -/

/-- The key of a gate: a unit's ID, or the cluster's number above 4096 for level 3. -/
def gateKey (unit level : Nat) : Nat :=
  if level = 3 then 4096 + (if unit < 0x80 then unit / 4 else unit - 0x80) else unit

/-- The cluster of a unit that lies in one (R64, R117, R522). -/
def clusterOf (u : Nat) : Option Nat :=
  if u < 0x80 then some (u / 4) else if u < 0xA0 then some (u - 0x80) else if u < 0x1A0 then some ((u - 0xA0) / 8) else none

/-- A gate that has taken effect. -/
def State.gated (s : State) (k : Nat) : Bool :=
  match s.seq.gates.get? k with
  | some g => g.phase != 0
  | none => false

/-- A unit is awake: neither gated itself nor with its cluster, nor in an unfinished wake (R229). -/
def State.awake (s : State) (u : Nat) : Bool :=
  !s.gated u && match clusterOf u with | some c => !s.gated (4096 + c) | none => true

/-- Commands issued to an engine and not complete (R229, R558). -/
def Engine.pendingCount (e : Engine) (now : Nat) : Nat :=
  e.prods.length + e.drains.length + (e.draining.filter fun d => !d.left.isEmpty || decide (now < d.doneAt)).length +
    (e.short.filter fun x => decide (now < x.doneAt)).length

/-- An engine may be gated (R102). -/
def State.engineIdle (s : State) (n : Nat) : Bool :=
  let e := s.engine n
  !e.act.opened && decide (e.shadowFree ≤ s.now) && e.unread.isEmpty && e.beats.isEmpty && e.pendingCount s.now == 0

/-- A row unit executes nothing (R250). -/
def State.rowIdle (s : State) (n : Nat) : Bool :=
  let u := s.rowUnit n
  u.held.isEmpty && decide (u.busyTo ≤ s.now) && u.beats.isEmpty

/-- What a gate's target waits for (R250). -/
def State.targetIdle (s : State) (k : Nat) : Bool :=
  if k < 0x80 then s.engineIdle k
  else if k < 0xA0 then s.rowIdle (k - 0x80)
  else
    let c := k - 4096
    let q : LnrQueue := Tbl.get {} s.lnr.queues c
    ((List.range 4).all fun i => s.engineIdle (4 * c + i)) && s.rowIdle c &&
      ((List.range 8).all fun i => !(s.serviceCore (8 * c + i)).busy) && decide (q.streamTo ≤ s.now)

/-- Cycles of entry into a gating level, and its lead time (R250). -/
def gateTimes (level : Nat) : Nat × Nat := if level = 1 then (1, 12) else if level = 2 then (32, 1536) else (256, 6000)

/-- The accumulator sets and A20 partials of an engine are lost (R101): the sets come back at +0, and what the partials hold
is open (log 2). What its drains converted and completed shows first (R97, R108). -/
def State.loseEngine (s : State) (n : Nat) : State :=
  let s := s.settleEngine n
  let lost := (List.range 128).map fun i =>
    (i, (List.range 128).map fun j => BitVec.ofNat 20 (Config.freeNat (s.free + 128 * i + j)))
  { s.setEngine n { s.engine n with act := {}, shadow := {}, a20 := lost } with free := s.free + 128 * 128 }

/-- The row-scalar vectors of a row unit are lost (R126): what they hold afterwards is open (log 2). -/
def State.loseRow (s : State) (n : Nat) : State :=
  let lost := (List.range 15).map fun v =>
    (v, (List.range 128).map fun i => BitVec.ofNat 32 (Config.freeNat (s.free + 128 * v + i)))
  { s with row := s.row.set n { s.rowUnit n with rv := lost }, free := s.free + 15 * 128 }

/-- The state lost at a gating (R250). -/
def State.loseState (s : State) (k level : Nat) : State :=
  if level ≤ 1 then s
  else if k < 0x80 then s.loseEngine k
  else if k < 0xA0 then s.loseRow (k - 0x80)
  else
    let c := k - 4096
    let s := (List.range 4).foldl (fun s i => s.loseEngine (4 * c + i)) (s.loseRow c)
    { s with seq := { s.seq with cores := s.seq.cores.filter fun x => decide (x.1 / 8 ≠ c) } }

/-- A gate set or removed. -/
def State.setGate (s : State) (k : Nat) (g : Gate) : State := { s with seq := { s.seq with gates := s.seq.gates.set k g } }
/-- A gate removed. -/
def State.dropGate (s : State) (k : Nat) : State := { s with seq := { s.seq with gates := s.seq.gates.erase k } }

/-- A SLEEP's gating takes effect once its target is idle, or is abandoned when its entry could not end before the wake
must start (R250, R251). -/
def unitGateEffect (k : Nat) (s : State) : State :=
  match s.seq.gates.get? k with
  | none => s
  | some g =>
    if g.phase ≠ 0 then s
    else
      let done := s.now + (gateTimes g.level).1
      let tooLate := match g.wakeAt with | some w => decide (w < done) | none => false
      if tooLate then (s.dropGate k).count Reg.seqEvcNogate
      else if s.targetIdle k then (s.loseState k g.level).setGate k { g with phase := 1, at' := done }
      else s

/-- One more wake in cycle `t` respects R252: no `span` consecutive cycles with `t` hold more than `room` wakes. -/
def wakeFits (ws : List Nat) (room span t : Nat) : Bool :=
  (List.range span).all fun i => decide ((ws.filter fun w => decide (w ≤ t + i) && decide (t + i < w + span)).length < room)

/-- The first cycle from `t` in which one more wake respects R252: at most 8 power-gate wakes in 16 cycles, one cluster
wake in 64. -/
def wakeSlot : Nat → List Nat → Nat → Nat → Nat → Nat
  | 0, _, _, _, t => t
  | n + 1, ws, room, span, t => if wakeFits ws room span t then t else wakeSlot n ws room span (t + 1)

/-- The planned wake of a gated unit starts (R250, R252); a gating that never took effect is abandoned (R251). -/
def wakeStartEffect (k : Nat) (s : State) : State :=
  match s.seq.gates.get? k with
  | none => s
  | some g =>
    match g.wakeAt with
    | none => s
    | some w =>
      if g.phase = 0 then ((s.atCycle w).dropGate k).count Reg.seqEvcNogate
      else if g.phase = 2 then s
      else
        let s := s.atCycle w
        let q := s.seq
        let t := if g.level = 2 then wakeSlot 8192 q.wakes 8 16 s.now
          else if g.level = 3 then wakeSlot 8192 q.clusterWakes 1 64 s.now else s.now
        let s := s.setGate k { g with phase := 2, at' := t + (gateTimes g.level).2 }
        { s with
          seq := { s.seq with
            wakes := if g.level = 2 then q.wakes.filter (s.now < · + 32) ++ [t] else q.wakes
            clusterWakes := if g.level = 3 then q.clusterWakes.filter (s.now < · + 128) ++ [t] else q.clusterWakes } }

/-- A wake is complete (R101, R250): the unit runs again, unless a SLEEP has come meanwhile. -/
def wakeCompleteEffect (k : Nat) (s : State) : State :=
  match s.seq.gates.get? k with
  | none => s
  | some g =>
    if g.phase ≠ 2 then s
    else
      let s := s.atCycle g.at'
      match g.next with
      | none => s.dropGate k
      | some (level, wakeAt) => s.setGate k { level, wakeAt, phase := 0, at' := 0 }

/-- A command reached a gated unit that waits for one (R251): its wake may start now. -/
def State.callUnit (s : State) (u : Nat) : State :=
  let call (s : State) (k : Nat) : State :=
    match s.seq.gates.get? k with
    | some g => if g.phase = 1 ∧ g.wakeAt = none then s.setGate k { g with wakeAt := some s.now } else s
    | none => s
  match clusterOf u with
  | some c => call (call s u) (4096 + c)
  | none => s

/-! ### Issue conditions (R229) -/

/-- Classes of units that take commands (R226, R232). -/
inductive UnitClass where
  | seq | engine | row | liner | link | core | none
  deriving DecidableEq, Repr

/-- The class of a unit ID (R232, R522). -/
def unitClass (u : Nat) : UnitClass :=
  if u < 0x80 then .engine else if u < 0xA0 then .row else if u < 0x1A0 then .core else if u = 0x1A8 then .liner
  else if 0x1B0 ≤ u ∧ u < 0x1D4 then .link else if u = 0x1F8 then .seq else .none

/-- An opcode lies in its unit's range (R232). -/
def opcodeInRange (k : UnitClass) (o : Nat) : Bool :=
  match k with
  | .seq => decide (o < 0x20)
  | .engine => decide (0x20 ≤ o) && decide (o < 0x30)
  | .row => decide (0x30 ≤ o) && decide (o < 0x38)
  | .liner => decide (0x38 ≤ o) && decide (o < 0x40)
  | .link => decide (0x40 ≤ o) && decide (o < 0x50)
  | .core => o == 0x50
  | .none => false

/-- A command that reaches its unit (R232). -/
def reaches (c : Cmd) : Bool := opcodeInRange (unitClass (cmdUnit c)) (cmdOpcode c)

/-- The unit has room for a command (R229). -/
def State.unitRoom (s : State) (c : Cmd) : Bool :=
  let u := cmdUnit c
  match unitClass u with
  | .engine => decide ((s.engine u).pendingCount s.now < 16)
  | .row =>
    let r := s.rowUnit (u - 0x80)
    decide (r.held.length + b2n (decide (s.now < r.busyTo)) < 16)
  | .liner =>
    let q : LnrQueue := Tbl.get {} s.lnr.queues (if cmdOpcode c = 0x3A then 32 else cmdFld c 32 5)
    decide (q.held.length + (q.doneAt.filter (s.now < ·)).length < 16)
  | .link => decide ((s.link (u - 0x1B0)).commands s.now < 16)
  | .core => !(s.serviceCore (u - 0xA0)).busy
  | _ => true

/-- A queue that QBOUND, QWAIT or QFREE can act on (R234): enabled, and a sender or a receiver as it needs. -/
def State.queueOk (s : State) (q : Nat) (receive : Bool) : Bool :=
  s.fld (Reg.seqQCfg q) 0 1 == 1 && (s.fld (Reg.seqQCfg q) 1 1 == 1) == receive

/-- TPX denies a queue's credits in this cycle (R510, R517). -/
def State.denied (s : State) (q : Nat) : Bool :=
  (List.range 4).any fun k =>
    s.fld (Reg.tpxCd k) 6 1 == 1 && s.fld (Reg.tpxCd k) 0 6 == q &&
      decide (s.now % max 1 (s.fld (Reg.tpxCd k) 16 8) < s.fld (Reg.tpxCd k) 8 8)

/-- The cue value a WAITCUE of stream `n` waits for (R243). -/
def waitValue (s : State) (n : Nat) (c : Cmd) : Nat :=
  (cmdFld c 40 32 + ((s.stream n).step - s.job.n0) * cmdFld c 72 32) % 2 ^ 32

/-- The index block, and the samples, of a step have arrived, where a data ring is in use (R279, R438). -/
def State.dataReady (s : State) (step : Nat) : Bool :=
  s.host.dataEntries == 0 || s.host.data.any fun d => d.step == step && d.valid && d.left == 0

/-- The stream's next command is the SRESET that its expansion makes itself (R237). -/
def Stream.leads (x : Stream) : Bool := x.expand.any fun e => e.phase == .leadWait

/-- What holds a command (R229): the WAIT code of R270, or 0. A START waits for the data of its step (R279). -/
def State.holds (s : State) (n : Nat) (c : Cmd) : Nat :=
  let x := s.stream n
  let o := cmdOpcode c
  let isSeq := unitClass (cmdUnit c) == .seq
  let q := cmdFld c 32 6
  if x.fetched = 0 ∧ !x.leads then 6
  else if s.now < s.seq.forcedTo then 7
  else if isSeq && o == 3 && !cueReached (s.cueSeen (cmdFld c 32 8) s.now) (waitValue s n c) then 1
  else if isSeq && o == 6 && s.queueOk q false && (s.fld (Reg.seqQCred q) 0 5 == 0 || s.denied q) then 3
  else if isSeq && o == 7 && s.queueOk q true && s.reg (Reg.seqQArr q) == s.reg (Reg.seqQCons q) then 2
  else if !reaches c || isSeq || s.isolated (cmdUnit c) then 0
  else if !s.awake (cmdUnit c) then 5
  else if !s.unitRoom c || (unitClass (cmdUnit c) == .core && !s.dataReady x.step) then 4
  else 0

/-- The event counter of a WAIT code (R229, R230). -/
def causeCounter (code : Nat) : Option Nat :=
  if code = 1 then some Reg.seqEvcCue else if code = 2 then some Reg.seqEvcQlate
  else if code = 3 then some Reg.seqEvcCredit else if code = 4 then some Reg.seqEvcUnitfull
  else if code = 5 then some Reg.seqEvcWake else if code = 6 then some Reg.seqEvcFetch else none

/-! ### The sequencer's own commands (R233, R234) -/

/-- A field that the opcode leaves unused is not zero (R233). -/
def seqReserved (o : Nat) (c : Cmd) : Bool :=
  let from' (lo : Nat) : Bool := cmdFld c lo (256 - lo) != 0
  if o = 0 ∨ o = 0x0B then from' 32
  else if o = 1 ∨ o = 2 then from' 64
  else if o = 3 then from' 104
  else if o = 4 then from' 72
  else if o = 5 then cmdFld c 46 18 != 0 || from' 96
  else if o = 6 ∨ o = 7 ∨ o = 8 then from' 38
  else if o = 9 then from' 68
  else if o = 0x0A then cmdFld c 35 5 != 0 || from' 230
  else false

/-- The counts of reserved bits. -/
def State.seqResv (s : State) (c : Cmd) : State := s.countN Reg.seqEvcViol (b2n (seqReserved (cmdOpcode c) c))

/-- The lag of a stream (R228). -/
def State.lag (s : State) (n : Nat) : Nat := s.reg (Reg.seqSLag n)

/-- NOP. -/
def nopEffect (c : Cmd) (s : State) : State := s.seqResv c

/-- ADVANCE (R233, R234). -/
def advanceEffect (n : Nat) (c : Cmd) (s : State) : State :=
  let k := cmdFld c 32 32
  let s := s.seqResv c
  if k = 0 then s.count Reg.seqEvcEmpty else s.setStream n { s.stream n with offset := (s.stream n).offset + k }

/-- SLACK (R228, R233, R234). -/
def slackEffect (n : Nat) (c : Cmd) (s : State) : State :=
  let k := cmdFld c 32 32
  let s := s.seqResv c
  if k = 0 then s.count Reg.seqEvcEmpty else s.put (Reg.seqSLag n) (s.lag n - min (s.lag n) k)

/-- WAITCUE once its cue has been reached (R243); before, the stream shows its wait. -/
def waitcueEffect (n : Nat) (c : Cmd) (s : State) : State :=
  if cueReached (s.cueSeen (cmdFld c 32 8) s.now) (waitValue s n c) then (s.seqResv c).putFld (Reg.seqSStatus n) 0 4 0
  else s.putFld (Reg.seqSStatus n) 0 4 1

/-- POSTCUE (R233, R244, R245). -/
def postcueEffect (c : Cmd) (s : State) : State := (s.seqResv c).postCue (cmdFld c 32 8) (cmdFld c 40 32) s.now

/-- A SLEEP of a gate's target (R250): it waits for idleness; a unit gated already stays gated, at the deeper level and
with the new wake; one in its wake is gated once that is complete. -/
def State.sleep (s : State) (k level : Nat) (wake : Option Nat) : State :=
  let new : Gate := { level, wakeAt := wake, phase := 0, at' := 0 }
  match s.seq.gates.get? k with
  | none => s.setGate k new
  | some g =>
    if g.phase = 0 then s.setGate k new
    else if g.phase = 2 then s.setGate k { g with next := some (level, wake) }
    else (if g.level < level then s.loseState k level else s).setGate k { g with level := max g.level level, wakeAt := wake }

/-- SLEEP (R234, R250, R251): the gating waits for its target, and its wake is planned. -/
def sleepEffect (c : Cmd) (s : State) : State :=
  let t := cmdFld c 32 12
  let level := cmdFld c 44 2
  let next := cmdFld c 64 32
  let s := s.seqResv c
  if 0xA0 ≤ t ∨ level = 0 then s.count Reg.seqEvcViol
  else
    let wake := if next = 0xFFFFFFFF then none else some (s.now + next - (gateTimes level).2)
    s.sleep (gateKey t level) level wake

/-- QBOUND (R234, R247): takes a credit; with none, the stream shows its wait. -/
def qboundEffect (n : Nat) (c : Cmd) (s : State) : State :=
  let q := cmdFld c 32 6
  if !s.queueOk q false then (s.seqResv c).count Reg.seqEvcViol
  else if s.fld (Reg.seqQCred q) 0 5 = 0 ∨ s.denied q then s.putFld (Reg.seqSStatus n) 0 4 3
  else (s.seqResv c).putFld (Reg.seqQCred q) 0 5 (s.fld (Reg.seqQCred q) 0 5 - 1)

/-- QWAIT (R234, R247). -/
def qwaitEffect (n : Nat) (c : Cmd) (s : State) : State :=
  let q := cmdFld c 32 6
  if !s.queueOk q true then (s.seqResv c).count Reg.seqEvcViol
  else if s.reg (Reg.seqQArr q) = s.reg (Reg.seqQCons q) then s.putFld (Reg.seqSStatus n) 0 4 2
  else s.seqResv c

/-- QFREE (R234, R248): CONS counts on and one credit goes to the peer. -/
def qfreeEffect (c : Cmd) (s : State) : State :=
  let q := cmdFld c 32 6
  let s := s.seqResv c
  if !s.queueOk q true then s.count Reg.seqEvcViol
  else if s.reg (Reg.seqQArr q) = s.reg (Reg.seqQCons q) then s.count Reg.seqEvcViol
  else
    let p := s.peerOf q
    let s := s.put (Reg.seqQCons q) ((s.reg (Reg.seqQCons q) + 1) % 2 ^ 32)
    s.sendSmall (s.routeTo p.1).1 p.1 false { emptyMsg 1 s.device with queue := p.2 }

/-- BGSLOT (R234, R258): only the stream that `SEQ_CFG.BGSTREAM` names opens slots. -/
def bgslotEffect (n : Nat) (c : Cmd) (s : State) : State :=
  let len := cmdFld c 32 32
  let cls := cmdFld c 64 4
  let s := s.seqResv c
  if len = 0 ∨ cls = 0 then s.count Reg.seqEvcEmpty
  else if s.fld Reg.seqCfg 2 6 ≠ n then s
  else { s with seq := { s.seq with slots := s.seq.slots ++ [{ classes := cls, closes := s.now + len }] } }

/-- The open background slot that closes first closes (R258). -/
def bgslotCloseEffect (s : State) : State :=
  match s.seq.slots.mergeSort fun a b => decide (a.closes ≤ b.closes) with
  | [] => s
  | b :: _ => let s := s.atCycle b.closes; { s with seq := { s.seq with slots := s.seq.slots.erase b } }

/-- EXPAND (R235, R237): the expansion begins; in the compatibility order it is a violation. -/
def expandEffect (n : Nat) (c : Cmd) (s : State) : State :=
  if s.fld Reg.seqCfg 1 1 = 1 then s.count Reg.seqEvcViol
  else
    let s := s.seqResv c
    (s.setStream n { s.stream n with expand := some ⟨c, .forward, 0, 0, []⟩ }).putFld (Reg.seqSStatus n) 4 1 1

/-- STEPEND (R233): the program begins again for the next step. -/
def stependEffect (n : Nat) (c : Cmd) (s : State) : State :=
  let s := (s.seqResv c).setStream n { s.stream n with step := (s.stream n).step + 1, offset := 0 }
  if s.fld Reg.seqCfg 1 1 = 1 then s else s.put (Reg.seqSHead n) 0

/-- START (R232, R267) in step `step`: the routine begins, its argument in a0, and makes its forward reads (R203). -/
def startEffect (c : Cmd) (step : Nat) (s : State) : State :=
  let k := cmdUnit c - 0xA0
  s.toUnit (cmdUnit c) fun s =>
    let x := s.serviceCore k
    if x.busy then s
    else
      let s := s.countN Reg.seqEvcViol (b2n (cmdFld c 160 96 != 0))
      let y : Core := { x with busy := true, entry := cmdFld c 32 64, illegal := false, copies := []
                               regs := x.regs.set 10 (BitVec.ofNat 64 (cmdFld c 96 64)) }
      { s with seq := { s.seq with cores := s.seq.cores.set k y } }.routineReads k (cmdFld c 32 64) (cmdFld c 96 64) step

/-- A sequencer command in a stream (R232, R233); from 0x0C on it does nothing and is counted. -/
def seqCommand (n : Nat) (c : Cmd) (s : State) : State :=
  let o := cmdOpcode c
  if o = 0 then nopEffect c s else if o = 1 then advanceEffect n c s else if o = 2 then slackEffect n c s
  else if o = 3 then waitcueEffect n c s else if o = 4 then postcueEffect c s else if o = 5 then sleepEffect c s
  else if o = 6 then qboundEffect n c s else if o = 7 then qwaitEffect n c s else if o = 8 then qfreeEffect c s
  else if o = 9 then bgslotEffect n c s else if o = 0x0A then expandEffect n c s
  else if o = 0x0B then stependEffect n c s else s.count Reg.seqEvcViol

/-- A command delivered in its issue cycle (R225, R232), with the step that its draws take (R50). -/
def deliverCommand (n : Nat) (c : Cmd) (step : Nat) (s : State) : State :=
  let o := cmdOpcode c
  match unitClass (cmdUnit c) with
  | .seq => if o < 0x20 then seqCommand n c s else s.count Reg.seqEvcViol
  | .engine =>
    if o = 0x20 then prodEffect c s else if o = 0x21 then drainEffect c step s
    else if reaches c then engineUndefined c s else s.count Reg.seqEvcViol
  | .row =>
    if reaches c then
      rowIssue (if o = 0x30 then .red else if o = 0x31 then .ew else if o = 0x32 then .fn else if o = 0x33 then .rblk
        else if o = 0x34 then .tblld else .undef) c step s
    else s.count Reg.seqEvcViol
  | .liner =>
    if reaches c then
      lnrIssue (if o = 0x38 then .stash else if o = 0x39 then .unstash else if o = 0x3A then .sreset else .undef) c step s
    else s.count Reg.seqEvcViol
  | .link =>
    if reaches c then
      seamIssue (if o = 0x40 then .send else if o = 0x41 then .write else if o = 0x42 then .mcast else if o = 0x43 then .post
        else .undef) c s
    else s.count Reg.seqEvcViol
  | .core => if o = 0x50 then startEffect c step s else s.count Reg.seqEvcViol
  | .none => s.count Reg.seqEvcViol

/-! ### Expansion (R235 to R239) -/

/-- Fields of EXPAND (R235). -/
structure ExpandCmd where
  stage : Nat
  lead : Bool
  fwd : Nat
  fwdLen : Nat
  bwd : Nat
  bwdLen : Nat
  rcp : Nat
  rcpLen : Nat
  spm : Nat
  nstr : Nat
  deriving DecidableEq, Repr

/-- EXPAND decoded (R235). -/
def ExpandCmd.of (c : Cmd) : ExpandCmd :=
  { stage := cmdFld c 32 2, lead := cmdFld c 34 1 == 1, fwd := cmdFld c 40 40, fwdLen := cmdFld c 80 16
    bwd := cmdFld c 96 40, bwdLen := cmdFld c 136 16, rcp := cmdFld c 152 40, rcpLen := cmdFld c 192 16
    spm := cmdFld c 208 16, nstr := cmdFld c 224 6 }

/-- A command with the bits `[lo + w - 1 : lo]` replaced. -/
def setCmd (c : Cmd) (lo w v : Nat) : Cmd := BitVec.ofNat 256 (putBits c.toNat lo w v)

/-- A template command patched for micro-batch `b` (R236). -/
def patched (s : State) (stage b : Nat) (c : Cmd) : Cmd :=
  let k := cmdPatch c
  if k = 0 then c
  else
    let base := Regs.pair s.regs Reg.seqStageBaseLo + 128 * stage + 32 * (k - 1)
    (List.range 4).foldl (fun c i =>
      let e := s.hbm.readNat (base + 8 * i) 8
      let pos := bits e 0 8
      let w := bits e 8 8
      if w = 0 then c else setCmd c pos w ((cmdFld c pos w + b * bits e 16 32) % 2 ^ w)) c

/-- The command at a template address. -/
def State.templateCmd (s : State) (a i : Nat) : Cmd := BitVec.ofNat 256 (s.hbm.readNat (a + 32 * i) 32)

/-- An UNSTASH with RONLY set (R146, R238). -/
def isRonly (c : Cmd) : Bool := cmdOpcode c == 0x39 && lnrRonly c

/-- A forward command under STASH mode `mode` outside a recompute: none if the expansion drops it (R237, R238). -/
def forwardCmd (mode : Nat) (c : Cmd) : Option Cmd :=
  if isRonly c then none
  else if cmdOpcode c = 0x38 ∧ mode = 2 ∧ cmdFld c 72 3 ≠ 7 then none
  else some c

/-- A forward command inside a recompute (R238). The kinds of MASKED that a template holds for RECOMPUTE are the planner's
(log 114). -/
def recomputeCmd (c : Cmd) : Option Cmd :=
  let o := cmdOpcode c
  if o = 0x38 then (if cmdFld c 72 3 = 7 then none else some (setCmd c 75 1 1))
  else if (0x40 ≤ o ∧ o < 0x50) ∨ o = 6 ∨ o = 7 ∨ o = 8 ∨ o = 4 ∨ o = 5 ∨ o = 9 ∨ o = 0x50 then none
  else if o = 0x21 then some (setCmd c 46 1 0)
  else some c

/-- A backward command (R145, R238): of a recomputed micro-batch, its UNSTASH reads the scratch area. -/
def backwardCmd (recomp : Bool) (c : Cmd) : Option Cmd :=
  if isRonly c then none
  else if recomp && cmdOpcode c == 0x39 then some (setCmd c 75 1 1) else some c

/-- What a stream has next: a command, whether it is inserted by a recompute, or a wait on a cue, or nothing. -/
inductive NextItem where
  | cmd (c : Cmd) (inserted : Bool)
  | wait (code : Nat)
  | empty
  deriving DecidableEq, Repr

/-- The Liner commands of a list of clusters are complete (R237). -/
def State.linerDone (s : State) (cls : List Nat) : Bool :=
  cls.all fun c =>
    let q : LnrQueue := Tbl.get {} s.lnr.queues c
    q.held.isEmpty && q.doneAt.all (· ≤ s.now)

/-- The SRESET that a lead stream issues (R237), planned a cycle after the stream's command before (log 24). -/
def stageReset (stage : Nat) : Cmd := BitVec.ofNat 256 (0x3A + 0x1A8 * 256 + 2 ^ 20 + stage * 2 ^ 76)

/-- A stream's expansion moved on: `e` replaced, or ended. -/
def State.setExpand (s : State) (n : Nat) (e : Option Expansion) : State :=
  let s := s.setStream n { s.stream n with expand := e }
  let in' := match e with | some x => x.phase == .preamble || x.phase == .refwd | none => false
  (s.putFld (Reg.seqSStatus n) 4 1 (b2n e.isSome)).putFld (Reg.seqSStatus n) 5 1 (b2n in')

/-- A recomputed micro-batch is counted, once on the device whichever streams expand the stage (R238). -/
def State.countRecomp (s : State) (step stage b : Nat) : State :=
  if s.seq.recomputed.contains (step, stage, b) then s
  else
    let old := s.seq.recomputed.filter fun e => decide (step ≤ e.1 + 1)
    { s with seq := { s.seq with recomputed := old ++ [(step, stage, b)] } }.count Reg.seqEvcRecomp

/-- The stage turns to the backward pass of micro-batch `b`, with a recompute before it where the RECOMP bit says so (R237,
R238). -/
def State.turnBack (s : State) (n : Nat) (e : Expansion) (b : Nat) : State :=
  let x := ExpandCmd.of e.cmd
  if recompBit s.regs x.stage b then
    (s.countRecomp (s.stream n).step x.stage b).setExpand n (some { e with phase := .preamble, mb := b, idx := 0 })
  else s.setExpand n (some { e with phase := .backward, mb := b, idx := 0 })

/-- The expansion brought to its next command (R237): dropped commands are passed, phases end, and the waits inside it
are either over or hold. -/
def expandNext : Nat → Nat → State → State × NextItem
  | 0, _, s => (s, .empty)
  | fuel + 1, n, s =>
    match (s.stream n).expand with
    | none => (s, .empty)
    | some e =>
      let x := ExpandCmd.of e.cmd
      let bs := s.fld Reg.seqMbCount 0 9
      let go (e : Expansion) : State × NextItem := expandNext fuel n (s.setExpand n (some e))
      match e.phase with
      | .forward =>
        if bs ≤ e.mb then go { e with phase := .stashWait, mb := 0, idx := 0 }
        else if x.fwdLen ≤ e.idx then go { e with mb := e.mb + 1, idx := 0 }
        else match forwardCmd (s.fld Reg.seqMode 5 2) (patched s x.stage e.mb (s.templateCmd x.fwd e.idx)) with
          | some c => (s, .cmd c false)
          | none => go { e with idx := e.idx + 1 }
      | .stashWait =>
        if cueReached (s.cueSeen (232 + x.stage) s.now) (x.spm * bs) then expandNext fuel n (s.turnBack n e 0)
        else (s, .wait 1)
      | .preamble =>
        if x.rcpLen ≤ e.idx then go { e with phase := .refwd, idx := 0 }
        else (s, .cmd (patched s x.stage e.mb (s.templateCmd x.rcp e.idx)) true)
      | .refwd =>
        if x.fwdLen ≤ e.idx then go { e with phase := .backward, idx := 0 }
        else match recomputeCmd (patched s x.stage e.mb (s.templateCmd x.fwd e.idx)) with
          | some c => (s, .cmd c true)
          | none => go { e with idx := e.idx + 1 }
      | .backward =>
        if x.bwdLen ≤ e.idx then
          if bs ≤ e.mb + 1 then go { e with phase := .unstashWait } else expandNext fuel n (s.turnBack n e (e.mb + 1))
        else match backwardCmd (recompBit s.regs x.stage e.mb) (patched s x.stage e.mb (s.templateCmd x.bwd e.idx)) with
          | some c => (s, .cmd c false)
          | none => go { e with idx := e.idx + 1 }
      | .unstashWait =>
        if !s.linerDone e.clusters then (s, .wait 1)
        else
          let s := s.addCue (236 + x.stage) 1 s.now
          expandNext fuel n (s.setExpand n (if x.lead then some { e with phase := .leadWait } else none))
      | .leadWait =>
        (s, if cueReached (s.cueSeen (236 + x.stage) s.now) x.nstr then .cmd (stageReset x.stage) false else .wait 1)

/-- The expansion after one of its commands has issued; the lead's SRESET ends it. -/
def State.expandIssued (s : State) (n : Nat) (c : Cmd) : State :=
  match (s.stream n).expand with
  | none => s
  | some e =>
    let cl := cmdFld c 32 5
    let unstash := e.phase == .backward && cmdOpcode c == 0x39 && !e.clusters.contains cl
    s.setExpand n (if e.phase = .leadWait then none
      else some { e with idx := e.idx + 1, clusters := if unstash then e.clusters ++ [cl] else e.clusters })

/-! ### COMMAND_ISSUE (R225 to R230, R240) -/

/-- A stream may issue: sequencer and stream enabled, outside job start, no abort, and its step before the next epoch's
(R227, R271, R284, R559). -/
def State.streamRuns (s : State) (n : Nat) : Bool :=
  s.fld Reg.seqCfg 0 1 == 1 && s.fld (Reg.seqSCfg n) 0 1 == 1 && !s.seq.halted && !s.job.start && decide (n < 40) &&
    match s.job.boundary with | some b => decide ((s.stream n).step < b) | none => true

/-- T(n) of the stream's step (R227). -/
def State.stepStart (s : State) (step : Nat) : Nat :=
  Regs.pair s.regs Reg.seqEpochStartLo + (step - s.job.n0) * s.reg Reg.seqPeriod

/-- What the stream has next (R227, R237, R240, R241). -/
def State.nextItem (s : State) (n : Nat) : State × NextItem :=
  let head := s.reg (Reg.seqSHead n)
  let base := Regs.pair s.regs (Reg.seqSBaseLo n)
  let len := s.reg (Reg.seqSLen n)
  if s.fld Reg.seqCfg 1 1 = 1 then
    if head = s.reg (Reg.seqSTail n) then (s, .wait 9) else (s, .cmd (s.templateCmd base (head % max 1 len)) false)
  else
    let r := expandNext 1048576 n s
    match r.2 with
    | .empty => if len ≤ head then (r.1, .empty) else (r.1, .cmd (r.1.templateCmd base head) false)
    | _ => r

/-- The cycle in which a command is due (R228, R238, R240), and its planned offset. -/
def State.dueAt (s : State) (n : Nat) (c : Cmd) (inserted : Bool) : Nat × Nat :=
  let x := s.stream n
  let ring := Tbl.get 0 x.ringAt (s.reg (Reg.seqSHead n))
  if s.fld Reg.seqCfg 1 1 = 1 then (max ring (if x.fresh then s.now else x.lastIssue + max 1 (cmdDelta c)), x.offset)
  else if inserted then (x.lastIssue + cmdDelta c, x.offset)
  else (s.stepStart x.step + x.offset + cmdDelta c + s.lag n, x.offset + cmdDelta c)

/-- The lag grows (R228, R230): counted in `SEQ_STALL`, shown in `SEQ_MAXLAG`, and beyond the limit a fault. -/
def State.growLag (s : State) (n d : Nat) : State :=
  let l := s.lag n + d
  let s := { s with regs := Regs.count64 (Regs.put (Regs.put s.regs (Reg.seqSLag n) (min l 0xFFFFFFFF)) Reg.seqMaxlag
    (max (s.reg Reg.seqMaxlag) (min l 0xFFFFFFFF))) Reg.seqStallLo d }
  if s.reg Reg.seqLagLimit < l then s.fault 0x1F8 0x03 4 0 n else s

/-- A stretch of TPX follows the command at program index `head` of the stream (R511). -/
def State.stretch (s : State) (n head : Nat) : State :=
  if s.fld Reg.tpxStCfg 6 1 = 1 ∧ s.fld Reg.tpxStCfg 0 6 = n ∧ s.fld Reg.tpxStCmd 0 16 = head then
    let s := (s.setStream n { s.stream n with notBefore := s.now + 1 + s.fld Reg.tpxStCfg 16 16 }).count Reg.tpxEvcStretch
    if s.fld Reg.tpxStCfg 7 1 = 1 then s.putFld Reg.tpxStCfg 6 1 0 else s
  else s

/-- The first cycle in which the stream could issue a command that is due in `due` (R225, R511): a cycle after its last
one, and after a stretch. -/
def Stream.from' (x : Stream) (due : Nat) : Nat := max due (max x.notBefore (if x.fresh then 0 else x.lastIssue + 1))

/-- The event of a late command (R228, R260): under the cause that held it last, and where none was seen as a command not
prefetched (log 93); a touch-list wait is one of the slow tier's too (R199), a denied credit one of TPX's (R517). -/
def State.lateEvent (s : State) (c : Cmd) (code : Nat) : State :=
  let isSeq := unitClass (cmdUnit c) == .seq
  let denied := isSeq && cmdOpcode c == 6 && code == 3 && (List.range 4).any fun k =>
    s.fld (Reg.tpxCd k) 6 1 == 1 && s.fld (Reg.tpxCd k) 0 6 == cmdFld c 32 6
  let listWait := isSeq && cmdOpcode c == 3 && cmdFld c 32 8 == 240
  match causeCounter (if code = 0 then 6 else code) with
  | some a => ((s.count a).countN Reg.tpxEvcCdeny (b2n denied)).countN Reg.sltEvcWait (b2n listWait)
  | none => s

/-- A command of stream `n` issues in the present cycle, due in `due` at planned offset `off` (R225, R228, R230); an inserted
one leaves the offset as it stands (R238; DEDUCED, log 131). -/
def State.issue (s : State) (n : Nat) (c : Cmd) (inserted : Bool) (due off : Nat) : State :=
  let x := s.stream n
  let native := s.fld Reg.seqCfg 1 1 == 0
  let code := s.fld (Reg.seqSStatus n) 0 4
  let held := decide (x.from' due < s.now)
  let busy := b2n (s.seq.lastIssue != some s.now)
  let s := { s with regs := Regs.count64 s.regs Reg.seqBusyLo busy, seq := { s.seq with lastIssue := some s.now } }
  let s := if native && held then s.lateEvent c code else s
  let grow := if !native then 0 else if inserted then s.now - x.lastIssue else s.now - due
  let s := if grow = 0 then s else s.growLag n grow
  let s := s.putFld (Reg.seqSStatus n) 0 4 0
  let head := s.reg (Reg.seqSHead n)
  let inExpand := x.expand.isSome && native
  let s := s.setStream n { s.stream n with
    offset := off, lastIssue := s.now, fresh := false, fetched := if x.leads then x.fetched else x.fetched - 1
    notBefore := 0, ringAt := x.ringAt.erase head
    ronly := if inserted && isRonly c then some (cmdFld c 32 5) else none }
  let s := if inExpand then s.expandIssued n c else s.put (Reg.seqSHead n) ((head + 1) % 2 ^ 32)
  let s := if !native && cmdPatch c != 0 && reaches c then s.count Reg.seqEvcViol else s
  let s := deliverCommand n c (if native then x.step else s.reg Reg.seqStep) s
  let s := if inserted then s.setStream n { s.stream n with offset := off } else s
  if inExpand then s else s.stretch n head

/-- COMMAND_ISSUE (R228 to R230): the stream's next command comes due; if a condition of R229 fails, the stream shows what
holds it, else the command issues. -/
def commandIssueEffect (n : Nat) (s : State) : State :=
  if !s.streamRuns n then s
  else
    let r := s.nextItem n
    let s := r.1
    match r.2 with
    | .empty => s
    | .wait code => s.putFld (Reg.seqSStatus n) 0 4 code
    | .cmd c inserted =>
      let d := s.dueAt n c inserted
      let x := s.stream n
      let s := s.atCycle (x.from' d.1)
      let s := if s.awake (cmdUnit c) || !reaches c then s else s.callUnit (cmdUnit c)
      let code := match x.ronly with
        | some cl => if s.linerDone [cl] then s.holds n c else 8
        | none => s.holds n c
      if code = 0 then s.issue n c inserted d.1 d.2
      else
        let s := s.putFld (Reg.seqSStatus n) 0 4 code
        if s.fld Reg.seqCfg 1 1 = 0 ∧ s.reg Reg.seqLagLimit < s.lag n + (s.now - d.1) then s.fault 0x1F8 0x03 4 0 n else s

end Sys2Proof.Machine
end

