-- ==== Sys2Proof/Machine/Cores.lean ====
section
/-! DEFINITION. The service-core extension (07_clockwork, R265 to R267): the custom-0 instructions on a hart's registers. -/

namespace Sys2Proof.Machine

/-- The fields of an R-type instruction word (R265). -/
structure ZcInsn where
  rd : Nat
  rs1 : Nat
  rs2 : Nat
  funct3 : Nat
  funct7 : Nat
  opcode : Nat
  deriving DecidableEq, Repr

/-- An instruction word decoded. -/
def ZcInsn.of (w : Word) : ZcInsn :=
  let v := w.toNat
  { opcode := bits v 0 7, rd := bits v 7 5, funct3 := bits v 12 3, rs1 := bits v 15 5, rs2 := bits v 20 5, funct7 := bits v 25 7 }

/-- The state with a service core replaced. -/
def State.setCore (s : State) (k : Nat) (c : Core) : State :=
  { s with seq := { s.seq with cores := s.seq.cores.set k c } }

/-- A hart's register; x0 reads 0. -/
def Core.x (c : Core) (r : Nat) : Nat := if r = 0 then 0 else (Tbl.get 0 c.regs r).toNat

/-- A hart's register written; a write to x0 is discarded. -/
def Core.setX (c : Core) (r v : Nat) : Core :=
  if r = 0 then c else { c with regs := c.regs.set r (BitVec.ofNat 64 v) }

/-- A core executes its hart's next instruction: it runs a routine, waits for nothing, is awake and not isolated. -/
def State.coreRuns (s : State) (k : Nat) : Bool :=
  let c := s.serviceCore k
  c.busy && c.waitUntil.isNone && c.waitCue.isNone && s.awake (0xA0 + k) && !s.isolated (0xA0 + k)

/-- An instruction of the extension with the given funct3 (R265): a word with funct7 other than 0 or funct3 0b110 raises
the illegal-instruction exception; a word of another form is not this instruction and does nothing here. -/
def zcRun (k : Nat) (insn : Word) (f3 : Nat) (f : ZcInsn → State → State) (s : State) : State :=
  let i := ZcInsn.of insn
  if !s.coreRuns k || i.opcode != 0x0B then s
  else if i.funct7 ≠ 0 ∨ i.funct3 = 6 then s.setCore k { s.serviceCore k with illegal := true }
  else if i.funct3 = f3 then f i s else s

/-- The compatibility stream that zc.issue may append to (R240, R265). -/
def State.ringOk (s : State) (n : Nat) : Bool :=
  s.fld Reg.seqCfg 1 1 == 1 && decide (n < 40) && s.fld (Reg.seqSCfg n) 0 1 == 1

/-- zc.issue (R265): 0 accepted, 1 full, 2 native or invalid; the command reaches the ring 24 cc later. -/
def zcIssueEffect (k : Nat) (insn : Word) (s : State) : State :=
  zcRun k insn 0 (fun i s =>
    let c := s.serviceCore k
    let n := c.x i.rs2 % 64
    let tail := s.reg (Reg.seqSTail n)
    let len := s.reg (Reg.seqSLen n)
    if !s.ringOk n then (s.setCore k (c.setX i.rd 2)).count Reg.seqEvcViol
    else if len ≤ (tail + 2 ^ 32 - s.reg (Reg.seqSHead n)) % 2 ^ 32 then s.setCore k (c.setX i.rd 1)
    else
      let s := { s with hbm := s.hbm.write (Regs.pair s.regs (Reg.seqSBaseLo n) + 32 * (tail % max 1 len)) (s.read48 (c.x i.rs1) 32) }
      let x := s.stream n
      ((s.setStream n { x with ringAt := x.ringAt.set tail (s.now + 24) }).setCore k (c.setX i.rd 0)).put (Reg.seqSTail n)
        ((tail + 1) % 2 ^ 32)) s

/-- zc.wait (R265). -/
def zcWaitEffect (k : Nat) (insn : Word) (s : State) : State :=
  zcRun k insn 1 (fun i s =>
    let c := s.serviceCore k
    if c.x i.rs1 ≤ s.now then s else s.setCore k { c with waitUntil := some (c.x i.rs1) }) s

/-- zc.time (R265). -/
def zcTimeEffect (k : Nat) (insn : Word) (s : State) : State :=
  zcRun k insn 2 (fun i s => s.setCore k ((s.serviceCore k).setX i.rd s.now)) s

/-- zc.cue (R245, R265): reads the cue, then posts to it 12 cc later unless rs2 is 0. -/
def zcCueEffect (k : Nat) (insn : Word) (s : State) : State :=
  zcRun k insn 3 (fun i s =>
    let c := s.serviceCore k
    let q := c.x i.rs1 % 256
    let add := c.x i.rs2 % 2 ^ 32
    let s := s.setCore k (c.setX i.rd (s.cueAt q s.now))
    if c.x i.rs2 = 0 then s else s.postCue q add (s.now + 12)) s

/-- zc.cuewait (R265): passes once the cue satisfies R243, else the hart stalls. -/
def zcCuewaitEffect (k : Nat) (insn : Word) (s : State) : State :=
  zcRun k insn 4 (fun i s =>
    let c := s.serviceCore k
    let q := c.x i.rs1 % 256
    let v := c.x i.rs2 % 2 ^ 32
    s.setCore k { c with waitCue := if cueReached (s.cueSeen q s.now) v then none else some (q, v) }) s

/-- zc.beat (R265, R266, R318): the beat at rs1, its source, partition and abstention written by hardware. -/
def zcBeatEffect (k : Nat) (insn : Word) (s : State) : State :=
  zcRun k insn 5 (fun i s =>
    let c := s.serviceCore k
    let b := beatOf (s.read48 (c.x i.rs1) 16) (s.read48 (c.x i.rs1 + 16) 256) 0
    let o := c.x i.rs2
    let m := makeBeat b.tensor b.index s.device (0xA0 + k) b.lepoch (bits o 0 3) b.boundOk b.vals
    let ob : OutBeat := { device := if bit o 13 then some (bits o 3 10) else none, part := bits o 0 3
                          beat := { m with abstain := m.abstain || b.abstain }, readyAt := s.now }
    s.setCore k { c.setX i.rd 0 with beats := c.beats ++ [ob] }) s

/-- zc.done (R265, R267). -/
def zcDoneEffect (k : Nat) (insn : Word) (s : State) : State :=
  zcRun k insn 7 (fun _ s => s.setCore k { s.serviceCore k with busy := false }) s

/-- A stalled hart resumes (R265): the counter reaches zc.wait's target, or zc.cuewait's cue is satisfied. -/
def zcWaitResumeEffect (k : Nat) (s : State) : State :=
  let c := s.serviceCore k
  match c.waitUntil, c.waitCue with
  | some t, _ => (s.atCycle t).setCore k { c with waitUntil := none }
  | none, some q => if cueReached (s.cueSeen q.1 s.now) q.2 then s.setCore k { c with waitCue := none } else s
  | none, none => s

end Sys2Proof.Machine
end

