-- ==== Sys2Proof/Machine/Images.lean ====
section
/-! DEFINITION. The Bexone container (13_host_ports_and_images, R441 to R448): its sections and fields, the checks of R444,
the verification of R414 and R415, and the fields of the merged POLICY section with their defaults (R297, R360, R446). -/

namespace Sys2Proof.Machine

/-- Why an image is refused: the reason codes of JOB_REFUSED (R440); which check of R444 gives which code is DEDUCED
(log 25). -/
inductive Bad where
  | signature | svn | container | range | lacking | check | capacity
  deriving DecidableEq, Repr

/-- The code of R440. -/
def Bad.code : Bad → Nat
  | .signature => 1 | .svn => 2 | .container => 3 | .range => 4 | .lacking => 5 | .check => 6 | .capacity => 7

/-- What a field's value must be: its length in bytes and range, or a run of entries. -/
inductive FieldKind where
  /-- An integer or other value of exactly `n` bytes; as an integer it lies from `lo` to `hi`. -/
  | num (n lo hi : Nat)
  /-- A run of 1 to `most` entries of `n` bytes. -/
  | run (n most : Nat)
  | bytes
  /-- Nested fields (R445, ENTRY). -/
  | nested
  deriving DecidableEq, Repr

/-- A field of the image: its tag, kind, whether its section requires it, and how often it may stand (R445 to R447). -/
structure FieldRow where
  tag : Nat
  kind : FieldKind
  required : Bool := false
  most : Nat := 1
  deriving DecidableEq, Repr

/-- Fields of DEVICE, PORTS and PARTNERS (R445). -/
def fieldRows0 : List FieldRow := [
  { tag := 0x0100, kind := .num 8 0 (2 ^ 64 - 1) }, { tag := 0x0101, kind := .num 1 0 8, required := true },
  { tag := 0x0102, kind := .num 2 0 1023, required := true }, { tag := 0x0103, kind := .num 2 1 1024, required := true },
  { tag := 0x0104, kind := .num 4 0 (2 ^ 32 - 1) }, { tag := 0x0105, kind := .num 1 0 1 },
  { tag := 0x0106, kind := .num 16 0 (2 ^ 128 - 1), required := true },
  { tag := 0x0107, kind := .num 20 0 (2 ^ 160 - 1), required := true, most := 4 },
  { tag := 0x0200, kind := .num 36 0 (2 ^ 288 - 1), most := 4 }, { tag := 0x0201, kind := .num 2 0 65535 },
  { tag := 0x0202, kind := .num 1 0 255 }, { tag := 0x0203, kind := .num 8 0 (2 ^ 64 - 1), most := 36 },
  { tag := 0x0300, kind := .nested, most := 8 }]

/-- Fields of a PARTNERS entry (R363, R445). -/
def entryRows : List FieldRow := [
  { tag := 0x0301, kind := .num 1 0 8, required := true }, { tag := 0x0302, kind := .num 1 0 7, required := true },
  { tag := 0x0303, kind := .num 1 25 100 }, { tag := 0x0304, kind := .num 4 1000 100000 },
  { tag := 0x0305, kind := .num 2 64 4096 }, { tag := 0x0306, kind := .num 1 3 16 },
  { tag := 0x0307, kind := .num 1 3 16 }, { tag := 0x0308, kind := .num 1 3 16 },
  { tag := 0x0309, kind := .num 2 100 10000 }, { tag := 0x030A, kind := .num 2 100 10000 },
  { tag := 0x030B, kind := .num 2 5 1000 }, { tag := 0x030C, kind := .bytes, required := true, most := 4 }]

/-- Fields of POLICY by the modes and bounds (R446, R16, R257, R465). -/
def fieldRows1 : List FieldRow := [
  { tag := 0x0400, kind := .num 1 0 2 }, { tag := 0x0401, kind := .num 1 0 1 }, { tag := 0x0402, kind := .num 1 0 2 },
  { tag := 0x0403, kind := .num 1 0 2 }, { tag := 0x0404, kind := .num 1 0 1 }, { tag := 0x0405, kind := .num 1 8 15 },
  { tag := 0x0406, kind := .num 2 700 780 }, { tag := 0x0407, kind := .num 1 48 64 },
  { tag := 0x0408, kind := .num 2048 0 (2 ^ 16384 - 1) }, { tag := 0x0409, kind := .num 4 0 (2 ^ 32 - 1) },
  { tag := 0x040A, kind := .num 4 0 (2 ^ 32 - 1) }, { tag := 0x040B, kind := .num 4 0 (2 ^ 32 - 1) },
  { tag := 0x040C, kind := .num 4 0 (2 ^ 32 - 1) }]

/-- Fields of POLICY for the mapping (R297). -/
def fieldRows2 : List FieldRow := [
  { tag := 0x0410, kind := .num 2 1 256 }, { tag := 0x0411, kind := .num 2 1 256 }, { tag := 0x0412, kind := .num 2 1 256 },
  { tag := 0x0413, kind := .num 4 0 (2 ^ 32 - 1) }, { tag := 0x0414, kind := .num 4 0 (2 ^ 32 - 1) },
  { tag := 0x0415, kind := .num 1 1 10 }, { tag := 0x0416, kind := .num 4 0 (2 ^ 32 - 1) },
  { tag := 0x0417, kind := .num 1 0 255 }, { tag := 0x0418, kind := .num 1 2 64 },
  { tag := 0x0419, kind := .num 4 0 (2 ^ 32 - 1) }, { tag := 0x041A, kind := .num 4 0 (2 ^ 32 - 1) },
  { tag := 0x041B, kind := .num 4 0 (2 ^ 32 - 1) }, { tag := 0x041C, kind := .num 2 0 65535 },
  { tag := 0x041D, kind := .num 4 0 (2 ^ 32 - 1) }, { tag := 0x041E, kind := .num 4 0 (2 ^ 32 - 1) },
  { tag := 0x041F, kind := .run 48 16 }]

/-- Fields of POLICY for outer sync (R349, R360). -/
def fieldRows3 : List FieldRow := [
  { tag := 0x0420, kind := .num 4 0 (2 ^ 32 - 1) }, { tag := 0x0421, kind := .num 4 0 (2 ^ 32 - 1) },
  { tag := 0x0422, kind := .num 4 0 (2 ^ 32 - 1) }, { tag := 0x0423, kind := .num 2 16 512 },
  { tag := 0x0424, kind := .num 2 16 512 }, { tag := 0x0425, kind := .num 2 16 512 }, { tag := 0x0426, kind := .num 1 0 1 },
  { tag := 0x0427, kind := .num 4 0 (2 ^ 32 - 1) }, { tag := 0x0428, kind := .num 1 0 4 },
  { tag := 0x0429, kind := .num 4 0 (2 ^ 32 - 1) }, { tag := 0x042A, kind := .num 2 0 65535 },
  { tag := 0x042B, kind := .num 4 0 (2 ^ 32 - 1) }, { tag := 0x042C, kind := .num 1 1 8 },
  { tag := 0x042D, kind := .num 1 0 255 }, { tag := 0x042E, kind := .num 4 0 (2 ^ 32 - 1) },
  { tag := 0x042F, kind := .num 4 0 (2 ^ 32 - 1) }, { tag := 0x0430, kind := .num 4 0 (2 ^ 32 - 1) },
  { tag := 0x0431, kind := .num 1 0 100 }]

/-- Fields of KEYS, FIRMWARE, TEST, TENSORS and JOBDATA (R420, R445, R447). -/
def fieldRows4 : List FieldRow := [
  { tag := 0x0500, kind := .run 57 4, required := true }, { tag := 0x0501, kind := .num 2 0 65535 },
  { tag := 0x0502, kind := .num 57 0 (2 ^ 456 - 1), required := true }, { tag := 0x0503, kind := .num 114 0 (2 ^ 912 - 1) },
  { tag := 0x0504, kind := .run 64 9 }, { tag := 0x0505, kind := .bytes }, { tag := 0x0506, kind := .num 1 16 28 },
  { tag := 0x0507, kind := .num 1 24 40 }, { tag := 0x0508, kind := .num 4 600 604800 },
  { tag := 0x0600, kind := .bytes, required := true }, { tag := 0x0601, kind := .bytes, required := true },
  { tag := 0x0602, kind := .bytes, required := true }, { tag := 0x0700, kind := .num 1 1 1 },
  { tag := 0x0800, kind := .num 24 0 (2 ^ 192 - 1), most := 2 ^ 32 }, { tag := 0x0900, kind := .bytes }]

/-- Every field (R445 to R447). -/
def fieldRows : List FieldRow := fieldRows0 ++ fieldRows1 ++ fieldRows2 ++ fieldRows3 ++ fieldRows4

/-- Sections of each image kind: TYPE and whether it is required (R443). -/
def sectionRows (job : Bool) : List (Nat × Bool) :=
  if job then [(4, true), (8, true), (9, true)]
  else [(1, true), (2, true), (3, false), (4, false), (5, true), (6, true), (7, false)]

/-- All bytes are zero. -/
def allZero (bs : List Byte) : Bool := bs.all (· == 0)

/-- TLV items of a byte string: a 2-byte tag, 2 zero bytes, a 4-byte LEN, the value, zeros to a multiple of `pad` (R442);
none where a zero byte is not zero or the string ends within an item. -/
def readItems (pad : Nat) : Nat → List Byte → Option (List (Nat × List Byte))
  | 0, bs => if bs.isEmpty then some [] else none
  | n + 1, bs =>
    if bs.isEmpty then some []
    else
      let len := fieldAt bs 4 4
      let total := (8 + len + pad - 1) / pad * pad
      if bs.length < total ∨ fieldAt bs 2 2 ≠ 0 ∨ !allZero ((bs.take total).drop (8 + len)) then none
      else (readItems pad n (bs.drop total)).map ((fieldAt bs 0 2, (bs.drop 8).take len) :: ·)

/-- A value against its row: none where it fits. -/
def FieldKind.check (k : FieldKind) (v : List Byte) : Option Bad :=
  match k with
  | .num n lo hi => if v.length ≠ n then some .container else if leNat v < lo ∨ hi < leNat v then some .range else none
  | .run n most =>
    if v.length % n ≠ 0 ∨ v.isEmpty then some .container else if n * most < v.length then some .range else none
  | .bytes => none
  | .nested => none

/-- Bytes that the fields of R445 to R447 fix inside a value: zero bytes, counts and ranges. -/
def innerCheck (tag : Nat) (v : List Byte) : Option Bad :=
  let f (o n : Nat) : Nat := fieldAt v o n
  let judge (zero inRange : Bool) : Option Bad := if !zero then some .container else if !inRange then some .range else none
  if tag = 0x0107 then judge (f 18 2 == 0) true
  else if tag = 0x0200 then
    judge (f 3 1 == 0 && f 10 2 == 0 && f 34 2 == 0)
      (decide (f 0 1 ≤ 3) && decide (f 1 1 ≤ 1) && decide (f 2 1 ≤ 4) && decide (4200 ≤ f 8 2))
  else if tag = 0x0203 then
    judge (f 7 1 == 0) (decide (f 0 1 ≤ 35) && decide (f 1 1 ≤ 1) && decide (f 4 2 ≤ 1023) && decide (f 6 1 ≤ 35))
  else if tag = 0x030C then
    judge (v.length == 56 + 16 * f 41 1 && f 54 2 == 0) (decide (f 41 1 ≤ 4) && decide (f 44 4 < 2 ^ 20))
  else if tag = 0x041F then judge ((List.range (v.length / 48)).all fun i => f (48 * i + 44) 4 == 0) true
  else if tag = 0x0504 then
    let es := List.range (v.length / 64)
    judge (es.all fun i => f (64 * i + 58) 6 == 0) (es.all fun i => decide (f (64 * i) 1 ≤ 8))
  else if tag = 0x0800 then judge (f 20 4 == 0) true
  else none

/-- Tags ascend; an equal tag stands only where the row is repeatable, and not too often. -/
def tagsOk (rows : List FieldRow) (fs : List (Nat × List Byte)) : Bool :=
  decide ((fs.map (·.1)).Pairwise (· ≤ ·)) &&
  fs.all fun f => match rows.find? (·.tag == f.1) with
    | some r => decide ((fs.filter fun g => g.1 == f.1).length ≤ r.most)
    | none => false

/-- The first failing field of a list. -/
def fieldsBad (rows : List FieldRow) (fs : List (Nat × List Byte)) : Option Bad :=
  if !tagsOk rows fs then some .container
  else fs.findSome? fun f => match rows.find? (·.tag == f.1) with
    | some r => match r.kind.check f.2 with
      | some b => some b
      | none => innerCheck f.1 f.2
    | none => some .container

/-- A PARTNERS entry's nested fields (R445). -/
def entryFields (v : List Byte) : List (Nat × List Byte) := (readItems 4 64 v).getD []

/-- An entry's failing field. -/
def entryBad (v : List Byte) : Option Bad :=
  match readItems 4 64 v with
  | none => some .container
  | some fs =>
    match fieldsBad entryRows fs with
    | some b => some b
    | none => if entryRows.any fun r => r.required && !fs.any (·.1 == r.tag) then some .lacking else none

/-- A verified image. -/
structure Image where
  fields : List (Nat × List Byte)
  /-- Offset of the BLOB value in the image (R445). -/
  blob : Nat
  svn : Nat
  digest : List Byte
  arbAdvance : Bool
  revoke : Nat
  /-- Index of the allowed key that signed it. -/
  signer : Nat
  deriving DecidableEq, Repr

/-- The container's own checks (R441 to R444): its fields, or why it is refused. -/
def readContainer (job : Bool) (bs : List Byte) : Except Bad (List (Nat × List Byte)) :=
  let len := fieldAt bs 16 8
  let body := (bs.take (len - 114)).drop 128
  if bs.take 4 ≠ [0x50, 0x4C, 0x59, 0x49] ∨ fieldAt bs 4 2 ≠ 1 ∨ fieldAt bs 6 1 ≠ (if job then 2 else 1) ∨
      1 < fieldAt bs 7 1 ∨ 15 < fieldAt bs 8 1 ∨ fieldAt bs 9 1 ≠ 0 ∨ len ≠ bs.length ∨
      !allZero ((bs.take 32).drop 24) ∨ !allZero ((bs.take 128).drop 89) ∨ (!job ∧ 2 ^ 24 < len) then .error .container
  else match readItems 8 (fieldAt bs 12 4 + 1) body with
    | none => .error .container
    | some secs =>
      if secs.length ≠ fieldAt bs 12 4 then .error .container
      else if !decide ((secs.map (·.1)).Pairwise (· < ·)) ∨
          (secs.any fun s => !(sectionRows job).any (·.1 == s.1)) ∨
          ((sectionRows job).any fun r => r.2 && !secs.any (·.1 == r.1)) then .error .lacking
      else
        let parts := secs.map fun s => (s.1, readItems 4 s.2.length s.2)
        if parts.any fun p => p.2.isNone then .error .container
        else
          let fs := parts.flatMap fun p => p.2.getD []
          if parts.any fun p => (p.2.getD []).any fun f => f.1 / 256 != p.1 then .error .container
          else match fieldsBad fieldRows fs with
            | some b => .error b
            | none =>
              if fieldRows.any fun r => r.required && (secs.any (·.1 == r.tag / 256)) && !fs.any (·.1 == r.tag) then
                .error .lacking
              else match (fs.filter (·.1 == 0x0300)).findSome? fun f => entryBad f.2 with
                | some b => .error b
                | none => .ok fs

/-- verify of R414, then the container: `keys` are the allowed key digests, `counter` the anti-rollback counter. -/
def verifyImage (job : Bool) (bs : List Byte) (context : String) (keys : List (List Byte)) (counter : Nat) :
    Except Bad Image :=
  let len := fieldAt bs 16 8
  let pub := (bs.drop 32).take 57
  let d := Config.shake256 pub 32
  let signed := bs.take (len - 114)
  let dig := Config.shake256 signed 64
  let svn := fieldAt bs 10 2
  match keys.findIdx? (· == d) with
  | none => .error .signature
  | some k =>
    if !Config.ed448Verify pub context dig ((bs.drop (len - 114)).take 114) then .error .signature
    else if 64 < svn ∨ svn < counter then .error .svn
    else match readContainer job bs with
      | .error b => .error b
      | .ok fs =>
        let v := (fs.find? (·.1 == 0x0900)).map (·.2)
        .ok { fields := fs.filter (·.1 != 0x0900), svn := svn, digest := dig, signer := k
              blob := match v with | some v => len - 114 - (16 + (v.length + 3) / 4 * 4 + 7) / 8 * 8 + 16 | none => 0
              arbAdvance := bit (fieldAt bs 7 1) 0, revoke := fieldAt bs 8 1 }

/-! ### Fields in force -/

/-- The first value of a tag. -/
def fieldOf (fs : List (Nat × List Byte)) (tag : Nat) : Option (List Byte) := (fs.find? (·.1 == tag)).map (·.2)

/-- A field of the configuration image. -/
def State.conf (s : State) (tag : Nat) : Option (List Byte) := fieldOf s.host.config tag

/-- A number of the configuration image, with its default. -/
def State.confNat (s : State) (tag d : Nat) : Nat := ((s.conf tag).map leNat).getD d

/-- A field of the merged POLICY section: the job image's, else the configuration image's (R443). -/
def State.polBytes (s : State) (tag : Nat) : Option (List Byte) :=
  match fieldOf s.job.fields tag with
  | some v => some v
  | none => s.conf tag

/-- A number of the merged POLICY section, with its default. -/
def State.pol (s : State) (tag d : Nat) : Nat := ((s.polBytes tag).map leNat).getD d

/-- An FP32 field of the merged POLICY section, with its default. -/
def State.polF (s : State) (tag : Nat) (d : Word) : Word := ((s.polBytes tag).map fun v => BitVec.ofNat 32 (leNat v)).getD d

/-- The configuration image carries TEST_PERMIT (R445). -/
def State.testPermit (s : State) : Bool := (s.conf 0x0700).isSome

/-- The device's site (R330). -/
def State.site (s : State) : Nat := s.confNat 0x0101 0

/-- The PARTNERS entries, by their nested fields (R445). -/
def State.partners (s : State) : List (List (Nat × List Byte)) :=
  (s.host.config.filter (·.1 == 0x0300)).map fun f => entryFields f.2

/-- A number of a PARTNERS entry, with its default. -/
def entryNat (e : List (Nat × List Byte)) (tag d : Nat) : Nat := ((fieldOf e tag).map leNat).getD d

/-- The PARTNERS entry whose PORT is `p` (R445). -/
def State.partner (s : State) (p : Nat) : Option (List (Nat × List Byte)) :=
  s.partners.find? fun e => entryNat e 0x0302 8 == p

/-- The sites of the PARTNERS section. -/
def State.partnerSites (s : State) : List Nat := s.partners.map fun e => entryNat e 0x0301 0

/-- The port that serves a site (R330). -/
def State.portOfSite (s : State) (site : Nat) : Option Nat :=
  (s.partners.find? fun e => entryNat e 0x0301 15 == site).map fun e => entryNat e 0x0302 0

/-- Entry `i` of LAYOUTS as bytes (R446). -/
def State.layoutBytes (s : State) (i : Nat) : List Byte := (((s.polBytes 0x041F).getD []).drop (48 * i)).take 48

/-- The number of LAYOUTS entries. -/
def State.layoutCount (s : State) : Nat := ((s.polBytes 0x041F).getD []).length / 48

/-- Field of `n` bytes at byte `o` of LAYOUTS entry `i`. -/
def State.layoutFld (s : State) (i o n : Nat) : Nat := fieldAt (s.layoutBytes i) o n

/-- MIN_DEVICES (R297). -/
def State.minDevices (s : State) : Nat := s.pol 0x041C (s.layoutFld 0 0 2)

/-- CENSUS_TIMEOUT in ac (R297). -/
def State.censusTimeout (s : State) : Nat := s.pol 0x041D 2500000

/-- The record map of layout `i` (R446, log 9). -/
def State.recordMap (s : State) (i : Nat) : List MapEntry :=
  (Config.recordMap s.job.digest (s.layoutFld i 36 8)).map fun e => ⟨e.1, e.2.1, e.2.2.1, e.2.2.2.1, e.2.2.2.2⟩

/-- A position of a list of devices. -/
def positionOf (ps : List Nat) (dev : Nat) : Option Nat := ps.findIdx? (· == dev)

/-- The slices that this device owns under a record map. -/
def ownedSlices (map : List MapEntry) (ps : List Nat) (dev : Nat) : List MapEntry :=
  map.filter fun e => ps.getD e.position 1024 == dev

/-- The slices of a shard that this device owns, by ascending TENSOR and FIRST (R339). -/
def State.shardSlices (s : State) (x : Nat) : List MapEntry :=
  ((ownedSlices s.job.map s.job.positions s.device).filter (·.shard == x)).mergeSort
    fun a b => decide (a.tensor < b.tensor ∨ (a.tensor = b.tensor ∧ a.first ≤ b.first))

/-- The shards that this device owns. -/
def State.ownedShards (s : State) : List Nat :=
  ((ownedSlices s.job.map s.job.positions s.device).map (·.shard)).eraseDups

/-- The optimizer group of a tensor, from the TENSOR fields (R445). -/
def State.tensorGroup (s : State) (tensor : Nat) : Nat :=
  match s.job.fields.find? fun f => f.1 == 0x0800 && fieldAt f.2 0 4 == tensor with
  | some f => fieldAt f.2 7 1
  | none => 0

/-- The time of day in ns (R459). -/
def State.ns (s : State) : Nat := 1000000000 * s.clk.todSec + s.clk.todNs

/-- Always-on cycles in a millisecond (R5). -/
def msAc (ms : Nat) : Nat := 25000 * ms

end Sys2Proof.Machine
end

