-- ==== Sys2Proof/Machine/Roce.lean ====
section
/-! DEFINITION. The device's own requests over the host ports (13_host_ports_and_images): queue pairs, the request tracker,
the reads of the job image and of a step's data, and the events' writes (R427, R431, R436, R438, R439). -/

namespace Sys2Proof.Machine

/-- A queue pair of the state. -/
def State.qp (s : State) (q : Nat) : Option QueuePair := s.host.qps.get? q

/-- The state with a queue pair replaced. -/
def State.setQp (s : State) (q : Nat) (x : QueuePair) : State := { s with host := { s.host with qps := s.host.qps.set q x } }

/-- A host port's association is established (R404, R408). -/
def State.hostAssoc (s : State) (h : Nat) : Bool := !(Tbl.get ({} : Assoc) s.cph.assocs (8 + h)).tx.isEmpty

/-- The queue pairs that can carry a request: not failed, of a port with its link up and an association (R427, R436). -/
def State.usableQps (s : State) : List Nat :=
  (s.host.qps.filter fun q => !q.2.failed && s.hostAssoc q.2.port && s.fld (Reg.hptHStatus q.2.port) 0 1 == 1).map (·.1)

/-- An RDMA READ of `n` bytes to HBM address `a`, spread over every usable queue pair (R436). -/
def State.roceRead (s : State) (w : RoceWhat) (a n : Nat) : State :=
  let qs := s.usableQps
  let part := (n + qs.length - 1) / max 1 qs.length
  let s := s.countN Reg.hptEvcTrkwait (b2n (s.trackerFull 65536 s.trackerHost))
  ((List.range qs.length).filter fun i => decide (i * part < n)).foldl (fun s i =>
    match s.qp (qs.getD i 0) with
    | some x =>
      let s := s.setQp (qs.getD i 0) (x.request w (a + i * part) (min part (n - i * part)))
      { s with regs := Regs.count64 s.regs (Reg.hptHTxbytesLo x.port) (s.host.roceFrame x.port 16 0) }
    | none => s) s

/-- Where in the staging area a step's data land: the manual leaves the place open (R438, log 2). -/
def State.stagePlace (s : State) (n : Nat) : Nat :=
  Regs.pair s.regs Reg.hptStageBaseLo + s.freeBelow (max 1 (s.reg Reg.hptStageSize * 2 ^ 20 - n))

/-- JOB_AREA's address and size (R445). -/
def State.jobArea (s : State) : Nat × Nat :=
  let v := (s.conf 0x0106).getD []
  (fieldAt v 0 8, fieldAt v 8 8)

/-- Every read that has not completed is abandoned (R437). -/
def State.dropReads (s : State) : State :=
  { s with host := { s.host with
    qps := s.host.qps.map fun (q : Nat × QueuePair) => (q.1, { q.2 with reqs := q.2.reqs.filter fun r => r.what == .event })
    data := [] } }

/-- The read of the job image begins (R436): one longer than JOB_AREA is refused unread, with the reason of capacity. -/
def State.readImage' (s : State) : State :=
  if s.jobArea.2 < s.host.jobLen then
    { s.post 3 0x1E0 (leBytes 4 7) with regs := Regs.putFld (s.post 3 0x1E0 (leBytes 4 7)).regs Reg.hptStatus 0 3 4 }
  else
    let s := { s with host := { s.host with jobLeft := s.host.jobLen, waitJob := none }
                      regs := Regs.putFld s.regs Reg.hptStatus 0 3 5 }
    s.roceRead .image s.jobArea.1 s.host.jobLen

/-- After a stop: the next image is read, or the device waits for an ASSIGN (R437). -/
def State.nextImage (s : State) (replace : Bool) : State := if replace then s.readImage' else s

end Sys2Proof.Machine
end

