-- ==== Sys2Proof/Machine/Visor.lean ====
section
/-! DEFINITION. Visor (15_gauntlet_faults_counters_test, R498 to R507): the decision log, telemetry records, histogram
collection, and the gradient noise of a step. -/

namespace Sys2Proof.Machine

/-! ### The decision log (R504) -/

/-- An 80-bit time of day as 10 little-endian bytes, the seconds above the nanoseconds (log 26). -/
def todBytes (c : Clk) : List Byte := leBytes 4 c.todNs ++ leBytes 6 c.todSec

/-- Byte 27 of an entry with HOLDOVER as it stands (R504). -/
def State.logFlags (s : State) (f : Nat) : Nat := putBits f 0 1 (s.fld Reg.aonTime 2 1)

/-- An entry of KIND byte, FLAGS byte, step and body (bytes 26 to 127) stamped and staged; DECISION is posted (R504,
R440). -/
def State.stage (s : State) (tail : List Byte) : State :=
  let q := s.vsr.dlogSeq
  let e := leBytes 8 q ++ leBytes 8 s.clk.fcnt ++ todBytes s.clk ++ tail.take 1 ++
    leBytes 1 (s.logFlags (fieldAt tail 1 1)) ++ ((tail.drop 2) ++ List.replicate 128 0).take 100
  let s := { s with
    vsr := { s.vsr with staged := s.vsr.staged ++ [(q, e)], dlogSeq := q + 1 }
    regs := Regs.putPair (Regs.putFld s.regs Reg.vsrStatus 0 7 (s.vsr.staged.length + 1)) Reg.vsrDlogHeadLo (q + 1) }
  s.post 4 0x1FC (leBytes 8 q)

/-- GO of `VSR_DLOG_POST`: the entry is staged, or waits while 64 are (R504). -/
def State.goEntry (s : State) (tail : List Byte) : State :=
  if s.vsr.goWaits.isEmpty && decide (s.vsr.staged.length < 64) then s.stage tail
  else { s with vsr := { s.vsr with goWaits := s.vsr.goWaits ++ [tail] } }

/-- Bytes 26 to 127 of the entry window. -/
def State.windowTail (s : State) : List Byte :=
  ((List.range 32).flatMap fun i => leBytes 4 (s.reg (Reg.vsrDlogEntry i))).drop 26

/-- A WRAPS counter: saturating (R507). -/
def bumpWraps (r : Tbl Word) (a : Nat) : Tbl Word := Regs.put r a (min 0xFFFFFFFF (Regs.nat r a + 1))

/-- Staged entries move to the ring in a class 1 quantum (R504, R507); entries that waited are staged in turn. -/
def State.flushLog (s : State) : State :=
  let size := max 1 (s.reg Reg.vsrDlogSize)
  let base := Regs.pair s.regs Reg.vsrRingBaseLo
  let put (acc : Memory × Tbl Word) (e : Nat × List Byte) : Memory × Tbl Word :=
    (acc.1.write (base + 128 * (e.1 % size)) e.2,
     if (e.1 + 1) % size = 0 then bumpWraps acc.2 Reg.vsrDlogWraps else acc.2)
  let x := s.vsr.staged.foldl put (s.hbm, s.regs)
  let w := s.vsr.goWaits
  let s := { s with
    hbm := x.1
    regs := Regs.putFld x.2 Reg.vsrStatus 0 7 0
    vsr := { s.vsr with staged := [], goWaits := w.drop 64 } }
  (w.take 64).foldl State.stage s

/-- Room for one more staged entry: class 1 quanta run until there is (R504). DESIGN CHOICE (log 116): the wait of the
firmware that logs a decision takes no time of its own. -/
def State.makeRoom (s : State) : State :=
  if s.vsr.goWaits.isEmpty && decide (s.vsr.staged.length < 64) then s
  else (List.range (s.vsr.goWaits.length / 64 + 1)).foldl (fun s _ => s.flushLog) s

/-- A decision logged by firmware before it takes effect (R21): a policy core writes the entry window and GO, and goes on
once the entry is staged. -/
def State.logDecision (s : State) (kind : Nat) (body : List Byte) : State :=
  let s := s.makeRoom
  let e := List.replicate 26 0 ++ leBytes 2 kind ++ leBytes 4 (s.reg Reg.seqStep) ++ (body ++ List.replicate 96 0).take 96
  let regs := (List.range 32).foldl (fun r i => Regs.put r (Reg.vsrDlogEntry i) (fieldAt e (4 * i) 4)) s.regs
  { s with regs := regs }.goEntry (e.drop 26)

/-! ### Telemetry (R506) -/

/-- Block instances in the order of their counter areas (R495). -/
def counterBlocks : List (Block × Nat) :=
  [(.aon, 1), (.gnt, 1), (.ident, 1), (.cph, 1), (.cphA, 12), (.hpt, 1), (.hptP, 4), (.slt, 1), (.brm, 1), (.brmP, 8),
   (.seam, 36), (.me, 128), (.cuf, 8), (.lnr, 1), (.vsr, 1), (.seq, 1), (.row, 32), (.tpx, 1)]

/-- Addresses of every 32-bit event counter by ascending event ID (R495). -/
def counterAddrs : List Nat :=
  counterBlocks.flatMap fun b => (List.range b.2).flatMap fun n =>
    (List.range b.1.counters.2).map fun i => b.1.base n + b.1.counters.1 + 4 * i

/-- Addresses of every `*_EVC_SAT` register by ascending area and instance. -/
def satAddrs : List Nat :=
  counterBlocks.flatMap fun b => match b.1.satOff with
    | some o => (List.range b.2).map fun n => b.1.base n + o
    | none => []

/-- Offsets of a block's 64-bit busy, stall and byte counters. -/
def Block.wideOffs : Block → List Nat
  | .cph => [0x100, 0x108, 0x110]
  | .cphA => [0x10]
  | .hptP | .brmP | .seam | .me | .cuf | .lnr | .row | .seq => [0x100, 0x108]
  | .slt => [0x40, 0x48, 0x100, 0x108]
  | .aon | .gnt | .ident | .hpt | .brm | .vsr | .tpx => []

/-- Addresses of every 64-bit counter by ascending area, instance and offset. -/
def wideAddrs : List Nat :=
  counterBlocks.flatMap fun b => (List.range b.2).flatMap fun n => b.1.wideOffs.map fun o => b.1.base n + o

/-- A telemetry period ends: a record falls due (R506). -/
def telemetryPeriodEffect (s : State) : State :=
  if s.fld Reg.vsrCfg 0 1 = 0 then s else { s with vsr := { s.vsr with recordsDue := s.vsr.recordsDue + 1 } }

/-! ### Histograms (R502, R503) -/

/-- A histogram bank's 68 counters zeroed (R100); its sticky flag stays. -/
def clearBank (r : Tbl Word) (n bank : Nat) : Tbl Word :=
  (List.range 68).foldl (fun r i => Regs.put r (histAddr n bank i) 0) r

/-- Entry `e` of the histogram table (R502). -/
structure HistEntry where
  cue : Nat
  bank : Nat
  enable : Bool
  value : Nat
  inc : Nat

/-- The entry read. -/
def State.histEntry (s : State) (e : Nat) : HistEntry :=
  let v := s.hbm.readNat (Regs.pair s.regs Reg.vsrHtblBaseLo + 16 * e) 16
  { cue := bits v 0 8, bank := bits v 8 1, enable := bit v 9, value := bits v 32 32, inc := bits v 64 32 }

/-- The cue value that an entry waits for: VALUE plus STEP_INC for each step of the epoch and each collection made beyond
them (DEDUCED from WAITCUE's form, R243; log 27). -/
def State.histTarget (s : State) (e : Nat) (h : HistEntry) : Nat := h.value + h.inc * Tbl.get 0 s.vsr.taken e

/-- One entry collected (R502): every engine's bank is added to the totals, its flag kept, and the bank cleared. -/
def State.collect (s : State) (e : Nat) (h : HistEntry) : State :=
  let s := (List.range 128).foldl (State.settleBank · h.bank (s.now + 1) ·) s
  let a := Regs.pair s.regs Reg.vsrHareaBaseLo + 552 * e
  let sum (i : Nat) : Nat := sumNat ((List.range 128).map fun n => s.reg (histAddr n h.bank i))
  let sat := (List.range 128).any fun n => s.fld (Reg.meHistCtrl n) (8 + h.bank) 1 == 1
  let m := (List.range 68).foldl (fun m i =>
    m.writeNat (a + 8 * i) 8 ((m.readNat (a + 8 * i) 8 + sum i) % 2 ^ 64)) s.hbm
  let c := m.readNat (a + 544) 8
  let m := m.writeNat (a + 544) 8 ((bits c 0 63 + 1) % 2 ^ 63 + 2 ^ 63 * b2n (sat || bit c 63))
  let late := cueReached (s.reg (cueReg h.cue)) (s.histTarget e h + h.inc) && h.inc != 0
  { s with
    hbm := m
    regs := Regs.count ((List.range 128).foldl (fun r n => clearBank r n h.bank) s.regs) Reg.vsrEvcHlate (b2n late)
    vsr := { s.vsr with taken := s.vsr.taken.set e (Tbl.get 0 s.vsr.taken e + 1 + b2n late)
                        collecting := some (h.bank, s.now + 1088) } }

/-- Every enabled entry whose cue condition holds is collected (R502). -/
def State.collectAll (s : State) : State :=
  (List.range 256).foldl (fun s e =>
    let h := s.histEntry e
    if h.enable && cueReached (s.reg (cueReg h.cue)) (s.histTarget e h) then s.collect e h else s) s

/-! ### Gradient noise (R500, R501) -/

/-- A slice's sx and qx added exactly to the device's accumulators, in units of 2^-149 (R500); a value that is not finite
leaves its accumulator without a stated value (log 20). -/
def addNoise (v : Visor) (sx qx : Word) : Visor :=
  let unit (w : Word) : Option Nat := match Val.ofFp32 w with
    | .fin _ m e => some (m * 2 ^ (e + 149).toNat / 2 ^ (-(e + 149)).toNat)
    | _ => none
  { v with accS := v.accS + (unit sx).getD 0, accQ := v.accQ + (unit qx).getD 0
           openS := v.openS || (unit sx).isNone, openQ := v.openQ || (unit qx).isNone }

/-- The noise messages of every member for step `n` are held: S_n and Q_n (R501), logged. -/
def State.noisePair (s : State) (n : Nat) : State :=
  let m : Tbl (Word × Word × Bool) := Tbl.get [] s.vsr.noise n
  if s.job.members.isEmpty ∨ !s.job.members.all (fun d => (Tbl.get? m d).isSome) then s
  else
    let sum (f : Word × Word × Bool → Word) : Word :=
      (m.filter fun p => s.job.members.contains p.1).foldl (fun acc p => fadd acc (f p.2)) 0
    let nn := fofNat (s.fld Reg.vsrNoiseN 0 19)
    let nt := fmul nn (fofNat (s.reg Reg.vsrNoiseT))
    let sn := fdiv (sum (·.1)) (fmul nt (fofNat (s.reg Reg.vsrNoiseT)))
    let qn := fdiv (sum (·.2.1)) (fmul nt nt)
    let s := ((s.put Reg.vsrNoiseS sn.toNat).put Reg.vsrNoiseQ qn.toNat).put Reg.vsrNoiseStep n
    s.logDecision 12 (leBytes 4 sn.toNat ++ leBytes 4 qn.toNat)

/-- A device's noise values for step `n` are held (R501). -/
def State.noteNoise (s : State) (dev n : Nat) (sd qd : Word) (full : Bool) : State :=
  let m : Tbl (Word × Word × Bool) := Tbl.get [] s.vsr.noise n
  if (Tbl.get? m dev).isSome then s
  else
    let s := { s with vsr := { s.vsr with noise := s.vsr.noise.set n (Tbl.set m dev (sd, qd, full)) } }
    s.noisePair n

/-- A noise message arrives (R501). -/
def noiseMessageEffect (dev n : Nat) (sd qd : Word) (full : Bool) (s : State) : State := s.noteNoise dev n sd qd full

/-- The accumulator of `v` units of 2^-149 rounded to FP32, or a free value where it has no stated value. -/
def State.roundAcc (s : State) (v : Nat) (open' : Bool) (k : Nat) : Word :=
  if open' then BitVec.ofNat 32 (Config.freeNat (s.free + k)) else toFp32 (.ofInt v (-149))

/-- Visor at the end of step `n` (R501): s_d, q_d and f_d are formed, sent to every member, and the accumulators clear. -/
def State.stepNoise (s : State) (n : Nat) : State :=
  let sd := s.roundAcc s.vsr.accS s.vsr.openS 0
  let qd := s.roundAcc s.vsr.accQ s.vsr.openQ 1
  let full := s.reg Reg.lnrEvcFull != s.vsr.fullBase
  let s := { s with
    free := s.free + 2
    vsr := { s.vsr with accS := 0, accQ := 0, openS := false, openQ := false, fullBase := s.reg Reg.lnrEvcFull } }
  let s := s.sendCtrlAll (s.job.members.filter (· != s.device))
    (leBytes 4 n ++ leBytes 4 sd.toNat ++ leBytes 4 qd.toNat ++ leBytes 1 (b2n full))
  s.noteNoise s.device n sd qd full

end Sys2Proof.Machine
end

