-- ==== Sys2Proof/Machine/Brim.lean ====
section
/-! DEFINITION. Outer sync (10_outer_sync): shards, memberships, the messages of a round, commits, the merge, proposals,
silence, joining and catch-up. The cut and the applies of a slice, which the Cuff's flow calls, stand here too. -/

namespace Sys2Proof

open Sys2Proof.Machine

/-- The Brim state of a shard that another device of the domain holds, which the migration copies (R358, log 37): device,
shard, count. -/
opaque Config.remoteShard : Nat → Nat → Nat → MovedShard

/-- The bytes of a class C message (R341). -/
def ClassC.bytes (m : ClassC) : List Byte :=
  leBytes 1 m.kind ++ leBytes 1 (m.site % 16) ++ leBytes 2 m.nshard ++ leBytes 4 m.shard0 ++ leBytes 4 m.round ++
    leBytes 4 (b2n m.ready + 2 * b2n m.moved) ++ (m.opd ++ List.replicate 16 0).take 16 ++ m.body

/-- The bytes of an object: its header and records (R376). -/
def DObject.bytes (o : DObject) : List Byte :=
  leBytes 1 o.okind ++ leBytes 1 (o.site % 16) ++ leBytes 2 (o.keep % 1024) ++ leBytes 1 (o.dfmt % 16 + 16 * b2n o.sparse) ++
    List.replicate 3 0 ++ leBytes 4 o.shard ++ leBytes 4 o.round ++ leBytes 4 o.around ++ leBytes 4 o.count ++
    leBytes 8 (64 + o.records.length) ++ List.replicate 32 0 ++ o.records

/-- The shards that a message covers. -/
def ClassC.shards (m : ClassC) : List Nat := (List.range (min m.nshard 128)).map (m.shard0 + ·)

/-- The record of slice ordinal `i` in an object: its code and entries (R338, R339). -/
def DObject.record (o : DObject) (i : Nat) : Option (List Byte) :=
  let n := 1 + 5 * o.keep / 2
  if o.sparse then
    ((List.range o.count).map fun j => (o.records.drop ((n + 4) * j)).take (n + 4)).find? (fun b => fieldAt b 0 4 == i)
      |>.map (·.drop 4)
  else if i < o.count then some ((o.records.drop (n * i)).take n) else none

/-- Included DELTAs of a COMMIT, ascending site then round (R341). -/
def ClassC.included (m : ClassC) : List (Nat × Nat) :=
  (List.range (min 45 (fieldAt m.body 15 1))).map fun i => (fieldAt m.body (16 + 8 * i) 1, fieldAt m.body (20 + 8 * i) 4)

/-- Diverged entries of a COMMIT: site and shard. -/
def ClassC.diverged (m : ClassC) : List (Nat × Nat) :=
  (List.range (min 64 (fieldAt m.body 376 2))).map fun i => (fieldAt m.body (384 + 8 * i) 1, fieldAt m.body (388 + 8 * i) 4)

/-- Weights that a COMMIT gives the next round. -/
def ClassC.lambda (m : ClassC) : List Nat := (List.range 9).map fun k => fieldAt m.body (6 + k) 1

/-- A ROUND message reports a DELTA held, in HAVE or LATE (R344). -/
def ClassC.reports (m : ClassC) (site q : Nat) : Bool :=
  (m.round == q && bit (fieldAt m.body 14 2) site) ||
  (List.range (min 8 (fieldAt m.body 16 1))).any fun i =>
    fieldAt m.body (24 + 8 * i) 1 == site && fieldAt m.body (28 + 8 * i) 4 == q

end Sys2Proof

namespace Sys2Proof.Machine

/-! ### Stores -/

/-- An owned shard. -/
def State.shard (s : State) (x : Nat) : Shard := Tbl.get {} s.brim.shards x

/-- The state with a shard replaced. -/
def State.setShard (s : State) (x : Nat) (v : Shard) : State :=
  { s with brim := { s.brim with shards := s.brim.shards.set x v } }

/-- A partner port. -/
def State.pport (s : State) (p : Nat) : PPort := Tbl.get {} s.pports p

/-- The state with a partner port replaced. -/
def State.setPport (s : State) (p : Nat) (v : PPort) : State := { s with pports := s.pports.set p v }

/-- The key of a slice. -/
def sliceKey (tensor first : Nat) : Nat := tensor * 2 ^ 64 + first

/-- The key of a retained object: shard, round, site (R356). -/
def objKey (shard round site : Nat) : Nat := (shard * 2 ^ 32 + round) * 16 + site

/-- The DELTA object of a site's round is held (R341, R356). -/
def State.holds' (s : State) (x q site : Nat) : Bool := (s.brim.objects.get? (objKey x q site)).isSome

/-! ### Membership (R332, R348, R352) -/

/-- Weights of round 1: this site and every partner site are members with 8 (R332). -/
def State.firstWeights (s : State) : List Nat :=
  (List.range 9).map fun k => if k = s.site ∨ s.partnerSites.contains k then 8 else 0xFF

/-- The weights of round `r` of a shard; those of the base round's successor stand until a commit gives others. -/
def State.weights (s : State) (x r : Nat) : List Nat :=
  match (s.shard x).weights.get? r with
  | some w => w
  | none => s.firstWeights

/-- A weight of a member (R332). -/
def isMember (w : Nat) : Bool := decide (1 ≤ w) && decide (w ≤ 8)

/-- The member sites of a round of a shard. -/
def State.memberSites (s : State) (x r : Nat) : List Nat :=
  (List.range 9).filter fun k => isMember ((s.weights x r).getD k 0xFF)

/-- The lowest of some sites, leaving out those of `out`; 9 for none. -/
def lowestOf (sites out : List Nat) : Nat := ((sites.filter fun k => !out.contains k).head?).getD 9

/-- The leader of round `r` of a shard that this device accepts (R332, R352). -/
def State.leaderOf (s : State) (x r : Nat) : Nat := lowestOf (s.memberSites x r) s.brim.removed

/-! ### The shared constants (R333, R448) -/

/-- A shared field with its header, or its default at its type's width (R448). -/
def State.sharedField (s : State) (tag n d : Nat) : List Byte :=
  let v := (s.polBytes tag).getD (leBytes n d)
  leBytes 4 tag ++ leBytes 4 v.length ++ v

/-- The outer-synced tensors by ascending TENSOR. -/
def State.syncTensors (s : State) : List Nat := ((s.job.map.map (·.tensor)).eraseDups).mergeSort (· ≤ ·)

/-- OPD (R333, R360, R448). -/
def State.opd (s : State) : List Byte :=
  let groups := (s.polBytes 0x0408).getD []
  Config.shake256
    (s.sharedField 0x0420 4 100 ++ s.sharedField 0x0423 2 64 ++ s.sharedField 0x0426 1 0 ++
      s.sharedField 0x0427 4 0x3F000000 ++ s.sharedField 0x0428 1 2 ++ s.sharedField 0x042A 2 60 ++
      s.sharedField 0x042B 4 1800 ++ s.sharedField 0x042C 1 8 ++
      s.syncTensors.flatMap fun t => (groups.drop (128 * s.tensorGroup t + 32)).take 8) 16

/-! ### Sending (R334, R373, R376) -/

/-- An association holds traffic keys: established, whether or not a new handshake runs (R404, R408). -/
def State.established (s : State) (a : Nat) : Bool := !(Tbl.get ({} : Assoc) s.cph.assocs a).tx.isEmpty

/-- Routes of a port that its peer reports up (R368). -/
def PPort.upRoutes (p : PPort) : List Nat := (List.range 4).filter fun q => (Tbl.get {} p.routes q).peerUp

/-- This device is its own gateway to a site (R334). -/
def State.ownGateway (s : State) (site : Nat) : Option Nat :=
  match s.portOfSite site with
  | some p => if s.established p && (!(s.pport p).upRoutes.isEmpty || decide (s.job.members.length ≤ 1)) then some p else none
  | none => none

/-- Unacknowledged class C messages of a port shown (R391). -/
def State.showUnacked (s : State) (p : Nat) : State := s.putFld (Reg.brmPStatus p) 11 7 (s.pport p).cun.length

/-- A class C message queued on a port: it takes a place among 64, or waits (R375). -/
def State.queueC (s : State) (p : Nat) (bytes : List Byte) : State :=
  let q := s.pport p
  if q.cun.length < 64 then
    (s.setPport p { q with txMid := q.txMid + 1, cun := q.cun ++ [⟨q.txMid, bytes, List.range 6, s.ns⟩] }).showUnacked p
  else s.setPport p { q with cwait := q.cwait ++ [bytes] }

/-- An object queued on a port under its next OBJ (R376). -/
def State.queueD (s : State) (p : Nat) (bytes : List Byte) (background : Bool) : State :=
  let q := s.pport p
  s.setPport p { q with nextObj := q.nextObj + 1, sending := q.sending ++ [{ obj := q.nextObj, bytes, background }] }

/-- A message or object sent to the owner at another site (R334): over this device's own port, or by relay. -/
def State.sendOut (s : State) (site : Nat) (m : Outgoing) : State :=
  match s.ownGateway site with
  | some p => match m with
    | .message c => s.queueC p c.bytes
    | .object o bg => s.queueD p o.bytes bg
  | none => { s with brim := { s.brim with relay := s.brim.relay ++ [(site, m)] } }

/-- A message or object sent to several sites. -/
def State.sendSites (s : State) (sites : List Nat) (m : Outgoing) : State :=
  sites.foldl (fun s k => if k = s.site then s else s.sendOut k m) s

/-- A message header of this device (R341). -/
def State.header (s : State) (kind x round : Nat) (body : List Byte) : ClassC :=
  { kind, site := s.site, nshard := 1, shard0 := x, round, ready := false, moved := false, opd := s.opd, body }

/-! ### Digests (R343) -/

/-- The slice digest of a record. -/
def sliceDigest (tensor first : Nat) (anchor mom : List Nat) (omuZero : Bool) : List Byte :=
  Config.shake256 (leBytes 4 tensor ++ leBytes 8 first ++ pack 2 anchor ++ (if omuZero then [] else pack 2 mom)) 16

/-- The digest of a slice as Brim keeps it. -/
def State.digestOf (s : State) (e : MapEntry) : List Byte := Tbl.get [] s.brim.digests (sliceKey e.tensor e.first)

/-- The shard digest of `x` at round `r` from the slice digests kept. -/
def State.shardDigest (s : State) (x r : Nat) : List Byte :=
  Config.shake256 (leBytes 4 x ++ leBytes 4 r ++ (s.shardSlices x).flatMap s.digestOf) 32

/-! ### The cut (R336, R338) -/

/-- What a cut of a slice gives: its record, its new residual and K codes, dl and e1, the conversions counted, and
whether it is withheld. -/
structure Cut where
  record : List Byte
  resid : List Nat
  k : List Nat
  dl : List Word
  e1 : List Word
  conv : Nat
  withheld : Bool

/-- DFMT's format (R339). -/
def dfmtOf (d : Nat) : Fmt := (Fmt.ofCode d).getD .f8v

/-- The `keep` indices of largest magnitude, the lower index first among equals, ascending (R336). -/
def largestIndices (dl : List Word) (keep : Nat) : List Nat :=
  let mag (i : Nat) : Nat := ((dl.getD i 0) &&& 0x7FFFFFFF#32).toNat
  let order := (List.range 4096).mergeSort fun a b => decide (mag b < mag a ∨ (mag a = mag b ∧ a ≤ b))
  (order.take keep).mergeSort (· ≤ ·)

/-- A record of R338 from the code, the indices and the entries' codes. -/
def recordBytes (c : Nat) (sel codes : List Nat) : List Byte :=
  leBytes 1 c ++ packBits 20 ((sel.zip codes).map fun p => p.1 + 4096 * p.2)

/-- The cut of a slice (R336). -/
def cutSlice (mrnd step tensor first keep dfmt : Nat) (wcut : List Word) (anchor resid : List Nat) : Cut :=
  let kk := (List.range 4096).map fun i => fsub (bf (anchor.getD i 0)) (wcut.getD i 0)
  let dl := (List.range 4096).map fun i => fadd (kk.getD i 0) (bf (resid.getD i 0))
  if !dl.all ffinite then
    { record := recordBytes 0xFF (List.range keep) (List.replicate keep 0), resid, k := List.replicate 4096 0, dl
      e1 := resid.map bf, conv := 0, withheld := true }
  else
    let f := dfmtOf dfmt
    let sel := largestIndices dl keep
    let b := writeBlock f false (sel.map fun i => (Val.ofFp32 (dl.getD i 0), Round.rne))
    let dec (i : Nat) : Word := match sel.idxOf? i with
      | some j => toFp32 (scaledVal (f.decode (b.codes.getD j 0)) b.sc)
      | none => 0
    let e := (List.range 4096).map fun i => rndM mrnd step (tensor + 6) (first + i) (fsub (dl.getD i 0) (dec i))
    let kc := kk.map fun w => bf16.convert .rne false false (Val.ofFp32 w)
    { record := recordBytes b.sc sel b.codes, resid := e.map (·.code), k := kc.map (·.code), dl
      e1 := e.map fun c => bf c.code
      conv := b.ovf + b.unf + b.nonfin + sumNat (e.map Conv.counts) + sumNat (kc.map Conv.counts), withheld := false }

/-- KEEP of round `r` of a shard (R336): NEXT_KEEP of the commit before, KEEP0 before any. -/
def State.keepOf (s : State) (x r : Nat) : Nat :=
  match (s.shard x).commits.get? (r - 1) with
  | some m => fieldAt m.body 4 2
  | none => s.pol 0x0423 64

/-- The record-map entry and shard ordinal of a slice that this device owns. -/
def State.mapOf (s : State) (tensor first : Nat) : Option MapEntry :=
  (ownedSlices s.job.map s.job.positions s.device).find? fun e => e.tensor == tensor && e.first == first

/-- A slice is under catch-up (R353). -/
def State.catching (s : State) (e : MapEntry) : Bool :=
  match (s.shardSlices e.shard).findIdx? fun o => o.tensor == e.tensor && o.first == e.first with
  | some i => (s.shard e.shard).catchup.any fun c => c.1 == i
  | none => false

/-- The round that is being cut: the one after the latest. -/
def State.cutRound (s : State) : Nat := s.brim.round + 1

/-- A slice is handed over at this update (R336, R340, R355): it is outer-synced; in the cut step, or, in the slow tier,
at its first update after the apply point of the round before. -/
def State.handsOver (s : State) (e : SliceEntry) (step : Nat) : Bool :=
  e.cut && s.fld Reg.brmCfg 0 1 == 1 &&
  (match s.mapOf e.tensor e.first with
   | some m => !(s.shard m.shard).joining
   | none => false) &&
  (if e.slt then
    (Tbl.get? s.brim.records (sliceKey e.tensor e.first)).isNone &&
      ((s.mapOf e.tensor e.first).any fun m => decide (s.brim.round ≤ (s.shard m.shard).applied))
   else s.brim.cutting == some step)

/-- Brim cuts a slice that the Cuff has handed over (R336): its record, K buffer and sums are kept, and the new residual
codes are answered for the record in HBM. A slice under catch-up is withheld and not cut (R176, R354). -/
def State.handOver (s : State) (e : SliceEntry) (g : Group) (step : Nat) (r : Rec) : State × List Nat :=
  match s.mapOf e.tensor e.first with
  | none => (s, r.resid)
  | some m =>
    let q := s.cutRound
    let keep := s.keepOf m.shard q
    let key := sliceKey e.tensor e.first
    if s.catching m then
      let withheld := recordBytes 0xFF (List.range keep) (List.replicate keep 0)
      ({ s with brim := { s.brim with records := s.brim.records.set key withheld } }, r.resid)
    else
    let c := cutSlice g.mrnd step e.tensor e.first keep (s.pol 0x0426 0) r.w r.anchor r.resid
    ({ s with
       brim := { s.brim with
         records := s.brim.records.set key c.record
         cutVals := s.brim.cutVals.set key (c.dl, c.e1)
         kbuf := s.brim.kbuf.set (2 * key + q % 2) (q, c.k) }
       regs := Regs.counts s.regs [(Reg.brmEvcWithheld, b2n c.withheld), (Reg.brmEvcConv, c.conv)] }, c.resid)

/-! ### The proposals (R350) -/

/-- Sum of squares of the cut slices' values in ascending TENSOR and FIRST order. -/
def sumSquares (vals : List (List Word)) : Word := vals.foldl (fun acc l => l.foldl (fun a x => fadd a (fmul x x)) acc) 0

/-- The smallest integer that is not below an FP32 value; `d` where it has none. -/
def ceilNat (w : Word) (d : Nat) : Nat :=
  match Val.ofFp32 w with
  | .fin false m e => if 0 ≤ e then m * 2 ^ e.toNat else (m + 2 ^ (-e).toNat - 1) / 2 ^ (-e).toNat
  | .fin true _ _ => 0
  | .inf false => 2 ^ 32 - 1
  | _ => d

/-- clamp(x, lo, hi). -/
def clampNat (x lo hi : Nat) : Nat := min (max x lo) hi

/-- The proposals at the cut of round `r` (R350): PI, PK, rho, tx and ts, the times in ns (log 28); in SYNC mode FIXED the
image's values (R16). -/
def State.propose (s : State) (r keep : Nat) : Nat × Nat × Word × Word × Word :=
  let i0 := s.pol 0x0420 100
  if s.fld Reg.seqMode 7 1 = 1 then (i0, s.pol 0x0423 64, 0, 0, 0)
  else
    let vals := s.brim.cutVals.map (·.2)
    let den := sumSquares (vals.map (·.1))
    let rho := if den = 0 then 0 else fdiv (sumSquares (vals.map (·.2))) den
    let pk := if flt (s.polF 0x042F 0x3F733333#32) rho then min (2 * keep) (s.pol 0x0425 512)
      else if flt rho (s.polF 0x0430 0x3F4CCCCD#32) then max (keep / 2) (s.pol 0x0424 16) else keep
    let steps := s.brim.cutStep - s.brim.prevCutStep
    let ts := fdiv (fofNat (s.brim.cutNs - s.brim.prevCutNs)) (fofNat steps)
    match s.brim.heldNs, s.polBytes 0x0421, s.polBytes 0x0422 with
    | some h, some lo, some hi =>
      let tx := fofNat (h - s.brim.prevCutNs)
      if r = s.pol 0x040C 0 + 1 then (i0, pk, rho, tx, ts)
      else
        let x := fdiv (fdiv (fmul tx (fofNat pk)) (fofNat keep)) (fmul (s.polF 0x042E 0x3F000000#32) ts)
        (clampNat (ceilNat x i0) (leNat lo) (leNat hi), pk, rho, tx, ts)
    | _, _, _ => (i0, pk, rho, 0, ts)

/-! ### ROUND messages (R342, R351) -/

/-- The round whose commit a shard awaits. -/
def State.pendingRound (s : State) (x : Nat) : Nat := (s.shard x).applied + 1

/-- HAVE of a shard for round `r` (R341). -/
def State.have' (s : State) (x r : Nat) : Nat :=
  sumNat ((List.range 9).map fun k => if s.holds' x r k then 2 ^ k else 0)

/-- LATE of a shard (R341): older DELTAs held and not yet committed. -/
def State.late (s : State) (x r : Nat) : List (Nat × Nat) :=
  let st := s.pol 0x0428 2
  (((List.range 9).flatMap fun k => (List.range st).map fun d => (k, r - 1 - d)).filter fun p =>
    decide (p.2 < r) && s.holds' x p.2 p.1 && !(s.shard x).committed.contains p).take 8

/-- Every slice of the shard is installed and applied up to the latest commit (R355). -/
def State.shardReady (s : State) (x : Nat) : Bool :=
  (s.shard x).joining && (s.shard x).catchup.isEmpty && ((s.shard x).commits.get? (s.pendingRound x)).isNone

/-- The ROUND message of a shard at present (R341, R342). -/
def State.roundMessage (s : State) (x : Nat) : ClassC :=
  let r := s.pendingRound x
  let l := s.late x r
  let body := leBytes 4 (s.shard x).applied ++ leBytes 4 (if s.brim.round < r then 0xFFFFFFFF else (s.brim.cutStep + 0xFFFFFFFF) % 2 ^ 32) ++
    leBytes 4 s.brim.pi ++ leBytes 2 s.brim.pk ++ leBytes 2 (s.have' x r) ++ leBytes 1 l.length ++ List.replicate 7 0 ++
    ((l.flatMap fun (p : Nat × Nat) => leBytes 1 p.1 ++ List.replicate 3 (0 : Byte) ++ leBytes 4 p.2) ++ List.replicate 64 (0 : Byte)).take 64 ++
    s.shardDigest x (s.shard x).applied
  { s.header 1 x r body with ready := s.shardReady x }

/-- An owner sends a ROUND message (R342): at once on a change, else a quarter of TOUCH_S after the last one. -/
def roundSendEffect (x : Nat) (s : State) : State :=
  if !s.job.active ∨ s.fld Reg.brmCfg 0 1 = 0 ∨ !s.ownedShards.contains x then s
  else
    let v := s.shard x
    let s := if v.changed then s else s.atAc (v.sentAt + msAc (s.pol 0x042A 60 * 250))
    let r := s.pendingRound x
    let m := s.roundMessage x
    let s := s.setShard x { s.shard x with changed := false, sentAt := s.clk.acnt }
    s.sendSites ((List.range 9).filter fun k => (s.weights x r).getD k 0xFF != 0xFF) (.message m)

/-- A shard's holdings changed (R342). -/
def State.touched (s : State) (x : Nat) : State := s.setShard x { s.shard x with changed := true }

/-- The messages of a port that this one repeats are taken out of its inbox (R374). -/
def State.takeC (s : State) (m : ClassC) : State :=
  match s.portOfSite m.site with
  | some p => s.setPport p { s.pport p with inC := (s.pport p).inC.erase m.bytes }
  | none => s

/-- Arrival of a class C message of outer sync (R333, R341, R351): a foreign OPD is counted and the message dropped; else
its site is in touch. -/
def State.hear (s : State) (m : ClassC) (f : State → State) : State :=
  let s := s.takeC m
  if s.fld Reg.brmCfg 0 1 = 0 then s
  else if m.opd ≠ s.opd then s.count Reg.brmEvcOpd
  else f { s with brim := { s.brim with
    heard := s.brim.heard.set m.site s.clk.acnt
    silent := s.brim.silent.filter (· != m.site) } }

/-- A message for shards of another owner goes to its relay (R334). -/
def State.relayC (s : State) (m : ClassC) : State :=
  { s with brim := { s.brim with relay := s.brim.relay ++ [(s.site, .message m)] } }

/-- The first wait of R344 ends for shard `x` once this device has cut the pending round and holds a ROUND with CUTSTEP set
from every other member that is not removed: t0 is the time of the last of them. -/
def State.settleWait (s : State) (x : Nat) : State :=
  let v := s.shard x
  let r := s.pendingRound x
  let ks := (s.memberSites x r).filter fun k => k != s.site && !s.brim.removed.contains k
  let got := ks.filterMap fun k => (v.rounds.get? k).filter fun p => p.2.round == r && fieldAt p.2.body 4 4 != 0xFFFFFFFF
  if v.t0.isNone ∧ r ≤ s.brim.round ∧ got.length = ks.length then
    s.setShard x { v with t0 := some (got.foldl (fun t p => max t p.1) s.brim.cutAc) }
  else s

/-! ### Joining (R355) -/

/-- This device asks to join shard `x` (R355): JOIN to the owners at every partner site, with its AROUND and its digest. -/
def State.sendJoin (s : State) (x : Nat) : State :=
  let r := (s.shard x).applied
  let s := s.setShard x { s.shard x with asked := true, joining := false }
  s.sendSites s.partnerSites (.message (s.header 3 x r (leBytes 4 r ++ leBytes 4 0 ++ s.shardDigest x r)))

/-- What a ROUND message says of one shard is kept (R344). DEDUCED (log 122): one of a round that cannot have come without
the removal of this site makes it join again. -/
def State.noteRound (s : State) (x : Nat) (m : ClassC) : State :=
  let v := s.shard x
  let s := (s.setShard x { v with rounds := v.rounds.set m.site (s.clk.acnt, m) }).settleWait x
  if s.pendingRound x + 2 ≤ m.round ∧ !v.asked ∧ !v.joining then s.sendJoin x else s

/-- A ROUND message arrives (R342, R344). -/
def roundEffect (m : ClassC) (s : State) : State :=
  s.hear m fun s =>
    let own := m.shards.filter s.ownedShards.contains
    if own.isEmpty then s.relayC m else own.foldl (fun s x => s.noteRound x m) s

/-! ### The merge (R346) -/

/-- λ/8 as FP32, exact. -/
def eighths (n : Nat) : Word := fdiv (fofNat n) (fofNat 8)

/-- D of a slice in round `r` of shard `x` under a commit (R346). -/
def State.mergeD (s : State) (x r ordinal : Nat) (m : ClassC) : List Word :=
  let members := s.memberSites x r
  let wsum := eighths (sumNat (members.map fun k => (s.weights x r).getD k 0))
  let stale := s.polF 0x0427 0x3F000000#32
  m.included.foldl (fun d p =>
    let lam := eighths ((s.weights x p.2).getD p.1 0)
    let coef := fdiv (fmul (fpow 32 stale (r - p.2) 0x3F800000#32) lam) wsum
    match s.brim.objects.get? (objKey x p.2 p.1) with
    | none => d
    | some o =>
      match o.record ordinal with
      | none => d
      | some b =>
        let c := fieldAt b 0 1
        if c = 0xFF then d
        else
          let bitsOf := leNat (b.drop 1)
          (List.range o.keep).foldl (fun d j =>
            let e := bits bitsOf (20 * j) 20
            let i := e % 4096
            let v := toFp32 (scaledVal ((dfmtOf o.dfmt).decode (e / 4096)) c)
            d.set i (ffma coef v (d.getD i 0))) d) (List.replicate 4096 0)

/-- K of a slice in round `r` (R346): its K buffer, or +0 where the device did not cut it in that round. -/
def State.mergeK (s : State) (key r : Nat) : List Word :=
  match s.brim.kbuf.get? (2 * key + r % 2) with
  | some p => if p.1 = r then p.2.map bf else List.replicate 4096 0
  | none => List.replicate 4096 0

/-- D and K of a slice that an outer apply of round `r` takes (R346, R347). -/
def State.outerDK (s : State) (tensor first r : Nat) : List Word × List Word :=
  match s.mapOf tensor first with
  | none => (List.replicate 4096 0, List.replicate 4096 0)
  | some e =>
    let i := ((s.shardSlices e.shard).findIdx? fun o => o.tensor == tensor && o.first == first).getD 0
    match (s.shard e.shard).commits.get? r with
    | some m => (s.mergeD e.shard r i m, s.mergeK (sliceKey tensor first) r)
    | none => (List.replicate 4096 0, List.replicate 4096 0)

/-! ### Commits (R344, R345, R348, R352) -/

/-- The step of a member's ramp after the weight `w` (R352). -/
def rampNext (ramp w : Nat) : Nat :=
  let k := ((List.range 9).find? fun k => decide (1 ≤ k) && decide (w ≤ min 8 ((8 * k + ramp - 1) / ramp))).getD 8
  if 8 ≤ w then 8 else min 8 ((8 * (k + 1) + ramp - 1) / ramp)

/-- The weights of the next round that the leader fixes (R348). -/
def State.nextWeights (s : State) (x r : Nat) : List Nat :=
  let v := s.shard x
  let ramp := max 1 (s.pol 0x042C 8)
  (List.range 9).map fun k =>
    let w := (s.weights x r).getD k 0xFF
    if s.brim.removed.contains k then 0xFF
    else if isMember w then rampNext ramp w
    else if w = 0xFE ∧ (v.rounds.get? k).any (fun p => p.2.ready) then min 8 ((8 + ramp - 1) / ramp)
    else if w = 0xFE ∨ (v.joins.get? k).isSome then 0xFE
    else 0xFF

/-- Members' ROUND messages of round `r` that the leader holds, its own included. -/
def State.roundsHeld (s : State) (x r : Nat) : List ClassC :=
  (s.memberSites x r).filterMap fun k =>
    if s.brim.removed.contains k then none
    else if k = s.site then some (s.roundMessage x)
    else ((s.shard x).rounds.get? k).map (·.2)

/-- Members that have diverged (R344): their AROUND or digest differs from the leader's. -/
def State.divergedSites (s : State) (x r : Nat) : List Nat :=
  ((s.roundsHeld x r).filter fun m =>
    fieldAt m.body 0 4 != r - 1 || (m.body.drop (88 + 32 * (x - m.shard0))).take 32 != s.shardDigest x (r - 1)).map (·.site)

/-- Retention (R356): the objects and commits more than RETAIN rounds back go. -/
def State.retain (s : State) (x : Nat) : State :=
  let v := s.shard x
  let keep := v.applied - s.pol 0x042D 8
  let s := s.setShard x { v with commits := v.commits.filter (fun c => decide (keep ≤ c.1))
                                 committed := v.committed.filter (fun p => decide (keep ≤ p.2)) }
  { s with brim := { s.brim with objects := s.brim.objects.filter fun o =>
      o.1 / 2 ^ 36 != x || decide (keep ≤ o.1 / 16 % 2 ^ 32) } }

/-- An OREQ is placed for each included object that is missing (R345, R383). -/
def State.askMissing (s : State) (x : Nat) (m : ClassC) : State :=
  m.included.foldl (fun s p =>
    if s.holds' x p.2 p.1 then s
    else
      let site := if s.brim.silent.contains p.1 ∨ (s.portOfSite p.1).isNone then
          ((s.shard x).rounds.filter fun k => k.2.2.reports p.1 p.2).head?.map (·.1) |>.getD p.1
        else p.1
      match s.portOfSite site with
      | some port => { s with brim := { s.brim with
          wanted := (s.brim.wanted.filter (· != (0, p.1, x, p.2, port))) ++ [(0, p.1, x, p.2, port)] } }
      | none => s) s

/-- FETCH of `n` slices from ordinal `i`, sent to the lowest-numbered member site in touch (R353). -/
def State.sendFetch (s : State) (x i n : Nat) : State :=
  let sites := (s.memberSites x (s.pendingRound x)).filter fun k => k != s.site && !s.brim.silent.contains k
  match sites.head? with
  | some k => s.sendOut k (.message (s.header 4 x (s.shard x).applied (leBytes 4 i ++ leBytes 4 n)))
  | none => s

/-- What a COMMIT of shard `x` lists for this device's own site (R348, R355; log 122): a site not a member asks to join; one
that asked, once listed as joining, counts the round before as applied and catches up every slice, unless its shard is in
step; a member cuts from the next round. -/
def State.ownWeight (s : State) (x : Nat) (m : ClassC) : State :=
  let v := s.shard x
  let w := m.lambda.getD s.site 0xFF
  let follow (s : State) : State := { s with brim := { s.brim with
    round := max s.brim.round m.round, cutStep := max s.brim.cutStep (s.reg Reg.seqStep) } }
  if w = 0xFF then (if v.asked then s else s.sendJoin x)
  else if w = 0xFE then
    if v.joining then follow s
    else
      let inStep := v.applied + 1 == m.round && (m.body.drop (896 + 32 * (x - m.shard0))).take 32 == s.shardDigest x v.applied
      let n := if inStep then 0 else (s.shardSlices x).length
      let s := s.setShard x { v with
        joining := true, asked := false, applied := m.round - 1, catchup := (List.range n).map fun i => (i, false) }
      if n = 0 then follow s else (follow s).sendFetch x 0 n
  else if v.joining then follow (s.setShard x { v with joining := false })
  else s

/-- A COMMIT accepted for a shard (R344, R348): logged, its weights stand for the next round, late and stale DELTAs are
counted, and a diverged shard of this device is caught up. -/
def State.acceptCommit (s : State) (x : Nat) (m : ClassC) : State :=
  let r := m.round
  let body := leBytes 4 m.shard0 ++ leBytes 2 m.nshard ++ leBytes 4 r ++ leBytes 4 (fieldAt m.body 0 4) ++
    leBytes 2 (fieldAt m.body 4 2) ++ (m.body.drop 6).take 9
  let s := s.logDecision 9 body
  let v := s.shard x
  let inc := m.included
  let members := s.memberSites x r
  let late := (members.filter fun k => !inc.contains (k, r)).length
  let st := s.pol 0x0428 2
  let stale := (s.memberSites x (r - st)).filter fun k =>
    decide (st ≤ r) && !(v.committed ++ inc).contains (k, r - st) && s.holds' x (r - st) k
  let div := (m.diverged.filter fun d => d.2 == x).length
  let mine := m.diverged.contains (s.site, x)
  let slices := (s.shardSlices x).length
  let v := { v with
    commits := v.commits.set r m, weights := v.weights.set (r + 1) m.lambda, committed := v.committed ++ inc
    t0 := none, expired := false, joins := v.joins.filter fun j => !isMember (m.lambda.getD j.1 0xFF)
    catchup := if mine then (List.range slices).map fun i => (i, false) else v.catchup }
  let s := s.setShard x v
  let s := { s with
    brim := { s.brim with objects := s.brim.objects.filter fun o => !stale.any fun k => o.1 == objKey x (r - st) k }
    regs := Regs.put (Regs.put (Regs.counts s.regs [(Reg.brmEvcLate, late), (Reg.brmEvcStaledrop, stale.length),
      (Reg.brmEvcDiverge, div)]) Reg.brmKeep (fieldAt m.body 4 2)) Reg.brmInterval (fieldAt m.body 0 4) }
  let s := ((if mine then s.sendFetch x 0 slices else s).ownWeight x m).askMissing x m
  s.putFld Reg.brmStatus 14 1 (b2n (s.brim.shards.any fun p => !p.2.catchup.isEmpty))

/-- A COMMIT is accepted (R352): the first of its round, from the leader, or from the next one once the old leader has
been silent for OUTAGE_MAX; and the one that lists this site as joining once it has asked (R355). -/
def State.commitOk (s : State) (x : Nat) (m : ClassC) : Bool :=
  ((s.shard x).commits.get? m.round).isNone &&
    ((m.round == s.pendingRound x && m.site == s.leaderOf x m.round) ||
     ((s.shard x).asked && m.lambda.getD s.site 0xFF == 0xFE))

/-- A COMMIT message arrives (R348, R352). -/
def commitEffect (m : ClassC) (s : State) : State :=
  s.hear m fun s =>
    let own := m.shards.filter s.ownedShards.contains
    if own.isEmpty then s.relayC m
    else own.foldl (fun s x => if s.commitOk x m then s.acceptCommit x m else s.count Reg.brmEvcConflict) s

/-- The COMMIT that the leader of `x` sends for round `r` (R344, R348). -/
def State.commitMessage (s : State) (x r : Nat) (inc : List (Nat × Nat)) (div : List Nat) : ClassC :=
  let held := s.roundsHeld x r
  let ni := (held.map fun m => fieldAt m.body 8 4).foldl max 0
  let nk := (held.map fun m => fieldAt m.body 12 2).foldl min 512
  let entry (a b : Nat) : List Byte := leBytes 1 a ++ List.replicate 3 0 ++ leBytes 4 b
  let zero (n : Nat) (l : List Byte) : List Byte := (l ++ List.replicate n 0).take n
  s.header 2 x r (leBytes 4 ni ++ leBytes 2 nk ++ (s.nextWeights x r).flatMap (leBytes 1 ·) ++ leBytes 1 inc.length ++
    zero 360 (inc.flatMap fun p => entry p.1 p.2) ++ leBytes 2 div.length ++ List.replicate 6 0 ++
    zero 512 (div.flatMap fun k => entry k x) ++ s.shardDigest x (r - 1))

/-- The leader of shard `x` commits its pending round if it may (R344). -/
def State.tryCommit (s : State) (x : Nat) : State :=
  let r := s.pendingRound x
  let v := s.shard x
  let single := (s.memberSites x r).all fun k => k == s.site || s.brim.removed.contains k
  if s.leaderOf x r ≠ s.site ∨ s.brim.round < r ∨ (v.t0.isNone ∧ !single) ∨ (v.commits.get? r).isSome then s
  else
    let held := s.roundsHeld x r
    let div := s.divergedSites x r
    let sound := (s.memberSites x r).filter fun k => !div.contains k && !s.brim.removed.contains k
    let complete := sound.all fun k => held.all fun m => m.reports k r
    if !complete ∧ !v.expired then s
    else
      let st := s.pol 0x0428 2
      let cand := (List.range 9).flatMap fun k => (List.range (st + 1)).map fun d => (k, r - st + d)
      let inc := (cand.filter fun p => decide (p.2 ≤ r) && decide (r - st ≤ p.2) && decide (0 < p.2) &&
        !v.committed.contains p && !(div.contains p.1 && p.2 == r) && s.holds' x p.2 p.1 &&
        !((v.commits.get? p.2).any fun c => c.diverged.contains (p.1, x)) &&
        held.all fun m => m.reports p.1 p.2).take 45
      let m := s.commitMessage x r inc div
      let dests := (List.range 9).filter fun k => m.lambda.getD k 0xFF != 0xFF || isMember ((s.weights x r).getD k 0xFF)
      (s.sendSites dests (.message m)).acceptCommit x m

/-- The leader commits a round once every DELTA is reported held or the deadline has passed (R344). -/
def leaderCommitEffect (x : Nat) (s : State) : State :=
  if !s.job.active ∨ s.fld Reg.brmCfg 0 1 = 0 ∨ !s.ownedShards.contains x then s else s.tryCommit x

/-- The leader's wait reaches t0 + COMMIT_DL (R344). -/
def commitDeadlineEffect (x : Nat) (s : State) : State :=
  match (s.shard x).t0 with
  | none => s
  | some t =>
    let s := s.atAc (t + msAc (s.pol 0x0429 1000))
    (s.setShard x { s.shard x with expired := true }).tryCommit x

/-! ### Loss of touch (R351, R352) -/

/-- A site has sent no class C message for TOUCH_S seconds (R351): it is silent, and each round that the leader holds for
it is counted once. -/
def siteSilentEffect (site : Nat) (s : State) : State :=
  if !s.job.active ∨ s.brim.silent.contains site ∨ !s.partnerSites.contains site then s
  else
    let s := s.atAc (Tbl.get 0 s.brim.heard site + msAc (s.pol 0x042A 60 * 1000))
    let s := { s with brim := { s.brim with silent := s.brim.silent ++ [site] } }
    s.ownedShards.foldl (fun s x =>
      let r := s.pendingRound x
      if s.leaderOf x r = s.site ∧ (s.memberSites x r).contains site ∧ (s.shard x).t0.isNone ∧ (s.shard x).paused ≠ some r then
        (s.setShard x { s.shard x with paused := some r }).count Reg.brmEvcPause
      else s) s

/-- A member silent for OUTAGE_MAX seconds is removed; where it led, the next site leads (R352). -/
def memberRemovalEffect (x site : Nat) (s : State) : State :=
  if !s.brim.silent.contains site ∨ s.brim.removed.contains site ∨ !(s.memberSites x (s.pendingRound x)).contains site then s
  else
    let s := s.atAc (Tbl.get 0 s.brim.heard site + msAc (s.pol 0x042B 1800 * 1000))
    State.settleWait { s with brim := { s.brim with removed := s.brim.removed ++ [site] } } x

/-! ### Joining and catch-up (R353 to R355) -/

/-- A JOIN message arrives: the leader lists the site in its next COMMIT (R348, R355). -/
def joinEffect (m : ClassC) (s : State) : State :=
  s.hear m fun s =>
    let own := m.shards.filter s.ownedShards.contains
    let s := { s with brim := { s.brim with removed := s.brim.removed.filter (· != m.site) } }
    if own.isEmpty then s.relayC m
    else own.foldl (fun s x => s.setShard x { s.shard x with joins := (s.shard x).joins.set m.site m }) s

/-- A coded piece of 64 BF16 values (R353). -/
def codePiece (l : List Nat) : List Byte :=
  let ex := l.map fun c => bits c 7 8
  let lo := ex.foldl min 255
  let hi := ex.foldl max 0
  if hi - lo ≤ 15 then
    leBytes 1 0 ++ leBytes 1 lo ++ packBits 1 (l.map fun c => c / 32768) ++ packBits 4 (ex.map (· - lo)) ++
      packBits 7 (l.map (· % 128))
  else leBytes 1 1 ++ leBytes 1 0 ++ pack 2 l

/-- The 64 values of a coded piece and the bytes after it (R353). -/
def decodePiece (bs : List Byte) : List Nat × List Byte :=
  if fieldAt bs 0 1 = 0 then
    let lo := fieldAt bs 1 1
    let sg := leNat ((bs.drop 2).take 8)
    let ex := leNat ((bs.drop 10).take 32)
    let fr := leNat ((bs.drop 42).take 56)
    ((List.range 64).map fun i => 32768 * bits sg i 1 + (lo + bits ex (4 * i) 4) % 256 * 128 + bits fr (7 * i) 7, bs.drop 98)
  else (unpack 2 64 (bs.drop 2), bs.drop 130)

/-- `n` coded pieces. -/
def decodePieces : Nat → List Byte → List Nat × List Byte
  | 0, bs => ([], bs)
  | n + 1, bs =>
    let p := decodePiece bs
    let q := decodePieces n p.2
    (p.1 ++ q.1, q.2)

/-! ### Where a slice's record stands -/

/-- The slow-tier base number of a tensor that sets SLT, and its group (R194, R445). -/
def State.sltTensor (s : State) (tensor : Nat) : Option Nat :=
  match s.job.fields.find? fun f => f.1 == 0x0800 && fieldAt f.2 0 4 == tensor with
  | some f => if bit (fieldAt f.2 5 1) 0 then some (fieldAt f.2 16 4) else none
  | none => none

/-- The slow-tier number of a slice (R194). -/
def State.sltNum (s : State) (tensor first : Nat) : Option Nat := (s.sltTensor tensor).map (· + first / 4096)

/-- The store and the address that hold a slice's record: HBM, a landed line, or a flash image that can be read (R177,
R196, R216). -/
def State.recordStore (s : State) (e : MapEntry) : Memory × Nat :=
  match s.sltNum e.tensor e.first with
  | none => (s.hbm, e.record)
  | some num =>
    match s.landedLine num, s.flashImage num with
    | some l, _ => (s.hbm, s.lineAddr l)
    | none, some f => (Memory.cells 0 f.bytes, 0)
    | none, none => ([], 0)

/-- A slice's record. -/
def State.recordOf (s : State) (e : MapEntry) : Rec :=
  let x := s.recordStore e
  readRec x.1 x.2 (s.sltTensor e.tensor).isSome

/-- A slice's record bytes replaced where they stand. DESIGN CHOICE (log 113): in flash they stand at once, in a fresh image
under the next GEN and the key in force. -/
def State.storeRecord (s : State) (e : MapEntry) (body : List Byte) : State :=
  match s.sltNum e.tensor e.first with
  | none => { s with hbm := s.hbm.write e.record body }
  | some num =>
    match s.landedLine num, s.slt.flash.get? num with
    | some l, _ => { s with hbm := s.hbm.write (s.lineAddr l) body }
    | none, some f =>
      let gen := s.slt.gens.get 0 (num % 8) + 1
      let bytes := freshImage (body ++ f.bytes.drop body.length) num gen
      let f := { f with key := s.cph.xts, gen, bytes }
      { s with slt := { s.slt with flash := s.slt.flash.set num f, gens := s.slt.gens.set (num % 8) gen } }
    | none, none => s

/-- A slice of the map that no program names: the partition of its record (R253). -/
def State.partOf (s : State) (e : MapEntry) : Nat :=
  match s.sltNum e.tensor e.first with
  | some num => num % 8
  | none => stackOf e.record

/-- A slice in the form of an ANCHOR object (R353). -/
def State.servedSlice (s : State) (x i : Nat) : List Byte :=
  match (s.shardSlices x)[i]? with
  | none => []
  | some e =>
    let r := s.recordOf e
    leBytes 4 i ++ leBytes 4 r.tag.around ++ (s.digestOf e ++ List.replicate 16 0).take 16 ++
      (chunks 64 64 r.anchor).flatMap codePiece ++ (chunks 64 64 r.mom).flatMap codePiece

/-- A slice's tag shows OIP = 0. -/
def State.mayServe (s : State) (x i : Nat) : Bool :=
  match (s.shardSlices x)[i]? with
  | some e => !(s.recordOf e).tag.oip
  | none => false

/-- An ANCHOR object of some slices of a shard (R339, R353). -/
def State.anchorObject' (s : State) (x : Nat) (is : List Nat) : DObject :=
  { okind := 1, site := s.site, keep := s.keepOf x (s.pendingRound x), dfmt := s.pol 0x0426 0, sparse := false, shard := x
    round := 0, around := (s.shard x).applied, count := is.length, records := is.flatMap (s.servedSlice x) }

/-- A FETCH request arrives (R353): served to a member or joining site, each slice once its tag shows OIP = 0. -/
def fetchEffect (m : ClassC) (s : State) : State :=
  s.hear m fun s =>
    let x := m.shard0
    if !s.ownedShards.contains x then s.relayC m
    else if (s.weights x (s.pendingRound x)).getD m.site 0xFF = 0xFF then s
    else
      let is := (List.range (fieldAt m.body 4 4)).map (fieldAt m.body 0 4 + ·)
      let now := is.filter (s.mayServe x)
      let later := is.filter fun i => !s.mayServe x i && decide (i < (s.shardSlices x).length)
      let s := { s with brim := { s.brim with serve := s.brim.serve ++ later.map fun i => (m.site, x, i) } }
      if now.isEmpty then s else s.sendOut m.site (.object (s.anchorObject' x now) true)

/-- Slices asked for whose tags now show OIP = 0 are served (R353). -/
def State.serveWaiting (s : State) : State :=
  let ready := s.brim.serve.filter fun t => s.mayServe t.2.1 t.2.2
  ready.foldl (fun s t => s.sendOut t.1 (.object (s.anchorObject' t.2.1 [t.2.2]) true))
    { s with brim := { s.brim with serve := s.brim.serve.filter fun t => !s.mayServe t.2.1 t.2.2 } }

/-- Slices of a shard marked for catch-up and asked for (R353). -/
def State.markCatchup (s : State) (x : Nat) (is : List (Nat × Bool)) : State :=
  let s := s.setShard x { s.shard x with catchup := (s.shard x).catchup ++ is }
  is.foldl (fun s i => s.sendFetch x i.1 1) (s.putFld Reg.brmStatus 14 1 1)

/-- Brim's digest of a slice renewed from its record (R343). -/
def State.renewDigest (s : State) (e : MapEntry) (omuZero : Bool) : State :=
  let r := s.recordOf e
  { s with brim := { s.brim with
    digests := s.brim.digests.set (sliceKey e.tensor e.first) (sliceDigest e.tensor e.first r.anchor r.mom omuZero) } }

/-- The optimizer group of a tensor with the constants of the present step. -/
def State.groupOf (s : State) (tensor : Nat) : Group :=
  readGroup s.hbm (Regs.pair s.regs (Reg.cufGtblBaseLo 0)) (s.tensorGroup tensor) (s.reg Reg.seqStep)

/-- A served slice installed (R354): anchor, momentum and AROUND as served, the master at the anchor, residual and K +0;
a census catch-up zeroes the moments and sets REPAIRED and RESETM; then the retained commits above AROUND apply in order
with K = +0. -/
def State.install (s : State) (x i : Nat) (e : MapEntry) (around : Nat) (anchor mom : List Nat) (census : Bool) : State :=
  let r := s.recordOf e
  let g := s.groupOf e.tensor
  let step := s.reg Reg.seqStep
  let w := anchor.map bf
  let c := workingCopy g step e.tensor e.first 0 w
  let r := { r with
    w := w, wc := c.1, sc := c.2.1, anchor, mom, resid := List.replicate 4096 0
    m := if census then List.replicate 4096 0 else r.m, v := if census then List.replicate 4096 0 else r.v
    tag := { r.tag with around, oip := false, tensor := e.tensor, first := e.first
                        repaired := r.tag.repaired || census, resetm := r.tag.resetm || census } }
  let rounds := ((s.shard x).commits.filter fun k => decide (around < k.1) && decide (k.1 ≤ (s.shard x).applied))
  let u : UpdateIn := { g, step, tensor := e.tensor, first := e.first, pieces := List.range 64
                        sums := fun _ => [], factor := fun _ => 0, pending := fun _ => none }
  let out := rounds.foldl (fun (acc : Rec × Nat × Nat) k =>
    let y := applyRec u (s.mergeD x k.1 i k.2) (List.replicate 4096 0) acc.1
    if y.finite then ({ y.r with tag := { y.r.tag with around := k.1 } }, acc.2.1 + y.conv, acc.2.2)
    else (acc.1, acc.2.1 + y.conv, acc.2.2 + 1)) (r, c.2.2, 0)
  let p := s.partOf e
  let s : State := { s with regs := Regs.counts s.regs [(Reg.cufEvcConv p, out.2.1), (Reg.cufEvcNonfin p, out.2.2)] }
  let r := out.1
  let t := r.tag
  let t := { t with mcrc := crc32c r.moments, wcrc := crc32c r.weights, ocrc := crc32c r.outerBytes }
  let body := r.weights.take 16384 ++ pack 2 r.m ++ pack 2 r.v ++ pack 1 r.wc ++ pack 1 r.sc ++ pack 2 r.anchor ++
    pack 2 r.mom ++ pack 2 r.resid ++ t.bytes ++ pack 4 r.rtag
  let key := sliceKey e.tensor e.first
  let v := s.shard x
  let s := (s.setShard x { v with catchup := v.catchup.filter (·.1 != i), changed := true }).count Reg.brmEvcCatchup
  let s := { s with brim := { s.brim with kbuf := (s.brim.kbuf.set (2 * key) (0, [])).set (2 * key + 1) (0, []) } }
  ((s.storeRecord e body).renewDigest e (g.omu == 0)).putFld Reg.brmStatus 14 1
    (b2n (s.brim.shards.any fun p => !p.2.catchup.isEmpty))

/-- One slice of an ANCHOR object: installed when its digest agrees, else asked for again (R353, R354). -/
def State.takeServed (s : State) (x i around : Nat) (digest : List Byte) (anchor mom : List Nat) : State :=
  match (s.shardSlices x)[i]? with
  | none => s
  | some e =>
    let g := s.groupOf e.tensor
    match (s.shard x).catchup.find? (·.1 == i) with
    | none => s
    | some c =>
      if sliceDigest e.tensor e.first anchor mom (g.omu == 0) = digest then s.install x i e around anchor mom c.2
      else (s.count Reg.brmEvcCatchup).sendFetch x i 1

/-- The slices of an ANCHOR object, in order. -/
def State.takeSlices : Nat → State → Nat → List Byte → State
  | 0, s, _, _ => s
  | n + 1, s, x, bs =>
    let a := decodePieces 64 (bs.drop 24)
    let m := decodePieces 64 a.2
    State.takeSlices n (s.takeServed x (fieldAt bs 0 4) (fieldAt bs 4 4) ((bs.drop 8).take 16) a.1 m.1) x m.2

/-- The object taken out of a port's inbox (R378). -/
def State.takeD (s : State) (p : Nat) (o : DObject) : State :=
  s.setPport p { s.pport p with inD := (s.pport p).inD.erase o.bytes }

/-- An ANCHOR object completes (R354). -/
def anchorObjectEffect (p : Nat) (o : DObject) (s : State) : State :=
  let s := s.takeD p o
  if s.fld Reg.brmCfg 0 1 = 0 then s
  else if !s.ownedShards.contains o.shard then s.count Reg.brmEvcViol
  else s.takeSlices o.count o.shard o.records

/-- The time at which every included DELTA of the latest commits is held (R350). -/
def State.noteHeld (s : State) : State :=
  let all := s.ownedShards.all fun x => match (s.shard x).commits.get? s.brim.round with
    | some m => m.included.all fun p => s.holds' x p.2 p.1
    | none => false
  if all ∧ s.brim.heldNs.isNone then { s with brim := { s.brim with heldNs := some s.ns } } else s

/-- A DELTA object completes and is delivered to the retention ring (R356, R378); one already held is a duplicate; one for
a shard the device does not own goes on by relay while the device was its owner, else it is refused (R358). -/
def deltaObjectEffect (p : Nat) (o : DObject) (s : State) : State :=
  let s := s.takeD p o
  if s.fld Reg.brmCfg 0 1 = 0 then s
  else if !s.ownedShards.contains o.shard then
    if s.job.map.any fun e => e.shard == o.shard then
      { s with brim := { s.brim with relay := s.brim.relay ++ [(s.site, .object o false)] } }
    else s.count Reg.brmEvcViol
  else if s.holds' o.shard o.round o.site then s.count (Reg.brmPEvcDup p)
  else
    let s := { s with brim := { s.brim with
      objects := s.brim.objects.set (objKey o.shard o.round o.site) o
      wanted := s.brim.wanted.filter fun w => !(w.2.1 == o.site && w.2.2.1 == o.shard && w.2.2.2.1 == o.round) } }
    (s.touched o.shard).noteHeld

/-! ### A shard that changes owner (R280, R358) -/

/-- The keys of Brim's tables that belong to some slices: their K buffers of both parities. -/
def kbufKeys (l : List MapEntry) : List Nat := l.flatMap fun e => [2 * sliceKey e.tensor e.first, 2 * sliceKey e.tensor e.first + 1]

/-- A table's entries of some keys put into another. -/
def Tbl.merge {α : Type} (t u : Tbl α) (mine : Nat → Bool) : Tbl α :=
  (u.filter fun p => mine p.1).foldl (fun t p => t.set p.1 p.2) t

/-- This device comes to own shard `x`, whose slices are `l`, and takes the Brim state that device `src` held (R358). -/
def State.adopt (s : State) (src x : Nat) (l : List MapEntry) : State :=
  let v := Config.remoteShard src x s.free
  let ks := kbufKeys l
  let ds := l.map fun e => sliceKey e.tensor e.first
  let s := s.setShard x v.shard
  { s with
    free := s.free + 1
    brim := { s.brim with
      objects := s.brim.objects.merge v.objects fun k => k / 2 ^ 36 == x
      kbuf := s.brim.kbuf.merge v.kbuf ks.contains
      digests := s.brim.digests.merge v.digests ds.contains } }

/-- This device comes to own shard `x`, whose owner has left the domain with its Brim state: the shard stands at the round
that this device has applied, and the objects are asked for again (R356, R358, log 112). -/
def State.adoptLost (s : State) (x : Nat) : State :=
  let r := s.reg Reg.brmRound
  s.setShard x { applied := r, done := r }

/-- The Brim state of the shards that this device no longer owns goes with them (R358). -/
def State.dropShards (s : State) : State :=
  let xs := s.ownedShards
  let l := ownedSlices s.job.map s.job.positions s.device
  let ks := kbufKeys l
  let ds := l.map fun e => sliceKey e.tensor e.first
  { s with brim := { s.brim with
      shards := s.brim.shards.filter fun p => xs.contains p.1
      objects := s.brim.objects.filter fun p => xs.contains (p.1 / 2 ^ 36)
      kbuf := s.brim.kbuf.filter fun p => ks.contains p.1
      digests := s.brim.digests.filter fun p => ds.contains p.1
      records := s.brim.records.filter fun p => ds.contains p.1 } }

/-- The new owner's ROUND with MOVED to every other owner of the shard (R358). -/
def State.announceMoved (s : State) (x : Nat) : State :=
  if s.fld Reg.brmCfg 0 1 = 0 then s
  else
    let m := s.roundMessage x
    let s := s.setShard x { s.shard x with changed := false, sentAt := s.clk.acnt }
    s.sendSites ((List.range 9).filter fun k => (s.weights x (s.pendingRound x)).getD k 0xFF != 0xFF) (.message { m with moved := true })

/-! ### The step boundary (R335, R339, R345) -/

/-- An outer entry of shard slices stands in a queue or pipeline of some partition. -/
def State.applying (s : State) (x : Nat) : Bool :=
  s.part.any fun p =>
    let mine (e : CuffEntry) : Bool := e.outer.isSome && (s.mapOf e.slice.tensor e.slice.first).any fun m => m.shard == x
    p.2.queue.any mine || p.2.pipe.any fun r => mine r.entry

/-- The partition and program entry of a slice in the current epoch; of a slow-tier slice that no program names, with the whole slice (R184,
R194). -/
def State.entryOf (s : State) (tensor first : Nat) : Option (Nat × SliceEntry) :=
  match (List.range 8).findSome? fun p =>
    ((partitionEntries s p).find? fun e => e.2.2.tensor == tensor && e.2.2.first == first &&
      e.2.2.lepoch == s.fld (Reg.cufEpoch p) 0 16).map fun e => (p, e.2.2) with
  | some x => some x
  | none => (s.sltNum tensor first).map fun num =>
    (num % 8, { tensor, first, record := num, pieces := 64, group := s.tensorGroup tensor, slt := true
                lepoch := s.fld (Reg.cufEpoch (num % 8)) 0 16, cut := true, mask := 2 ^ 64 - 1 })

/-- The Cuff reports a refused apply of a slice to Brim (R184). -/
def State.reportRefused (s : State) (tensor first r : Nat) : State :=
  match s.mapOf tensor first with
  | none => s
  | some e =>
    let i := ((s.shardSlices e.shard).findIdx? fun o => o.tensor == tensor && o.first == first).getD 0
    { s with brim := { s.brim with refused := s.brim.refused ++ [(e.shard, i, r)] } }

/-- The step of the stochastic draws of an outer apply (R174): that of the slice's last inner update, after a reset the one
its tag names. -/
def State.lastUpdate (s : State) (p : Nat) (e : MapEntry) : Nat :=
  match Tbl.get? (s.partition p).updated (sliceKey e.tensor e.first) with
  | some n => n
  | none => (s.recordOf e).tag.wtag

/-- A slice takes part in the apply of round `r` (R345). -/
def State.applies (s : State) (x r i : Nat) (m : ClassC) (e : SliceEntry) : Bool :=
  !(s.shard x).catchup.any (fun c => c.1 == i) &&
  (!e.slt ||
   (s.brim.kbuf.get? (2 * sliceKey e.tensor e.first + r % 2)).any (fun p => p.1 == r) ||
   m.included.any fun p => (s.brim.objects.get? (objKey x p.2 p.1)).any fun o => (o.record i).isSome)

/-- The apply point of a shard, if this boundary is one (R345): one outer apply per slice enters its Cuff queue, or is
refused (R184); a slow-tier slice that is not resident is fetched, and the apply waits for it (R212). -/
def State.applyPoint (s : State) (x : Nat) : State :=
  let r := s.pendingRound x
  match (s.shard x).commits.get? r with
  | none => s
  | some m =>
    if s.applying x ∨ !(m.included.all fun p => s.holds' x p.2 p.1) then s
    else
      let slices := s.shardSlices x
      let s := (List.range slices.length).foldl (fun s i =>
        match slices[i]? with
        | none => s
        | some e =>
          match s.entryOf e.tensor e.first with
          | none => (s.count (Reg.cufEvcViol (s.partOf e))).reportRefused e.tensor e.first r
          | some pe =>
            if !s.applies x r i m pe.2 then s
            else if s.fld (Reg.cufCfg pe.1) 1 1 = 0 then
              (s.count (Reg.cufEvcViol pe.1)).reportRefused e.tensor e.first r
            else
              let part := s.partition pe.1
              let c : CuffEntry :=
                { outer := some r, slot := 0, slice := pe.2, step := s.lastUpdate pe.1 e, entered := s.now, waited := false }
              let s := s.setPartition pe.1 { part with queue := part.queue ++ [c] }
              if pe.2.slt ∧ (s.landedLine pe.2.record).isNone then (s.fetchSlice (s.reg Reg.seqStep) pe.2.record).count Reg.sltEvcWait
              else s) s
      let v := s.shard x
      ((s.setShard x { v with applied := r, changed := true }).retain x).putFld Reg.brmStatus 13 1 1

/-- The DELTA object of a shard for the round just cut (R339, R340): a slow-tier shard is SPARSE; in another one a slice
that was skipped in the cut step has a withheld record (log 32). -/
def State.deltaObject' (s : State) (x r : Nat) : DObject :=
  let slices := s.shardSlices x
  let keep := s.keepOf x r
  let sparse := slices.any fun e => (s.sltTensor e.tensor).isSome
  let recs := (List.range slices.length).filterMap fun i =>
    match slices[i]? with
    | some e => match s.brim.records.get? (sliceKey e.tensor e.first) with
      | some b => some (i, b)
      | none => if sparse then none else some (i, recordBytes 0xFF (List.range keep) (List.replicate keep 0))
    | none => none
  { okind := 0, site := s.site, keep, dfmt := s.pol 0x0426 0, sparse, shard := x, round := r
    around := r - 1, count := recs.length
    records := recs.flatMap fun p => (if sparse then leBytes 4 p.1 else []) ++ p.2 }

/-- The end of a cut step (R335, R339, R350): the round is cut, the proposals are logged, and every shard's DELTA is kept
and sent. -/
def State.endCut (s : State) (step : Nat) : State :=
  let r := s.cutRound
  let keep := s.fld Reg.brmKeep 0 10
  let s := { s with brim := { s.brim with
    prevCutNs := s.brim.cutNs, prevCutStep := s.brim.cutStep, cutNs := s.ns, cutAc := s.clk.acnt, cutStep := step + 1
    round := r, cutting := none } }
  let p := s.propose r keep
  let s := s.logDecision 1 (leBytes 4 r ++ leBytes 4 p.1 ++ leBytes 2 p.2.1 ++ leBytes 4 p.2.2.1.toNat ++
    leBytes 4 p.2.2.2.1.toNat ++ leBytes 4 p.2.2.2.2.toNat)
  let s := { s with brim := { s.brim with pi := p.1, pk := p.2.1, heldNs := none } }
  let s := s.ownedShards.foldl (fun s x =>
    if (s.shard x).joining then s
    else
      let o := s.deltaObject' x r
      let s := { s with brim := { s.brim with objects := s.brim.objects.set (objKey x r s.site) o } }
      ((s.touched x).settleWait x).sendSites ((List.range 9).filter fun k => (s.weights x r).getD k 0xFF != 0xFF) (.object o false)) s
  { s with brim := { s.brim with records := [], cutVals := [] }, regs := Regs.putFld s.regs Reg.brmStatus 12 1 0 }

/-- Interval from the latest cut to the next one (R335). -/
def State.interval (s : State) : Nat :=
  let is := s.ownedShards.filterMap fun x => ((s.shard x).commits.get? s.brim.round).map fun m => fieldAt m.body 0 4
  if is.isEmpty then s.pol 0x0420 100 else is.foldl max 0

/-- Whether step `n` is the cut step of the next round (R335); a later one is counted once. -/
def State.startCut (s : State) (n : Nat) : State :=
  let i := s.interval
  if (s.ownedShards.all fun x => (s.shard x).joining) ∨ n + 1 < s.brim.cutStep + i then s
  else if s.ownedShards.all fun x => decide (s.brim.round ≤ (s.shard x).applied) then
    { s with brim := { s.brim with cutting := some n }, regs := Regs.putFld s.regs Reg.brmStatus 12 1 1 }
  else if s.brim.postponed = some s.cutRound then s
  else { s with brim := { s.brim with postponed := some s.cutRound }, regs := Regs.count s.regs Reg.brmEvcPostpone 1 }

/-- An outer apply ended: with the last of its round `BRM_ROUND` rises and ROUND is posted (R440, R389). -/
def State.roundApplied (s : State) : State :=
  let xs := s.ownedShards
  let busy := xs.any s.applying
  let s := s.putFld Reg.brmStatus 13 1 (b2n busy)
  let r := (xs.map fun x => (s.shard x).applied).foldl min (2 ^ 32 - 1)
  let s := xs.foldl (fun s x => if s.applying x then s else s.setShard x { s.shard x with done := (s.shard x).applied }) s
  let s := s.serveWaiting
  if busy ∨ xs.isEmpty ∨ r ≤ s.reg Reg.brmRound then s else (s.put Reg.brmRound r).post 7 0x1E8 (leBytes 4 r)

/-- Brim at the boundary after step `n` (R335, R345): the cut ends, applies start, and the next cut step is chosen. -/
def State.brimBoundary (s : State) (n : Nat) : State :=
  if s.fld Reg.brmCfg 0 1 = 0 then s
  else
    let s := if s.brim.cutting = some n then s.endCut n else s
    let s := (s.ownedShards.foldl State.applyPoint s.noteHeld).roundApplied
    s.startCut (n + 1)

/-- What stands of Brim in HBM, and so survives a reset that keeps HBM (R185, R347, R356, R357): K buffers, digests, the
retained objects and commits, and what they say of the rounds. -/
def Brim.kept (b : Brim) : Brim :=
  let shards := b.shards.map fun (e : Nat × Shard) =>
    (e.1, { e.2 with rounds := [], joins := [], t0 := none, expired := false, paused := none, changed := false })
  { round := b.round, cutStep := b.cutStep, cutNs := b.cutNs, prevCutNs := b.prevCutNs, cutAc := b.cutAc, prevCutStep := b.prevCutStep,
    postponed := b.postponed, pi := b.pi, pk := b.pk, shards := shards, objects := b.objects, kbuf := b.kbuf, digests := b.digests,
    removed := b.removed, refused := b.refused }

/-- Brim's rounds at the start of a job (R331, R332, R335). -/
def State.brimFirst (s : State) : State :=
  let base := s.pol 0x040C 0
  let b : Brim := { round := base, cutStep := s.job.firstStep, cutNs := s.ns, cutAc := s.clk.acnt, pi := s.pol 0x0420 100, pk := s.pol 0x0423 64 }
  let s := s.ownedShards.foldl (fun s x => s.setShard x { applied := base, done := base }) { s with brim := b }
  let s := (ownedSlices s.job.map s.job.positions s.device).foldl (fun s e =>
    s.renewDigest e ((s.groupOf e.tensor).omu == 0)) s
  let regs := Regs.put (Regs.put s.regs Reg.brmKeep (s.pol 0x0423 64)) Reg.brmInterval (s.pol 0x0420 100)
  { s with regs := Regs.put regs Reg.brmRound base }

/-- Brim's registers where the job goes on after a reset (R186, R389). -/
def State.brimResume (s : State) : State :=
  let xs := s.ownedShards
  let keep := match xs with | x :: _ => s.keepOf x s.cutRound | [] => s.pol 0x0423 64
  let r := (xs.map fun x => (s.shard x).done).foldl min (if xs.isEmpty then s.pol 0x040C 0 else 2 ^ 32 - 1)
  { s with regs := Regs.put (Regs.put (Regs.put s.regs Reg.brmKeep keep) Reg.brmInterval s.interval) Reg.brmRound r }

/-- Brim at job start: its rounds begin or go on, and the sites count as heard (R351). -/
def State.brimStart (s : State) : State :=
  let s := if s.job.resumed then s.brimResume else s.brimFirst
  let ports := sumNat (s.partners.map fun e => 2 ^ entryNat e 0x0302 0)
  { s with
    brim := { s.brim with heard := s.partnerSites.foldl (fun t k => t.set k s.clk.acnt) [] }
    regs := Regs.putFld (Regs.putFld s.regs Reg.brmStatus 0 4 s.site) Reg.brmStatus 4 8 ports }

end Sys2Proof.Machine
end

