-- ==== Sys2Proof/Machine/Partner.lean ====
section
/-! DEFINITION. Partner ports (11_partner_ports): the erasure code, packets and their sealing, routes, class C and class D
in both directions, feedback, the shaper, and the port's answers to its neighbours. -/

namespace Sys2Proof.Machine

/-! ### The erasure code (R372) -/

/-- x times a byte in GF(2^8) under 0x11D. -/
def gfDouble (a : Byte) : Byte := if a.getLsbD 7 then (a <<< 1) ^^^ 0x1D#8 else a <<< 1

/-- The product in GF(2^8) over the bits of `b` from bit `n` down. -/
def gfMulAux : Nat → Byte → Byte → Byte
  | 0, _, _ => 0
  | n + 1, a, b => gfDouble (gfMulAux n a (b >>> 1)) ^^^ (if b.getLsbD 0 then a else 0)

/-- The product in GF(2^8) (R372). -/
def gfMul (a b : Byte) : Byte := gfMulAux 8 a b

/-- The inverse in GF(2^8): the 254th power. -/
def gfInv (a : Byte) : Byte := (List.range 7).foldl (fun (acc : Byte × Byte) _ =>
  let sq := gfMul acc.2 acc.2
  (gfMul acc.1 sq, sq)) (1, a) |>.1

/-- c(k, i) (R372). -/
def cauchy (k i : Nat) : Byte := gfInv ((BitVec.ofNat 8 (0x80 + k)) ^^^ (BitVec.ofNat 8 i))

/-- Bytes of two units added. -/
def xorBytes (a b : List Byte) : List Byte := a.zipWith (· ^^^ ·) b

/-- A unit times a factor. -/
def scaleBytes (c : Byte) (a : List Byte) : List Byte := a.map (gfMul c ·)

/-- Repair unit `k` over the data units (R372). -/
def repairUnit (k : Nat) (data : List (List Byte)) : List Byte :=
  (List.range data.length).foldl (fun acc i => xorBytes acc (scaleBytes (cauchy k i) (data.getD i [])))
    (List.replicate (data.headD []).length 0)

/-- Gauss-Jordan elimination of rows of coefficients and right-hand units: column `j` of `n`. -/
def solveColumns : Nat → Nat → List (List Byte × List Byte) → List (List Byte × List Byte)
  | 0, _, rows => rows
  | n + 1, j, rows =>
    match rows.findIdx? fun r => r.1.all fun _ => true && decide (r.1.getD j 0 != 0) && (List.range j).all fun i => r.1.getD i 0 == 0 with
    | none => rows
    | some p =>
      let piv := rows.getD p ([], [])
      let inv := gfInv (piv.1.getD j 0)
      let piv := (scaleBytes inv piv.1, scaleBytes inv piv.2)
      let rest := (rows.eraseIdx p).map fun r =>
        let c := r.1.getD j 0
        (xorBytes r.1 (scaleBytes c piv.1), xorBytes r.2 (scaleBytes c piv.2))
      solveColumns n (j + 1) (rest ++ [piv])

/-- The KD data units from any KD units held (R372). -/
def rebuild (kd : Nat) (units : Tbl (List Byte)) : List (List Byte) :=
  let missing := (List.range kd).filter fun i => (units.get? i).isNone
  let reps := (units.filter fun u => decide (64 ≤ u.1)).take missing.length
  let rows := reps.map fun u =>
    let k := u.1 - 64
    let rhs := (List.range kd).foldl (fun acc i => match units.get? i with
      | some d => xorBytes acc (scaleBytes (cauchy k i) d)
      | none => acc) u.2
    (missing.map (cauchy k ·), rhs)
  let sol := solveColumns missing.length 0 rows
  (List.range kd).map fun i => match units.get? i with
    | some d => d
    | none => match missing.idxOf? i with
      | some j => (sol.getD j ([], [])).2
      | none => []

/-! ### Records (R395, R397, R406, R409) -/

/-- The ASCII bytes of a string (R402). -/
def ascii (t : String) : List Byte := t.toList.map fun c => BitVec.ofNat 8 c.toNat

/-- The nonce: the IV with its last 8 bytes XORed with the sequence number, big-endian (R395). -/
def nonceOf (iv : List Byte) (seq : Nat) : List Byte := iv.take 4 ++ xorBytes (iv.drop 4) (beBytes 8 (seq % 2 ^ 64))

/-- A record sealed under a secret: key in bytes 0 to 31, IV in 32 to 43 (R407). -/
def sealRecord (secret : List Byte) (seq : Nat) (aad plain : List Byte) : List Byte × List Byte :=
  Config.gcmSeal (secret.take 32) (nonceOf ((secret.drop 32).take 12) seq) aad plain

/-- A record opened: its plaintext where the tag agrees over all 16 bytes (R397). -/
def openRecord (secret : List Byte) (seq : Nat) (aad body tag : List Byte) : Option (List Byte) :=
  let n := nonceOf ((secret.drop 32).take 12) seq
  let plain := Config.gcmOpen (secret.take 32) n aad body
  if (Config.gcmSeal (secret.take 32) n aad plain).2 = tag then some plain else none

/-- An association. -/
def State.assoc (s : State) (a : Nat) : Assoc := Tbl.get {} s.cph.assocs a

/-- The state with an association replaced. -/
def State.setAssoc (s : State) (a : Nat) (x : Assoc) : State :=
  { s with cph := { s.cph with assocs := s.cph.assocs.set a x } }

/-- The 57-byte key of a site in PARTNER_KEYS (R447). -/
def State.siteKey (s : State) (site : Nat) : List Byte :=
  let v := (s.conf 0x0504).getD []
  match (List.range (v.length / 64)).find? fun i => fieldAt v (64 * i) 1 == site with
  | some i => (v.drop (64 * i + 1)).take 57
  | none => []

/-- The hello key and IV of a partner association (R406), or of a host association (R434). -/
def State.helloKey (s : State) (a : Nat) : List Byte :=
  if a < 8 then
    let peer := match s.partner a with | some e => entryNat e 0x0301 0 | none => 0
    let lo := min s.site peer
    let hi := max s.site peer
    Config.shake256 (ascii "PLY-HELLO" ++ s.siteKey lo ++ s.siteKey hi) 44
  else Config.shake256 (ascii "PLY-HELLO-H" ++ (s.conf 0x0502).getD [] ++ leBytes 8 Config.serial.toNat) 44

/-- REC_LOG2 and BYTE_LOG2 in force (R421). -/
def State.recLimit (s : State) : Nat := 2 ^ s.fld Reg.cphLimits 0 8
/-- The byte limit of a key (R409). -/
def State.byteLimit (s : State) : Nat := 2 ^ s.fld Reg.cphLimits 8 8

/-- The sending key of an association has reached 15/16 of a limit (R409). -/
def State.keyAged (s : State) (a : Nat) : Bool :=
  decide (15 * s.recLimit ≤ 16 * s.reg (Reg.cphATxrec a)) || decide (15 * s.byteLimit ≤ 16 * Regs.pair s.regs (Reg.cphATxbytesLo a))

/-- The sending key has only its reserve left (R409). -/
def State.keyReserve (s : State) (a : Nat) : Bool :=
  decide (s.recLimit ≤ s.reg (Reg.cphATxrec a) + 2 ^ 12) ||
  decide (s.byteLimit ≤ Regs.pair s.regs (Reg.cphATxbytesLo a) + 2 ^ 24)

/-- The sending key is used up. -/
def State.keySpent (s : State) (a : Nat) : Bool :=
  decide (s.recLimit ≤ s.reg (Reg.cphATxrec a)) || decide (s.byteLimit ≤ Regs.pair s.regs (Reg.cphATxbytesLo a))

/-- The next secret of a chain (R407). -/
def nextSecret (ts : List Byte) : List Byte := Config.shake256 (ascii "PLY-NEXT" ++ ts) 64

/-- A control datagram leaves a host port (R428, R433): sealed under the hello key for HELLO and FINISH, else under the
sending key, with the next HSEQ; while the link is down or no key is held it waits for its resending. -/
def State.emitControl (s : State) (h : Nat) (c : Control) : State :=
  let a := 8 + h
  let x := s.assoc a
  let p : HPort := Tbl.get {} s.host.ports h
  let hello := c.kind = 8 ∨ c.kind = 9
  if s.fld (Reg.hptHStatus h) 0 1 = 0 ∨ !s.cph.keyed ∨ (¬hello ∧ (x.tx.isEmpty ∨ s.keySpent a)) then s
  else
    let kid := s.fld (Reg.cphAState a) 2 1
    let plain := leBytes 4 c.kind ++ leBytes 4 c.mid ++ leBytes 4 p.rxMid ++ leBytes 4 c.body.length ++ c.body
    let head := leBytes 1 (1 + 16 * kid) ++ List.replicate 7 0 ++ leBytes 8 x.seq
    let sealed := sealRecord (if hello then s.helloKey a else (Tbl.get (0, []) x.tx kid).2) x.seq head plain
    let regs := Regs.count64 (Regs.count64 s.regs (Reg.hptHTxbytesLo h) (s.host.frame h (32 + plain.length))) Reg.cphEncBytesLo plain.length
    let regs := if hello then regs
      else Regs.count64 (Regs.put regs (Reg.cphATxrec a) (s.reg (Reg.cphATxrec a) + 1)) (Reg.cphATxbytesLo a) plain.length
    { s.setAssoc a { x with seq := x.seq + 1 } with
      regs := regs
      host := { s.host with ports := s.host.ports.set h { p with wire := head ++ sealed.1 ++ sealed.2 } } }

/-- A control message of a host port: it takes the next MID, is sent, and awaits acknowledgement (R433). -/
def State.sendControl (s : State) (h kind : Nat) (body : List Byte) : State :=
  let p : HPort := Tbl.get {} s.host.ports h
  let c : Control := ⟨p.txMid, kind, body⟩
  let s := { s with host := { s.host with
    ports := s.host.ports.set h { p with txMid := p.txMid + 1, unacked := p.unacked ++ [c] } } }
  s.emitControl h c

/-- A handshake or key message of an association, as a class C message or a control datagram (R405, R434). -/
def State.sendKeyMessage (s : State) (a kind : Nat) (body : List Byte) : State :=
  if a < 8 then s.queueC a ({ s.header kind 0 0 body with nshard := 0 }).bytes else s.sendControl (a - 8) kind body

/-- The DIK and AK private seeds, 57 bytes (R402). -/
def dikSeed : List Byte := Config.shake256 (ascii "PLY-DIK" ++ Config.dus) 57

/-- The AK private seed (R402). -/
def State.akSeed (s : State) : List Byte :=
  Config.shake256 (ascii "PLY-AK" ++ Config.dus ++ s.host.cfgDigest ++ s.host.fwDigest) 57

/-- Exactly `n` bytes of a list, zeros after its end. -/
def padTo (n : Nat) (bs : List Byte) : List Byte := (bs ++ List.replicate n 0).take n

/-- DIK_PUB as its registers hold it, 57 bytes (R423). -/
def State.dikPub (s : State) : List Byte := ((List.range 15).flatMap fun i => leBytes 4 (s.reg (Reg.idDikPub i))).take 57

/-- The body of the device's HELLO (R405, R434). -/
def State.helloBody (s : State) (a : Nat) (epub nonce : List Byte) : List Byte :=
  if a < 8 then
    padTo 56 epub ++ padTo 32 nonce ++ leBytes 8 Config.serial.toNat ++ s.dikPub ++ List.replicate 7 0 ++
      padTo 114 ((s.conf 0x0503).getD [])
  else padTo 56 epub ++ padTo 32 nonce ++ padTo 640 s.cph.bootReport

/-- A handshake of an association starts with a fresh HELLO (R407); traffic keys stay in use until it completes (R408). -/
def State.startHandshake (s : State) (a : Nat) : State :=
  if !s.cph.keyed then s
  else
    let eph := padTo 56 (Config.randomBytes s.cph.draws 56)
    let body := s.helloBody a (Config.x448Public eph) (Config.randomBytes (s.cph.draws + 1) 32)
    let x := { s.assoc a with eph, ownHello := body, finished := false, helloAt := some s.clk.acnt }
    let s := { s.setAssoc a x with cph := { (s.setAssoc a x).cph with draws := s.cph.draws + 2 } }
    let peer := if a < 8 then (match s.partner a with | some e => entryNat e 0x0301 0 | none => 0) else 0
    ((s.putFld (Reg.cphAState a) 0 2 1).putFld (Reg.cphAState a) 4 4 peer).sendKeyMessage a 8 body

/-- The sender of an association moves to its next generation when it may (R409), and sends KEYUPD. -/
def State.moveKey (s : State) (a seq : Nat) : State :=
  let g := s.reg (Reg.cphATxgen a)
  let x := s.assoc a
  if !s.keyAged a then s
  else if x.acked ≤ g then
    if s.keyReserve a ∧ !x.waitCounted then
      ((s.setAssoc a { x with waitCounted := true }).count (Reg.cphAEvcKeywait a)).putFld (Reg.cphAState a) 3 1 1
    else s
  else
    let ts := (Tbl.get (0, []) x.tx ((g + 1) % 2)).2
    let s := s.setAssoc a { x with waitCounted := false, tx := x.tx.set (g % 2) (g + 2, nextSecret ts) }
    let regs := Regs.putPair (Regs.put (Regs.put s.regs (Reg.cphATxgen a) (g + 1)) (Reg.cphATxrec a) 0) (Reg.cphATxbytesLo a) 0
    let regs := Regs.putFld (Regs.putFld regs (Reg.cphAState a) 2 1 ((g + 1) % 2)) (Reg.cphAState a) 3 1 0
    { s with regs := regs }.sendKeyMessage a 10 (leBytes 4 (g + 1) ++ leBytes 8 seq)

/-- A record counted under the sending key, with the engine's bytes (R409, R421); one that spends the whole reserve starts
a new handshake (R409). -/
def State.countRecord (s : State) (a len : Nat) : State :=
  let regs := Regs.count64 (Regs.count64 (Regs.put s.regs (Reg.cphATxrec a) (s.reg (Reg.cphATxrec a) + 1))
    (Reg.cphATxbytesLo a) len) Reg.cphEncBytesLo len
  let s := { s with regs := regs }
  if s.keySpent a ∧ s.fld (Reg.cphAState a) 0 2 = 2 then s.startHandshake a else s

/-! ### Packets (R364 to R367) -/

/-- The Brim header of a packet (R365). -/
def packetHeader (p : Packet) : List Byte :=
  leBytes 1 (p.ver % 16 + p.cls % 4 * 16 + p.kid % 2 * 64) ++ leBytes 1 (p.site % 16 + p.route % 4 * 16) ++ leBytes 2 p.len ++
    leBytes 4 p.rsn ++ leBytes 8 p.psn ++ leBytes 4 p.txt ++ List.replicate 4 0 ++ (p.ext ++ List.replicate 16 0).take 16

/-- The routes of a port's PARTNERS entry (R445). -/
def State.routes (s : State) (p : Nat) : List (List Byte) :=
  match s.partner p with
  | some e => (e.filter (·.1 == 0x030C)).map (·.2)
  | none => []

/-- Bytes of the Ethernet frame of a packet of `len` ciphertext bytes on a route (R364). -/
def frameBytes (route : List Byte) (len : Nat) : Nat :=
  let n := fieldAt route 41 1
  18 + (if fieldAt route 36 2 = 0 then 0 else 4) + 40 + (if n = 0 then 0 else 8 + 16 * n) + 8 + 40 + len + 16

/-- The partner site of a port. -/
def State.peerSite (s : State) (p : Nat) : Nat := match s.partner p with | some e => entryNat e 0x0301 0 | none => 15

/-- A port carries traffic: enabled, its link up, not isolated (R361, R488). -/
def State.portRuns (s : State) (p : Nat) : Bool :=
  decide (p < 8) && s.fld (Reg.brmPCfg p) 0 1 == 1 && s.fld (Reg.brmPStatus p) 0 1 == 1 && !s.isolated (0x1E8 + p) &&
    !s.coreStopped

/-- A route of a port's state. -/
def PPort.route (x : PPort) (q : Nat) : PRoute := Tbl.get {} x.routes q

/-- The port with a route replaced. -/
def PPort.setRoute (x : PPort) (q : Nat) (r : PRoute) : PPort := { x with routes := x.routes.set q r }

/-- The baseline B, the smallest probe delay kept (R379). -/
def PRoute.base (r : PRoute) : Option Int := match r.delays with | [] => none | d :: ds => some (ds.foldl min d)

/-- The jitter J (R379). -/
def PRoute.jitter (r : PRoute) : Nat := match r.delays with
  | [] => 0
  | d :: ds => (ds.foldl max d - ds.foldl min d).toNat

/-- The one-way delay of a packet that arrives now (R379). -/
def State.delayOf (s : State) (txt : Nat) : Int :=
  let d : Nat := (s.ns + 2 ^ 32 - txt % 2 ^ 32) % 2 ^ 32
  if d < 2 ^ 31 then Int.ofNat d else Int.ofNat d - 2 ^ 32

/-- The state at `t` ns of time of day (log 1). -/
def State.atNs (s : State) (t : Nat) : State := s.atAc (s.clk.acnt + (t - s.ns + 39) / 40)

/-- B and J of a route shown (R390, R391). -/
def State.showRoute (s : State) (p q : Nat) : State :=
  let r := (s.pport p).route q
  (s.putFld (Reg.brmPRoute p q) 8 24 ((r.base.getD 0).toNat / 1000)).putFld (Reg.brmPJit p q) 0 24 (r.jitter / 1000)

/-- A window's RESEND entry: its missing data frames (R381, R382). -/
def DWindow.missing (w : DWindow) : Nat :=
  sumNat ((List.range w.kd).map fun i => if (w.frames.get? i).isNone then 2 ^ i else 0)

/-- A window falls due: a request for its missing frames, or after 4 of them the object is abandoned (R381). -/
def State.windowDue (s : State) (p obj win : Nat) : State :=
  let x := s.pport p
  let o : DArriving := Tbl.get {} x.arriving obj
  match o.wins.get? win with
  | none => s
  | some w =>
    if w.requests = 4 then
      (s.setPport p { x with arriving := x.arriving.erase obj, abandoned := x.abandoned ++ [obj]
                             asks := x.asks.filter (·.1 != obj) }).count (Reg.brmPEvcObjlost p)
    else
      s.setPport p { x with
        arriving := x.arriving.set obj { o with wins := o.wins.set win { w with requests := w.requests + 1, due := true } }
        asks := (x.asks.filter fun a => !(a.1 == obj && a.2.1 == win)) ++ [(obj, win, w.missing)] }

/-- The open windows of a route that a test picks fall due. -/
def State.dueWindows (s : State) (p q : Nat) (f : DWindow → Bool) : State :=
  let x := s.pport p
  let l := x.arriving.flatMap fun o => (o.2.wins.filter fun w => w.2.route == q && !w.2.due && f w.2).map fun w => (o.1, w.1)
  l.foldl (fun s k => s.windowDue p k.1 k.2) s

/-- A packet has been accepted on its route (R367, R379, R381, R382): its sequence numbers, its arrival, the fall it shows,
and the windows that it makes due. -/
def State.accepted (s : State) (p : Nat) (k : Packet) : State :=
  let x := s.pport p
  let r := x.route k.route
  let d := s.delayOf k.txt
  let b := r.base.getD d
  let hi := max k.psn (Regs.pair s.regs (Reg.brmPRxpsnLo p))
  let gap := match r.rsn with | some h => k.rsn - h - 1 | none => 0
  let falls := (if d < b then r.falls ++ [(s.ns, (b - d).toNat)] else r.falls).filter fun f => decide (s.ns < f.1 + 250000000)
  let r := { r with lastNs := s.ns, rsn := some (max k.rsn (r.rsn.getD 0)), rcv := r.rcv + 1, lostRun := max r.lostRun gap
                    falls := falls }
  let x := { x.setRoute k.route r with psns := (x.psns.filter fun n => decide (hi ≤ n + 2 ^ 20)) ++ [k.psn] }
  let s := { s.setPport p x with regs := Regs.putPair s.regs (Reg.brmPRxpsnLo p) hi }
  let m := 2 * r.jitter + (falls.map (·.2)).foldl max 0
  s.dueWindows p k.route fun w => decide ((k.txt + 2 ^ 32 - (w.lastTxt + m) % 2 ^ 32) % 2 ^ 32 < 2 ^ 31)

/-- A record of generation `g` has verified (R410): the first of the generation after the newest starts the 500 ms. -/
def State.noteGeneration (s : State) (a g : Nat) : State :=
  if g = s.reg (Reg.cphARxgen a) + 1 then
    (s.setAssoc a { s.assoc a with newGen := some (g, s.clk.acnt) }).put (Reg.cphARxgen a) g
  else s

/-- The plaintext of a packet under the slot its KID names (R366, R406). -/
def State.openPacket (s : State) (p : Nat) (k : Packet) : Option (List Byte) :=
  match (s.assoc p).rx.get? k.kid with
  | some g => openRecord g.2 k.psn (packetHeader k) k.body k.tag
  | none => none

/-- The generation of the key in a receiving slot. -/
def State.slotGeneration (s : State) (a kid : Nat) : Nat := (Tbl.get (0, []) (s.assoc a).rx (kid % 2)).1

/-- The checks before the tag (R367): the counter of the case that discards a packet, 0 for none. -/
def State.discards (s : State) (p : Nat) (k : Packet) : Nat :=
  let x := s.pport p
  let r := x.route k.route
  let late : Bool := match r.base with
    | some b => decide (250000000 + b < s.delayOf k.txt)
    | none => false
  if k.ver ≠ 1 ∨ k.malformed ∨ k.site ≠ s.peerSite p ∨ (s.routes p).length ≤ k.route then Reg.brmPEvcRxdrop p
  else if x.psns.contains k.psn ∨ k.psn + 2 ^ 20 < Regs.pair s.regs (Reg.brmPRxpsnLo p) then Reg.brmPEvcReplay p
  else if k.cls != 2 && late then Reg.brmPEvcReorder p
  else 0

/-- Arrival of a packet (R366, R367): discarded and counted, discarded for its tag, or handed on with its plaintext. -/
def State.receive (s : State) (p : Nat) (k : Packet) (f : State → List Byte → State) : State :=
  if !s.portRuns p then s
  else
    let s := { s with regs := Regs.count64 s.regs (Reg.brmPRxbytesLo p) (frameBytes ((s.routes p).getD k.route []) k.len) }
    let c := s.discards p k
    if c ≠ 0 then s.count c
    else match s.openPacket p k with
      | none => s
      | some plain => f ((s.accepted p k).noteGeneration p (s.slotGeneration p k.kid)) plain

/-! ### Routes (R368, R379, R380) -/

/-- The up state of a route shown (R391). -/
def State.showUp (s : State) (p q v : Nat) : State :=
  { s with regs := Regs.putFld (Regs.putFld s.regs (Reg.brmPRoute p q) 0 1 v) (Reg.brmPStatus p) (1 + q) 1 v }

/-- A probe's delay enters its route's history; the 16th that differs one way from the baseline is a step (R379, R380). -/
def PRoute.probe (r : PRoute) (d : Int) : PRoute × Bool :=
  let b := r.base.getD d
  let away (x : Int) : Int := if x - b > 500000 then 1 else if b - x > 500000 then -1 else 0
  let off := if away d = 0 then [] else if r.off.all fun x => away x == away d then r.off ++ [d] else [d]
  if 16 ≤ off.length then ({ r with delays := off, off := [] }, true)
  else ({ r with delays := (r.delays ++ [d]).drop (r.delays.length + 1 - 256), off }, false)

/-- A probe arrives (R368, R379, R380). Probes run on while each arrives less than two PROBE_US after the one before
(log 29). -/
def probeEffect (p : Nat) (k : Packet) (s : State) : State :=
  s.receive p k fun s _ =>
    let x := s.pport p
    let r := x.route k.route
    let pr := r.probe (s.delayOf k.txt)
    let us := match s.partner p with | some e => entryNat e 0x0309 1000 | none => 1000
    let r := { pr.1 with run := if r.run = 0 ∨ s.ns < r.probeNs + 2000 * us then r.run + 1 else 1, probeNs := s.ns }
    let s := (s.setPport p (x.setRoute k.route r)).showRoute p k.route
    let s := s.countN (Reg.brmPEvcReroute p) (b2n pr.2)
    if 16 ≤ r.run then s.showUp p k.route 1 else s

/-- A route sees no packet for DOWN_MS and goes down; its windows fall due (R368, R381). -/
def routeDownEffect (p q : Nat) (s : State) : State :=
  if 8 ≤ p ∨ s.coreStopped ∨ s.fld (Reg.brmPRoute p q) 0 1 = 0 then s
  else
    let ms := match s.partner p with | some e => entryNat e 0x030B 50 | none => 50
    let x := s.pport p
    let s := s.atNs ((x.route q).lastNs + 1000000 * ms)
    let s := ((s.setPport p (x.setRoute q { x.route q with run := 0 })).showUp p q 0).count (Reg.brmPEvcRoutedown p)
    s.dueWindows p q fun _ => true

/-- The time at which a timer of a port that last ran at `last` ns runs again: `us` later, at once the first time. -/
def State.atTimer (s : State) (last : Option Nat) (us : Nat) : State :=
  match last with
  | some t => s.atNs (t + 1000 * us)
  | none => s

/-- Every PROBE_US a probe is ready on each route (R368). -/
def probeTimerEffect (p : Nat) (s : State) : State :=
  if !s.portRuns p ∨ !s.established p then s
  else
    let s := s.atTimer (s.pport p).probeAt (s.fld (Reg.brmPTiming p) 0 16)
    s.setPport p { s.pport p with probes := List.range (s.routes p).length, probeAt := some s.ns }

/-- Every FB_US a feedback report is ready on each route (R368). -/
def feedbackTimerEffect (p : Nat) (s : State) : State :=
  if !s.portRuns p ∨ !s.established p then s
  else
    let s := s.atTimer (s.pport p).feedbackAt (s.fld (Reg.brmPTiming p) 16 16)
    s.setPport p { s.pport p with feedback := List.range (s.routes p).length, feedbackAt := some s.ns }

/-! ### Class C (R373 to R375) -/

/-- The fragment length of a message (R373). -/
def fragLen (mlen : Nat) : Nat := ((mlen + 3) / 4 + 15) / 16 * 16

/-- Fragment `f` of a message (R373). -/
def fragment (bytes : List Byte) (f : Nat) : List Byte :=
  let n := fragLen bytes.length
  let padded := (bytes ++ List.replicate (4 * n) 0).take (4 * n)
  let data := (List.range 4).map fun i => (padded.drop (n * i)).take n
  if f < 4 then data.getD f [] else repairUnit (f - 4) data

/-- CACK after more MIDs have been delivered or released (R382). -/
def ackUp : Nat → Nat → List (Nat × Bool) → Nat × List (Nat × Bool)
  | 0, c, l => (c, l)
  | n + 1, c, l => if l.any (·.1 == c + 1) then ackUp n (c + 1) (l.filter (·.1 != c + 1)) else (c, l)

/-- A MID delivered or released. -/
def PPort.done' (x : PPort) (mid : Nat) (ok : Bool) : PPort :=
  let l := x.cdone ++ [(mid, ok)]
  let a := ackUp l.length x.cack l
  { x with crx := x.crx.erase mid, cack := a.1, cdone := a.2 }

/-- The KINDs of class C: outer sync's, and the cipher engine's HELLO, FINISH, KEYUPD and KEYACK (R341, R406). -/
def classCKinds : List Nat := [1, 2, 3, 4, 8, 9, 10, 11]

/-- A fragment's plaintext is kept; the fourth rebuilds the message, which is delivered once (R374); one of another KIND is
discarded and counted (R341). -/
def State.takeFragment (s : State) (p : Nat) (k : Packet) (plain : List Byte) : State :=
  let x := s.pport p
  let mid := fieldAt k.ext 0 4
  let fi := fieldAt k.ext 6 1
  if mid ≤ x.cack ∨ x.cdone.any (·.1 == mid) then s.count (Reg.brmPEvcDup p)
  else
    let m : CArriving := (x.crx.get? mid).getD ⟨fieldAt k.ext 4 2, [], s.ns⟩
    if (m.frags.get? fi).isSome then s.count (Reg.brmPEvcDup p)
    else
      let m := { m with frags := m.frags.set fi plain }
      if m.frags.length < 4 then s.setPport p { x with crx := x.crx.set mid m }
      else
        let units := m.frags.map fun f => (if f.1 < 4 then f.1 else f.1 + 60, f.2)
        let bytes := ((rebuild 4 units).flatMap id).take m.mlen
        let x := x.done' mid true
        if classCKinds.contains (fieldAt bytes 0 1) then s.setPport p { x with inC := x.inC ++ [bytes] }
        else (s.setPport p x).count Reg.brmEvcViol

/-- A class C fragment arrives (R367, R374, R406): one that opens under the hello key only is delivered when it belongs to
a HELLO or FINISH, which the first fragment's KIND tells where it is fragment 0, and is counted else. -/
def classCFragmentEffect (p : Nat) (k : Packet) (s : State) : State :=
  if !s.portRuns p then s
  else
    let s := { s with regs := Regs.count64 s.regs (Reg.brmPRxbytesLo p) (frameBytes ((s.routes p).getD k.route []) k.len) }
    let c := s.discards p k
    if c ≠ 0 then s.count c
    else match s.openPacket p k with
      | some plain => ((s.accepted p k).noteGeneration p (s.slotGeneration p k.kid)).takeFragment p k plain
      | none =>
        match openRecord (s.helloKey p) k.psn (packetHeader k) k.body k.tag with
        | none => s
        | some plain =>
          let mlen := fieldAt k.ext 4 2
          if mlen = 32 + 274 ∨ mlen = 32 + 114 then (s.accepted p k).takeFragment p k plain
          else s.count (Reg.cphAEvcHellofail p)

/-- A message still incomplete 250 ms after its first fragment is released (R374). -/
def classCReleaseEffect (p mid : Nat) (s : State) : State :=
  let x := s.pport p
  match x.crx.get? mid with
  | none => s
  | some m => ((s.atNs (250000000 + m.firstNs)).setPport p (x.done' mid false)).count (Reg.brmPEvcClost p)

/-- CRTO in ns: twice the largest baseline of the up routes, twice FB_US, and 10 ms (R375). -/
def State.crto (s : State) (p : Nat) : Nat :=
  let x := s.pport p
  let b := (x.upRoutes.map fun q => (x.route q).peerB).foldl max 0
  let fb := match s.partner p with | some e => entryNat e 0x030A 1000 | none => 1000
  10000000 + 2000 * b + 2000 * fb

/-- An unacknowledged message is sent again CRTO after its last sending (R375). -/
def classCResendEffect (p mid : Nat) (s : State) : State :=
  let x := s.pport p
  match x.cun.find? (·.mid == mid) with
  | none => s
  | some m =>
    if !m.frags.isEmpty then s
    else
      let s := s.atNs (m.sentNs + s.crto p)
      let now := s.ns
      (s.setPport p { x with cun := x.cun.map fun c => if c.mid = mid then { c with frags := List.range 6, sentNs := now } else c })
        |>.count (Reg.brmPEvcCresend p)

/-! ### Class D, receiving (R376, R378) -/

/-- The number of windows of an object from its first window (R376). -/
def windowsOf (first : List Byte) : Nat := ((fieldAt first 24 8 + 8191) / 8192 + 63) / 64

/-- A complete window; the object is delivered with its last one (R378). -/
def State.windowComplete (s : State) (p obj win : Nat) (data : List Byte) : State :=
  let x := s.pport p
  let o : DArriving := Tbl.get {} x.arriving obj
  let o := { o with wins := o.wins.erase win, done := o.done.set win data }
  let x := { x with asks := x.asks.filter fun a => !(a.1 == obj && a.2.1 == win) }
  match o.done.get? 0 with
  | none => s.setPport p { x with arriving := x.arriving.set obj o }
  | some first =>
    if (List.range (windowsOf first)).all fun i => (o.done.get? i).isSome then
      let bytes := (o.done.flatMap (·.2)).take (fieldAt first 24 8)
      s.setPport p { x with arriving := x.arriving.erase obj, finished := x.finished ++ [obj], inD := x.inD ++ [bytes] }
    else s.setPport p { x with arriving := x.arriving.set obj o }

/-- A class D frame's plaintext: it completes, rebuilds or adds to its window (R378). -/
def State.takeFrame (s : State) (p : Nat) (k : Packet) (plain : List Byte) : State :=
  let x := s.pport p
  let obj := fieldAt k.ext 0 4
  let win := fieldAt k.ext 4 4
  let idx := fieldAt k.ext 8 1
  let o : DArriving := Tbl.get {} x.arriving obj
  if x.abandoned.contains obj then s
  else if x.finished.contains obj ∨ (o.done.get? win).isSome then s.count (Reg.brmPEvcDup p)
  else
    let s := s.countN Reg.hptEvcTrkwait (b2n ((o.wins.get? win).isNone && s.trackerFull 65536 s.trackerPartner))
    let w : DWindow := (o.wins.get? win).getD { kd := fieldAt k.ext 9 1, r := fieldAt k.ext 10 1 }
    if (w.frames.get? idx).isSome then s.count (Reg.brmPEvcDup p)
    else
      let w := { w with frames := w.frames.set idx plain, route := k.route, lastTxt := k.txt, due := false }
      if w.frames.length < w.kd then
        s.setPport p { x with arriving := x.arriving.set obj { o with wins := o.wins.set win w } }
      else
        let whole := (List.range w.kd).all fun i => (w.frames.get? i).isSome
        let lost := w.kd + w.r - w.frames.length
        let r := x.route k.route
        let s := s.setPport p (x.setRoute k.route { r with worst := max r.worst lost })
        (s.countN (Reg.brmPEvcRecover p) (b2n (!whole))).windowComplete p obj win ((rebuild w.kd w.frames).flatMap id)

/-- A class D frame arrives (R378). -/
def classDFrameEffect (p : Nat) (k : Packet) (s : State) : State := s.receive p k fun s plain => s.takeFrame p k plain

/-! ### Feedback (R382 to R386) -/

/-- The feedback report that a port sends now (R382). -/
def State.feedbackBytes (s : State) (p : Nat) : List Byte :=
  let x := s.pport p
  let cmap := sumNat ((x.cdone.filter fun d => d.2 && decide (d.1 ≤ x.cack + 64)).map fun d => 2 ^ (d.1 - x.cack - 1))
  let missing (a : Nat × Nat × Nat) : Nat := match (Tbl.get ({} : DArriving) x.arriving a.1).wins.get? a.2.1 with
    | some w => w.missing
    | none => a.2.2
  let asks := (x.asks.take 32).map fun a => (a.1, a.2.1, missing a)
  let wants := (s.brim.wanted.filter (·.2.2.2.2 == p)).take 8
  let route (q : Nat) : List Byte :=
    let r := x.route q
    leBytes 4 (r.rsn.getD 0) ++ leBytes 4 r.rcv ++ leBytes 2 (min 65535 r.lostRun) ++ leBytes 1 (min 255 r.worst) ++
      leBytes 1 (s.fld (Reg.brmPRoute p q) 0 1) ++ leBytes 4 ((r.base.getD 0).toNat / 1000)
  let fill (n : Nat) (l : List Byte) : List Byte := (l ++ List.replicate n 0).take n
  leBytes 4 x.cack ++ leBytes 8 cmap ++ leBytes 1 asks.length ++ leBytes 1 wants.length ++ List.replicate 2 0 ++
    (List.range 4).flatMap route ++ fill 512 (asks.flatMap fun a => leBytes 4 a.1 ++ leBytes 4 a.2.1 ++ leBytes 8 a.2.2) ++
    fill 128 (wants.flatMap fun w => leBytes 1 w.1 ++ leBytes 1 w.2.1 ++ List.replicate 2 0 ++ leBytes 4 w.2.2.1 ++
      leBytes 4 w.2.2.2.1 ++ List.replicate 4 0)

/-- p of R385 as lost and sent packets of the last 65,536. -/
def PPort.loss (x : PPort) : Nat × Nat := (sumNat (x.lossHist.map (·.2.1)), sumNat (x.lossHist.map (·.1)))

/-- A report kept, older ones beyond 65,536 packets dropped. -/
def trimLoss : List (Nat × Nat × Nat) → Nat → List (Nat × Nat × Nat)
  | [], _ => []
  | r :: rs, n => if 65536 ≤ n then [] else r :: trimLoss rs (n + r.1)

/-- R and ILV in force for the next block, logged where they change (R384 to R386, R21); in SYNC mode FIXED they are held
(R16). -/
def State.adapt (s : State) (p : Nat) (newR : Bool) : State :=
  let x := s.pport p
  let e := (s.partner p).getD []
  let l := x.loss
  let b := (x.lossHist.map (·.2.2)).foldl max 0
  let fixed := s.fld Reg.seqMode 7 1 == 1
  let r := if fixed then entryNat e 0x0306 8
    else if newR then
      min (max (max ((128 * l.1 + max 1 l.2 - 1) / max 1 l.2 + 2) (x.wMax + 1)) (s.fld (Reg.brmPFec p) 8 5))
        (s.fld (Reg.brmPFec p) 16 5)
    else x.nextR
  let ilv := if fixed then 4 else if 0 < x.stepWins then 16
    else ([1, 2, 4, 8].find? fun i => decide (2 * b ≤ i * r)).getD 16
  let loss := min 65535 (65536 * l.1 / max 1 l.2)
  let s := if r = x.nextR ∧ ilv = x.nextIlv then s
    else s.logDecision 2 (leBytes 1 p ++ leBytes 1 r ++ leBytes 1 ilv ++ leBytes 2 loss ++ leBytes 1 x.wMax ++ leBytes 2 b)
  (s.setPport p { x with nextR := r, nextIlv := ilv, wMax := if newR then 0 else x.wMax
                         sinceR := if newR then 0 else x.sinceR }).putFld (Reg.brmPLoss p) 0 16 loss

/-- A route's report taken in (R380, R382, R385): its state, baseline and losses. -/
def State.takeRouteReport (s : State) (p q : Nat) (t : Nat × Nat × Nat × Nat × Bool × Nat) : State :=
  let x := s.pport p
  let r := x.route q
  let d := t.1 - r.peerRsn
  let step := r.peerUp && t.2.2.2.2.1 && (decide (r.peerB + 500 < t.2.2.2.2.2) || decide (t.2.2.2.2.2 + 500 < r.peerB))
  let data := x.dataRoute == some q
  let x := x.setRoute q { r with peerRsn := t.1, peerUp := t.2.2.2.2.1, peerB := t.2.2.2.2.2 }
  let x := if data then
      { x with lossHist := trimLoss ((d, d - t.2.1, t.2.2.1) :: x.lossHist) 0, wMax := max x.wMax t.2.2.2.1 }
    else x
  let s := s.setPport p x
  if step ∧ data then (s.setPport p { x with stepWins := 256 }).adapt p true else s

/-- Bit positions of a missing mask. -/
def maskBits (m : Nat) : List Nat := (List.range 64).filter (bit m)

/-- A RESEND entry taken in (R381): its data frames are sent again unless they wait already or were sent less than CRTO ago
(log 29). -/
def State.takeResend (s : State) (p : Nat) (e : Nat × Nat × Nat) : State :=
  let x := s.pport p
  let key := 2 ^ 32 * e.1 + e.2.1
  let recent : Bool := match Tbl.get? x.resent key with
    | some t => decide (s.ns < t + s.crto p)
    | none => false
  if (x.sent.get? e.1).isNone ∨ recent ∨ x.resend.any (fun f => f.1 == e.1 && f.2.1 == e.2.1) then s
  else
    (s.setPport p { x with resend := x.resend ++ (maskBits e.2.2).map fun i => (e.1, e.2.1, i)
                           resent := x.resent.set key s.ns }).count (Reg.brmPEvcResend p)

/-- An OREQ taken in (R383): the object is sent whole under a new OBJ where it is retained. -/
def State.takeOreq (s : State) (p : Nat) (e : Nat × Nat × Nat × Nat) : State :=
  let s := s.count (Reg.brmPEvcOreq p)
  match s.brim.objects.get? (objKey e.2.2.1 e.2.2.2 e.2.1) with
  | some o => if e.1 = 0 then s.queueD p o.bytes false else s
  | none => s

/-- Acknowledged messages leave, and waiting ones take their places (R375). -/
def State.takeAcks (s : State) (p cack cmap : Nat) : State :=
  let x := s.pport p
  let s := s.setPport p { x with
    cwait := [], cun := x.cun.filter fun m => decide (cack < m.mid) && !(decide (m.mid ≤ cack + 64) && bit cmap (m.mid - cack - 1)) }
  (x.cwait.foldl (fun s b => s.queueC p b) s).showUnacked p

/-- A feedback report arrives (R382). -/
def feedbackReportEffect (p : Nat) (k : Packet) (f : Feedback) (s : State) : State :=
  s.receive p k fun s _ =>
    let s := s.takeAcks p f.cack f.cmap
    let s := ((List.range 4).zip f.routes).foldl (fun s t => s.takeRouteReport p t.1 t.2) s
    let s := f.resend.foldl (fun s e => s.takeResend p e) s
    f.oreq.foldl (fun s e => s.takeOreq p e) s

/-! ### Sending (R369 to R371, R377) -/

/-- The data route (R369): the up route with the smallest baseline; another is taken when the present one is down or at
least 1 ms worse. -/
def PPort.chooseRoute (x : PPort) : Option Nat :=
  let best := (x.upRoutes.mergeSort fun a b => decide ((x.route a).peerB < (x.route b).peerB) ||
    (decide ((x.route a).peerB = (x.route b).peerB) && decide (a ≤ b))).head?
  match x.dataRoute, best with
  | some d, some b => if (x.route d).peerUp ∧ (x.route d).peerB < (x.route b).peerB + 1000 then some d else some b
  | _, b => b

/-- KD of window `w` of an object of `n` data frames (R376). -/
def kdOf (n w : Nat) : Nat := min 64 (n - 64 * w)

/-- Data frames of an object. -/
def dataCount (bytes : List Byte) : Nat := (bytes.length + 8191) / 8192

/-- A block of windows in column order (R377). -/
def blockOrder (n w0 cnt r : Nat) : List (Nat × Nat) :=
  (List.range (64 + r)).flatMap fun idx =>
    ((List.range cnt).filter fun j => decide (64 ≤ idx) || decide (idx < kdOf n (w0 + j))).map fun j => (w0 + j, idx)

/-- The next block of an object: R and ILV and the data route as they now stand (R369, R377). -/
def DSend.nextBlock (d : DSend) (r ilv : Nat) : DSend :=
  let n := dataCount d.bytes
  let wins := (n + 63) / 64
  let cnt := min ilv (wins - d.nextWin)
  { d with block := blockOrder n d.nextWin cnt r, nextWin := d.nextWin + cnt, r, ilv }

/-- A frame of an object: data, or repair over its window (R376). -/
def objectFrame (bytes : List Byte) (win idx : Nat) : List Byte :=
  let data (i : Nat) : List Byte := (((bytes.drop (8192 * (64 * win + i))).take 8192) ++ List.replicate 8192 0).take 8192
  if idx < 64 then data idx else repairUnit (idx - 64) ((List.range (kdOf (dataCount bytes) win)).map data)

/-- What a port sends next: class, route, bytes 24 to 39, plaintext, and whether it is background (R371). -/
structure Next where
  cls : Nat
  route : Nat
  ext : List Byte
  plain : List Byte
  background : Bool := false
  /-- Sealed under the hello key (R406). -/
  hello : Bool := false
  deriving DecidableEq, Repr

/-- Bytes 24 to 39 of a class D frame (R365). -/
def frameExt (d : DSend) (win idx : Nat) : List Byte :=
  leBytes 4 d.obj ++ leBytes 4 win ++ leBytes 1 idx ++ leBytes 1 (kdOf (dataCount d.bytes) win) ++ leBytes 1 d.r ++
    leBytes 1 (d.ilv % 32 + 128 * b2n d.background) ++ List.replicate 4 0

/-- The next hop of route `q` is known: the entry gives its MAC address, or an advertisement has taught it (R362). -/
def State.resolved (s : State) (p q : Nat) : Bool :=
  fieldAt ((s.routes p).getD q []) 48 6 != 0 || ((s.pport p).macs.get? q).isSome

/-- Neighbor Solicitations go out for the next hops that are not known and have not been asked for (R362). -/
def State.solicit (s : State) (p : Nat) : State :=
  let rs := s.routes p
  let x := s.pport p
  let qs := (List.range rs.length).filter fun q => !s.resolved p q && !x.solicited.contains q
  if qs.isEmpty then s else s.setPport p { x with solicited := x.solicited ++ qs }

/-- A probe or feedback report, the first of R371's order. -/
def State.nextProbe (s : State) (p : Nat) : Option (PPort × Next) :=
  let x := s.pport p
  match x.probes.filter (s.resolved p), x.feedback.filter (s.resolved p) with
  | q :: qs, _ => some ({ x with probes := qs }, ⟨2, q, todBytes s.clk ++ List.replicate 6 0, [], false, false⟩)
  | [], q :: qs =>
    let x := { x with feedback := qs }
    let r := x.route q
    some (x.setRoute q { r with rcv := 0, lostRun := 0, worst := 0 }, ⟨3, q, List.replicate 16 0, s.feedbackBytes p, false, false⟩)
  | [], [] => none

/-- The KINDs that pass while a direction waits for its KEYACK (R409), and the KINDs under the hello key (R406). -/
def kindOf (bytes : List Byte) : Nat := fieldAt bytes 0 1

/-- A class C fragment (R371, R373): fragment f travels on route f mod NR of the up routes; HELLO and FINISH of an
association without traffic keys on the routes of the entry (log 30). -/
def State.nextC (s : State) (p : Nat) : Option (PPort × Next) :=
  let x := s.pport p
  let est := s.established p && !s.keySpent p
  let held := s.keyReserve p && decide ((s.assoc p).acked ≤ s.reg (Reg.cphATxgen p))
  match x.cun.find? fun m => !m.frags.isEmpty &&
      ((decide (8 ≤ kindOf m.bytes) && decide (kindOf m.bytes ≤ 9) && (List.range (s.routes p).length).any (s.resolved p)) ||
       (est && !x.upRoutes.isEmpty && (!held || decide (10 ≤ kindOf m.bytes)))) with
  | none => none
  | some m =>
    match m.frags with
    | [] => none
    | f :: fs =>
      let hello := kindOf m.bytes == 8 || kindOf m.bytes == 9
      let rs := if hello && x.upRoutes.isEmpty then (List.range (s.routes p).length).filter (s.resolved p) else x.upRoutes
      let plain := fragment m.bytes f
      let x := { x with cun := x.cun.map fun c => if c.mid = m.mid then { c with frags := fs, sentNs := s.ns } else c }
      some (x, ⟨0, rs.getD (f % max 1 rs.length) 0,
        leBytes 4 m.mid ++ leBytes 2 m.bytes.length ++ leBytes 1 f ++ List.replicate 9 0, plain, false, hello⟩)

/-- A class D frame sent again (R371, R381). -/
def State.nextResend (s : State) (p : Nat) : Option (PPort × Next) :=
  let x := s.pport p
  match x.resend, x.chooseRoute with
  | e :: es, some q =>
    match x.sent.get? e.1 with
    | some d => some ({ x with resend := es }, ⟨1, q, frameExt d e.2.1 e.2.2, objectFrame d.bytes e.2.1 e.2.2, d.background, false⟩)
    | none => none
  | _, _ => none

/-- A class D frame of the first object that is sent, foreground or background (R371, R377). A block goes on over its data
route to its end, whatever becomes of the route, while any route is up (R369, log 123). -/
def State.nextD (s : State) (p : Nat) (background : Bool) : Option (PPort × Next) :=
  let x := s.pport p
  match x.sending.find? (·.background == background) with
  | none => none
  | some d =>
    let fresh := d.block.isEmpty
    let route := if fresh then x.chooseRoute else x.dataRoute
    match route with
    | none => none
    | some q =>
      if x.upRoutes.isEmpty then none
      else
        let d := if fresh then d.nextBlock x.nextR x.nextIlv else d
        match d.block with
        | [] => none
        | b :: bs =>
          let d' := { d with block := bs }
          let wins := (dataCount d.bytes + 63) / 64
          let allSent := bs.isEmpty && d.nextWin == wins
          let cnt := if fresh then d.nextWin - (d.block.headD (0, 0)).1 else 0
          let x := { x with
            dataRoute := some q, sinceR := x.sinceR + cnt, stepWins := x.stepWins - cnt, sent := x.sent.set d.obj d'
            sending := if allSent then x.sending.filter (·.obj != d.obj)
                       else x.sending.map fun y => if y.obj = d.obj then d' else y }
          some (x, ⟨1, q, frameExt d b.1 b.2, objectFrame d.bytes b.1 b.2, background, false⟩)

/-- Background frames have their share of the present 10 ms left (R371). -/
def State.bgAllowed (s : State) (p : Nat) : Bool :=
  let x := s.pport p
  let used := if s.ns < 10000000 + x.bgNs then x.bgBytes else 0
  decide (8 * used * 100 < s.fld (Reg.brmPRate p) 0 17 * 10000 * s.pol 0x0431 25)

/-- The first ready packet in the order of R371. -/
def State.nextPacket (s : State) (p : Nat) : Option (PPort × Next) :=
  let est := s.established p && !s.keySpent p
  let held := s.keyReserve p && decide ((s.assoc p).acked ≤ s.reg (Reg.cphATxgen p))
  let orElse (a : Option (PPort × Next)) (b : Option (PPort × Next)) : Option (PPort × Next) := if a.isSome then a else b
  let d := if est && !held then
      orElse (s.nextResend p) (orElse (s.nextD p false) (if s.bgAllowed p then s.nextD p true else none))
    else none
  orElse (if est then s.nextProbe p else none) (orElse (s.nextC p) d)

/-- Bits in the token bucket now (R370). -/
def State.bucket (s : State) (p : Nat) : Nat :=
  let x := s.pport p
  min (s.fld (Reg.brmPBurst p) 0 13 * 8192) (x.tokens + (s.ns - x.tokensNs) * s.fld (Reg.brmPRate p) 0 17 / 1000)

/-- The time at which the shaper holds the cost of a packet (R370). -/
def State.afterShaper (s : State) (p cost : Nat) : State :=
  let b := s.bucket p
  if cost ≤ b then s else s.atNs (s.ns + ((cost - b) * 1000 + s.fld (Reg.brmPRate p) 0 17 - 1) / max 1 (s.fld (Reg.brmPRate p) 0 17))

/-- Bytes of the frame that a packet of a port makes (R363, R370). -/
def State.nextBytes (s : State) (p : Nat) (n : PPort × Next) : Nat :=
  frameBytes ((s.routes p).getD n.2.route []) n.2.plain.length

/-- One packet leaves a port (R368 to R371, R375): sealed, numbered and counted. -/
def State.transmit (s : State) (p : Nat) (n : PPort × Next) : State :=
  let k := n.2
  let frame := s.nextBytes p n
  let psn := Regs.pair s.regs (Reg.brmPTxpsnLo p)
  let s := if k.hello then s else s.moveKey p psn
  let kid := s.fld (Reg.cphAState p) 2 1
  let r := n.1.route k.route
  let pkt : Packet :=
    { ver := 1, cls := k.cls, kid, site := s.site, route := k.route, len := k.plain.length, rsn := r.txRsn, psn
      txt := s.ns % 2 ^ 32, ext := k.ext, malformed := false, body := [], tag := [] }
  let secret := if k.hello then s.helloKey p else (Tbl.get (0, []) (s.assoc p).tx kid).2
  let sealed := sealRecord secret psn (packetHeader pkt) k.plain
  let bg := if s.ns < 10000000 + n.1.bgNs then (n.1.bgBytes, n.1.bgNs) else (0, s.ns)
  let x := { n.1.setRoute k.route { r with txRsn := (r.txRsn + 1) % 2 ^ 32 } with
    tokens := s.bucket p - 8 * (frame + 20), tokensNs := s.ns
    bgBytes := bg.1 + (if k.background then frame else 0), bgNs := bg.2
    cun := (s.pport p).cun.drop n.1.cun.length ++ n.1.cun |>.mergeSort fun a b => decide (a.mid ≤ b.mid)
    txMid := max n.1.txMid (s.pport p).txMid
    wire := some { pkt with body := sealed.1, tag := sealed.2 } }
  let s := if k.hello then s else s.countRecord p k.plain.length
  let regs := Regs.count64 (Regs.putPair s.regs (Reg.brmPTxpsnLo p) (psn + 1)) (Reg.brmPTxbytesLo p) frame
  let regs := Regs.putFld (Regs.putFld (Regs.putFld regs (Reg.brmPFec p) 0 5 x.nextR) (Reg.brmPFec p) 24 5 x.nextIlv)
    (Reg.brmPStatus p) 5 2 (x.dataRoute.getD 0)
  { s.setPport p x with regs := regs }

/-- What a port settles before it picks a packet: repair and interleave (R385), Neighbor Solicitations (R362). -/
def State.beforePacket (s : State) (p : Nat) : State :=
  let s := if (s.pport p).sinceR < 1024 then s else s.adapt p true
  let s := if (s.pport p).sending.any (·.block.isEmpty) then s.adapt p false else s
  s.solicit p

/-- A port sends the first ready packet once the shaper holds its cost (R370, R371). -/
def packetTransmitEffect (p : Nat) (s : State) : State :=
  if !s.portRuns p then s
  else
    let s := s.beforePacket p
    let s := match s.nextPacket p with
      | some n => s.afterShaper p (8 * (s.nextBytes p n + 20))
      | none => s
    match s.nextPacket p with
    | some n => s.transmit p n
    | none => s

/-! ### The MAC (R361, R362) -/

/-- The IPv6 address at offset `o` of a route, as the number whose most significant byte comes first. -/
def routeAddr (r : List Byte) (o : Nat) : Nat := beNat ((r.drop o).take 16)

/-- A Neighbor Solicitation for a route source address is answered; another is dropped (R362). -/
def neighborSolicitationEffect (p : Nat) (target : BitVec 128) (s : State) : State :=
  if !s.portRuns p then s
  else if (s.routes p).any fun r => routeAddr r 0 == target.toNat then
    s.setPport p { s.pport p with answers := (s.pport p).answers ++ [(135, target.toNat, [])] }
  else s.count (Reg.brmPEvcRxdrop p)

/-- An Echo Request is answered with its data (R362). -/
def echoRequestEffect (p : Nat) (source : BitVec 128) (data : List Byte) (s : State) : State :=
  if !s.portRuns p then s
  else s.setPport p { s.pport p with answers := (s.pport p).answers ++ [(128, source.toNat, data)] }

/-- A Neighbor Advertisement teaches the next-hop MAC address of the routes that give none (R362). -/
def neighborAdvertisementEffect (p : Nat) (target : BitVec 128) (mac : BitVec 48) (s : State) : State :=
  if !s.portRuns p then s
  else
    let rs := s.routes p
    let hit := (List.range rs.length).filter fun q =>
      let r := rs.getD q []
      fieldAt r 48 6 == 0 && routeAddr r (if fieldAt r 41 1 = 0 then 16 else 56) == target.toNat
    if hit.isEmpty then s.count (Reg.brmPEvcRxdrop p)
    else
      let x := s.pport p
      s.setPport p { x with macs := hit.foldl (fun t q => t.set q mac.toNat) x.macs }

/-- A PAUSE or flow-control frame is ignored and counted: at partner ports 0 to 7, or at host ports as 8 to 11, the numbers
of their associations (R362, R427). -/
def macPauseEffect (p : Nat) (s : State) : State :=
  if p < 8 then (if s.portRuns p then s.count (Reg.brmPEvcMacpause p) else s)
  else if p < 12 ∧ s.fld (Reg.hptHStatus (p - 8)) 0 1 = 1 then s.count (Reg.hptHEvcRxdrop (p - 8))
  else s

/-- A partner port's link drops in service (R361). -/
def partnerLinkDownEffect (p : Nat) (s : State) : State :=
  if !s.portRuns p then s else (s.putFld (Reg.brmPStatus p) 0 1 0).count (Reg.brmPEvcLinkdown p)

/-- A host or partner port's Ethernet link comes up (R361, R425). -/
def portLinkUpEffect (unit : Nat) (s : State) : State :=
  if s.isolated unit then s
  else if 0x1E8 ≤ unit ∧ unit < 0x1F0 then
    let p := unit - 0x1E8
    if s.fld (Reg.brmPCfg p) 0 1 = 1 then s.putFld (Reg.brmPStatus p) 0 1 1 else s
  else if 0x1E0 ≤ unit ∧ unit < 0x1E4 then s.putFld (Reg.hptHStatus (unit - 0x1E0)) 0 1 1
  else s

end Sys2Proof.Machine
end

