-- ==== Sys2Proof/Machine/CuffFlow.lean ====
section
/-! DEFINITION. The Cuff at work (05_reduction_and_cuff, R166 to R185; 06_slow_tier, R208 to R212): a slot's trigger, the
start of a queue entry, the return of what it read with the update or apply computed, and the commit of its writes. -/

namespace Sys2Proof.Machine

/-! ### The trigger (R166, R167, R500) -/

/-- The group of a slice with the constants of a step, from partition `p`'s table (R171, R172). -/
def State.sliceGroup (s : State) (p : Nat) (e : SliceEntry) (step : Nat) : Group :=
  readGroup s.hbm (Regs.pair s.regs (Reg.cufGtblBaseLo p)) e.group step

/-- Some piece of the slot has too many abstentions (R167). -/
def Slot.skips (x : Slot) (frac : Nat) : Bool :=
  (List.range x.slice.pieces).any fun q => decide (x.slice.e * frac / 64 < (x.piece q).abst)

/-- f of a piece (R167). -/
def Slot.factor (x : Slot) (q : Nat) : Word :=
  let a := (x.piece q).abst
  if a = 0 then 0x3F800000#32 else fdiv (fofNat x.slice.e) (fofNat (x.slice.e - a))

/-- sx and qx of a slot's slice (R500). -/
def Slot.noise (x : Slot) : Word × Word :=
  (List.range x.slice.pieces).foldl (fun acc q =>
    (fadd acc.1 (x.piece q).n2, fadd acc.2 ((x.piece q).sums.foldl (fun p l => ffma l l p) 0))) (0, 0)

/-- A slot enters UPDATING in cycle `from'` and leaves it in cycle `to'` (R156, R157). -/
def State.leaveSlot (s : State) (p k from' to' : Nat) : State :=
  s.setSlot p k { s.slot p k with readAt := from', freeAt := some to' }

/-- One more slice of a step has ended in a partition (R10). -/
def State.endedOne (s : State) (p step : Nat) : State :=
  let x := s.partition p
  s.setPartition p { x with ended := x.ended.set step (x.ended.get 0 step + 1) }

/-- Two entries name the same slice. -/
def SliceEntry.same (a b : SliceEntry) : Bool := a.tensor == b.tensor && a.first == b.first

/-- An outer apply of a slice stands in the queue or the pipeline (R184). -/
def Partition.outerPending (x : Partition) (e : SliceEntry) : Bool :=
  (x.queue.any fun q => q.outer.isSome && q.slice.same e) || x.pipe.any fun r => r.entry.outer.isSome && r.entry.slice.same e

/-- An entry placed in the Cuff queue: of slots that complete in one cycle the lower first (R169). -/
def enqueue (q : List CuffEntry) (e : CuffEntry) : List CuffEntry :=
  let later (x : CuffEntry) : Bool := x.outer.isNone && x.entered == e.entered && decide (e.slot < x.slot)
  q.takeWhile (fun x => !later x) ++ e :: q.dropWhile fun x => !later x

/-- An inner update enters the queue; behind an outer apply of its slice it is counted as waiting (R169, R184). -/
def State.queueInner (s : State) (p k : Nat) (e : SliceEntry) (step : Nat) : State :=
  let x := s.partition p
  let w := x.outerPending e
  let c : CuffEntry := { outer := none, slot := k, slice := e, step, entered := s.now, waited := w }
  (s.setPartition p { x with queue := enqueue x.queue c }).countN (Reg.cufEvcWait p) (b2n w)

/-- A trigger of a step clears what FLAGGED keeps of an earlier one (R162), and `CUF_STEP` shows the step (R191). -/
def State.triggered (s : State) (p step : Nat) : State :=
  let x := s.partition p
  let old := match x.flagStep with | some n => decide (n < step) | none => false
  let s := if old then s.setPartition p { x with flagStep := none } else s
  s.put (Reg.cufStep p) (step % 2 ^ 32)

/-- A slow-tier slot's trigger (R208 to R210): its slice updates on its line, or through the miss entries, or is deferred.
DESIGN CHOICE (log 110): a deferred slice has ended its step for R10 at its trigger. -/
def State.triggerSlow (s : State) (p k : Nat) (x : Slot) (g : Group) (step : Nat) : State :=
  let e := x.slice
  let num := e.record
  let skip := x.skips g.abst
  let sums (q : Nat) : List Word := (x.piece q).sums
  match s.residency step num with
  | some ⟨_, .deferred, _, _⟩ =>
    let s := if skip then (s.count (Reg.cufEvcSkip p)).count Reg.sltEvcDefer else s.fold step num e.mask sums x.factor g.gs
    (s.endedOne p step).leaveSlot p k s.now (if skip then s.now + 1 else s.now + 64)
  | some ⟨_, .miss, _, _⟩ =>
    let s := (s.fetchSlice step num).queueInner p k e step
    if skip then s.leaveSlot p k (s.now + 2) (s.now + 3)
    else ((s.missCopy step num e.mask sums x.factor).count Reg.sltEvcMiss).leaveSlot p k s.now (s.now + 64)
  | _ =>
    let s := (s.setSlot p k { x with state := 3 }).countN Reg.sltEvcWait (b2n (s.landedLine num).isNone)
    (s.fetchSlice step num).queueInner p k e step

/-- The slot number of a queue entry that no slot feeds. -/
def noSlot : Nat := 2048

/-- A slice that the step before deferred and this step's list does not name: no slot brings it sums, and it updates from
its pending entries, or stays deferred (R201, R209; log 31). -/
def State.queueUntouched1 (n : Nat) (s : State) (x : Nat × SltSlice) : State :=
  match (ownedSlices s.job.map s.job.positions s.device).find? fun e => s.sltNum e.tensor e.first == some x.1 with
  | none => s
  | some m =>
    match s.entryOf m.tensor m.first with
    | none => s
    | some (p, e) =>
      let e := { e with mask := x.2.mask }
      match x.2.how with
      | .deferred => (s.count Reg.sltEvcDefer).endedOne p n
      | .miss => ((s.fetchSlice n x.1).count Reg.sltEvcMiss).queueInner p noSlot e n
      | .resident => ((s.fetchSlice n x.1).countN Reg.sltEvcWait (b2n (s.landedLine x.1).isNone)).queueInner p noSlot e n

/-- Those slices of the current step, once its list has been posted. -/
def State.queueUntouched (s : State) : State :=
  let n := s.reg Reg.seqStep
  let plan : Tbl SltSlice := Tbl.get [] s.slt.plans n
  let rest : Tbl SltSlice := plan.map fun e => (e.1, { e.2 with waits := false })
  let t := { s.slt with plans := if rest = plan then s.slt.plans else Tbl.set s.slt.plans n rest }
  (plan.filter (·.2.waits)).foldl (State.queueUntouched1 n) { s with slt := t }

/-- A slot's last add has completed: the slice's trigger (R166, R208, R500). -/
def State.slotTrigger (s : State) (p k : Nat) : State :=
  let x := s.slot p k
  if x.state ≠ 2 ∨ !x.complete ∨ !x.ready.isEmpty ∨ !x.window.isEmpty then s
  else
    let step := s.passStep x
    let s := (s.atCycle (x.lastAdd + 1)).triggered p step
    let n := x.noise
    let s := { s with vsr := addNoise s.vsr n.1 n.2 }
    if x.slice.slt then s.triggerSlow p k x (s.sliceGroup p x.slice step) step
    else (s.setSlot p k { x with state := 3 }).queueInner p k x.slice step

/-! ### Starting an entry (R169, R170, R185, R255) -/

/-- The constants of a step stand in their set (R172). -/
def State.constsReady (s : State) (step : Nat) : Bool :=
  (if step % 2 = 0 then s.job.const0 else s.job.const1) == some step

/-- The HBM address of an entry's record, once it can be reached: a slow-tier slice's line when it has landed (R208). -/
def State.entryBase (s : State) (e : CuffEntry) : Option Nat :=
  if e.slice.slt then (s.landedLine e.slice.record).map s.lineAddr else some e.slice.record

/-- The oldest entry whose slice is neither in the pipeline nor older in the queue, and whose line has landed (R169,
R208). -/
def State.nextEntry' (s : State) (x : Partition) : List CuffEntry → List CuffEntry → Option CuffEntry
  | _, [] => none
  | seen, e :: rest =>
    if (x.pipe.any fun r => r.entry.slice.same e.slice) || (seen.any fun q => q.slice.same e.slice) || (s.entryBase e).isNone then
      s.nextEntry' x (e :: seen) rest
    else some e

/-- An entry is skipped for abstention (R167): of a slot still held by its sums, of an uncached slice by its missing miss
entries. -/
def State.abstains (s : State) (p : Nat) (e : CuffEntry) : Bool :=
  let missed := (s.residency e.step e.slice.record).any fun x => e.slice.slt && x.how == .miss
  if e.outer.isSome || e.slot == noSlot then false
  else if missed then !(s.slt.miss.any fun m => m.1 / 64 == missOf e.step e.slice.record)
  else (s.slot p e.slot).skips (s.sliceGroup p e.slice e.step).abst

/-- The census has marked the slice for catch-up: its updates are skipped until that completes (R187, R188). -/
def State.censusMarked (s : State) (e : SliceEntry) : Bool :=
  match s.mapOf e.tensor e.first with
  | none => false
  | some m =>
    match (s.shardSlices m.shard).findIdx? fun o => o.tensor == e.tensor && o.first == e.first with
    | some i => (s.shard m.shard).catchup.contains (i, true)
    | none => false

/-- The slot still holds the entry's slice. -/
def State.slotHolds (s : State) (p : Nat) (e : CuffEntry) : Bool :=
  e.outer.isNone && (s.slot p e.slot).state == 3 && (s.slot p e.slot).freeAt.isNone && (s.slot p e.slot).slice.same e.slice && s.passStep (s.slot p e.slot) == e.step

/-- The parts an entry reads, as address and length (R167, R170, R185, R337). -/
def readParts (e : CuffEntry) (base : Nat) (skip hand : Bool) : List (Nat × Nat) :=
  if skip then [(base + recTag, 64)]
  else if e.outer.isSome then [(base, 16384), (base + recOuter, 16384), (base + recTag, 64)]
  else [(base, 0x8000)] ++ (if hand then [(base + recOuter, 8192), (base + recResid, 8192)] else []) ++
    [(base + recTag, if e.slice.slt then 320 else 64)]

/-- An entry starts: it leaves the queue, issues its reads and enters the pipeline (R169, R170); an access that finds HBM
held by a background quantum waits for its end (R258). -/
def State.startEntry (s : State) (p : Nat) (e : CuffEntry) (base : Nat) : State :=
  let x := s.partition p
  let t := max s.now (max (e.entered + 2) x.startFree)
  let s := s.atCycle t
  let abst := s.abstains p e
  let skip := abst || (e.outer.isNone && s.censusMarked e.slice)
  let hand := !skip && e.outer.isNone && s.handsOver e.slice e.step
  let bg := decide (t < s.seq.hbmTo)
  let r := accessAll x.bankUse ((readParts e base skip hand).flatMap fun a => linesOf a.1 a.2) (max t s.seq.hbmTo)
  let run : CuffRun := { entry := e, anchor := t - 2, base, skip, dataAt := r.1 + 448 }
  let s := s.setPartition p { x with
    queue := x.queue.erase e, pipe := x.pipe ++ [run], bankUse := r.2.2, startFree := t + (if hand then 80 else 64) }
  let counts := [(Reg.seqEvcRefwait, r.2.1), (Reg.seqEvcBgwait, b2n bg), (Reg.cufEvcSkip p, b2n abst)]
  let s : State := { s with regs := Regs.counts s.regs counts }
  if skip ∧ s.slotHolds p e then s.leaveSlot p e.slot (run.anchor + 2) (run.anchor + 3) else s

/-- The Cuff starts its oldest eligible entry (R169); one whose step constants are not written waits at the head (R172). -/
def cuffEntryStartEffect (p : Nat) (s : State) : State :=
  let x := s.partition p
  if s.fld (Reg.cufCfg p) 0 1 = 0 ∨ 16 ≤ x.pipe.length then s
  else match s.nextEntry' x [] x.queue with
    | none => s
    | some e =>
      if e.outer.isNone ∧ !s.constsReady e.step then
        let y := { x with queue := x.queue.map fun q => if q = e then { q with waited := true } else q }
        (s.setPartition p y).countN (Reg.cufEvcWait p) (b2n (!e.waited))
      else match s.entryBase e with
        | none => s
        | some b => s.startEntry p e b

/-! ### The data return (R170, R173, R185) -/

/-- Writes issued in order from their offsets (R170, R255): each no earlier than its offset, one that waits delays those
behind it; a run's own accesses impose no bank-reuse wait on each other, since R170's table leaves none (DEDUCED, log 33).
The starts, the accesses that waited for a window, and the banks' use. -/
def scheduleWrites (use : Tbl Nat) (ws : List (Nat × Nat × List Byte)) : List (Nat × Nat × List Byte) × Nat × Tbl Nat :=
  let r := ws.foldl (fun (acc : List (Nat × Nat × List Byte) × Nat × Tbl Nat × Nat) w =>
    let lines := linesOf w.2.1 w.2.2.length
    let t := w.1 + acc.2.2.2
    let a := accessAll use lines t
    (acc.1 ++ [(a.1, w.2.1, w.2.2)], acc.2.1 + a.2.1, lines.foldl (fun u l => u.set (bankOf l) a.1) acc.2.2.1,
     acc.2.2.2 + (a.1 - t))) ([], 0, use, 0)
  (r.1, r.2.1, r.2.2.1)

/-- A run that has returned: its writes scheduled, and acknowledged `extra` cycles after the last one's 380. -/
def State.runWrites (s : State) (p : Nat) (run : CuffRun) (ws : List (Nat × Nat × List Byte)) (extra : Nat) : State :=
  let x := s.partition p
  let bg := ws.any fun w => decide (w.1 < s.seq.hbmTo)
  let w := scheduleWrites x.bankUse (ws.map fun w => (max w.1 s.seq.hbmTo, w.2))
  let last := (w.1.getLast?.map (·.1)).getD s.now
  let run' := { run with returned := true, writes := w.1, ackAt := last + 380 + extra }
  let s := s.setPartition p { x with bankUse := w.2.2, pipe := x.pipe.map fun r => if r = run then run' else r }
  { s with regs := Regs.counts s.regs [(Reg.seqEvcRefwait, w.2.1), (Reg.seqEvcBgwait, b2n bg)] }

/-- The epoch that a partition's writes name (R178). -/
def State.writeEpoch (s : State) (p : Nat) : Nat := s.fld (Reg.cufEpoch p) 0 16

/-- What an inner update of a run takes (R173, R208, R209). -/
def State.updateIn (s : State) (p : Nat) (run : CuffRun) : UpdateIn :=
  let e := run.entry.slice
  let num := e.record
  let x := s.slot p run.entry.slot
  let held := s.slotHolds p run.entry
  let miss (q : Nat) : List Word × Word := Tbl.get ([], 0x3F800000#32) s.slt.miss (missKey run.entry.step num q)
  let mask := match s.residency run.entry.step num with
    | some r => r.mask
    | none => e.mask
  let mine (q : Nat) : Bool := held && bit e.mask q
  { g := s.sliceGroup p e run.entry.step, step := run.entry.step, tensor := e.tensor, first := e.first
    pieces := if e.slt then maskPieces mask else List.range e.pieces
    sums := fun q => if mine q then (x.piece q).sums else (miss q).1
    factor := fun q => if mine q then x.factor q else (miss q).2
    pending := fun q => if e.slt then s.pendingOf run.entry.step num q else none }

/-- The skip tag's write of a run (R177). -/
def skipWrite (run : CuffRun) (t : Tag) (epoch off : Nat) : List (Nat × Nat × List Byte) :=
  [(off, run.base + recTag, (t.skip run.entry.slice epoch run.entry.step).bytes)]

/-- The writes of an inner update in the order of R180, from offset `o` for m and v (R170, R197). -/
def updateWrites (run : CuffRun) (old : Tag) (r : Rec) (epoch o : Nat) : List (Nat × Nat × List Byte) :=
  let e := run.entry.slice
  let b := run.base
  let t1 := old.moment e epoch run.entry.step (crc32c r.moments)
  let t2 := t1.weight e epoch run.entry.step (crc32c r.weights)
  burst o (b + recM) (pack 2 r.m ++ pack 2 r.v) ++ (if e.slt then [(o + 15, b + recRtag, pack 4 r.rtag)] else []) ++
    [(o + 16, b + recTag, t1.bytes)] ++ burst (o + 17) b (pack 4 (r.w.map (·.toNat))) ++
    burst (o + 33) (b + recWc) (pack 1 r.wc ++ pack 1 r.sc) ++ [(o + 38, b + recTag, t2.bytes)]

/-- An inner update's data have returned (R170, R173, R175). -/
def State.returnInner (s : State) (p : Nat) (run : CuffRun) : State :=
  let e := run.entry
  let r := readRec s.hbm run.base e.slice.slt
  let late := run.dataAt - (run.anchor + 450)
  let u := s.updateIn p run
  let o := run.anchor + 542 + late + (if u.g.opt = 3 then 64 else 0)
  let y := updateRec u e.slice.slt r
  let held := s.slotHolds p e
  let hand := s.handsOver e.slice e.step
  let s := s.countN (Reg.cufEvcConv p) y.conv
  let s := if y.finite then s.runWrites p run (updateWrites run r.tag y.r (s.writeEpoch p) o) (if hand then 128 else 0)
    else (s.count (Reg.cufEvcNonfin p)).runWrites p run (skipWrite run r.tag (s.writeEpoch p) o) 0
  if held then s.leaveSlot p e.slot (run.anchor + 478 + late) o else s

/-- The writes of an outer apply of round `q` (R185). -/
def outerWrites (run : CuffRun) (old : Tag) (r : Rec) (epoch q o : Nat) : List (Nat × Nat × List Byte) :=
  let e := run.entry.slice
  let b := run.base
  let t1 := old.opened e epoch q (crc32c r.outerBytes)
  let t2 := t1.closed e epoch (crc32c r.weights)
  burst o (b + recOuter) (pack 2 r.anchor ++ pack 2 r.mom) ++ [(o + 16, b + recTag, t1.bytes)] ++
    burst (o + 17) b (pack 4 (r.w.map (·.toNat))) ++ burst (o + 33) (b + recWc) (pack 1 r.wc ++ pack 1 r.sc) ++
    [(o + 78, b + recTag, t2.bytes)]

/-- Cycles with an entry in the pipeline, up to the cycle in which a run leaves (R191). -/
def State.cuffBusy (s : State) (p start stop : Nat) : State :=
  let x := s.partition p
  let s := s.setPartition p { x with busyTo := max x.busyTo stop }
  { s with regs := Regs.count64 s.regs (Reg.cufBusyLo p) (stop - max x.busyTo start) }

/-- A partition's cycle counters as they stand now, with the waits and the runs that go on (R162, R191). -/
def State.settlePartition (s : State) (p : Nat) : State :=
  let x := s.partition p
  let busy := match x.pipe.map fun r => r.anchor + 2 with
    | [] => 0
    | a :: l => s.now - max x.busyTo (l.foldl min a)
  { s with regs := Regs.count64 (Regs.count64 s.regs (Reg.cufStallLo p) (x.waiting s.now)) (Reg.cufBusyLo p) busy }

/-- A run leaves the pipeline. -/
def State.leavePipe (s : State) (p : Nat) (run : CuffRun) (t : Nat) : State :=
  let s := (s.atCycle t).cuffBusy p (run.anchor + 2) t
  let x := s.partition p
  s.setPartition p { x with pipe := x.pipe.erase run }

/-- An outer apply's data have returned (R184, R185); one with a value that is not finite writes nothing. -/
def State.returnOuter (s : State) (p q : Nat) (run : CuffRun) : State :=
  let e := run.entry
  let r := readRec s.hbm run.base e.slice.slt
  let late := run.dataAt - (run.anchor + 450)
  let dk := s.outerDK e.slice.tensor e.slice.first q
  let u : UpdateIn := { g := s.sliceGroup p e.slice e.step, step := e.step, tensor := e.slice.tensor, first := e.slice.first
                        pieces := List.range e.slice.pieces, sums := fun _ => [], factor := fun _ => 0, pending := fun _ => none }
  let y := applyRec u dk.1 dk.2 r
  let s := s.countN (Reg.cufEvcConv p) y.conv
  if y.finite then s.runWrites p run (outerWrites run r.tag y.r (s.writeEpoch p) q (run.anchor + 542 + late)) 0
  else (((s.count (Reg.cufEvcNonfin p)).reportRefused e.slice.tensor e.slice.first q).leavePipe p run
    (run.anchor + 541 + late)).roundApplied

/-- A skip's tag block has returned (R167). -/
def State.returnSkip (s : State) (p : Nat) (run : CuffRun) : State :=
  let t := Tag.ofBytes (s.hbm.read (run.base + recTag) 64)
  s.runWrites p run (skipWrite run t (s.writeEpoch p) (run.dataAt + 1)) 0

/-- The data of the oldest run that waits for them return (R170, R185, R255). -/
def State.cuffReturn (s : State) (p : Nat) : State :=
  match (s.partition p).pipe.find? fun r => !r.returned with
  | none => s
  | some run =>
    let s := s.atCycle run.dataAt
    if run.skip then s.returnSkip p run
    else match run.entry.outer with
      | some q => s.returnOuter p q run
      | none => s.returnInner p run

/-- Commands of a stream's ring have been fetched: its buffer holds up to 128 (R225). -/
def State.prefetched (s : State) (n count : Nat) : State :=
  let st : Stream := Tbl.get {} s.seq.streams n
  { s with seq := { s.seq with streams := s.seq.streams.set n { st with fetched := min 128 (st.fetched + count) } } }

/-- Data of an HBM read return (R255). -/
def hbmReadReturnEffect (what : ReadFor) (s : State) : State :=
  match what with
  | .prefetch n count => s.prefetched n count
  | .cuff p => s.cuffReturn p

/-! ### The acknowledgement (R176, R244, R336) -/

/-- The returned run that is acknowledged first. -/
def firstAck (pipe : List CuffRun) : Option CuffRun :=
  (pipe.filter (·.returned)).foldl (fun (b : Option CuffRun) r => match b with
    | none => some r
    | some x => if r.ackAt < x.ackAt then some r else some x) none

/-- A slice is handed over to Brim once its weight tag is acknowledged, and its new residual is written (R176, R336). -/
def State.cutAfter (s : State) (p : Nat) (run : CuffRun) : State :=
  let e := run.entry
  if run.skip ∨ !s.handsOver e.slice e.step ∨ run.writes.length < 2 then s
  else
    let r := s.handOver e.slice (s.sliceGroup p e.slice e.step) e.step (readRec s.hbm run.base e.slice.slt)
    { r.1 with hbm := r.1.hbm.write (run.base + recResid) (pack 2 r.2) }

/-- Brim renews its digest of a slice after an apply (R343). -/
def State.digestAfter (s : State) (p : Nat) (run : CuffRun) : State :=
  let e := run.entry.slice
  let r := readRec s.hbm run.base e.slt
  let g := s.sliceGroup p e run.entry.step
  { s with brim := { s.brim with
    digests := s.brim.digests.set (sliceKey e.tensor e.first) (sliceDigest e.tensor e.first r.anchor r.mom (g.omu == 0)) } }

/-- The step of an inner update is its slice's last one (R174). -/
def State.noteUpdated (s : State) (p : Nat) (run : CuffRun) : State :=
  let e := run.entry
  if e.outer.isSome || decide (run.writes.length < 2) then s
  else
    let x := s.partition p
    s.setPartition p { x with updated := x.updated.set (sliceKey e.slice.tensor e.slice.first) e.step }

/-- The write of a run's last tag is acknowledged (R170, R185, R244): its writes stand in HBM, the partition's cue counts,
the entry leaves the pipeline; an inner update or skip has ended its slice's step. -/
def State.ackRun (s : State) (p : Nat) (run : CuffRun) : State :=
  let s := (s.leavePipe p run run.ackAt).noteUpdated p run
  let s := { s with hbm := commitWrites s.hbm run.writes }.addCue (224 + p) 1 run.ackAt
  let s := if run.entry.outer.isSome then s.digestAfter p run else s.cutAfter p run
  let e := run.entry
  let s := if e.slice.slt && e.outer.isNone then s.sltReleased e.slice.record e.step (decide (2 ≤ run.writes.length)) else s
  let s := if e.slice.slt then s.sltWritten e.slice.record e.step else s
  if run.entry.outer.isSome then s.roundApplied else s.endedOne p run.entry.step

end Sys2Proof.Machine
end

