-- ==== Sys2Proof/Machine/Census.lean ====
section
/-! DEFINITION. The slice census (05_reduction_and_cuff, R186 to R188; 06_slow_tier, R212, R216, R222): roll-forward, skip,
repair, outer repair and catch-up marking of every slice the device owns. -/

namespace Sys2Proof.Machine

/-- A record's bytes up to its tag block, with a tag, and the RTAG table of a slow-tier image (R177, R196). -/
def Rec.whole (r : Rec) (t : Tag) : List Byte :=
  pack 4 (r.w.map (·.toNat)) ++ pack 2 r.m ++ pack 2 r.v ++ pack 1 r.wc ++ pack 1 r.sc ++ pack 2 r.anchor ++ pack 2 r.mom ++
    pack 2 r.resid ++ t.bytes ++ pack 4 r.rtag

/-- `n` bytes of another device's HBM, or of this one's own (log 37). -/
def State.remoteBytes (s : State) (dev a n : Nat) : List Byte :=
  if dev = s.device then s.hbm.read a n
  else (Config.remoteHbm dev a n s.free ++ List.replicate n 0).take n

/-- A slice under the census: its map entry, partition, program entry, group and domain step. -/
structure CensusOf where
  e : MapEntry
  p : Nat
  x : SliceEntry
  g : Group
  step : Nat

/-- The update input of a rewriting without sums. -/
def CensusOf.input (c : CensusOf) (pieces : List Nat) : UpdateIn :=
  { g := c.g, step := c.step, tensor := c.e.tensor, first := c.e.first, pieces
    sums := fun _ => [], factor := fun _ => 0, pending := fun _ => none }

/-- The slice is marked for catch-up by the census (R353). -/
def State.censusCatchup (s : State) (c : CensusOf) : State :=
  match (s.shardSlices c.e.shard).findIdx? fun o => o.tensor == c.e.tensor && o.first == c.e.first with
  | some i => s.markCatchup c.e.shard [(i, true)]
  | none => s

/-- A skip tag for the domain step over a record's tag (R177). -/
def State.censusSkip (s : State) (c : CensusOf) (r : Rec) : State :=
  s.storeRecord c.e (r.whole (r.tag.skip c.x (s.writeEpoch c.p) c.step))

/-- A replica's record as read over Seam, if the slice has one whose tag is intact with WTAG = s and OIP = 0 (R187). -/
def State.replica (s : State) (c : CensusOf) : Option (List Byte) :=
  if c.x.repl then
    let b := s.remoteBytes c.x.replDev c.x.record 61632
    let t := Tag.ofBytes ((b.drop recTag).take 64)
    if t.intact ∧ t.wtag = c.step ∧ !t.oip then some b else none
  else none

/-- The repair tag (R187). -/
def repairTag (c : CensusOf) (r : Rec) (epoch applied : Nat) : Tag :=
  let t := r.tag
  { t with
    mtag := c.step, wtag := c.step, mcrc := crc32c r.moments, wcrc := crc32c r.weights
    around := if t.intact then t.around else applied, skips := if t.intact then t.skips else 0
    lepoch := epoch, tensor := c.e.tensor, first := c.e.first
    oip := false, skipped := false, repaired := true, resetm := true, intact := true }

/-- repair(x, s) of R187. -/
def State.repair (s : State) (c : CensusOf) (r : Rec) : State :=
  let b := s.replica c
  let s := { s with free := s.free + b2n c.x.repl }.count (Reg.cufEvcTorn c.p)
  match b with
  | some b => s.storeRecord c.e b
  | none =>
    if crc32c r.outerBytes = r.tag.ocrc then
      let zero := List.replicate 4096 0
      let r := { r with w := r.anchor.map bf, m := zero, v := zero }
      let wc := workingCopy c.g c.step c.e.tensor c.e.first 0 r.w
      let r := { r with wc := wc.1, sc := wc.2.1 }
      let t := repairTag c r (s.writeEpoch c.p) (s.shard c.e.shard).done
      ((s.countN (Reg.cufEvcConv c.p) wc.2.2).count (Reg.cufEvcAnchor c.p)).storeRecord c.e (r.whole t)
    else (s.censusSkip c r).censusCatchup c

/-- Brim can form D and K of round `q` for a slice (R187): its K buffer stands, and every object is retained. -/
def State.canForm (s : State) (e : MapEntry) (q : Nat) : Bool :=
  decide (s.brim.round < q + 2) &&
  match (s.shard e.shard).commits.get? q with
  | some m => m.included.all fun p => s.holds' e.shard p.2 p.1
  | none => false

/-- outer_forward(x) of R187. -/
def State.outerRoll (s : State) (c : CensusOf) (r : Rec) : State :=
  let q := r.tag.around
  if !s.canForm c.e q then s.censusCatchup c
  else
    let dk := s.outerDK c.e.tensor c.e.first q
    let y := outerForward (c.input (List.range c.x.pieces)) dk.1 dk.2 r
    ((s.countN (Reg.cufEvcConv c.p) y.conv).count (Reg.cufEvcRollfwd c.p)).storeRecord c.e
      (y.r.whole (r.tag.closed c.x (s.writeEpoch c.p) (crc32c y.r.weights)))

/-- roll_forward(x, s) of R187 and R212. -/
def State.rollSlice (s : State) (c : CensusOf) (r : Rec) : State :=
  let ps := if c.x.slt then (List.range 64).filter fun q => r.rtag.getD q 0 == c.step else List.range c.x.pieces
  let y := rollForward (c.input ps) r
  ((s.countN (Reg.cufEvcConv c.p) y.conv).count (Reg.cufEvcRollfwd c.p)).storeRecord c.e
    (y.r.whole (r.tag.weight c.x (s.writeEpoch c.p) c.step (crc32c y.r.weights)))

/-- One more round applied to a copied record (R187, R184, R185); one with a value that is not finite writes nothing. -/
def State.reapply (c : CensusOf) (a : State × Rec) (q : Nat) : State × Rec :=
  let s := a.1
  let r := a.2
  let dk := s.outerDK c.e.tensor c.e.first q
  let u := applyRec (c.input (List.range c.x.pieces)) dk.1 dk.2 r
  let s := s.countN (Reg.cufEvcConv c.p) u.conv
  let y := u.r
  if !u.finite then ((s.count (Reg.cufEvcNonfin c.p)).reportRefused c.e.tensor c.e.first q, r)
  else
    let t := (r.tag.opened c.x (s.writeEpoch c.p) q (crc32c y.outerBytes)).closed c.x (s.writeEpoch c.p) (crc32c y.weights)
    (s, { y with tag := t })

/-- outer_repair(x, s) of R187. -/
def State.outerRepair (s : State) (c : CensusOf) : State :=
  let b := s.replica c
  let s := { s with free := s.free + b2n c.x.repl }.count (Reg.cufEvcTorn c.p)
  match b with
  | none => s.censusCatchup c
  | some b =>
    let r := readRec (Memory.cells 0 b) 0 false
    if crc32c r.outerBytes ≠ r.tag.ocrc then s.censusCatchup c
    else
      let qs := ((s.shard c.e.shard).commits.map (·.1)).filter fun q => decide (r.tag.around < q) && s.canForm c.e q
      let a := qs.foldl (State.reapply c) (s, r)
      a.1.storeRecord c.e (a.2.whole a.2.tag)

/-- The part a slow-tier slice plays that no recent step touched (R222): its record stands; after a reset that lost HBM it
is counted as stale (log 36). -/
def CensusOf.untouched (c : CensusOf) (r : Rec) : Bool :=
  c.x.slt && decide (r.tag.wtag + 1 < c.step) && crc32c r.moments == r.tag.mcrc &&
    crc32c r.weights == r.tag.wcrc

/-- census(s) of R187 for one slice. -/
def State.censusOne (s : State) (c : CensusOf) (lost : Bool) : State :=
  let r := s.recordOf c.e
  let t := r.tag
  if !t.intact then s.repair c r
  else if t.oip then (if crc32c r.weights = t.wcrc then s.outerRoll c r else s.repair c r)
  else if crc32c r.outerBytes ≠ t.ocrc then s.outerRepair c
  else if t.mtag = c.step ∧ t.wtag = c.step then s
  else if t.mtag = c.step ∧ t.wtag + 1 = c.step then (if crc32c r.weights = t.wcrc then s.rollSlice c r else s.repair c r)
  else if t.mtag + 1 = c.step ∧ t.wtag + 1 = c.step then
    if crc32c r.moments = t.mcrc then
      let s := (s.censusSkip c r).count (Reg.cufEvcLost c.p)
      { s with job := { s.job with lost := if s.job.lost.contains c.step then s.job.lost else s.job.lost ++ [c.step] } }
    else s.repair c r
  else if c.untouched r then s.countN Reg.sltEvcStale (b2n lost)
  else s.repair c r

/-- The census of one slice of the record map; a slow-tier slice that no line holds is read from flash (R216, R222). -/
def State.censusEntry (s : State) (step : Nat) (lost : Bool) (e : MapEntry) : State :=
  match s.entryOf e.tensor e.first with
  | none => s
  | some px =>
    let lostImage := px.2.slt && (s.landedLine px.2.record).isNone && (s.flashImage px.2.record).isNone
    let s := if lostImage then s.unreadable px.2.record else s
    s.censusOne { e, p := px.1, x := px.2, g := s.sliceGroup px.1 px.2 step, step } lost

/-- census(s) of R187 over every slice that the device owns; `lost` says that a reset lost HBM (R222). -/
def State.sliceCensus (s : State) (step : Nat) (lost : Bool) : State :=
  (ownedSlices s.job.map s.job.positions s.device).foldl (fun s e => s.censusEntry step lost e) s

/-- An unreadable image's slice is restored by the repair procedure (R216). -/
def State.repairNum (s : State) (num : Nat) : State :=
  match (ownedSlices s.job.map s.job.positions s.device).find? fun e => s.sltNum e.tensor e.first == some num with
  | none => s
  | some e => match s.entryOf e.tensor e.first with
    | none => s
    | some px =>
      let step := s.reg Reg.seqStep
      let c : CensusOf := { e, p := px.1, x := px.2, g := s.sliceGroup px.1 px.2 step, step }
      s.repair c (s.recordOf e)

end Sys2Proof.Machine
end

