-- ==== Sys2Proof/Machine/Schedule.lean ====
section
/-! DEFINITION. What the chapters require of a job image's schedule (R436 item 6): the stream programs, slot programs, plans,
regions and tables that its BLOB holds. Their bytes have no form in the manual and are read by opaque functions of the
image's digest (log 9); each check is its rule's own. -/

namespace Sys2Proof.Machine

/-! ### Positions (R294, R324) -/

/-- Usable devices by tight group, groups of 8 in device order (R293, R324). -/
def usableGroups (usable : List Nat) : List (List Nat) :=
  (List.range 128).map fun g => (usable.filter fun d => d / 8 == g).mergeSort (· ≤ ·)

/-- Positions of a layout filled in blocks (R294). -/
def State.fillPositions (s : State) (i : Nat) (usable : List Nat) : List Nat :=
  let tg := max 1 (s.layoutFld i 6 1)
  ((usableGroups usable).flatMap fun g => g.take (g.length / tg * tg)).take (s.layoutFld i 0 2)

/-- The devices of a layout when the whole domain takes part. -/
def State.planned (s : State) (i : Nat) : List Nat := s.fillPositions i s.devices

/-- The micro-batch counts that steering may choose (R22, R288, R297). -/
def State.batchRange (s : State) : Nat × Nat :=
  match s.polBytes 0x0411, s.polBytes 0x0412 with
  | some lo, some hi => (leNat lo, leNat hi)
  | _, _ => (s.pol 0x0410 1, s.pol 0x0410 1)

/-! ### Stream programs (R226 to R249) -/

/-- The stream programs of position `v` of layout `l`, by stream (R446). -/
def State.streamPrograms (s : State) (l v : Nat) : List (Nat × List Cmd) :=
  Config.streamPrograms s.job.digest (s.layoutFld l 12 8) v

/-- A sequencer command of an opcode. -/
def isSeqCmd (o : Nat) (c : Cmd) : Bool := unitClass (cmdUnit c) == .seq && cmdOpcode c == o

/-- The forward, backward and recompute templates of an EXPAND (R235). -/
def State.templates (s : State) (l v : Nat) (c : Cmd) : List Cmd × List Cmd × List Cmd :=
  let x := ExpandCmd.of c
  let t (a n : Nat) : List Cmd := (List.range n).map fun i => Config.templateCmd s.job.digest l v a i
  (t x.fwd x.fwdLen, t x.bwd x.bwdLen, t x.rcp x.rcpLen)

/-- Every command of a stream program, its templates with it. -/
def State.withTemplates (s : State) (l v : Nat) (prog : List Cmd) : List Cmd :=
  prog ++ (prog.filter (isSeqCmd 0x0A)).flatMap fun c =>
    let t := s.templates l v c
    t.1 ++ t.2.1 ++ t.2.2

/-- What a command is commanded to, for R226: a unit, the Liner by cluster. -/
def commandTarget (c : Cmd) : Option Nat :=
  match unitClass (cmdUnit c) with
  | .seq | .none => none
  | .liner => some (4096 + if cmdOpcode c = 0x3A then 32 else cmdFld c 32 5)
  | .engine | .row | .link | .core => some (cmdUnit c)

/-- No unit takes commands from two streams (R226). -/
def unitsApart (streams : List (List Cmd)) : Bool :=
  decide ((streams.map fun p => (p.filterMap commandTarget).eraseDups).Pairwise fun a b => ∀ u ∈ a, u ∉ b)

/-- Planned cycles that a command adds to its stream's offset (R231, R233). -/
def cmdSpan (c : Cmd) : Nat := cmdDelta c + if isSeqCmd 1 c then cmdFld c 32 32 else 0

/-- The planned length of a stream program with `b` micro-batches (R227, R237), the lead's SRESET a cycle of it (log 24). -/
def State.plannedLength (s : State) (l v b : Nat) (prog : List Cmd) : Nat :=
  let mode := s.pol 0x0403 1
  sumNat (prog.map fun c =>
    cmdSpan c + if isSeqCmd 0x0A c then
      let t := s.templates l v c
      b * sumNat ((t.1.filterMap (forwardCmd mode)).map cmdSpan) + b * sumNat ((t.2.1.filterMap (backwardCmd false)).map cmdSpan) +
        b2n (ExpandCmd.of c).lead
    else 0)

/-- A command as a native program may hold it (R232, R234): DELTA is not 0, and a SLEEP gates something. -/
def nativeOk (c : Cmd) : Bool :=
  cmdDelta c != 0 && !(isSeqCmd 5 c && (decide (0xA0 ≤ cmdFld c 32 12) || cmdFld c 44 2 == 0))

/-- QBOUND stands at a micro-batch's boundary (R249): before its first Seam send, and between no PROD and its DRAIN. -/
def qboundOk (cs : List Cmd) : Bool :=
  (cs.foldl (fun (a : Bool × Bool × List Nat) c =>
    let k := unitClass (cmdUnit c)
    if isSeqCmd 6 c then (a.1 && !a.2.1 && a.2.2.isEmpty, a.2.1, a.2.2)
    else if k == .link && cmdOpcode c == 0x40 then (a.1, true, a.2.2)
    else if k == .engine && cmdOpcode c == 0x20 then (a.1, a.2.1, cmdUnit c :: a.2.2)
    else if k == .engine && cmdOpcode c == 0x21 then (a.1, a.2.1, a.2.2.filter (· != cmdUnit c))
    else a) (true, false, [])).1

/-- A stage descriptor's patch entries (R236); one with WIDTH 0 patches nothing and may hold any POS (DEDUCED). -/
def patchesOk (d : List Byte) : Bool :=
  (List.range 12).all fun i =>
    let pos := fieldAt d (8 * i) 1
    let w := fieldAt d (8 * i + 1) 1
    w == 0 || (decide (32 ≤ pos) && decide (w ≤ 48) && decide (pos + w ≤ 256))

/-- The stream programs of a position. -/
def State.streamsOk (s : State) (l v : Nat) : Bool :=
  let progs := (s.streamPrograms l v).map (·.2)
  let all := progs.map (s.withTemplates l v)
  let span := s.batchRange
  let expands := progs.flatMap fun p => p.filter (isSeqCmd 0x0A)
  unitsApart all && (all.all fun p => p.all nativeOk) &&
    ((List.range (span.2 + 1 - span.1)).all fun i =>
      let b := span.1 + i
      progs.all fun p => decide (s.plannedLength l v b p ≤ s.pol 0x041A 0 + b * s.pol 0x041B 0)) &&
    (progs.all qboundOk) && (expands.all fun c => let t := s.templates l v c; qboundOk t.1 && qboundOk t.2.1) &&
    (List.range 4).all fun st => patchesOk (Config.stageDescriptor s.job.digest l v st)

/-! ### Engines and gating (R19, R43, R102, R112, R252) -/

/-- At most `room` of the cycles lie in any `span` consecutive ones. -/
def spaced (ts : List Nat) (room span : Nat) : Bool :=
  ts.all fun t => decide ((ts.filter fun u => decide (t ≤ u) && decide (u < t + span)).length ≤ room)

/-- What a position's schedule makes of its engines: in RATED mode the busy cycles of each window of 65,536 cc stay within
the cap (R19); array operands are FP8 or pieces (R43); no engine is gated while it holds a tile, a shadow or a command (R102);
weight-gradient products drain to slots (R112); the wakes keep their distance (R252). -/
def State.enginesOk (s : State) (l v : Nat) : Bool :=
  let d := s.job.digest
  let wakes := Config.plannedWakes d l v
  (s.pol 0x0400 0 != 1 || (Config.engineBusy d l v).all fun n => decide (16 * n ≤ 65536 * s.pol 0x0405 11)) &&
    ((Config.operandFormats d l v).all fun f => decide (f < 5)) &&
    ((Config.plannedGates d l v).all fun g => g.1 == 0 && g.2.1 == 0 && g.2.2 == 0) &&
    ((Config.gradientDrains d l v).all fun x => x == 1 || x == 2) &&
    spaced ((wakes.filter fun w => w.1 == 2).map (·.2)) 8 16 && spaced ((wakes.filter fun w => w.1 == 3).map (·.2)) 1 64

/-! ### The stash (R138) -/

/-- A stage region as the image sets it (R137), with the planned stash size and the scratch that one micro-batch takes. -/
structure Region where
  base : Nat
  limit : Nat
  ckptBase : Nat
  ckptTile : Nat
  ckptTiles : Nat
  scrBase : Nat
  scrSize : Nat
  dirBase : Nat
  epm : Nat
  planned : Nat
  scratch : Nat
  deriving DecidableEq, Repr

/-- The regions of a position's stages. -/
def State.regions (s : State) (l v : Nat) : List Region :=
  (Config.stageRegions s.job.digest l v).map fun r =>
    let x (i : Nat) : Nat := r.getD i 0
    ⟨x 0, x 1, x 2, x 3, x 4, x 5, x 6, x 7, x 8, x 9, x 10⟩

/-- Bytes of a region's checkpoint area for `b` micro-batches (R137). -/
def Region.ckptBytes (r : Region) (b : Nat) : Nat := b * r.ckptTiles * r.ckptTile

/-- Two ranges of an address and a length do not meet. -/
def apart (a b : Nat × Nat) : Bool := decide (a.1 + a.2 ≤ b.1) || decide (b.1 + b.2 ≤ a.1) || a.2 == 0 || b.2 == 0

/-- The ranges of a list do not meet. -/
def allApart (rs : List (Nat × Nat)) : Bool := decide (rs.Pairwise fun a b => apart a b = true)

/-- The checkpoint capacity of a region in micro-batches: what lies between its base and the area above it (R138). -/
def Region.capacity (r : Region) (room : Nat) : Nat := room / max 1 (r.ckptTiles * r.ckptTile)

/-- A position's regions by R138: the checkpoint area holds the largest micro-batch count, the scratch area one micro-batch,
and neither areas nor directory spans overlap. -/
def State.regionsOk (s : State) (l v : Nat) : Bool :=
  let rs := s.regions l v
  let hi := s.batchRange.2
  (rs.all fun r => decide (r.scratch ≤ 64 * r.scrSize)) &&
    ((rs.zip (Config.checkpointRoom s.job.digest l v)).all fun x => decide (hi ≤ x.1.capacity x.2)) &&
    allApart (rs.map fun r => (r.dirBase, r.epm * hi)) &&
    allApart (rs.flatMap fun r => [(r.base, r.limit - r.base), (r.ckptBase, r.ckptBytes hi), (r.scrBase, 64 * r.scrSize)])

/-- The stash limit of a region (R138). -/
def Region.stashLimit (r : Region) (room : Nat) : Nat := min (min ((r.limit - r.base) / max 1 r.planned) (r.capacity room)) 256

/-- The smallest stash limit of the stages of the domain under a layout (R138, R288); this device's areas are those of its
registers. -/
def State.stashLimit (s : State) (l : Nat) : Nat :=
  let own (st : Nat) (r : Region) : Region := { r with
    base := Regs.pair s.regs (Reg.lnrSBaseLo st), limit := Regs.pair s.regs (Reg.lnrSLimitLo st)
    ckptTile := s.reg (Reg.lnrSCkptTile st), ckptTiles := s.reg (Reg.lnrSCkptTiles st) }
  ((List.range (s.layoutFld l 0 2)).flatMap fun v =>
    let mine := s.job.positions.getD v 1024 == s.device
    (((s.regions l v).zip (Config.checkpointRoom s.job.digest l v)).zipIdx).map fun x =>
      (if mine then own x.2 x.1.1 else x.1.1).stashLimit x.1.2).foldl min 256

/-! ### Slices and plans (R155, R290, R295) -/

/-- Bytes of a record (R178). -/
def recordSize : Nat := 61632

/-- The slice entries of a position's slot programs, with their partitions. -/
def State.imageEntries (s : State) (l v : Nat) : List (Nat × SliceEntry) :=
  (Config.slotEntries s.job.digest (s.layoutFld l 20 8) v).map fun e => (e.1, SliceEntry.ofNat e.2)

/-- The runs of a plan for one micro-batch (R154, R276). -/
def State.imagePlan (s : State) (l v p plan : Nat) : List Nat := Config.planRuns s.job.digest (s.layoutFld l 28 8) v p plan

/-- The records of a position. -/
def State.imageRecords (s : State) (l v : Nat) : List (Nat × Nat) :=
  ((s.imageEntries l v).filter fun e => !e.2.slt).map fun e => (e.2.record, recordSize)

/-- A position's slices by R155 and R290: their plans' counts sum to E and stay in range at MB_MAX, no slice stands twice,
records do not overlap, no reserved bit is set, and a replica's bytes are free on its device. -/
def State.slicesOk (s : State) (l v : Nat) : Bool :=
  let es := s.imageEntries l v
  let hi := s.batchRange.2
  let used (d : Nat) : List (Nat × Nat) :=
    match positionOf (s.planned l) d with
    | some w => s.imageRecords l w ++ Config.usedAreas s.job.digest l w
    | none => []
  (es.all fun e =>
    let runs := s.imagePlan l v e.1 e.2.plan
    sumNat (runs.map fun r => bits r 22 10) == e.2.e && !e.2.reserved && decide (e.2.e * hi ≤ 65535) &&
      decide (runs.length * hi ≤ 65535) &&
      (!e.2.repl || (used e.2.replDev).all fun r => apart (e.2.record, recordSize) r)) &&
    decide ((es.map fun e => (e.2.tensor, e.2.first)).Nodup) && allApart (s.imageRecords l v)

/-- The records and areas that a device uses under a layout. -/
def State.usedUnder (s : State) (l d : Nat) : List (Nat × Nat) :=
  let ps := s.planned l
  ((ownedSlices (s.recordMap l) ps d).map fun e => (e.record, recordSize)) ++
    match positionOf ps d with
    | some v => Config.usedAreas s.job.digest l v
    | none => []

/-- Every record that changes owner from layout `a` to layout `b` lands outside what its new owner uses under `a` (R295). -/
def State.migrationOk (s : State) (a b : Nat) : Bool :=
  let old := s.recordMap a
  let pa := s.planned a
  let pb := s.planned b
  (s.recordMap b).all fun e =>
    let d := pb.getD e.position 1024
    let before := (old.find? fun o => o.tensor == e.tensor && o.first == e.first).map fun o => pa.getD o.position 1024
    before == some d || (s.usedUnder a d).all fun r => apart (e.record, recordSize) r

/-! ### Memory and links (R278, R281, R282, R309, R317, R320, R357) -/

/-- The exchange area of a position (R357): two K buffers and a digest per outer-synced slice, and what RETAIN rounds from
every member site take at KEEP_MAX (R337). -/
def State.exchangeBytes (s : State) (l v : Nat) : Nat :=
  let n := ((s.imageEntries l v).filter fun e => e.2.cut).length
  let keep := s.pol 0x0425 512
  n * (2 * 8192 + 16) + s.pol 0x042D 8 * (1 + s.partnerSites.length) * n * (1 + keep * 5 / 2)

/-- The sum of R282 and R357 fits a device. -/
def State.memoryOk (s : State) (l v : Nat) : Bool :=
  decide (sumNat (Config.memoryParts s.job.digest l v) + s.exchangeBytes l v ≤ 576 * 2 ^ 30)

/-- A transfer fits its window (R281): 64 bytes per cc and link, of which MAXHALF may run at half width. -/
def State.transferOk (s : State) (l : Nat) (x : Nat × Nat × Nat) : Bool :=
  decide (x.1 ≤ x.2.1 * (64 * x.2.2 - 32 * min x.2.2 (s.layoutFld l 7 1)))

/-- Routes (R317) and multicast groups (R320) of a layout: at most 4 hops, no device twice, links in service. -/
def State.routesOk (s : State) (l : Nat) : Bool :=
  let d := s.job.digest
  let up := Config.linksInService d l
  ((Config.routePaths d l).all fun p =>
    decide (p.length ≤ 5) && decide ((p.map (·.1)).Nodup) && p.dropLast.all fun h => up.contains h) &&
  ((Config.multicastReach d l).all fun g => decide ((g.map (·.1)).Nodup) && g.all fun x => decide (x.2 ≤ 4))

/-- What one position must fulfil: 6 for a check, 7 for capacity (R440, log 25). -/
def State.positionBad (s : State) (l v : Nat) : Option Bad :=
  let d := s.job.digest
  let g := Config.gatherArea d l v
  if !s.streamsOk l v || !s.enginesOk l v || !s.regionsOk l v || !s.slicesOk l v ||
      (Config.namedFormats d l v).contains 15 || (Config.openLinks d l v).any fun c => c == 0 then some .check
  else if g.1 < g.2 ∨ !s.memoryOk l v then some .capacity
  else none

/-- The schedule of a job image against the chapters' rules. -/
def State.scheduleBad (s : State) : Option Bad :=
  let ls := List.range s.layoutCount
  let pairs := ls.flatMap fun a => (ls.filter (· != a)).map fun b => (a, b)
  if (ls.any fun l => !s.routesOk l || (Config.plannedTransfers s.job.digest l).any fun x => !s.transferOk l x) ||
      pairs.any fun p => !s.migrationOk p.1 p.2 then some .check
  else ls.findSome? fun l => (List.range (s.layoutFld l 0 2)).findSome? fun v => s.positionBad l v

end Sys2Proof.Machine
end

