-- ==== Sys2Proof/Machine/Mapping.lean ====
section
/-! DEFINITION. Mapping a job (08_mapping_a_job) and what a step's end brings: the step counter, the step constants,
batch steering, layout-epoch boundaries, step aborts, the membership census, re-sharding and migration. -/

namespace Sys2Proof.Machine

/-! ### Step constants and plans (R171, R172, R290) -/

/-- The distinct group tables of the partitions. -/
def State.groupTables (s : State) : List Nat :=
  ((List.range 8).map fun p => Regs.pair s.regs (Reg.cufGtblBaseLo p)).eraseDups

/-- 1 / (1 - b^t) in FP32 (R172). -/
def biasCorrection (b : Word) (t : Nat) : Word := fdiv 0x3F800000#32 (fsub 0x3F800000#32 (fpow 32 b t 0x3F800000#32))

/-- The 16 bytes of group `g`'s constants of step `step` with `mb` micro-batches, from its CTRL to OLR fields. -/
def State.constantBytes (s : State) (base g step mb : Nat) : List Byte :=
  let x := readGroup s.hbm base g step
  let t := step - s.job.firstStep + 1
  leBytes 4 (Config.learnRate s.job.digest g step).toNat ++ leBytes 4 (biasCorrection x.b1 t).toNat ++
    leBytes 4 (biasCorrection x.b2 t).toNat ++ leBytes 4 (Config.gradScale s.job.digest g step mb).toNat

/-- The constants of a step written to set `step mod 2` of every group (R172). -/
def State.writeConstants (s : State) (step : Nat) : State :=
  let mb := s.fld Reg.seqMbCount 0 9
  let hbm := s.groupTables.foldl (fun m base =>
    (List.range 16).foldl (fun m g => m.write (base + 128 * g + 64 + 16 * (step % 2)) (s.constantBytes base g step mb)) m) s.hbm
  { s with
    hbm := hbm
    job := if step % 2 = 0 then { s.job with const0 := some step } else { s.job with const1 := some step } }

/-- Every dense slice entry of the partitions with the HBM address of its bytes. -/
def State.denseEntries (s : State) : List (Nat × Nat × SliceEntry) :=
  (List.range 8).flatMap fun p =>
    ((partitionEntries s p).filter fun e => !sltSlot s.regs e.1).map fun e => (p, (slotProgram s p e.1).1 + 32 * e.2.1, e.2.2)

/-- The plans and E of the dense slices for `b` micro-batches instead of `b0` (R290), rewritten where they stand, where
the planner leaves room for MB_MAX (log 35). -/
def State.scalePlans (s : State) (b0 b : Nat) : State :=
  let es := s.denseEntries
  let plans := (es.map fun e => (Regs.pair s.regs (Reg.cufPlanBaseLo e.1), e.2.2.plan)).eraseDups
  let m := plans.foldl (fun (m : Memory) (x : Nat × Nat) =>
    let d := m.readNat (x.1 + 8 * x.2) 8
    let l1 := bits d 32 16 / max 1 b0
    let runs := m.read (x.1 + 4 * bits d 0 32) (4 * l1)
    (m.write (x.1 + 4 * bits d 0 32) ((List.range b).flatMap fun _ => runs)).writeNat (x.1 + 8 * x.2 + 4) 2 (l1 * b)) s.hbm
  let m := ((es.map fun e => (e.2.1, e.2.2.e)).eraseDups).foldl (fun (m : Memory) (x : Nat × Nat) =>
    m.writeNat (x.1 + 15) 2 (x.2 / max 1 b0 * b)) m
  { s with hbm := m }

/-! ### Batch steering (R286 to R289) -/

/-- Some TPX injection is enabled (R508). -/
def State.injecting (s : State) : Bool :=
  s.fld Reg.tpxStCfg 6 1 == 1 || (List.range 4).any fun k => s.fld (Reg.tpxSd k) 6 1 == 1 || s.fld (Reg.tpxCd k) 6 1 == 1

/-- Step `n`'s noise pair fed into the running means (R287). -/
def State.feedNoise (s : State) (n : Nat) : State :=
  if !s.job.active ∨ s.job.recovering ∨ s.job.lost.contains n ∨ s.reg Reg.vsrNoiseStep ≠ n then s
  else
    let nn := fofNat (s.fld Reg.vsrNoiseN 0 19)
    let sn := BitVec.ofNat 32 (s.reg Reg.vsrNoiseS)
    let qn := BitVec.ofNat 32 (s.reg Reg.vsrNoiseQ)
    let a := fmul nn (fsub sn qn)
    let c := fsub (fmul nn qn) sn
    let w := fdiv 0x3F800000#32 (fofNat (2 ^ s.pol 0x0415 4))
    let step (m x : Word) : Word := fadd m (fmul (fsub x m) w)
    { s with job := { s.job with
      aBar := if s.job.fed = 0 then a else step s.job.aBar a
      cBar := if s.job.fed = 0 then c else step s.job.cBar c
      fed := s.job.fed + 1 } }

/-- Some device's noise message of the steps since the last decision carried f_d = 1 (R288). -/
def State.stashWasFull (s : State) (n : Nat) : Bool :=
  s.vsr.noise.any fun t => decide (t.1 < n) && t.2.any fun d => d.2.2.2

/-- The micro-batch count that R288 arrives at, from B and the bounds. -/
def State.steered (s : State) (n b lo hi : Nat) : Nat :=
  let hi := min (min hi (s.stashLimit s.job.layout)) 256
  let hi := if s.stashWasFull n then min hi b else hi
  let q := fdiv (fmul (s.polF 0x0416 0x3F800000#32) s.job.aBar) (fmul s.job.cBar (fofNat (s.layoutFld s.job.layout 8 2)))
  let x := if flt 0 s.job.cBar ∧ ffinite q then ceilNat q hi else hi
  min (min (max (max x lo) ((b + 1) / 2)) hi) (2 * b)

/-- Steering is held at MB_START (R23, R289): in recovery, and in test. -/
def State.steerHeld (s : State) : Bool := s.job.recovering || (s.testPermit && s.injecting)

/-- The earlier of the boundary that is declared and step `n`. -/
def earlier (b : Option Nat) (n : Nat) : Nat := match b with | some x => min x n | none => n

/-- The first boundary that the decisions still to take effect declare (R283). -/
def Job.nextBoundary (j : Job) : Option Nat :=
  let mb := j.newMb.map fun _ => j.newMbAt
  match j.newK with
  | some _ => some (earlier mb j.newKAt)
  | none => mb

/-- The decision at the end of step `n` (R288, R289). -/
def State.steer (s : State) (n : Nat) : State :=
  let due := n % max 1 (s.pol 0x0413 500) = 0
  let held := s.steerHeld || decide (s.job.fed < s.pol 0x0414 1000)
  let b := s.fld Reg.seqMbCount 0 9
  match s.polBytes 0x0411, s.polBytes 0x0412 with
  | some lo, some hi =>
    if !s.job.active ∨ !due then s
    else
      let x := s.steered n b (leNat lo) (leNat hi)
      let nb := n + s.pol 0x0418 2
      let prune (s : State) : State := { s with vsr := { s.vsr with noise := s.vsr.noise.filter fun t => decide (n ≤ t.1) } }
      if held then prune s
      else if (x - b + (b - x)) * 64 < s.pol 0x0417 8 * b ∨ x = b then prune s
      else
        let s := s.logDecision 3 (leBytes 4 n ++ leBytes 4 s.job.aBar.toNat ++ leBytes 4 s.job.cBar.toNat ++ leBytes 2 x ++
          leBytes 2 b ++ leBytes 4 nb)
        prune { s with job := { s.job with newMb := some x, newMbAt := nb, boundary := some (earlier s.job.boundary nb) } }
  | _, _ => s

/-! ### Layout-epoch boundaries (R190, R283 to R285) -/

/-- A field of `CUF_EPOCH` written in every partition. -/
def State.putEpochs (s : State) (lo w v : Nat) : State :=
  (List.range 8).foldl (fun s p => s.putFld (Reg.cufEpoch p) lo w v) s

/-- The slow-tier map checkpointed to flash (R221). -/
def State.checkpointMap (s : State) : State :=
  { s with slt := { s.slt with checkpoint := s.slt.flash.map fun f => (f.1, f.2.gen) } }

/-- A boundary is reached: step 1 of R284 is complete, the slow tier's map is checkpointed (R221), and migration may
start. -/
def State.openBoundary (s : State) : State :=
  { s.checkpointMap.putEpochs 16 1 1 with job := { s.job with phase := 2, config := true, readyAt := [], switchAt := [], fsw := none } }

/-- The rate of R = data degree of the layout in force (R272, R446). -/
def State.replicas (s : State) : Nat := max 1 (s.layoutFld s.job.layout 8 2)

/-- `SEQ_PERIOD` and `VSR_NOISE_N` for `b` micro-batches (R290, R286). -/
def State.setBatch (s : State) (b : Nat) : State :=
  ((s.putFld Reg.seqMbCount 0 9 b).put Reg.seqPeriod ((s.pol 0x041A 0 + b * s.pol 0x041B 0) % 2 ^ 32)).put Reg.vsrNoiseN
    (s.replicas * b)

/-- `SEQ_MODE` takes `SEQ_MODE_NEXT`, logged, and the queues' credits and counts start again (R18, R271). -/
def State.boundarySequencer (s : State) : State :=
  let old := s.reg Reg.seqMode
  let new := s.reg Reg.seqModeNext
  let s := if old = new then s else (s.logDecision 13 (leBytes 4 old ++ leBytes 4 new)).put Reg.seqMode new
  (List.range 64).foldl (fun s q =>
    ((s.put (Reg.seqQCred q) (s.fld (Reg.seqQCfg q) 2 4 + 1)).put (Reg.seqQArr q) 0).put (Reg.seqQCons q) 0) s

/-- The ready cycle of this device is sent (R285). -/
def State.sendReady (s : State) : State :=
  let c := s.now
  let s := { s with job := { s.job with phase := 5, readyAt := s.job.readyAt.set s.device c } }
  s.sendCtrlAll (s.devices.filter (· != s.device)) (leBytes 8 c)

/-- The devices of the domain that are in the member set. -/
def State.others (s : State) : List Nat := s.devices.filter fun d => d != s.device && s.job.members.contains d

/-- The largest value of a table, and whether every member has one. -/
def State.agreed (s : State) (t : Tbl Nat) : Option Nat :=
  if (s.device :: s.others).all fun d => (t.get? d).isSome then some ((t.map (·.2)).foldl max 0) else none

/-- Every stream's lag is 0: at job start and at every layout-epoch start (R228). -/
def State.clearLags (s : State) : State := (List.range 40).foldl (fun s k => s.put (Reg.seqSLag k) 0) s

/-- Every stream stands at the start of its program for step `n`. -/
def State.restartStreams (s : State) (n : Nat) : State :=
  let s := (List.range 40).foldl (fun s k =>
    let s := s.put (Reg.seqSStatus k) 0
    if s.fld Reg.seqCfg 1 1 = 1 then s else s.put (Reg.seqSHead k) 0) s
  { s with seq := { s.seq with streams := (List.range 40).map fun k => (k, ({ step := n } : Stream)) } }

/-- The start cycle is agreed (R285), up to which configuration stays open (R559): the epoch begins there, and EPOCH is
posted. -/
def State.closeBoundary (s : State) : State :=
  match s.job.boundary, s.agreed s.job.readyAt with
  | some nb, some c =>
    if s.job.phase ≠ 5 then s
    else
      let start := (c + s.pol 0x0419 65536) % 2 ^ 64
      let s := { s with
        regs := Regs.putPair s.regs Reg.seqEpochStartLo start
        job := { s.job with
          n0 := nb, boundary := s.job.nextBoundary, phase := 0, config := false, configTo := start, recovering := false }
        seq := { s.seq with halted := false } }
      s.latchTables.clearLags.post 6 0x1F8 (leBytes 4 (s.fld Reg.seqEpoch 0 16) ++ leBytes 4 nb)
  | _, _ => s

/-- The micro-batch count of step `n` (R22, R23, R283): while steering is held MB_START from the next boundary on, else what
has been decided for it. -/
def State.batchAt (s : State) (n : Nat) : Nat :=
  let b := s.fld Reg.seqMbCount 0 9
  let past := match s.job.boundary with | some nb => decide (nb ≤ n) | none => false
  if !past then b
  else if s.steerHeld then s.pol 0x0410 1
  else match s.job.newMb with
    | some x => if s.job.newMbAt ≤ n then x else b
    | none => b

/-- Step 3 of R284, then step 4 where a frequency was agreed, else step 5. -/
def State.boundaryRegisters (s : State) : State :=
  match s.job.boundary with
  | none => s
  | some nb =>
    let b := s.fld Reg.seqMbCount 0 9
    let x := s.batchAt nb
    let s := (if x = b then s else s.scalePlans b x).setBatch x
    let mb := if s.job.newMbAt ≤ nb then none else s.job.newMb
    let s := { s.boundarySequencer with job := { s.boundarySequencer.job with newMb := mb, phase := 3 } }
    let s := (s.writeConstants nb).writeConstants (nb + 1)
    match if s.job.newKAt ≤ nb then s.job.newK else none with
    | some _ =>
      let c := s.now
      let s := { s with job := { s.job with phase := 4, switchAt := s.job.switchAt.set s.device c } }
      s.sendCtrlAll s.others (leBytes 8 c)
    | none => s.sendReady.closeBoundary

/-- READY_CYCLE_MESSAGE: a device's ready cycle arrives (R285). -/
def readyCycleMessageEffect (dev cycle : Nat) (s : State) : State :=
  if s.job.boundary.isNone then s
  else { s with job := { s.job with readyAt := s.job.readyAt.set dev cycle } }.closeBoundary

/-! ### The end of a step (R10) -/

/-- Slices of step `n` that partition `p` has to end: those of its programs, and its touched slow-tier slices. -/
def State.slicesDue (s : State) (p n : Nat) : Nat :=
  sumNat (((programSlots s p).filter fun k => !sltSlot s.regs k).map fun k => (slotProgram s p k).2) +
    ((Tbl.get [] s.slt.plans n).filter fun e => e.1 % 8 == p).length

/-- Every enabled stream has passed STEPEND of step `n`. -/
def State.streamsPast (s : State) (n : Nat) : Bool :=
  let on := (List.range 40).filter fun k => s.fld (Reg.seqSCfg k) 0 1 == 1
  !on.isEmpty && on.all fun k => decide (n < (s.stream k).step)

/-- Every slice of step `n` has been updated or counted as skipped (R10), and where slow-tier slots are reserved the step's
touch list has been posted. DESIGN CHOICE (log 110): where no slice is due, the step ends with the last stream's STEPEND. -/
def State.stepOver (s : State) (n : Nat) : Bool :=
  let due := (List.range 8).map fun p => (p, s.slicesDue p n)
  (due.any (fun d => d.2 != 0) || s.streamsPast n) && due.all (fun d => decide (d.2 ≤ Tbl.get 0 (s.partition d.1).ended n)) &&
  (s.fld Reg.sltSlots 11 11 == 0 || (Tbl.get? s.slt.plans n).isSome)

/-- Slow-tier slots whose program was empty in step `n` pass it too (R153). -/
def State.passEmptySlots (s : State) (n : Nat) : State :=
  let first := s.fld Reg.sltSlots 0 11
  s.part.foldl (fun s p =>
    p.2.slots.foldl (fun s k =>
      let x := s.slotAfter p.1 k.1
      if decide (first ≤ k.1) && sltSlot s.regs k.1 && x.state == 0 && decide (s.job.firstStep + x.pass ≤ n) then
        s.setSlot p.1 k.1 { x with pass := n + 1 - s.job.firstStep }
      else s) s) s

/-- The device returns to item 4 of R436 after a stop, or reads the next image (R437). -/
def State.stopJob (s : State) (replace : Bool) : State :=
  let s := (s.checkpointMap.post 8 0x1F8 (leBytes 4 ((s.reg Reg.seqStep + 0xFFFFFFFF) % 2 ^ 32))).dropReads
  let s := { s with
    job := { s.job with active := false, stopping := none, boundary := none, phase := 0, config := false, census := none
                        recovering := false }
    seq := { s.seq with halted := true }
    host := { s.host with jobLeft := 0 }
    regs := Regs.putFld s.regs Reg.hptStatus 0 3 4 }
  s.nextImage replace

/-- A STOP or REPLACE takes effect (R437). -/
def State.honourStop (s : State) : State :=
  match s.job.stopping with
  | some r => s.stopJob r
  | none => s

/-- A step ends on the device (R10): Visor's entry of the flagged partitions, the counter and lags, the noise message, the
constants of the step after the next, steering, Brim's boundary, and the layout-epoch boundary where it falls. -/
def State.endStep (s : State) (n : Nat) : State :=
  let flags := sumNat ((List.range 8).map fun p => if (s.partition p).flagStep.isSome then 2 ^ p else 0)
  let s := if flags = 0 then s else s.logDecision 10 (leBytes 1 flags)
  let s := { s with part := s.part.map fun (p : Nat × Partition) =>
    (p.1, { p.2 with ended := p.2.ended.filter fun e => decide (n < e.1) }) }
  let lag := ((List.range 40).map s.lag).foldl max 0
  let s := ((s.put Reg.seqStep ((n + 1) % 2 ^ 32)).put Reg.seqLastlag lag).put Reg.seqMaxlag lag
  let s := (s.queueUntouched.passEmptySlots n).stepNoise n
  if !s.job.active then s
  else
    let s := ((s.writeConstants (n + 2)).feedNoise (n - 1)).steer n
    let s := s.brimBoundary n
    if s.job.boundary = some (n + 1) then s.openBoundary
    else if s.seq.halted then s
    else s.honourStop

/-- The steps that are over end, the lowest first. -/
def State.endSteps : Nat → State → State
  | 0, s => s
  | k + 1, s => if s.stepOver (s.reg Reg.seqStep) then State.endSteps k (s.endStep (s.reg Reg.seqStep)) else s

/-- The last add of a slot has completed (R166): its slice's trigger, with which a deferred slice ends its step (log 110). -/
def slotTriggerEffect (p k : Nat) (s : State) : State := (s.slotTrigger p k).endSteps 2

/-- A post of a step's touch list (R198, R201, R207): the plan, and in the current step the slices that it alone names. -/
def touchListPostEffect (st : Nat) (s : State) : State := ((s.planList st).queueUntouched.retryFetches).endSteps 2

/-- COMMAND_ISSUE (R228 to R230), with which a step that has no slice due may end (R10). -/
def streamIssueEffect (n : Nat) (s : State) : State :=
  let t := commandIssueEffect n s
  if (s.stream n).step < (t.stream n).step then t.endSteps 2 else t

/-- STEPEND as a command of its own (R233), with which a step that has no slice due may end (R10, log 110). -/
def streamEndEffect (n : Nat) (c : Cmd) (s : State) : State := (stependEffect n c s).endSteps 2

/-! ### Step aborts (R182, R489) -/

/-- A slot under an abort (R182), and whether it is discarded: OPEN, FILLING and HELD slots are. -/
def State.abortSlot (s : State) (p k : Nat) : Slot × Bool :=
  let x := s.slotNow p k
  if x.state = 1 ∨ x.state = 2 ∨ x.state = 5 then ({ entry := x.entry, pass := x.pass }, true) else (s.slot p k, false)

/-- A partition under an abort (R182). -/
def State.abortPartition (s : State) (p : Nat) : State :=
  let x := s.partition p
  let slots := x.slots.map fun k => (k.1, s.abortSlot p k.1)
  let beats := x.pend ++ x.ingress.flatMap (fun g => g.2.queue.map (·.2)) ++ x.slots.flatMap fun k => k.2.taking
  let n := (slots.filter fun k => k.2.2).length + beats.length
  let s := (List.range (Tbl.get [] s.seam.owed p).length).foldl (fun s _ => s.releaseSeam p) s
  let s := (s.setPartition p { x with
    slots := slots.map fun k => (k.1, { k.2.1 with taking := [] }), pend := [], ingress := [], aborting := true }).countN
      (Reg.cufEvcDiscard p) n
  let s := { s with regs := Regs.count64 s.regs (Reg.cufStallLo p) (x.waiting s.now) }
  beats.foldl (fun s b => s.beatAdded p b s.now) s

/-- An engine counts as healthy: neither it nor its cluster's row unit nor one of the cluster's service cores is isolated
(R291, R488). -/
def State.healthy (s : State) (n : Nat) : Bool :=
  !s.isolated n && !s.isolated (0x80 + n / 4) && (List.range 8).all fun k => !s.isolated (0xA0 + 8 * (n / 4) + k)

/-- The record that this device sends in the census (R291): device, healthy engines, half-width links as a mask, last
completed step, layout epoch. -/
def State.ownRecord (s : State) : CensusRecord :=
  { engines := ((List.range 128).filter s.healthy).length
    halfLinks := s.reg Reg.seamDomHalf0 + 2 ^ 32 * s.fld Reg.seamDomHalf1 0 4
    lastStep := s.reg Reg.seqStep - 1, epoch := s.fld Reg.seqEpoch 0 16 }

/-- CUF_STATUS.CENSUS in every partition. -/
def State.showCensus (s : State) (v : Nat) : State := (List.range 8).foldl (fun s p => s.putFld (Reg.cufStatus p) 27 1 v) s

/-- The first round of the membership census begins (R291): the record goes to every device of the domain. A migration in
progress is abandoned (R296), and a batch that was decided is not taken (R23). -/
def State.startCensus (s : State) : State :=
  let r := s.ownRecord
  let s := match s.job.nextLayout with
    | some l => s.logDecision 8 (leBytes 2 s.job.layout ++ leBytes 2 l)
    | none => s
  let s := { (s.putEpochs 16 1 0).showCensus 1 with job := { s.job with
    census := some { since := s.clk.acnt, records := [(s.device, r)] }
    nextLayout := none, nextMap := [], nextPositions := [], boundary := none, phase := 0, newMb := none, recovering := true
    fed := 0 } }
  s.sendCtrlAll (s.devices.filter (· != s.device))
    (leBytes 2 s.device ++ leBytes 1 r.engines ++ leBytes 5 r.halfLinks ++ leBytes 4 r.lastStep ++ leBytes 2 r.epoch)

/-- The current step aborted on this device (R489), at most once per step. -/
def State.abortStep (s : State) : State :=
  let n := s.reg Reg.seqStep
  if s.gnt.aborted = some n then s
  else
    let s := { s with gnt := { s.gnt with aborted := some n }, seq := { s.seq with halted := true } }
    let s := (List.range 8).foldl State.abortPartition s
    let stages := (List.range 4).filter fun st => s.fld (Reg.lnrSCtrl st) 0 1 = 1
    let l := stages.foldl (fun (a : Liner × Tbl Word) st => resetStage a.1 a.2 st) (s.lnr, s.regs)
    let s := { s with lnr := l.1, regs := Regs.count l.2 Reg.gntEvcAbort 1 }
    let s := s.sendCtrlAll (s.devices.filter (· != s.device)) (leBytes 4 n)
    s.startCensus

/-- ABORT_MESSAGE: counted; for the current step, not aborted yet, PEER_ABORT is recorded and the step aborted (R489). -/
def abortMessageEffect (link dev step : Nat) (s : State) : State :=
  let s := s.count Reg.gntEvcPeerabort
  if step ≠ s.reg Reg.seqStep ∨ s.gnt.aborted = some step then s
  else (s.fault (0x1B0 + link) 0x0E 0 0 dev).abortStep

/-! ### The membership census (R291 to R294) -/

/-- Every member's second-round set has arrived: the member set (R292). -/
def Census.memberSet (c : Census) (heard : List Nat) : List Nat :=
  (heard.filter fun d => (c.sets.get? d).isSome).filter fun d => c.sets.all fun t => t.2.contains d

/-- Devices heard from in the first round. -/
def Census.heard (c : Census) : List Nat := c.records.map (·.1)

/-- A link of the domain as its lower device, the higher one and the lower one's link, seen from device `d`'s link `l`. -/
def State.linkPeer (s : State) (d l : Nat) : Nat :=
  if d = s.device then s.fld (Reg.seamPeer l) 0 10 else Config.seamPeer d l

/-- Half-width links between usable devices: lower device, higher device, link (R293). -/
def State.halfPairs (s : State) (c : Census) (usable : List Nat) : List (Nat × Nat × Nat) :=
  (c.records.filter fun r => usable.contains r.1).flatMap fun r =>
    ((List.range 36).filter fun l => bit r.2.halfLinks l).filterMap fun l =>
      let e := s.linkPeer r.1 l
      if r.1 < e ∧ usable.contains e then some (r.1, e, l) else none

/-- The first layout that meets R293, with `half` half-width links left. -/
def State.pickLayout (s : State) (usable : List Nat) (half : Nat) : Option Nat :=
  (List.range s.layoutCount).find? fun i =>
    let tg := max 1 (s.layoutFld i 6 1)
    let blocks := sumNat ((usableGroups usable).map fun g => g.length / tg)
    decide (s.layoutFld i 0 2 ≤ tg * blocks) && decide (half ≤ s.layoutFld i 7 1)

/-- The layout choice (R293): repeated once with the higher device of each half-width link unusable. -/
def State.chooseLayout (s : State) (c : Census) (members : List Nat) : Option Nat × List Nat :=
  let usable := members.filter fun d => (c.records.get? d).any fun r => r.engines == 128
  let pairs := s.halfPairs c usable
  match s.pickLayout usable pairs.length with
  | some i => (some i, usable)
  | none =>
    let rest := usable.filter fun d => !pairs.any fun p => p.2.1 == d
    if pairs.isEmpty then (none, usable) else (s.pickLayout rest 0, rest)

/-- Training stops and the census repeats after its timeout (R292). -/
def State.holdTraining (s : State) : State :=
  { s with job := { s.job with held := true, census := some { since := s.clk.acnt, records := [(s.device, s.ownRecord)] } } }

/-- The slots' programs restart at step `n` (R153, R182). -/
def State.restartSlots (s : State) (n : Nat) : State :=
  (List.range 8).foldl (fun s p =>
    s.setPartition p { s.partition p with slots := [], pass0 := n - s.job.firstStep, ended := [] }) s

/-- The members of a completed census act (R293, R295): the slice census with the domain step, the layout, and migration. -/
def State.recover (s : State) (c : Census) (members : List Nat) : State :=
  let step := max (s.gnt.aborted.getD 0) ((members.filterMap fun d => (c.records.get? d).map (·.lastStep)).foldl max 0)
  let s := { s with job := { s.job with members, census := none, held := false } }
  let s := ((s.writeConstants step).writeConstants (step + 1)).sliceCensus step s.job.hbmLost
  let s := { s with job := { s.job with hbmLost := false } }
  let ch := s.chooseLayout c members
  match ch.1 with
  | none => s.holdTraining
  | some i =>
    let tg := max 1 (s.layoutFld i 6 1)
    let s := s.logDecision 7 (leBytes 2 members.length ++
      leBytes 2 (sumNat ((usableGroups ch.2).map fun g => g.length / tg)) ++ leBytes 1 i)
    let pos := if i = s.job.layout ∧ (s.job.positions.all fun d => ch.2.contains d) then s.job.positions else s.fillPositions i ch.2
    let s := { s with
      regs := Regs.put s.regs Reg.seqStep ((step + 1) % 2 ^ 32)
      job := { s.job with nextLayout := some i, nextMap := s.recordMap i, nextPositions := pos, boundary := some (step + 1) } }
    (((s.restartStreams (step + 1)).restartSlots (step + 1)).showCensus 0).openBoundary

/-- Every Cuff queue and pipeline is empty, so that completed slots have updated (R182). -/
def State.cuffsQuiet (s : State) : Bool := s.part.all fun p => p.2.queue.isEmpty && p.2.pipe.isEmpty

/-- The second round is over (R292): once the updates under way are complete, the device continues only in a large enough
set. -/
def State.concludeCensus (s : State) (c : Census) : State :=
  let members := c.memberSet c.heard
  if !s.cuffsQuiet then s
  else if s.minDevices ≤ members.length ∧ s.layoutFld s.job.layout 0 2 < 2 * members.length then s.recover c members
  else s.holdTraining

/-- The second round begins (R292): the set of devices heard from goes to every device. -/
def State.secondRound (s : State) (c : Census) : State :=
  let heard := c.heard
  let c := { c with second := true, since := s.clk.acnt, sets := c.sets.set s.device heard }
  let mask := (List.range 128).flatMap fun i => leBytes 1 (sumNat ((List.range 8).map fun j => if heard.contains (8 * i + j) then 2 ^ j else 0))
  let s := { s with job := { s.job with census := some c } }
  s.sendCtrlAll (s.devices.filter (· != s.device)) (leBytes 2 s.device ++ mask)

/-- The census moves on once everything it waits for has arrived. -/
def State.advanceCensus (s : State) : State :=
  match s.job.census with
  | none => s
  | some c =>
    if c.second then (if c.heard.all fun d => (c.sets.get? d).isSome then s.concludeCensus c else s)
    else if s.devices.all fun d => (c.records.get? d).isSome then s.secondRound c else s

/-- HBM_WRITE_ACK: the write acknowledged first in a partition's Cuff ends its entry, and with the last slice the step
(R10, R170, R244, R336); a census waits for the last of them (R182). -/
def hbmWriteAckEffect (p : Nat) (s : State) : State :=
  match firstAck (s.partition p).pipe with
  | none => s
  | some run => ((s.ackRun p run).endSteps 2).advanceCensus

/-- CENSUS_RECORD: another device's record arrives; with no census running it starts one, as a device asks to rejoin
(R291). -/
def censusRecordEffect (dev engines halfLinks lastStep epoch : Nat) (s : State) : State :=
  if !s.job.active ∨ s.domainSize ≤ dev then s
  else
    let s := if s.job.census.isNone then { s with seq := { s.seq with halted := true } }.startCensus else s
    match s.job.census with
    | none => s
    | some c =>
      if c.second then s
      else { s with job := { s.job with census := some { c with
        records := c.records.set dev { engines, halfLinks, lastStep, epoch } } } }.advanceCensus

/-- CENSUS_SET: a device's second-round set arrives (R292). -/
def censusSetEffect (dev : Nat) (heard : List Nat) (s : State) : State :=
  match s.job.census with
  | none => s
  | some c => { s with job := { s.job with census := some { c with sets := c.sets.set dev heard } } }.advanceCensus

/-- CENSUS_TIMEOUT: a round reaches CENSUS_TIMEOUT ac (R291, R292); a device that stopped training begins again. -/
def censusTimeoutEffect (s : State) : State :=
  match s.job.census with
  | none => s
  | some c =>
    let s := s.atAc (c.since + s.censusTimeout)
    if s.job.held ∧ !c.second ∧ c.records.length ≤ 1 then { s with job := { s.job with held := false } }.startCensus
    else if c.second then s.concludeCensus c
    else s.secondRound c

/-! ### Migration (R190, R295) -/

/-- Every slot is HELD or IDLE and every Cuff queue and pipeline empty (R190). -/
def State.mayMigrate (s : State) : Bool :=
  s.cuffsQuiet && s.part.all fun p => p.2.slots.all fun k => [0, 5].contains (s.slotNow p.1 k.1).state

/-- Device of a position. -/
def ownerOf (ps : List Nat) (e : MapEntry) : Nat := ps.getD e.position 1024

/-- A copied record at its place on the new owner (R295): in HBM, or a fresh flash image of a slow-tier slice (R196). -/
def State.putMigrated (s : State) (e : MapEntry) (b : List Byte) : State :=
  let s := { s with free := s.free + 1 }
  match s.sltNum e.tensor e.first with
  | none => { s with hbm := s.hbm.write e.record b }
  | some num =>
    let gen := s.slt.gens.get 0 (num % 8) + 1
    let f : FlashImage := { key := s.cph.xts, gen, block := 0, bytes := freshImage (b ++ List.replicate 3840 0) num gen }
    { s with slt := { s.slt with flash := s.slt.flash.set num f, gens := s.slt.gens.set (num % 8) gen } }

/-- One slice that this device comes to own (R295): copied from its old owner, or a replica, or marked for catch-up;
without partner sites training stops instead. -/
def State.migrateOne (s : State) (old : List MapEntry) (step : Nat) (e : MapEntry) : State :=
  let from' := old.find? fun o => o.tensor == e.tensor && o.first == e.first
  let src := (from'.map fun o => (ownerOf s.job.positions o, o.record)).getD (1024, 0)
  if src.1 = s.device then s
  else if s.job.members.contains src.1 then
    s.putMigrated e (s.remoteBytes src.1 src.2 61632)
  else
    let entry := ((List.range 8).findSome? fun p =>
      (partitionEntries s p).find? fun x => x.2.2.tensor == e.tensor && x.2.2.first == e.first).map (·.2.2)
    let rep : Option (List Byte) := match entry with
      | some x =>
        if x.repl && s.job.members.contains x.replDev then
          let b := s.remoteBytes x.replDev e.record 61632
          let t := Tag.ofBytes ((b.drop recTag).take 64)
          if t.intact && t.wtag == step && !t.oip then some b else none
        else none
      | none => none
    match rep with
    | some b => s.putMigrated e b
    | none =>
      if s.partnerSites.isEmpty then s.holdTraining
      else
        let mine := { s with job := { s.job with map := s.job.nextMap, positions := s.job.nextPositions } }
        match (mine.shardSlices e.shard).findIdx? fun o => o.tensor == e.tensor && o.first == e.first with
        | some i => s.setShard e.shard { s.shard e.shard with catchup := (s.shard e.shard).catchup ++ [(i, true)] }
        | none => s

/-- The records of a new layout copied (R295), its map and positions put in force, and FETCH sent for what was marked. -/
def State.migrate (s : State) (step : Nat) : State :=
  match s.job.nextLayout with
  | none => s
  | some l =>
    let new := (ownedSlices s.job.nextMap s.job.nextPositions s.device).mergeSort
      fun a b => decide (a.tensor < b.tensor ∨ (a.tensor = b.tensor ∧ a.first ≤ b.first))
    let mine (e : MapEntry) : Bool := ownerOf s.job.positions e == s.device
    let before := s.job.map
    let gained := ((new.map (·.shard)).eraseDups).filter fun x => !before.any fun e => e.shard == x && mine e
    let owner (x : Nat) : Nat := ((before.find? (·.shard == x)).map (ownerOf s.job.positions)).getD 1024
    let kept := gained.filter fun x => s.job.members.contains (owner x)
    let s := gained.foldl (fun s x =>
      if kept.contains x then s.adopt (owner x) x (new.filter (·.shard == x)) else s.adoptLost x) s
    let s := new.foldl (fun s e => s.migrateOne before step e) s
    let s := { s with job := { s.job with
      layout := l, map := s.job.nextMap, positions := s.job.nextPositions, nextLayout := none, nextMap := [], nextPositions := [] } }
    let s := (new.filter fun e => gained.contains e.shard && !kept.contains e.shard).foldl (fun s e =>
      s.renewDigest e ((s.groupOf e.tensor).omu == 0)) s.dropShards
    let s := gained.foldl State.announceMoved s
    s.ownedShards.foldl (fun s x => (s.shard x).catchup.foldl (fun s i => s.sendFetch x i.1 1) s) s

/-- The held beats of partition `p` leave the pending buffer when the epoch has begun, and are routed as those that arrive
(R164, R190): one whose slice heads a program stays until its slot opens, one of a later entry is counted as early, and one
of no program is discarded. -/
def State.routeHeld (s : State) (p : Nat) : State :=
  let cur := s.fld (Reg.cufEpoch p) 0 16
  let es := (partitionEntries s p).filter fun e => e.2.2.lepoch == cur
  let x := s.partition p
  let mine (b : Beat) : Bool := b.lepoch == cur
  let named (b : Beat) : Bool := es.any fun e => e.2.2.holds b
  let early := x.pend.filter fun b => mine b && named b && !es.any fun e => e.2.1 == 0 && e.2.2.holds b
  let lost := x.pend.filter fun b => mine b && !named b
  let s := s.setPartition p { x with pend := x.pend.filter fun b => !mine b || named b }
  let s : State := { s with regs := Regs.counts s.regs [(Reg.cufEvcEarly p, early.length), (Reg.cufEvcViol p, lost.length)] }
  lost.foldl (fun s b => s.beatAdded p b s.now) s

/-- MIGRATION_COMPLETE (R190, R284, R295): records are copied, CUR and the layout epoch count on, slots may open their new
programs, and steps 3 to 5 of the boundary follow; a STOP that waited takes effect (R437). -/
def migrationCompleteEffect (s : State) : State :=
  if s.job.phase ≠ 2 ∨ !s.mayMigrate then s
  else
    let s := s.migrate ((s.job.boundary.getD 1) - 1)
    if s.job.held then s
    else
      let e := (s.fld Reg.seqEpoch 0 16 + 1) % 65536
      let s := (((s.putEpochs 0 16 e).putEpochs 16 1 0).putFld Reg.seqEpoch 0 16 e)
      let s := ((List.range 8).foldl State.routeHeld s).boundaryRegisters
      if s.job.stopping.isSome then s.honourStop else s

/-! ### Data descriptors (R438) -/

/-- Bytes of the index block of step `n` (R279, R438): 4 r B T. -/
def State.indexLength (s : State) (n : Nat) : Nat := 4 * s.replicas * s.batchAt n * s.reg Reg.vsrNoiseT

/-- This device serves stage 0 (R279): its position is among the first of p equal runs of positions. -/
def State.stageZero (s : State) : Bool :=
  match positionOf s.job.positions s.device with
  | some i => decide (i < s.layoutFld s.job.layout 0 2 / max 1 (s.layoutFld s.job.layout 2 2))
  | none => false

/-- DATA_DESCRIPTOR_READ: the descriptor of a step has been read (R438): not valid, it is read again, else its index
block, and at stage 0 its samples, are asked for. -/
def dataDescriptorReadEffect (step : Nat) (bytes : List Byte) (s : State) : State :=
  if !s.job.active ∨ s.host.dataEntries = 0 then s
  else
    let len := fieldAt bytes 24 4
    let badLen := len != s.indexLength step
    let ok := fieldAt bytes 0 4 == step && bit (fieldAt bytes 4 4) 0 && !badLen
    let stale := fieldAt bytes 0 4 != step || !bit (fieldAt bytes 4 4) 0
    let s := if stale then s.count Reg.hptEvcDatalate else s.countN Reg.hptEvcViol (b2n badLen)
    let left := if ok then len + (if s.stageZero then fieldAt bytes 48 8 else 0) else 0
    let d : StepData := { step, valid := ok, left }
    let s := { s with host := { s.host with
      data := (s.host.data.filter fun x => x.step != step && decide (s.reg Reg.seqStep ≤ x.step)) ++ [d] } }
    if left = 0 then s else (s.roceRead (.data step) (s.stagePlace left) left).tookFree

end Sys2Proof.Machine
end

