-- ==== Sys2Proof/Machine/Flash.lean ====
section
/-! DEFINITION. The NAND of the slow tier (06_slow_tier, R213 to R221): write-back, garbage collection and wear levelling,
and what the ends of fetches, scrub reads, programs and erases bring. -/

namespace Sys2Proof.Machine

/-- Bytes of an image on its four channels, with spare (R214). -/
def imageBytes : Nat := 73728

/-! ### Blocks (R213, R219, R220) -/

/-- The key of block `b` of channel group `g` among the flash blocks. -/
def blockKey (g b : Nat) : Nat := 8 * b + g % 8

/-- Blocks of a channel group by `SLT_GEOM` (R213, R224). -/
def State.groupBlocks (s : State) : Nat :=
  (s.fld Reg.sltGeom 0 2 + 1) * (s.fld Reg.sltGeom 2 2 + 1) * (256 * s.fld Reg.sltGeom 4 12)

/-- Free blocks of group `g`: neither written nor retired (R219). -/
def State.freeBlocks (s : State) (g : Nat) : Nat :=
  s.groupBlocks - (s.slt.blocks.filter fun e => e.1 % 8 == g && (e.2.written || e.2.retired)).length

/-- The current images in a block. -/
def imagesIn (t : SlowTier) (key : Nat) : List (Nat × FlashImage) :=
  t.flash.filter fun f => blockKey f.1 f.2.block == key

/-- Images that a block holds: 16 PAGES, an image taking one page on each of its four channels (R213, R214, R224). -/
def State.blockRoom (s : State) : Nat := 16 * s.fld Reg.sltGeom 16 8

/-- A block's erase count goes on; at LIMIT it retires (R220). -/
def State.eraseBlock (s : State) (b : Nat) : State :=
  let x : FlashBlock := s.slt.blocks.get {} b
  let n := x.erases + 1
  let ret := decide (s.fld Reg.sltWear 0 16 ≤ n)
  { s with
    slt := { s.slt with
      blocks := s.slt.blocks.set b { erases := n, retired := x.retired || ret }, collecting := s.slt.collecting.erase b }
    regs := Regs.count (Regs.put s.regs Reg.sltMaxErase (max n (s.reg Reg.sltMaxErase))) Reg.sltEvcRetire (b2n (ret && !x.retired)) }

/-- A block retires (R220). -/
def State.retireBlock (s : State) (b : Nat) : State :=
  let x : FlashBlock := s.slt.blocks.get {} b
  { s with
    slt := { s.slt with blocks := s.slt.blocks.set b { x with retired := true }, collecting := s.slt.collecting.erase b }
    regs := Regs.count s.regs Reg.sltEvcRetire (b2n (!x.retired)) }

/-- The line of a program that only moves an image. -/
def noLine : Nat := 2 ^ 32

/-- A flash image read and rewritten under a new GEN, into a block with more erases than `above` where that is given: by a
scrub read that needed a retry, garbage collection or wear levelling (R220); one that cannot be read is repaired (R216). -/
def State.rewriteImage (s : State) (num : Nat) (above : Option Nat) : State :=
  if s.slt.programs.any fun g => g.num == num then s
  else match s.flashImage num with
    | some f => s.startProgram num noLine f.bytes above
    | none => (s.unreadable num).repairNum num

/-- The written block of group `g` that is first by `f`. -/
def State.victim (s : State) (g : Nat) (f : Nat × FlashBlock → Nat) : Option (Nat × FlashBlock) :=
  (s.slt.blocks.filter fun e => e.1 % 8 == g && e.2.written && !e.2.retired).foldl (fun b e =>
    match b with
    | none => some e
    | some x => if f e < f x then some e else some x) none

/-- The images of a block move out of it. -/
def State.emptyBlock (s : State) (key : Nat) (above : Option Nat) : State :=
  (imagesIn s.slt key).foldl (fun s f => s.rewriteImage f.1 above) s

/-- Garbage collection takes a block. -/
def State.collectBlock (s : State) (key : Nat) : State :=
  let t := { s.slt with collecting := if s.slt.collecting.contains key then s.slt.collecting else s.slt.collecting ++ [key] }
  { s with slt := t }.emptyBlock key none

/-- Group `g` needs garbage collection (R219). -/
def State.wantsFree (s : State) (g : Nat) : Bool := decide (s.freeBlocks g < s.fld Reg.sltWear 16 16)

/-- Garbage collection of group `g` where it has fewer than FREE_MIN free blocks (R219): the written block with the fewest
images is emptied. -/
def State.collectGarbage (s : State) (g : Nat) : State :=
  if !s.wantsFree g then s
  else match s.victim g fun e => (imagesIn s.slt e.1).length with
    | some e => s.collectBlock e.1
    | none => s

/-- Wear levelling of group `g` (R220): where the erase counts differ by more than 1/8 of LIMIT, the images of the
least-erased written block move into more-worn blocks. -/
def State.levelWear (s : State) (g : Nat) : State :=
  let most := ((s.slt.blocks.filter fun e => e.1 % 8 == g).map (·.2.erases)).foldl max 0
  match s.victim g fun e => e.2.erases with
  | some e => if s.fld Reg.sltWear 0 16 < 8 * (most - e.2.erases) then s.emptyBlock e.1 (some e.2.erases) else s
  | none => s

/-- Class 0 work of one quantum (R220): the dirty line that was dirtied first starts to be written back, and garbage
collection and wear levelling go on. -/
def State.slowQuantum (s : State) : State :=
  let s := match s.slt.dirtied.foldl (fun (b : Option (Nat × Nat)) e =>
      if s.slt.programs.any fun g => g.line == e.1 then b
      else match b with
        | none => some e
        | some x => if e.2 < x.2 then some e else some x) none with
    | some (l, _) => s.writeBack l (s.cacheLine l).num
    | none => s
  let s := (List.range 8).foldl State.collectGarbage s
  (List.range 8).foldl State.levelWear s

/-! ### Deadlines (R219) -/

/-- A dirty line has reached its WB_STEPS deadline. -/
def State.writeBackDue (s : State) : Bool :=
  s.slt.dirtied.any fun e => decide (e.2 + s.fld Reg.sltBg 0 16 ≤ s.reg Reg.seqStep) && !s.slt.programs.any fun g => g.line == e.1

/-- The always-on cycle of the earliest scrub deadline, of written images whose scrub runs (R219, R450). -/
def State.scrubDue (s : State) : Option Nat :=
  if s.fld Reg.sltCfg 1 1 = 0 then none
  else (s.slt.flash.map fun f => Tbl.get 0 s.slt.scrubbed f.1 + 90000000000 * s.fld Reg.sltBg 16 16).foldl (fun b d =>
    match b with
    | none => some d
    | some x => some (min x d)) none

/-- A group is short of free blocks, and no block of it is being emptied yet. -/
def State.freeDue (s : State) (g : Nat) : Bool :=
  s.wantsFree g && !(s.slt.collecting.any fun k => k % 8 == g) && (s.victim g fun e => (imagesIn s.slt e.1).length).isSome

/-- Some deadline of class 0 has been reached (R219, R257). -/
def State.slowDue (s : State) : Bool :=
  s.writeBackDue || (List.range 8).any s.freeDue || (s.scrubDue).any fun d => decide (d ≤ s.clk.acnt)

/-! ### What keeps the channels busy (R223) -/

/-- Core cycles of `ns` nanoseconds at frequency step `k` (R215, R463). -/
def nsCycles (k ns : Nat) : Nat := ns * 3 * k / 128

/-- Cycles of the NAND commands in flight: issued fetches, programs, and erases of written blocks that hold no image, each
from the cycle in which its block became empty (DESIGN CHOICE, log 126). -/
def State.nandSince (s : State) : List Nat :=
  (s.slt.fetches.filter (·.issued)).map (·.since) ++ s.slt.programs.map (·.since) ++
    (s.slt.blocks.filter fun b => b.2.written && !b.2.retired && (imagesIn s.slt b.1).isEmpty).map (·.2.emptied)

/-- `SLT_BUSY` counted up to cycle `t`. -/
def State.nandBusy (s : State) (t : Nat) : State :=
  match s.nandSince with
  | [] => s
  | a :: l =>
    let n := t - max s.slt.busyTo (l.foldl min a)
    { s with slt := { s.slt with busyTo := max s.slt.busyTo t }, regs := Regs.count64 s.regs Reg.sltBusyLo n }

/-- Fetches that waited for a write-back, or for a tracker entry, are issued once that is complete (R201, R431). -/
def State.issueFetches (s : State) : State :=
  { s with slt := { s.slt with fetches := s.slt.fetches.map fun f =>
    if !f.issued && s.slt.mayFetch f.num f.line && !s.slowTrackerFull then { f with issued := true, since := s.now } else f } }

/-! ### Programs and erases -/

/-- A block can take a program's image (R213, R220). -/
def State.blockTakes (s : State) (g : SltProgram) (block : Nat) : Bool :=
  let x : FlashBlock := s.slt.blocks.get {} (blockKey g.num block)
  decide (block < s.groupBlocks) && !x.retired && decide (x.pages < s.blockRoom) &&
    match g.above with | some e => decide (e < x.erases) | none => true

/-- The map's entry of a slice (R214): chip enable, LUN, block and page in an order that the manual leaves open (log 2). -/
def State.writeMap (s : State) (num : Nat) : State :=
  { s with free := s.free + 1, hbm := s.hbm.writeNat (Regs.pair s.regs Reg.sltMapBaseLo + 8 * num) 8 (Config.freeNat s.free) }

/-- A program is complete (R220): the image stands in flash, the map names it, and a line that still holds the same bytes
is clean. A block whose last image this replaces is empty from now. -/
def State.programmed (s : State) (g : SltProgram) (block : Nat) : State :=
  let same := s.hbm.read (s.lineAddr g.line) 0xFFC0 == g.bytes.take 0xFFC0
  let c := s.cacheLine g.line
  let mine := decide (g.line < s.cacheLines) && c.valid && c.num == g.num
  let key := blockKey g.num block
  let x : FlashBlock := s.slt.blocks.get {} key
  let old := (s.slt.flash.get? g.num).map fun f => blockKey g.num f.block
  let blocks := s.slt.blocks.set key { x with written := true, pages := x.pages + 1 }
  let blocks := match old with
    | some o => blocks.set o { Tbl.get ({} : FlashBlock) blocks o with emptied := s.now }
    | none => blocks
  let s := s.nandBusy s.now
  let s := { s with
    slt := { s.slt with
      flash := s.slt.flash.set g.num ⟨s.cph.xts, g.gen, block, g.bytes⟩
      blocks := blocks
      programs := s.slt.programs.erase g
      through := s.slt.through.filter fun e => !(e.1 == g.line && e.2 == g.num)
      dirtied := if mine && same then s.slt.dirtied.erase g.line else s.slt.dirtied
      scrubbed := s.slt.scrubbed.set g.num s.clk.acnt }
    regs := Regs.count64 (Regs.count64 (Regs.count s.regs Reg.sltEvcWback (b2n (g.line != noLine))) Reg.sltWrBytesLo imageBytes)
      Reg.cphXtsBytesLo 65536 }
  let s := if mine then s.putLine g.line { c with dirty := c.dirty && !same, gen := g.gen } else s
  (s.writeMap g.num).issueFetches.startReads.retryFetches

/-- FLASH_PROGRAM_COMPLETE (R220): a program of an image ends in a block that can take it, or the erase of a block that
holds no image; a failure retires the block, and a failed program stays to be made elsewhere. -/
def flashProgramCompleteEffect (num block : Nat) (ok : Bool) (s : State) : State :=
  let key := blockKey num block
  match s.slt.programs.find? fun g => g.num == num with
  | some g =>
    if !s.blockTakes g block then s
    else if ok then s.programmed g block
    else (s.nandBusy s.now).retireBlock key
  | none =>
    let x : FlashBlock := s.slt.blocks.get {} key
    if !x.written ∨ x.retired ∨ !(imagesIn s.slt key).isEmpty then s
    else if ok then (s.nandBusy s.now).eraseBlock key
    else (s.nandBusy s.now).retireBlock key

/-! ### Fetches (R215, R216) -/

/-- Bytes and corrections of a fetch that ends now, and the cycles up to the transfer's end at +55.32 µs of 56.77 (R215,
R223). -/
def State.fetchCounts (s : State) (r : FlashResult) (alone : Bool) : State :=
  let s := s.nandBusy (if alone then s.now - nsCycles s.freqStep 1450 else s.now)
  let regs := Regs.count64 (Regs.count64 s.regs Reg.sltRdBytesLo imageBytes) Reg.cphXtsBytesLo 65536
  { s with regs := Regs.count regs Reg.sltEvcCorr r.corrected }

/-- The bytes of a slice's image, if it can be read (R216, R218). -/
def State.readImage (s : State) (num : Nat) (r : FlashResult) : Option FlashImage :=
  if r.uncorrectable then none else s.flashImage num

/-- Cycles that the oldest queued update of a slice waited for its line (R208). -/
def State.lineWait (s : State) (num : Nat) : Nat :=
  ((s.part.flatMap fun p => p.2.queue.filter fun e => e.slice.slt && e.slice.record == num).map
    fun e => s.now - e.entered).foldl max 0

/-- The forward reads that waited for a slice's line take its copy (R203). -/
def State.serveReads (s : State) (num l : Nat) : State :=
  let mine (r : SltRead) : Bool := r.num == num && !r.through
  let rs := s.slt.reads.filter mine
  let s := { s with slt := { s.slt with reads := s.slt.reads.filter fun r => !mine r } }
  rs.foldl (fun (s : State) (r : SltRead) =>
    let s := s.deliverCopy r.core num (s.lineCopy l)
    { s with regs := Regs.count64 s.regs Reg.sltStallLo (s.now - r.since) }) s

/-- The bytes of a line that no image filled. -/
def emptyLine : List Byte := List.replicate 65536 0

/-- A forward read's fetch lands (R203): its copy is delivered, from the repaired image where it could not be read (R216),
and the read-through line is released. -/
def State.landRead (s : State) (f : SltFetch) (core since : Nat) (img : Option FlashImage) : State :=
  let s := { s with
    slt := { s.slt with fetches := s.slt.fetches.erase f, through := s.slt.through.erase f.line }
    regs := Regs.count64 s.regs Reg.sltStallLo (s.now - since) }
  let s := if img.isSome then s else (s.unreadable f.num).repairNum f.num
  let bytes := match img, s.slt.flash.get? f.num with
    | some i, _ => i.bytes
    | none, some i => i.bytes
    | none, none => emptyLine
  (s.deliverCopy core f.num ((bytes.drop recWc).take 4224)).startReads

/-- A fetch lands in its line (R215), or leaves an empty line that the repair procedure fills (R216). -/
def State.landLine (s : State) (f : SltFetch) (img : Option FlashImage) : State :=
  let bytes := match img with
    | some i => i.bytes
    | none => emptyLine
  let s := { s with
    hbm := s.hbm.write (s.lineAddr f.line) bytes
    slt := { s.slt with fetches := s.slt.fetches.erase f }
    regs := Regs.count64 s.regs Reg.sltStallLo (s.lineWait f.num) }
  let s := match img with
    | some i => if f.line < s.cacheLines then s.putLine f.line { s.cacheLine f.line with gen := i.gen } else s
    | none => (s.unreadable f.num).repairNum f.num
  s.serveReads f.num f.line

/-- An issued fetch ends. -/
def State.landFetch (s : State) (f : SltFetch) (r : FlashResult) : State :=
  let s := s.fetchCounts r (decide (s.nandSince.length ≤ 1))
  let img := s.readImage f.num r
  match f.reader with
  | some (core, since) => s.landRead f core since img
  | none => s.landLine f img

/-- A scrub read ends (R219, R220): an image that needed a retry is rewritten; one that cannot be read is repaired. -/
def State.scrubRead (s : State) (num : Nat) (r : FlashResult) : State :=
  let s := s.fetchCounts r false
  let s := { s with slt := { s.slt with scrubbed := s.slt.scrubbed.set num s.clk.acnt } }
  match s.readImage num r with
  | some _ => if r.corrected = 0 then s else s.rewriteImage num none
  | none => (s.unreadable num).repairNum num

/-- FLASH_FETCH_COMPLETE (R215, R216): an issued fetch, or a scrub read of a written image. -/
def flashFetchCompleteEffect (num : Nat) (r : FlashResult) (s : State) : State :=
  match s.slt.fetches.find? fun f => f.num == num && f.issued with
  | some f => s.landFetch f r
  | none => if s.fld Reg.sltCfg 1 1 = 1 ∧ (s.slt.flash.get? num).isSome then s.scrubRead num r else s

end Sys2Proof.Machine
end

