-- ==== Sys2Proof/Machine/Background.lean ====
section
/-! DEFINITION. Background work (07_clockwork, R254 to R259): refresh windows, quanta in open slots, forced slots, and the
ageing measurement and link recalibration that they carry (R310, R462). -/

namespace Sys2Proof.Machine

/-- REFRESH_WINDOW (R254, R255): the group's next window begins; `SEQ_MEM.REFS` shows its refresh commands, and at its end
its banks count as unused. Its patrol-scrub reads change nothing. -/
def refreshWindowEffect (g : Nat) (s : State) : State :=
  if 8 ≤ g then s
  else
    let s := s.atCycle (s.now + (5850 - windowPhase g s.now) % 5850)
    let idle (b : Nat) : Bool := b % 1024 / 8 % 8 != g
    let s := { s with part := s.part.map fun (p : Nat × Partition) =>
      (p.1, { p.2 with bankUse := p.2.bankUse.filter fun u => idle u.1 || decide (s.now ≤ u.2) }) }
    s.putFld Reg.seqMem 0 4 (Config.refreshCount s.freqStep)

/-- Cycles of a quantum, and of a forced slot, of a class (R256). -/
def quantumLength (cls : Nat) : Nat := 1024 * 2 ^ cls

/-! ### Visor (R502 to R507) -/

/-- Every engine's registers as they stand now. -/
def State.settleEngines (s : State) : State := s.eng.foldl (fun s e => s.settleEngine e.1) s

/-- Every partition's registers as they stand now. -/
def State.settlePartitions (s : State) : State := (List.range 8).foldl State.settlePartition s

/-- A telemetry record of the present counters (R506). -/
def State.telemetry (s : State) : List Byte :=
  let s := (s.settleEngines.settlePartitions).nandBusy s.now
  leBytes 8 s.clk.fcnt ++ todBytes s.clk ++ List.replicate 2 0 ++ leBytes 4 (s.reg Reg.seqStep) ++ List.replicate 40 0 ++
    counterAddrs.flatMap (fun a => leBytes 4 (s.reg a)) ++ satAddrs.flatMap (fun a => leBytes 4 (s.reg a)) ++
    wideAddrs.flatMap fun a => leBytes 8 (Regs.pair s.regs a)

/-- The due records are written to the telemetry ring, which follows the decision log (R506, R507). -/
def State.writeRecord (s : State) : State :=
  if s.vsr.recordsDue = 0 then s
  else
    let size := max 1 (s.reg Reg.vsrTlogSize)
    let n := s.vsr.records
    let a := Regs.pair s.regs Reg.vsrRingBaseLo + 128 * s.reg Reg.vsrDlogSize + s.reg Reg.vsrTrecLen * (n % size)
    { s with
      hbm := s.hbm.write a s.telemetry
      vsr := { s.vsr with recordsDue := s.vsr.recordsDue - 1, records := n + 1 }
      regs := Regs.putPair (if (n + 1) % size = 0 then bumpWraps s.regs Reg.vsrTlogWraps else s.regs) Reg.vsrTlogHeadLo (n + 1) }

/-- Visor's part of a class 1 quantum (R502, R504, R506). -/
def State.visorQuantum (s : State) : State :=
  if s.fld Reg.vsrCfg 0 1 = 0 then s.flushLog else s.collectAll.flushLog.writeRecord

/-! ### Ageing measurement (R462) -/

/-- One monitor read: a power-gated cluster reads as it last did. -/
def State.readMonitor (s : State) (m : Nat) : State :=
  if m < 960 ∧ s.gated (4096 + m / 30) then s
  else
    let r := Config.slackReading s.free m
    { s with free := s.free + 1, regs := Regs.putFld s.regs (Reg.aonSlack m) 0 16 r.toNat }

/-- NOW of a monitor as a signed number of 0.25 ps. -/
def slackNow (r : Tbl Word) (m : Nat) : Int := (BitVec.ofNat 16 (Regs.fld r (Reg.aonSlack m) 0 16)).toInt

/-- The readings of every monitor as they stand are the latest complete sweep (R463). -/
def State.completeSweep (s : State) : State :=
  { s with aon := { s.aon with sweep := (List.range 1024).map fun m => (m, slackNow s.regs m) } }

/-- The class 2 work of one quantum: 64 monitors in ascending order (R462). -/
def State.monitorQuantum (s : State) : State :=
  let m := s.aon.monitor
  let s := (List.range 64).foldl (fun s i => s.readMonitor ((m + i) % 1024)) s
  let n := (m + 64) % 1024
  let s := { s with aon := { s.aon with monitor := n } }
  if n = 0 then s.completeSweep else s

/-! ### Link recalibration (R310) -/

/-- The class 3 work of one quantum, which holds its links: four links from `SEAM_DOM_RECAL` send probes to be measured
again (R258, R310). -/
def State.recalQuantum (s : State) : State :=
  let n := s.fld Reg.seamDomRecal 0 6
  let s := (List.range 4).foldl (fun s i =>
    let k := (n + i) % 36
    if s.linkUp k then
      s.setLink k { s.link k with linkOut := (s.link k).linkOut ++ [.probe], recalTo := s.now + quantumLength 3 }
    else s) s
  s.putFld Reg.seamDomRecal 0 6 ((n + 4) % 36)

/-- The work of one quantum of a class (R256). -/
def State.quantumWork (s : State) (cls : Nat) : State :=
  if cls = 0 then s.slowQuantum
  else if cls = 1 then s.visorQuantum
  else if cls = 2 then s.monitorQuantum
  else s.recalQuantum

/-- A quantum served from cycle `t` (R257, R258): its work, its hold on HBM, and its class's count starts again. -/
def State.serve (s : State) (cls t : Nat) : State :=
  let s := s.quantumWork cls
  let e := t + quantumLength cls
  { s with seq := { s.seq with
      quantumTo := e, hbmTo := if cls < 2 then e else s.seq.hbmTo, served := s.seq.served.set cls t } }

/-- BACKGROUND_QUANTUM (R256): it starts, after the one in progress, inside an open slot that names its class, and ends at
least one quantum before the slot's end. -/
def backgroundQuantumEffect (cls : Nat) (s : State) : State :=
  let t := max s.now s.seq.quantumTo
  if 4 ≤ cls ∨ !(s.seq.slots.any fun b => bit b.classes cls && decide (t + 2 * quantumLength cls ≤ b.closes)) then s
  else (s.atCycle t).serve cls t

/-! ### Forced slots (R257, R259) -/

/-- The cycle of the deadline of class 1, 2 or 3 (R257). -/
def State.deadline (s : State) (cls : Nat) : Nat :=
  Tbl.get 0 s.seq.served cls + 65536 * s.reg (if cls = 1 then Reg.seqBgDl1 else if cls = 2 then Reg.seqBgDl2 else Reg.seqBgDl3)

/-- The state at a class's deadline, if it has one: class 0 has those of R219, in steps, hours and free blocks. -/
def State.atDeadline (s : State) (cls : Nat) : Option State :=
  if cls ≠ 0 then some (s.atCycle (s.deadline cls))
  else if s.slowDue then some s
  else (s.scrubDue).map s.atAc

/-- An open slot names a class (R258). -/
def State.slotNames (s : State) (cls : Nat) : Bool := s.seq.slots.any fun b => bit b.classes cls && decide (s.now < b.closes)

/-- A lower class has its deadline too in this cycle, and takes its forced slot first (R259). -/
def State.lowerFirst (s : State) (cls : Nat) : Bool :=
  (List.range cls).any fun k => !s.slotNames k && if k = 0 then s.slowDue else s.deadline k == s.deadline cls

/-- The forced slot itself; the ones of one cycle follow each other (R259). -/
def State.forceSlot (s : State) (cls : Nat) : State :=
  let t := max s.now s.seq.forcedTo
  let len := quantumLength cls
  let s := { s with
    seq := { s.seq with forcedTo := t + len }
    regs := Regs.counts s.regs [(Reg.seqEvcForced, 1), (Reg.sltEvcForced, b2n (cls == 0))] }
  let s := ((List.range 40).filter fun n => s.fld (Reg.seqSCfg n) 0 1 == 1).foldl (fun s n => s.growLag n len) s
  (s.logDecision 6 (leBytes 1 cls ++ leBytes 8 t)).serve cls t

/-- FORCED_SLOT (R259): every stream waits for it and its length is added to each lag; it is counted and logged. A deadline
inside an open slot that names the class is served by that slot. -/
def forcedSlotEffect (cls : Nat) (s : State) : State :=
  if 4 ≤ cls then s
  else match s.atDeadline cls with
    | none => s
    | some s =>
      if s.lowerFirst cls ∨ s.slotNames cls then s
      else s.forceSlot cls

end Sys2Proof.Machine
end

