-- ==== Sys2Proof/Machine/Cipher.lean ====
section
/-! DEFINITION. The cipher engine (12_cipher_and_trust): lanes (R394 to R400), associations and key generations (R404 to
R411), alarms and known-answer tests (R412, R413), and attestation (R418, R419). -/

namespace Sys2Proof.Machine

/-! ### Lanes (R394, R396, R399) -/

/-- The running records of a pipeline: 0 encryption, 1 decryption. -/
def State.lanes (s : State) (q : Nat) : Tbl LaneRec := Tbl.get [] s.cph.lanes q
/-- The saved records of a pipeline. -/
def State.savedRecs (s : State) (q : Nat) : List LaneRec := Tbl.get [] s.cph.saved q
/-- The waiting records of a pipeline, oldest first. -/
def State.waitingRecs (s : State) (q : Nat) : List LaneRec := Tbl.get [] s.cph.waiting q

/-- The state with a pipeline's records replaced. -/
def State.setPipe (s : State) (q : Nat) (l : Tbl LaneRec) (v w : List LaneRec) : State :=
  { s with cph := { s.cph with lanes := s.cph.lanes.set q l, saved := s.cph.saved.set q v, waiting := s.cph.waiting.set q w } }

/-- The lowest free lane of 10. -/
def freeLane (l : Tbl LaneRec) : Option Nat := (List.range 10).find? fun i => (l.get? i).isNone

/-- The lane whose running record has the largest priority number, the lowest of equal ones. -/
def worstLane (l : Tbl LaneRec) : Option (Nat × LaneRec) :=
  l.foldl (fun b e => match b with
    | none => some e
    | some x => if x.2.prio < e.2.prio then some e else some x) none

/-- Saved contexts in use, of 32 (R399). -/
def State.contexts (s : State) : Nat := (s.savedRecs 0).length + (s.savedRecs 1).length

/-- A record that wants a lane (R399): the lowest free lane, the lane of a record of larger priority number that can be
suspended, or it waits. -/
def State.placeLane (s : State) (q : Nat) (r : LaneRec) : State :=
  let l := s.lanes q
  match freeLane l with
  | some i => s.setPipe q (l.set i r) (s.savedRecs q) (s.waitingRecs q)
  | none =>
    match worstLane l with
    | some (i, x) =>
      if r.prio < x.prio ∧ x.suspended < 4 ∧ s.contexts < 32 then
        (s.setPipe q (l.set i r) (s.savedRecs q ++ [{ x with suspended := x.suspended + 1, start := s.now - x.start }]) (s.waitingRecs q)).count
          Reg.cphEvcSuspend
      else s.setPipe q l (s.savedRecs q) (s.waitingRecs q ++ [r])
    | none => s

/-- Bytes of an association's records that wait in its port's receive FIFO (R396). -/
def State.fifoBytes (s : State) (a : Nat) : Nat := sumNat (((s.waitingRecs 1).filter fun r => r.assoc == a).map (·.len))

/-- RECORD_START (R396, R399): a record enters a lane, or waits; a packet that finds its port's FIFO full is dropped. -/
def recordStartEffect (decrypt : Bool) (a prio len : Nat) (s : State) : State :=
  if 12 ≤ a ∨ 4 ≤ prio ∨ 16384 < len ∨ s.fld Reg.cphStatus 0 1 = 0 then s
  else
    let t := s.placeLane (b2n decrypt) { assoc := a, prio, len, start := s.now }
    if decrypt ∧ 262144 < t.fifoBytes a then s.count Reg.cphEvcNobuf else t

/-- The record of least priority number, the first of equal ones. -/
def firstRec (l : List LaneRec) : Option LaneRec :=
  l.foldl (fun b e => match b with
    | none => some e
    | some x => if e.prio < x.prio then some e else some x) none

/-- A free lane takes a suspended record ahead of any waiting one of equal or larger priority number (R399). -/
def State.refillLane (s : State) (q i : Nat) : State :=
  let l := s.lanes q
  let v := s.savedRecs q
  let w := s.waitingRecs q
  let wait (r : LaneRec) : State := s.setPipe q (l.set i { r with start := s.now }) v (w.erase r)
  let resume (r : LaneRec) : State := s.setPipe q (l.set i { r with start := s.now - r.start }) (v.erase r) w
  match firstRec v, firstRec w with
  | none, none => s
  | some x, none => resume x
  | none, some y => wait y
  | some x, some y => if x.prio ≤ y.prio then resume x else wait y

/-- The cycle in which a record's tag is ready (R400); its suspensions have moved its start (R398, log 124). -/
def LaneRec.tagAt (r : LaneRec) : Nat := r.start + 22 + (r.len + 31) / 32

/-! ### Generations (R409, R410) -/

/-- RECORD_COMPLETE of a record sealed (R397, R400, R409): a host record is counted under its key, which may move on;
partner records are counted where their packets leave (PACKET_TRANSMIT). -/
def State.sealed (s : State) (r : LaneRec) (seq : Nat) (aad body : List Byte) : State :=
  let s := if 8 ≤ r.assoc then s.moveKey r.assoc seq else s
  let kid := s.fld (Reg.cphAState r.assoc) 2 1
  let out := sealRecord (Tbl.get (0, []) (s.assoc r.assoc).tx kid).2 seq aad body
  let s := { s with bus := out.1 ++ out.2 }
  if 8 ≤ r.assoc then
    (s.setAssoc r.assoc { s.assoc r.assoc with seq := max (s.assoc r.assoc).seq (seq + 1) }).countRecord r.assoc body.length
  else s

/-- RECORD_COMPLETE of a record opened (R397): a plaintext is released, or the record discarded whole and counted; what
opens under the hello key goes to its port (R406). -/
def State.opened (s : State) (r : LaneRec) (seq kid : Nat) (aad body tag : List Byte) : State :=
  let slot := Tbl.get? (s.assoc r.assoc).rx (kid % 2)
  let plain : Option (List Byte) := match slot with
    | some g => openRecord g.2 seq aad body tag
    | none => none
  match plain with
  | some p =>
    let s := { s.atCycle (s.now + (r.len + 63) / 64) with bus := p }
    let s := { s with regs := Regs.count64 s.regs Reg.cphDecBytesLo p.length }
    s.noteGeneration r.assoc (slot.map (·.1)).get!
  | none =>
    match (if r.prio = 0 then openRecord (s.helloKey r.assoc) seq aad body tag else none) with
    | some p => { s with bus := p, regs := Regs.count64 s.regs Reg.cphDecBytesLo p.length }
    | none => { s with bus := [], regs := Regs.count s.regs (Reg.cphAEvcTagfail r.assoc) 1 }

/-- RECORD_COMPLETE (R397 to R400): the record of a lane is done and its lane taken again. -/
def recordCompleteEffect (decrypt : Bool) (lane seq kid : Nat) (aad body tag : List Byte) (s : State) : State :=
  let q := b2n decrypt
  match Tbl.get? (s.lanes q) lane with
  | none => s
  | some r =>
    let s := s.atCycle r.tagAt
    let s := (s.setPipe q ((s.lanes q).erase lane) (s.savedRecs q) (s.waitingRecs q)).refillLane q lane
    if decrypt then s.opened r seq kid aad body tag else s.sealed r seq aad body

/-! ### Handshakes (R405 to R408, R411, R434) -/

/-- CRED of a HELLO verifies under the key of its site (R405, R407); the coordinator's HELLO carries none (R434). -/
def State.credOk (s : State) (a : Nat) (h : List Byte) : Bool :=
  if a < 8 then
    h.length == 274 &&
      Config.ed448Verify (s.siteKey (s.peerSite a)) "PLYNENE-SITE"
        (Config.shake256 (leBytes 1 (s.peerSite a) ++ (h.drop 88).take 65) 64) ((h.drop 160).take 114)
  else h.length == 88

/-- The two HELLO bodies in the order that FINISH signs them (R405, R434). -/
def State.helloPair (s : State) (a : Nat) : List Byte :=
  let x := s.assoc a
  if a < 8 ∧ s.peerSite a < s.site then x.peerHello ++ x.ownHello else x.ownHello ++ x.peerHello

/-- The shared secret of the two HELLOs (R407). -/
def Assoc.shared (x : Assoc) : List Byte := padTo 56 (Config.x448 x.eph (x.peerHello.take 56))

/-- A handshake fails: counted, and it restarts no sooner than 1 s after its HELLO (R407). -/
def State.handshakeFailed (s : State) (a : Nat) : State :=
  ((s.setAssoc a { s.assoc a with peerHello := [], finished := false }).count (Reg.cphAEvcHellofail a)).putFld
    (Reg.cphAState a) 0 2 3

/-- FINISH is sent: DIK, or AK towards the coordinator, signs both HELLOs (R405, R434). -/
def State.sendFinish (s : State) (a : Nat) : State :=
  let seed := if a < 8 then dikSeed else s.akSeed
  let sig := padTo 114 (Config.ed448Sign seed "PLYNENE-HS" (Config.shake256 (s.helloPair a) 64))
  (s.setAssoc a { s.assoc a with finished := true }).sendKeyMessage a 9 sig

/-- HELLO (R407, R408): its credential is checked; on an association with no handshake under way one starts; with both
HELLOs held FINISH goes out. -/
def helloEffect (a : Nat) (h : List Byte) (s : State) : State :=
  if 12 ≤ a ∨ !s.cph.keyed ∨ (a < 8 ∧ (s.partner a).isNone) then s
  else if !s.credOk a h then s.count (Reg.cphAEvcHellofail a)
  else
    let s := if s.fld (Reg.cphAState a) 0 2 = 1 then s else s.startHandshake a
    let s := s.setAssoc a { s.assoc a with peerHello := h }
    if allZero (s.assoc a).shared then s.handshakeFailed a else s.sendFinish a

/-- The signature of the peer's FINISH verifies (R407, R434). -/
def State.finishOk (s : State) (a : Nat) (sig : List Byte) : Bool :=
  let pub := if a < 8 then ((s.assoc a).peerHello.drop 96).take 57 else (s.conf 0x0502).getD []
  Config.ed448Verify pub "PLYNENE-HS" (Config.shake256 (s.helloPair a) 64) sig

/-- The first two slots of a direction (R407). -/
def firstSlots (ts0 : List Byte) (dir : Nat) : Tbl (Nat × List Byte) :=
  let ts := Config.shake256 (ascii "PLY-DIR" ++ ts0 ++ leBytes 1 dir) 64
  [(0, 0, ts.take 44), (1, 1, nextSecret ts)]

/-- The registers of a fresh association: generation 0, nothing sent under it (R421, R422). -/
def freshAssoc (r : Tbl Word) (a : Nat) : Tbl Word :=
  let r := Regs.put (Regs.put (Regs.put r (Reg.cphATxgen a) 0) (Reg.cphARxgen a) 0) (Reg.cphATxrec a) 0
  let r := Regs.putPair r (Reg.cphATxbytesLo a) 0
  Regs.count (Regs.putFld r (Reg.cphAState a) 0 4 2) (Reg.cphAEvcAssoc a) 1

/-- The association is established (R407, R408): the new keys replace the old ones and sequence numbers start again. -/
def State.establish (s : State) (a : Nat) : State :=
  let x := s.assoc a
  let ts0 := Config.shake256 (ascii "PLY-TS" ++ x.shared ++ Config.shake256 (s.helloPair a) 64) 64
  let dirs := if a < 8 then (s.site, s.peerSite a) else (0x10, 0x11)
  let y : Assoc := { tx := firstSlots ts0 dirs.1, rx := firstSlots ts0 dirs.2, helloAt := x.helloAt, since := some s.clk.acnt }
  let s := { s.setAssoc a y with regs := freshAssoc s.regs a }
  if a < 8 then
    { s.setPport a { s.pport a with psns := [] } with
      regs := Regs.putPair (Regs.putPair s.regs (Reg.brmPTxpsnLo a) 0) (Reg.brmPRxpsnLo a) 0 }
  else
    let h : HPort := Tbl.get {} s.host.ports (a - 8)
    { s with
      host := { s.host with ports := s.host.ports.set (a - 8) { h with hseqs := [], hseqHi := none, failures := 0 } }
      regs := Regs.putFld s.regs Reg.hptStatus (a - 4) 1 1 }

/-- FINISH (R407): with both HELLOs held and its signature right the association is established; else it is counted and
the handshake restarts. -/
def finishEffect (a : Nat) (sig : List Byte) (s : State) : State :=
  if 12 ≤ a ∨ s.fld (Reg.cphAState a) 0 2 ≠ 1 ∨ !(s.assoc a).finished then s
  else if !s.finishOk a sig then s.handshakeFailed a
  else s.establish a

/-- KEYUPD (R405, R410): the peer names the generation in use on its direction, which this record has verified. -/
def keyupdEffect (a gen psn : Nat) (s : State) : State :=
  if 12 ≤ a ∨ !s.established a ∨ 2 ^ 64 ≤ psn then s else s.noteGeneration a gen

/-- The next sequence number that an association sends under (R395, R428). -/
def State.nextSeq (s : State) (a : Nat) : Nat := if a < 8 then Regs.pair s.regs (Reg.brmPTxpsnLo a) else (s.assoc a).seq

/-- KEYACK (R409): the peer has prepared a generation, to which the sender may move. -/
def keyackEffect (a gen : Nat) (s : State) : State :=
  if 12 ≤ a ∨ !s.established a ∨ s.reg (Reg.cphATxgen a) + 1 < gen then s
  else
    let x := s.assoc a
    (s.setAssoc a { x with acked := max x.acked gen }).moveKey a (s.nextSeq a)

/-- KEY_SLOT_OVERWRITE (R410): 500 ms after a generation first verified, the slot of the one before takes the next secret,
and KEYACK names it. -/
def keySlotOverwriteEffect (a : Nat) (s : State) : State :=
  let x := s.assoc a
  match x.newGen with
  | none => s
  | some (g, t) =>
    let s := s.atAc (t + msAc 500)
    let ts := (Tbl.get (0, []) x.rx (g % 2)).2
    let s := s.setAssoc a { x with newGen := none, rx := x.rx.set ((g + 1) % 2) (g + 1, nextSecret ts) }
    (s.count (Reg.cphAEvcKeyupd a)).sendKeyMessage a 11 (leBytes 4 (g + 1))

/-- REKEY_TIMER (R408, R434): REKEY_S seconds after the association was established, the lower-numbered site, and towards
the coordinator the device, starts a fresh handshake. -/
def rekeyTimerEffect (a : Nat) (s : State) : State :=
  match (s.assoc a).since with
  | none => s
  | some t =>
    if 12 ≤ a ∨ !s.established a ∨ (a < 8 ∧ s.peerSite a < s.site) then s
    else (s.atAc (t + msAc (1000 * s.confNat 0x0508 86400))).startHandshake a

/-- Always-on cycles in a second (R5). -/
def secAc : Nat := 25000000

/-- HANDSHAKE_TIMEOUT (R436): a host handshake without FINISH fails 1 s after its HELLO; after 3 failures the next COORD
address is tried, and after the last of them 10 s pass. -/
def handshakeTimeoutEffect (h : Nat) (s : State) : State :=
  let a := 8 + h
  match (s.assoc a).helloAt with
  | none => s
  | some t =>
    if 4 ≤ h ∨ s.fld (Reg.cphAState a) 0 2 ≠ 1 then s
    else
      let s := s.atAc (secAc + t)
      let x : HPort := Tbl.get {} s.host.ports h
      let n := (s.host.config.filter (·.1 == 0x0107)).length
      let next := x.failures = 2
      let last := next ∧ n ≤ x.address + 1
      let y := { x with
        failures := if next then 0 else x.failures + 1
        address := if last then 0 else if next then x.address + 1 else x.address
        restartAt := if last then some (10 * secAc + s.clk.acnt) else none
        unacked := [] }
      { s with host := { s.host with ports := s.host.ports.set h y }, regs := Regs.putFld s.regs (Reg.cphAState a) 0 2 3 }

/-- HANDSHAKE_RESTART (R407, R436): a failed handshake sends a new HELLO, no sooner than 1 s after the one before, or 10 s
after the last address failed. -/
def handshakeRestartEffect (a : Nat) (s : State) : State :=
  if 12 ≤ a ∨ s.fld (Reg.cphAState a) 0 2 ≠ 3 then s
  else
    let t := match (s.assoc a).helloAt with | some t => secAc + t | none => 0
    let h : HPort := Tbl.get {} s.host.ports (a - 8)
    let u := if a < 8 then 0 else h.restartAt.getD 0
    (s.atAc (max t u)).startHandshake a

/-! ### Alarms (R412, R413) -/

/-- ALARM (R412, R413): keys, secrets and buffers are erased, the cause is kept, and the device enters the safe state. -/
def alarmEffect (source : Nat) (s : State) : State :=
  if source = 0 ∨ 6 < source then s
  else
    let s := s.eraseKeys.putFld Reg.aonResetCause 8 4 source
    let s := { s with aon := { s.aon with alarm := some source, causeAt := s.clk.acnt } }
    (s.fault 0x1F0 0x09 0 0 source false).enterSafe 0x1F0 3

/-- KNOWN_ANSWER_TEST (R412): a failed test is an alarm. -/
def knownAnswerTestEffect (pass : Bool) (s : State) : State := if pass then s else alarmEffect 6 s

/-! ### Attestation (R417 to R419) -/

/-- A report starts to be signed over a nonce (R418, R419). -/
def State.startReport (s : State) (nonce : List Byte) : State :=
  { s with cph := { s.cph with signing := s.cph.signing ++ [nonce] }, regs := Regs.putFld s.regs Reg.idStatus 14 1 1 }

/-- FLAGS of a report (R418). -/
def State.reportFlags (s : State) : Nat :=
  b2n s.testPermit + 2 * b2n s.injecting + 4 * s.fld Reg.aonResetCause 5 1

/-- The bytes of a report before its signature (R418). -/
def State.reportBody (s : State) (nonce : List Byte) : List Byte :=
  let ak := padTo 57 (Config.ed448Public s.akSeed)
  let serial := leBytes 8 Config.serial.toNat
  let cert := padTo 114 (Config.ed448Sign dikSeed "PLYNENE-AK"
    (Config.shake256 (serial ++ ak ++ s.host.cfgDigest ++ s.host.fwDigest) 64))
  padTo 512 (leBytes 2 1 ++ leBytes 2 s.reportFlags ++ leBytes 4 s.cph.reports ++ serial ++
    leBytes 1 (s.fld Reg.idStatus 0 2) ++ leBytes 1 (s.fld Reg.idStatus 6 7) ++ leBytes 2 (s.fld Reg.idSvn 0 16) ++
    leBytes 2 (s.fld Reg.idSvn 16 16) ++ [0, 0] ++ leBytes 4 (s.reg Reg.aonRomver) ++ leBytes 4 (s.reg Reg.aonResetCause) ++
    todBytes s.clk ++ List.replicate 6 0 ++ padTo 32 nonce ++ padTo 64 s.host.cfgDigest ++ padTo 64 s.host.fwDigest ++
    padTo 64 s.job.digest ++ s.dikPub ++ ak ++ List.replicate 6 0 ++ cert)

/-- A whole report (R418). -/
def State.reportBytes (s : State) (nonce : List Byte) : List Byte :=
  let b := s.reportBody nonce
  padTo 640 (b ++ padTo 114 (Config.ed448Sign s.akSeed "PLYNENE-ATT" (Config.shake256 b 64)))

/-- REPORT_SIGNED (R418, R419): the report being signed appears in `ID_REPORT`, and ATTEST is posted (R440). -/
def reportSignedEffect (s : State) : State :=
  match s.cph.signing with
  | [] => s
  | nonce :: rest =>
    let r := s.reportBytes nonce
    let regs := (List.range 160).foldl (fun t i => Regs.put t (Reg.idReport i) (fieldAt r (4 * i) 4)) s.regs
    let seq := s.cph.reports
    let first := s.cph.bootReport.isEmpty
    let t := { s with
      cph := { s.cph with signing := rest, reports := seq + 1, bootReport := if first then r else s.cph.bootReport }
      regs := Regs.putFld (Regs.putFld regs Reg.idStatus 14 1 (b2n (!rest.isEmpty))) Reg.idStatus 15 1 1 }
    t.post 10 0x1F0 (leBytes 4 seq)

end Sys2Proof.Machine
end

