-- ==== Sys2Proof/Machine/Contact.lean ====
section
/-! DEFINITION. Contact with the coordinator (13_host_ports_and_images): control messages, queue pairs and their rates, and
what the coordinator answers (R427 to R439). -/

namespace Sys2Proof.Machine

/-- A host port of the state. -/
def State.hport (s : State) (h : Nat) : HPort := Tbl.get {} s.host.ports h

/-- The state with a host port replaced. -/
def State.setHport (s : State) (h : Nat) (p : HPort) : State := { s with host := { s.host with ports := s.host.ports.set h p } }

/-! ### Control messages (R433, R435) -/

/-- The queue pairs of a port, by context. -/
def State.portQps (s : State) (h : Nat) : List (Nat × QueuePair) := s.host.qps.filter fun q => q.2.port == h

/-- Queue pairs of a port, taken from the pool at its first CONTACT: how many of 1 to 64, and the starting PSN, are free
values (R429, R435, log 2); a failed pair starts again (R427). -/
def State.openQps (s : State) (h : Nat) : State :=
  if (s.portQps h).isEmpty then
    let n := 1 + s.freeBelow 64
    let psn := Config.freeNat (s.free + 1) % 2 ^ 24
    let first := (s.host.qps.map (·.1 + 1)).foldl max 0
    let qps := (List.range n).foldl (fun (t : Tbl QueuePair) i => t.set (first + i) { port := h, psn := psn }) s.host.qps
    { s with
      free := s.free + 2
      host := { s.host with qps := qps }
      regs := Regs.putFld s.regs (Reg.hptHStatus h) 2 7 n }
  else
    let psn := s.freeBelow (2 ^ 24)
    { s with
      free := s.free + 1
      host := { s.host with qps := s.host.qps.map fun (q : Nat × QueuePair) =>
        if q.2.port = h ∧ q.2.failed then (q.1, { q.2 with failed := false, retries := 0, psn := psn }) else q } }

/-- Bytes of MR1: the decision-log and telemetry rings (R429). -/
def State.ringBytes (s : State) : Nat := 128 * s.reg Reg.vsrDlogSize + s.reg Reg.vsrTrecLen * s.reg Reg.vsrTlogSize

/-- The body of CONTACT (R435); the RKEYs are free values (log 2). -/
def State.contactBody (s : State) (h : Nat) : List Byte :=
  let q := s.portQps h
  leBytes 2 q.length ++ [0, 0] ++ leBytes 4 (0x10000 + ((q.map (·.1)).head?.getD 0)) ++
    leBytes 4 (((q.map (·.2.psn)).head?).getD 0) ++ leBytes 4 (Config.freeNat s.free) ++ leBytes 4 (Config.freeNat (s.free + 1)) ++
    List.replicate 4 0 ++ leBytes 8 s.ringBytes ++ leBytes 2 s.device ++ leBytes 1 s.site

/-- CONTACT (R435, R436): sent on a port whose association is established. -/
def contactEffect (h : Nat) (s : State) : State :=
  if 4 ≤ h ∨ !s.hostAssoc h then s
  else
    let s := s.openQps h
    let s := (s.sendControl h 16 (s.contactBody h)).tookFree.tookFree
    let c := s.fld Reg.hptStatus 0 3
    s.putFld Reg.hptStatus 0 3 (if c < 4 then 4 else c)

/-- CONTACT_RETRY (R435): 10 s after an ASSIGN without a job, or the last retry, CONTACT goes out on every established
port again. -/
def contactRetryEffect (s : State) : State :=
  match s.host.waitJob with
  | none => s
  | some t =>
    let s := s.atAc (10 * secAc + t)
    let s := (List.range 4).foldl (fun s h => contactEffect h s) s
    { s with host := { s.host with waitJob := some s.clk.acnt } }

/-- CONTROL_RESEND (R433): the unacknowledged messages of a port go out again. -/
def controlResendEffect (h : Nat) (s : State) : State :=
  if 4 ≤ h then s else (s.hport h).unacked.foldl (fun s c => s.emitControl h c) s

/-- Ethernet frame bytes received on a host port (R449). -/
def State.received (s : State) (h n : Nat) : State := { s with regs := Regs.count64 s.regs (Reg.hptHRxbytesLo h) n }

/-- A control message arrives (R433): its ACK retires what the device sent, its MID is noted, and whether it is acted on:
each MID once. -/
def State.takeControl (s : State) (h mid ack len : Nat) : State × Bool :=
  let p := s.hport h
  if 4 ≤ h ∨ !s.hostAssoc h ∨ mid = 0 then (s, false)
  else
    let s := s.received h (s.host.frame h (48 + len))
    let q := { p with unacked := p.unacked.filter fun c => decide (ack < c.mid), rxMid := max p.rxMid mid
                      rxSeen := if p.rxSeen.contains mid then p.rxSeen else p.rxSeen ++ [mid] }
    (s.setHport h q, !p.rxSeen.contains mid)

/-- JOB_VA, JOB_RKEY and JOB_LEN of a body at offset `o` (R435). -/
def State.noteJob (s : State) (b : List Byte) (o : Nat) : State :=
  { s with host := { s.host with jobVa := fieldAt b o 8, jobKey := fieldAt b (o + 8) 4, jobLen := fieldAt b (o + 16) 8 } }

/-- ASSIGN (R435, R436, R439): while the device waits for one, its rings are taken, SEQ starts from 0, and the job image is
read; without a job CONTACT is sent again later. An ASSIGN that comes later only acknowledges. -/
def assignEffect (h mid ack : Nat) (b : List Byte) (s : State) : State :=
  let r := s.takeControl h mid ack b.length
  let s := r.1
  if !r.2 ∨ s.fld Reg.hptStatus 0 3 ≠ 4 then s
  else
    let s := s.noteJob b 8
    let s := { s with
      host := { s.host with evEntries := fieldAt b 44 4, dataEntries := fieldAt b 60 4, evRing := [], data := [] }
      regs := Regs.putPair (Regs.putPair s.regs Reg.hptEvqProdLo 0) Reg.hptEvqConsLo 0 }
    let s := s.pumpEvents
    if s.host.jobLen = 0 then { s with host := { s.host with waitJob := some s.clk.acnt } } else s.readImage'

/-- STOP or REPLACE takes hold (R437): an image that is being read or verified is abandoned; a running job stops at its
next step boundary. -/
def State.instruct (s : State) (replace : Bool) : State :=
  let c := s.fld Reg.hptStatus 0 3
  if s.job.active then { s with job := { s.job with stopping := some replace } }
  else if c = 5 ∨ c = 6 then
    let t := s.dropReads
    { t with host := { t.host with jobLeft := 0 }, regs := Regs.putFld t.regs Reg.hptStatus 0 3 4 }.nextImage replace
  else if c = 4 then s.nextImage replace
  else s

/-- STOP (R437). -/
def stopEffect (h mid ack : Nat) (s : State) : State :=
  let r := s.takeControl h mid ack 0
  if r.2 then r.1.instruct false else r.1

/-- REPLACE (R437): a STOP followed by a read of the new image. -/
def replaceEffect (h mid ack : Nat) (b : List Byte) (s : State) : State :=
  let r := s.takeControl h mid ack b.length
  if r.2 then (r.1.noteJob b 0).instruct true else r.1

/-! ### Queue pairs (R427, R436, R438) -/

/-- ROCE_ACK_TIMEOUT (R427): a request is retried, or after 7 retries its queue pair fails, is counted and reported. -/
def roceAckTimeoutEffect (q : Nat) (s : State) : State :=
  match s.qp q with
  | none => s
  | some x =>
    if x.failed ∨ x.reqs.isEmpty then s
    else if x.retries < 7 then
      { s.setQp q { x with retries := x.retries + 1 } with
        regs := Regs.count64 s.regs (Reg.hptHTxbytesLo x.port) (s.host.roceFrame x.port 16 0) }
    else
      let s := (s.setQp q { x with failed := true }).count (Reg.hptHEvcQperr x.port)
      s.post 11 (0x1E0 + x.port) (leBytes 4 x.port ++ leBytes 4 (0x10000 + q))

/-- CNP (R427): the queue pair's rate is halved. DESIGN CHOICE (log 130): the device sends none, having no CE mark. -/
def cnpEffect (q : Nat) (s : State) : State :=
  match s.qp q with
  | none => s
  | some x => s.setQp q { x with rate := x.rate / 2, cnpNs := some s.ns }

/-- ROCE_RATE_RECOVERY (R427): 1/16 of the line rate is regained. -/
def roceRateRecoveryEffect (q : Nat) (s : State) : State :=
  match s.qp q with
  | none => s
  | some x =>
    let s := match x.cnpNs with
      | some t => s.atNs (t + 55000)
      | none => s
    let rate := min 65536 (x.rate + 4096)
    s.setQp q { x with rate := rate, cnpNs := if rate = 65536 then none else some s.ns }

/-- Bytes of a request have landed. -/
def State.landed (s : State) (w : RoceWhat) (n : Nat) : State :=
  match w with
  | .image => { s with host := { s.host with jobLeft := s.host.jobLeft - n } }
  | .data step => { s with host := { s.host with data := s.host.data.map fun d =>
      if d.step = step then { d with left := d.left - n } else d } }
  | .event => s

/-- ROCE_RESPONSE (R436, R438, R439): the answer to the oldest request of a queue pair lands in HBM, or acknowledges an
event's write; an answer of another PSN is none of it. -/
def roceResponseEffect (q psn : Nat) (data : List Byte) (s : State) : State :=
  match s.qp q with
  | none => s
  | some x =>
    match x.reqs with
    | [] => s
    | r :: rest =>
      if r.psn ≠ psn then s
      else if r.what = .event then
        (s.setQp q { x with reqs := rest, retries := 0 }).received x.port (s.host.roceFrame x.port 4 0)
      else
        let d := data.take r.len
        let r' := { r with
          psn := (r.psn + 1) % 2 ^ 24, addr := r.addr + d.length, len := r.len - d.length, begun := true }
        let s := s.received x.port (s.host.roceFrame x.port (if r.begun ∧ r'.len ≠ 0 then 0 else 4) d.length)
        let s := s.setQp q { x with reqs := if r'.len = 0 then rest else r' :: rest, retries := 0 }
        { s with hbm := s.hbm.write r.addr d }.landed r.what d.length

/-- HOST_PORT_LINK_DOWN (R425, R432): counted; where no other port can serve as the time port PTP is lost. -/
def hostPortLinkDownEffect (h : Nat) (s : State) : State :=
  if 4 ≤ h ∨ s.fld (Reg.hptHStatus h) 0 1 = 0 then s else (s.putFld (Reg.hptHStatus h) 0 1 0).count (Reg.hptHEvcLinkdown h)

end Sys2Proof.Machine
end

