-- ==== Sys2Proof/Machine/Margin.lean ====
section
/-! DEFINITION. The margin plan (14_mitten_power_ageing, R461 to R466), the agreement on a frequency and the switch (R467 to
R470), and package power and temperature (R471, R472, R553). -/

namespace Sys2Proof.Machine

/-! ### The re-plan (R464) -/

/-- An integer as an FP32 code. -/
def fofInt (z : Int) : Word := toFp32 (.ofInt z 0)

/-- A reading of 0.25 ps units as FP32 ps (R462). -/
def slackPs (z : Int) : Word := fmul (fofInt z) 0x3E800000#32

/-- ceil5 of an FP32 value: up to a multiple of 5, exactly (R464); 0 for a value that is not finite. -/
def ceil5 (w : Word) : Int :=
  match Val.ofFp32 w with
  | .fin neg m e =>
    let num : Int := (if neg then -1 else 1) * (m * 2 ^ e.toNat : Nat)
    let den : Int := (5 * 2 ^ (-e).toNat : Nat)
    5 * (-((-num) / den))
  | _ => 0

/-- The period P(k) = 42,666.667 / k ps (R464). -/
def periodPs (k : Nat) : Word := fdiv 0x4726AAAB#32 (fofNat k)

/-- The regulation domain of monitor `m` (R461). -/
def domainOf (m : Nat) : Nat := if m < 960 then m / 30 else 32

/-- The state of a re-plan: k, NOW and PREV of the latest sweep, hours since the last one, rail and trims, the ceiling. -/
structure PlanIn where
  k : Nat
  now : Tbl Int
  prev : Nat → Int
  hours : Word
  mepoch : Nat
  guard : Nat
  sigma : Nat → Word
  volt : Nat → Int
  ceil : Int
  fmin : Nat
  kmax : Nat
  start : Bool
  cap : Bool

/-- s(m). -/
def PlanIn.s (p : PlanIn) (m : Nat) : Word := slackPs (Tbl.get 0 p.now m)

/-- req(m) = G + drift(m). -/
def PlanIn.req (p : PlanIn) (m : Nat) : Word :=
  let d := fdiv (fmul (fsub (slackPs (p.prev m)) (p.s m)) (fofNat p.mepoch)) p.hours
  let drift := if flt 0 p.hours ∧ flt 0 d then d else 0
  fadd (fofNat p.guard) drift

/-- s(m) at another frequency step. -/
def PlanIn.sAt (p : PlanIn) (k2 m : Nat) : Word :=
  if k2 = p.k then p.s m else fsub (fadd (p.s m) (periodPs k2)) (periodPs p.k)

/-- Monitors of a domain. -/
def domainMonitors (d : Nat) : List Nat := if d < 32 then (List.range 30).map (30 * d + ·) else (List.range 64).map (960 + ·)

/-- v(d) at a frequency step. -/
def PlanIn.v (p : PlanIn) (k2 d : Nat) : Int :=
  let need := (domainMonitors d).map fun m => fdiv (fsub (p.req m) (p.sAt k2 m)) (p.sigma d)
  let worst := need.foldl (fun a b => if flt a b then b else a) (need.getD 0 0)
  p.volt d + ceil5 worst

/-- The rail at a frequency step: at least 580 mV. -/
def PlanIn.rail (p : PlanIn) (k2 : Nat) : Int := ((List.range 33).map (p.v k2)).foldl max 580

/-- Every monitor meets its requirement at the ceiling and a lower step. -/
def PlanIn.meets (p : PlanIn) (k2 : Nat) : Bool :=
  (List.range 1024).all fun m =>
    let d := domainOf m
    let s := fsub (fadd (fadd (p.s m) (fmul (fofInt (p.ceil - p.volt d)) (p.sigma d))) (periodPs k2)) (periodPs p.k)
    !(flt s (p.req m))

/-- The largest number from `lo` to `hi` that a test accepts. -/
def largestOf (lo hi : Nat) (f : Nat → Bool) : Option Nat := ((List.range (hi + 1)).reverse.filter (lo ≤ ·)).find? f

/-- The outcome of a re-plan: PROP, rail, whether the slack is exhausted, and the step whose v(d) give the trims. -/
def PlanIn.decide' (p : PlanIn) : Nat × Int × Bool × Nat :=
  let floor := max p.fmin 48
  if p.rail p.k ≤ p.ceil then
    if p.start then
      let k := (largestOf floor p.kmax fun k2 => decide (p.rail k2 ≤ p.ceil)).getD p.k
      (k, p.rail k, false, k)
    else (p.k, p.rail p.k, false, p.k)
  else
    match largestOf floor (p.k - 1) p.meets with
    | some k => (k, p.ceil, false, p.k)
    | none => (floor, p.ceil, true, p.k)

/-- The monitor with least slack over its requirement. -/
def PlanIn.worst (p : PlanIn) : Nat :=
  (List.range 1024).foldl (fun b m => if flt (fsub (p.s m) (p.req m)) (fsub (p.s b) (p.req b)) then m else b) 0

/-- The rail in mV and the trim of a domain. -/
def State.rail (s : State) : Nat := s.fld Reg.aonVcore 0 10
/-- The trim of a regulation domain in mV. -/
def State.trim (s : State) (d : Nat) : Nat := s.fld (Reg.aonVdom d) 0 6

/-- What a re-plan starts from. -/
def State.planIn (s : State) : PlanIn :=
  { k := s.freqStep, now := s.aon.sweep
    prev := fun m => (BitVec.ofNat 16 (s.fld (Reg.aonSlack m) 16 16)).toInt
    hours := match s.aon.lastPlan with | some t => fdiv (fofNat (s.clk.todSec - t)) 0x45610000#32 | none => 0
    mepoch := s.fld Reg.aonMargin 0 8, guard := s.fld Reg.aonMargin 8 8
    sigma := fun d => fdiv (fofNat (s.fld (Reg.aonVdom d) 8 10)) 0x42C80000#32
    volt := fun d => s.rail - s.trim d, ceil := s.fld Reg.aonVcore 16 10, fmin := s.fld Reg.aonMargin 16 8
    kmax := if s.fld Reg.seqMode 0 2 = 2 then 56 else 64, start := s.job.start, cap := s.aon.powerCap }

/-- Rail and trims set at once (R466). -/
def setRail (r : Tbl Word) (rail : Nat) (trims : List Nat) : Tbl Word :=
  (List.range 33).foldl (fun r d => Regs.putFld r (Reg.aonVdom d) 0 6 (trims.getD d 0)) (Regs.putFld r Reg.aonVcore 0 10 rail)

/-- Rail and trims rise at once; what falls waits for a frequency switch, or falls too at job start (R466). -/
def State.applyRail (s : State) (rail : Nat) (trims : List Nat) : State :=
  if s.job.start ∨ !s.job.active then { s with regs := setRail s.regs rail trims, aon := { s.aon with lower := none } }
  else
    let up := (List.range 33).map fun d => max (s.trim d) (trims.getD d 0)
    { s with regs := setRail s.regs (max s.rail rail) up, aon := { s.aon with lower := some (rail, trims) } }

/-- PROP and the step counter go to every device of the domain (R467). -/
def State.sendProposal (s : State) : State :=
  let p := s.fld Reg.aonFreq 16 7
  let n := s.reg Reg.seqStep
  let s := { s with job := { s.job with props := [(s.device, p, n)], propsSince := some s.clk.acnt } }
  s.sendCtrlAll (s.devices.filter (· != s.device)) (leBytes 1 p ++ leBytes 4 n)

/-- A re-plan (R462 to R467): sp(m) is what PREV held, and PREV takes NOW (DEDUCED from the example of R470, log 38). -/
def State.replan (s : State) : State :=
  let p := s.planIn
  let o := p.decide'
  let prop := if p.cap then max (min o.1 (p.k - 1)) (max p.fmin 48) else o.1
  let rail := o.2.1.toNat
  let trims := (List.range 33).map fun d => (min 60 (o.2.1 - p.v o.2.2.2 d)).toNat
  let w := p.worst
  let s := s.logDecision 4 (leBytes 1 p.k ++ leBytes 1 prop ++ leBytes 2 rail ++ leBytes 2 w ++ leBytes 4 (p.s w).toNat ++
    leBytes 4 (p.req w).toNat)
  let regs := (List.range 1024).foldl (fun r m => Regs.putFld r (Reg.aonSlack m) 16 16 (Regs.fld r (Reg.aonSlack m) 0 16)) s.regs
  let regs := Regs.put (Regs.count regs Reg.aonEvcReplan 1) Reg.aonMepoch (s.reg Reg.aonMepoch + 1)
  let regs := Regs.put (Regs.putFld regs Reg.aonFreq 16 7 prop) Reg.aonWorst (w + 2 ^ 16 * s.fld (Reg.aonSlack w) 0 16)
  let regs := if o.2.2.1 then Regs.count (Regs.putFld regs Reg.aonFreq 7 1 1) Reg.aonEvcExhaust 1 else regs
  let s := { s with regs := regs, aon := { s.aon with lastPlan := some s.clk.todSec, deferred := none, powerCap := false } }
  let s := s.applyRail rail trims
  let s := if o.2.2.1 then s.fault 0x200 0x0A 0 0 w false else s
  if s.job.active then s.sendProposal else s

/-- A re-plan falls due: in holdover it waits for PTP lock or an hour (R463). -/
def State.planDue (s : State) : State :=
  if s.fld Reg.aonTime 2 1 = 1 then { s with aon := { s.aon with deferred := some s.clk.todSec } } else s.replan

/-- MARGIN_EPOCH_END (R463): PTP time crosses a whole multiple of MEPOCH_H hours. -/
def marginEpochEndEffect (s : State) : State :=
  if s.power = 1 ∨ s.power = 2 then
    let e := 3600 * max 1 (s.fld Reg.aonMargin 0 8)
    (s.atNs (1000000000 * ((s.clk.todSec / e + 1) * e))).planDue
  else s

/-- REPLAN_HOLDOVER_TIMEOUT (R463): a re-plan that has waited an hour runs in holdover. -/
def replanHoldoverTimeoutEffect (s : State) : State :=
  match s.aon.deferred with
  | none => s
  | some t => (s.atNs (1000000000 * (3600 + t))).replan

/-! ### Agreeing a frequency (R467 to R470) -/

/-- K_NEXT and n_b from the proposals held (R467, R468); inside a job only a lower step is applied, at job start any. -/
def State.agreeFrequency (s : State) : State :=
  match s.job.propsSince with
  | none => s
  | some _ =>
    let k := (s.job.props.map (·.2.1)).foldl min 127
    let nb := (s.job.props.map (·.2.2)).foldl max 0 + s.pol 0x0418 2
    let heard := s.job.props.length
    let s := s.logDecision 5 (leBytes 1 k ++ leBytes 4 nb ++ leBytes 2 heard)
    let s := { s with
      regs := Regs.putFld s.regs Reg.aonFreq 8 7 k
      job := { s.job with propsSince := none, props := [] } }
    if s.job.start then
      if k = s.freqStep then s
      else
        let c := s.now
        let s := { s with job := { s.job with newK := some k, phase := 4, fsw := none, switchAt := s.job.switchAt.set s.device c } }
        s.sendCtrlAll s.others (leBytes 8 c)
    else if k < s.freqStep then
      { s with job := { s.job with newK := some k, newKAt := nb, boundary := some (earlier s.job.boundary nb) } }
    else s

/-- FREQUENCY_PROPOSAL (R467): a member's PROP and step; with the last of the member set the frequency is agreed. -/
def frequencyProposalEffect (dev prop step : Nat) (s : State) : State :=
  if s.job.propsSince.isNone ∨ 128 ≤ prop then s
  else
    let s := { s with job := { s.job with props := s.job.props.set dev (prop, step) } }
    if (s.device :: s.others).all fun d => (Tbl.get? s.job.props d).isSome then s.agreeFrequency else s

/-- FREQUENCY_AGREEMENT_TIMEOUT (R467): CENSUS_TIMEOUT ac have passed. -/
def frequencyAgreementTimeoutEffect (s : State) : State :=
  match s.job.propsSince with
  | none => s
  | some t => (s.atAc (t + s.censusTimeout)).agreeFrequency

/-- F_sw once every member's cycle is held (R469). -/
def State.noteSwitch (s : State) : State :=
  match s.agreed s.job.switchAt with
  | some c => if s.job.phase = 4 ∧ s.job.fsw.isNone then { s with job := { s.job with fsw := some (65536 + c) } } else s
  | none => s

/-- SWITCH_CYCLE_MESSAGE (R469). -/
def switchCycleMessageEffect (dev cycle : Nat) (s : State) : State :=
  if s.job.newK.isNone then s
  else { s with job := { s.job with switchAt := s.job.switchAt.set dev cycle } }.noteSwitch

/-- FREQUENCY_SWITCH (R469, R470): at F_sw the core clock stops on every unit. -/
def frequencySwitchEffect (s : State) : State :=
  match s.noteSwitch.job.fsw, s.job.newK with
  | some f, some k =>
    if s.clk.held then s
    else
      let s := s.noteSwitch.atCycle f
      { s with
        clk := { s.clk with held := true }
        regs := Regs.putFld s.regs Reg.aonFreq 8 7 k
        aon := { s.aon with restartAt := some (32768 + s.now) } }
  | _, _ => s

/-- CLOCK_RESTART (R470): 32,768 cc after F_sw the clock runs at K_NEXT, counted; rail and trims fall where a re-plan lets
them, links re-measure, and step 5 of R284 follows. -/
def clockRestartEffect (s : State) : State :=
  match s.aon.restartAt with
  | none => s
  | some t =>
    let s := s.atCycle t
    let k := s.fld Reg.aonFreq 8 7
    let regs := match s.aon.lower with
      | some l => setRail s.regs l.1 l.2
      | none => s.regs
    let s := { s with
      clk := { s.clk with held := false }
      regs := Regs.count (Regs.putFld regs Reg.aonFreq 0 7 k) Reg.aonEvcFswitch 1
      aon := { s.aon with restartAt := none, lower := none }
      job := { s.job with newK := none, fsw := none, switchAt := [] } }
    let s := ((List.range 36).filter s.linkUp).foldl State.resetElastic s
    if s.job.start then { s with job := { s.job with phase := 0 } } else s.sendReady.closeBoundary

/-! ### Power and temperature (R471, R472, R553) -/

/-- ALERT_N as Gauntlet and Mitten assert it (R471, R472, R487). -/
def State.showAlert (s : State) : State :=
  let g := s.gnt.recs.any fun r => r.2.isOpen && (r.2.stage == 1 || r.2.stage == 2)
  { s with pins := { s.pins with alert := g || s.aon.powerAlert || s.aon.tempAlert } }

/-- POWER_SAMPLE (R471): the mean of one millisecond; ten above the limit start an episode, a hundred below end it. -/
def powerSampleEffect (watts : Nat) (s : State) : State :=
  let limit := s.fld Reg.aonPower 16 12
  let above := if limit < watts then s.aon.overMs + 1 else 0
  let under := if watts < limit then s.aon.underMs + 1 else 0
  let begins := above = 10 ∧ !s.aon.powerAlert
  let alert := decide (10 ≤ above) || (s.aon.powerAlert && decide (under < 100))
  let a := { s.aon with overMs := above, underMs := under, powerAlert := alert, powerCap := s.aon.powerCap || decide (10 ≤ above) }
  let regs := Regs.putFld s.regs Reg.aonPower 0 12 (min watts 4095)
  { s with aon := a, regs := if begins then Regs.count regs Reg.aonEvcPwrover 1 else regs }.showAlert

/-- TEMPERATURE_SAMPLE (R472, R553): the highest reading in 0.5 °C; warning from 100 °C until below 97 °C, alarm from
110 °C, trip from 120 °C. -/
def temperatureSampleEffect (t : Nat) (s : State) : State :=
  let warn := decide (200 ≤ t) || (s.aon.tempAlert && decide (194 ≤ t))
  let s := { s with
    regs := Regs.putFld s.regs Reg.aonTemp 0 10 (min t 1023)
    aon := { s.aon with tempAlert := warn, causeAt := if 200 ≤ t then s.clk.acnt else s.aon.causeAt }
    pins := { s.pins with thermTrip := s.pins.thermTrip || decide (240 ≤ t) } }
  let s := if 220 ≤ t ∧ s.aon.alarm ≠ some 5 then alarmEffect 5 s else s
  s.showAlert

end Sys2Proof.Machine
end

