-- ==== Sys2Proof/Machine/Mitten.lean ====
section
/-! DEFINITION. Mitten (14_mitten_power_ageing): resets (R473 to R477, R544, R549), the boot (R455 to R457, R414, R416), the
alignment of the counters (R458) and the time of day (R432, R459). -/

namespace Sys2Proof.Machine

/-! ### Resets -/

/-- What flash and fuses keep without power, with the model's own queue and counts. -/
def State.nonVolatile (s : State) : State :=
  { pending := s.pending, free := s.free, fuses := s.fuses
    slt := { flash := s.slt.flash, blocks := s.slt.blocks, checkpoint := s.slt.checkpoint, scrubbed := s.slt.scrubbed }
    cph := { draws := s.cph.draws } }

/-- A PORST_N reset (R451, R474, R477): every rail falls and nothing else is retained. Where it is over at once, STRAP_NVM is
sampled as it stands (R544, log 75). -/
def State.porstReset (s : State) (pin : Bool) : State :=
  let t := s.nonVolatile
  let strap := if pin then t.pins.strap else s.pins.strap
  { t with
    pins := { t.pins with porst := pin, resetN := s.pins.resetN, pwrgood := s.pins.pwrgood, jtag := s.pins.jtag, strap }
    regs := if pin then t.regs else Regs.putFld t.regs Reg.aonBoot 13 2 strap.toNat }

/-- PORST_N_ASSERT (R460, R473, R548). -/
def porstNAssertEffect (s : State) : State := s.porstReset true

/-- PORST_N_RELEASE (R455, R456, R544): STRAP_NVM is sampled and the boot starts. -/
def porstNReleaseEffect (strap : BitVec 2) (s : State) : State :=
  if !s.pins.porst then s
  else
    { s with
      pins := { s.pins with porst := false, strap := strap }
      regs := Regs.putFld s.regs Reg.aonBoot 13 2 strap.toNat }

/-- PWRGOOD_FALL (R549): with MAIN_EN asserted it acts as an assertion of PORST_N; during a reset HBM is retained no more
(R476). -/
def pwrgoodFallEffect (s : State) : State :=
  let reset := s.aon.reset.map fun (r : ResetRun) => { r with noretain := true }
  let t := { s with pins := { s.pins with pwrgood := false }, aon := { s.aon with reset, retain := false } }
  if s.pins.mainEn then t.porstReset s.pins.porst else t

/-- A full reset other than PORST_N starts (R473, R474, R477): accepted writes are committed and the core stops; from the
safe state, with the stacks in self-refresh, it skips to +2,500 ac. A second source joins a reset under way. -/
def State.startReset (s : State) (cause : Nat) (noretain : Bool) : State :=
  if s.pins.porst then s
  else match s.aon.reset with
  | some r => { s with aon := { s.aon with reset := some { r with cause := r.cause ||| cause, noretain := r.noretain || noretain } } }
  | none =>
    let safe := s.power = 3
    let done := (safe ∧ s.aon.refreshed) ∨ s.power = 0
    let r : ResetRun :=
      { cause := if safe then cause ||| 16 else cause, at' := s.clk.acnt, noretain
        stage := if done then 1 else 0
        confirmed := if safe then s.aon.refreshed else decide (s.power = 0) && s.aon.retain }
    let s := if safe then s else s.commitAccepted
    { s with
      regs := Regs.putFld s.regs Reg.aonState 0 3 4
      clk := { s.clk with held := false }
      pins := if done then { s.pins with mainEn := false } else s.pins
      aon := { s.aon with reset := some r, restartAt := none } }

/-- RESET_N_ASSERT (R473, R544). -/
def resetNAssertEffect (s : State) : State :=
  let s := s.startReset 2 false
  if s.pins.porst then s else { s with pins := { s.pins with resetN := true } }

/-- SELF_REFRESH_CONFIRM (R474, R491): the stacks confirm self-refresh, or time out, 2,500 ac after the reset's source;
MAIN_EN falls (R548). In the safe state it establishes it. -/
def selfRefreshConfirmEffect (ok : Bool) (s : State) : State :=
  match s.aon.reset with
  | some r =>
    if r.stage ≠ 0 then s
    else
      let s := s.atAc (r.at' + 2500)
      { s with
        pins := { s.pins with mainEn := false }
        aon := { s.aon with reset := some { r with stage := 1, confirmed := ok } } }
  | none => if s.power = 3 then { s with aon := { s.aon with refreshed := ok } } else s

/-- HBM may survive the reset, as far as it is known at its release (R476): RETAIN_HBM, no NORETAIN, self-refresh
confirmed. -/
def State.mayRetain (s : State) (r : ResetRun) : Bool :=
  (decide (s.confNat 0x0105 0 = 1) || (s.aon.retain && s.host.config.isEmpty)) && !r.noretain && r.confirmed

/-- `AON_RESET_CAUSE` of a full reset (R475, R477): its sources; ALARM_SRC and ALARM_RST are kept, the latter counted on by
a reset that Mitten started. -/
def resetCause (old cause : Nat) : Nat :=
  let alarms := bits old 12 2 + (if bit cause 3 then 1 else 0)
  cause % 32 + bits old 8 4 * 256 + min 3 alarms * 4096

/-- Registers that Mitten and Gauntlet keep (R451, R493). -/
def keptRegs (r : Tbl Word) : Tbl Word := r.filter fun p => decide (p.1 < 0x20000)

/-- What Mitten, Gauntlet, flash and fuses carry through a full reset (R451, R474, R493): Gauntlet's records are closed
with their stages, the decision log's SEQ goes on (R504). What Brim keeps in HBM goes with HBM (R347, R357). -/
def State.afterReset (s : State) (r : ResetRun) : State :=
  let t := s.nonVolatile
  let keep := s.mayRetain r
  let regs := keptRegs s.regs
  let regs := Regs.put regs Reg.aonResetCause (resetCause (Regs.nat regs Reg.aonResetCause) r.cause)
  let regs := Regs.putFld (Regs.put regs Reg.aonState 0x20) Reg.aonBoot 0 13 0
  { t with
    clk := s.clk
    pins := { s.pins with resetN := false, mainEn := false, safe := false }
    regs := Regs.putPair regs Reg.vsrDlogHeadLo s.vsr.dlogSeq
    hbm := if keep then s.hbm else []
    brim := if keep then s.brim.kept else {}
    gnt := { recs := s.gnt.recs.map fun (e : Nat × FaultRec) => (e.1, { e.2 with isOpen := false })
             wdt := List.replicate 4 s.clk.acnt }
    vsr := { dlogSeq := s.vsr.dlogSeq }
    slt := { t.slt with dirtied := if keep then s.slt.dirtied else [] }
    aon := { s.aon with
      reset := none, alarm := none, refreshed := false, retain := keep, deferred := none, restartAt := none, lower := none
      slotB := false
      prevJob := if !keep then none else if s.job.active then some (s.job.digest, s.job.firstStep) else s.aon.prevJob
      prevDigest := if s.host.cfgDigest.isEmpty then s.aon.prevDigest else s.host.cfgDigest } }

/-- RESET_RELEASE (R474, R544): the boot starts again at step 2, no sooner than 2,600 ac after the source; a self-refresh
that nothing confirmed has timed out. -/
def resetReleaseEffect (s : State) : State :=
  match s.aon.reset with
  | none => s
  | some r => let s := s.atAc (r.at' + 2600); s.afterReset r |>.showAlert

/-- The cause of the alarm in force can clear (R475): a failed known-answer test is cleared at once, any other once the die
is below the warning threshold. -/
def State.causeGone (s : State) : Bool := s.aon.alarm == some 6 || decide (s.fld Reg.aonTemp 0 10 < 200)

/-- ALARM_RESET (R475): once the safe state is established and the cause has been absent for 100 ms, at most 3 times. -/
def alarmResetEffect (s : State) : State :=
  if s.power ≠ 3 ∨ !s.aon.refreshed ∨ s.aon.alarm.isNone ∨ s.fld Reg.aonResetCause 12 2 = 3 ∨ s.aon.reset.isSome ∨ !s.causeGone
  then s
  else (if s.aon.alarm = some 6 then s else s.atAc (s.aon.causeAt + 2500000)).startReset 8 false

/-! ### The configuration image (R414 to R416, R420) -/

/-- The REVOKE bits and the anti-rollback counter as the fuses stand (R401, R416). -/
def State.fuseBits (s : State) : Nat × Nat := s.fuses.getD (Config.revokeFuse.toNat, min 64 Config.arbFuse)

/-- The secrets that SEALED carries, none where its tag fails (R420). -/
def openSealed (v : List Byte) : Option (List Byte) :=
  let k := Config.shake256 (ascii "PLY-SEALED" ++ Config.x448 (Config.shake256 (ascii "PLY-SEAL" ++ Config.dus) 56) (v.take 56)) 44
  let body := (v.drop 56).take (v.length - 72)
  openRecord k 0 [] body (v.drop (v.length - 16))

/-- A configuration image verified (R414, R420, R445): also its SERIAL is this unit's and its SEALED field opens. -/
def State.verifyConfig (s : State) (bs : List Byte) : Option Image :=
  let f := s.fuseBits
  let keys := (List.range 4).map fun k => if bit f.1 k then [] else Config.rootDigest k
  match verifyImage false bs "PLYNENE-CFG" keys f.2 with
  | .error _ => none
  | .ok i =>
    let serial := match fieldOf i.fields 0x0100 with | some v => leNat v == Config.serial.toNat | none => true
    let sealed := match fieldOf i.fields 0x0505 with | some v => (openSealed v).isSome | none => true
    if serial && sealed then some i else none

/-- The FIRMWARE section of an image as its bytes (R402, R442). -/
def firmwareSection (fs : List (Nat × List Byte)) : List Byte :=
  let body := (fs.filter fun f => f.1 / 256 == 6).flatMap fun f =>
    leBytes 4 f.1 ++ leBytes 4 f.2.length ++ f.2 ++ List.replicate ((4 - f.2.length % 4) % 4) 0
  leBytes 4 6 ++ leBytes 4 body.length ++ body

/-- A verified configuration image in force (R414, R418, R424). -/
def State.applyConfig (s : State) (i : Image) (slot : Nat) : State :=
  let f := s.fuseBits
  let permit := (fieldOf i.fields 0x0700).isSome
  let status := i.signer % 4 + f.1 % 16 * 4 + f.2 % 128 * 64 + 8192 * b2n permit + 65536 * slot
  let lim := ((fieldOf i.fields 0x0506).map leNat).getD 28 + 256 * ((fieldOf i.fields 0x0507).map leNat).getD 40
  let fmin := ((fieldOf i.fields 0x0407).map leNat).getD 48
  let regs := Regs.put (Regs.put (Regs.put s.regs Reg.idStatus status) Reg.idSvn i.svn) Reg.cphLimits lim
  let regs := Regs.putFld (Regs.putFld (Regs.putFld regs Reg.tpxStatus 0 1 (b2n permit)) Reg.aonBoot 11 1 slot) Reg.aonMargin 16 8 fmin
  { s with
    regs := regs
    host := { s.host with
      config := i.fields, cfgDigest := i.digest, fwDigest := Config.shake256 (firmwareSection i.fields) 64
      cfgSvn := i.svn, arbAdvance := i.arbAdvance, revoke := i.revoke } }

/-- The XTS key, where the KEYS section carries an SLT_SEED (R402, R403). -/
def State.xtsKey (s : State) : List Byte :=
  match s.conf 0x0505 with
  | some v => match openSealed v with
    | some seed => if seed.length < 32 then [] else Config.shake256 (ascii "PLY-XTS" ++ Config.dus ++ seed.take 32) 64
    | none => []
  | none => []

/-! ### Boot steps (R455 to R457) -/

/-- The boot step in progress (R479). -/
def State.bootStep (s : State) : Nat := s.fld Reg.aonState 4 4

/-- The next boot step. -/
def State.toStep (s : State) (n : Nat) : State := s.putFld Reg.aonState 4 4 n

/-- A failure of R457 stops the boot: `AON_BOOT`, a record, and the safe state. -/
def State.bootFail (s : State) (step cause stack : Nat) : State :=
  let regs := Regs.putFld (Regs.putFld (Regs.putFld s.regs Reg.aonBoot 0 4 step) Reg.aonBoot 4 4 cause) Reg.aonBoot 8 3 stack
  ({ s with regs := regs }.fault 0x200 0x0F 0 0 cause false).enterSafe 0x200 15

/-- Step 3 (R414): an image read from its slot is verified; after slot A slot B is read; with no valid image the main
domains stay unpowered and SAFE_N is asserted. -/
def State.bootImage (s : State) (slot : Nat) (bs : List Byte) : State :=
  if slot ≠ b2n s.aon.slotB ∨ s.fld Reg.idStatus 16 4 = 2 then s
  else match s.verifyConfig bs with
  | some i => (s.applyConfig i slot).toStep 4
  | none =>
    if slot = 0 then { s with aon := { s.aon with slotB := true } }
    else
      { s with pins := { s.pins with safe := true }
               regs := Regs.putFld (Regs.putFld s.regs Reg.idStatus 16 4 2) Reg.aonBoot 4 4 1 }

/-- Step 4 passed: keys are derived, and the main rails rise (R402, R460, R548). -/
def State.bootKeys (s : State) : State :=
  let s := { s with
    cph := { s.cph with keyed := true, xts := s.xtsKey }
    pins := { s.pins with hbmEn := true, mainEn := true, pwrgood := true }
    regs := Regs.putFld (Regs.putFld s.regs Reg.cphStatus 0 1 1) Reg.aonState 0 3 1 }
  s.toStep 5

/-- Step 4 failed (R412, R475): an alarm, and after an alarm of the same kind the boot stops. -/
def State.bootKat (s : State) : State :=
  if s.fld Reg.aonResetCause 3 1 = 1 ∧ s.fld Reg.aonResetCause 8 4 = 6 then (s.eraseKeys).bootFail 4 5 0 else alarmEffect 6 s

/-- Step 7 (R476): HBM is kept, or every byte of it written to zero, Brim's exchange area with it (R357). -/
def State.bootHbm (s : State) : State :=
  let keep := s.aon.retain && s.aon.prevDigest == s.host.cfgDigest
  let regs := Regs.putFld (Regs.putFld s.regs Reg.aonBoot 12 1 (b2n keep)) Reg.aonResetCause 5 1 (b2n keep)
  if keep then { s with regs := regs, aon := { s.aon with retain := true } }
  else { s with hbm := [], brim := {}, slt := { s.slt with dirtied := [] }, regs := regs, aon := { s.aon with retain := false, prevJob := none } }

/-- A Seam link's registers from its PORTS field, its training begun (R307, R308, R445). -/
def seamConfig (r : Tbl Word) (v : List Byte) : Tbl Word :=
  let n := fieldAt v 0 1
  if 36 ≤ n ∨ fieldAt v 1 1 = 0 then r
  else
    let r := Regs.putFld (Regs.putFld (Regs.putFld r (Reg.seamCfg n) 0 1 1) (Reg.seamLatPlan n) 0 12 (fieldAt v 2 2)) (Reg.seamStatus n) 0 3 1
    Regs.put r (Reg.seamPeerExp n) (fieldAt v 4 2 % 1024 + fieldAt v 6 1 % 64 * 1024 + 65536)

/-- A partner port's registers from its PARTNERS entry (R363, R391). -/
def partnerConfig (r : Tbl Word) (e : List (Nat × List Byte)) : Tbl Word :=
  let p := entryNat e 0x0302 0
  let speed := entryNat e 0x0303 100
  let r := Regs.putFld (Regs.putFld r (Reg.brmPCfg p) 0 1 1) (Reg.brmPCfg p) 1 2 (if speed = 100 then 0 else if speed = 50 then 1 else 2)
  let r := Regs.putFld (Regs.putFld r (Reg.brmPRate p) 0 17 (entryNat e 0x0304 (1000 * speed))) (Reg.brmPBurst p) 0 13 (entryNat e 0x0305 512)
  let r := Regs.putFld (Regs.putFld r (Reg.brmPFec p) 8 5 (entryNat e 0x0307 3)) (Reg.brmPFec p) 16 5 (entryNat e 0x0308 16)
  let r := Regs.putFld r (Reg.brmPFec p) 0 5 (entryNat e 0x0306 8)
  Regs.putFld (Regs.put r (Reg.brmPTiming p) (entryNat e 0x0309 1000 + 65536 * entryNat e 0x030A 1000)) (Reg.brmPStatus p) 7 4 (entryNat e 0x0301 0)

/-- Step 8 begins: links, ports and channels are set up from the image (R308, R361, R425, R213, R328). -/
def State.setUpPorts (s : State) : State :=
  let regs := (s.host.config.filter (·.1 == 0x0203)).foldl (fun r f => seamConfig r f.2) s.regs
  let regs := s.partners.foldl partnerConfig regs
  let geom := s.confNat 0x0104 0
  let regs := Regs.put (Regs.putFld regs Reg.hptCfg 0 1 1) Reg.sltGeom (geom % 2 ^ 24)
  let regs := if geom = 0 then regs else (List.range 32).foldl (fun r c => Regs.putFld r (Reg.sltChStatus c) 0 1 1) regs
  let pports := s.partners.foldl (fun (t : Tbl PPort) e =>
    t.set (entryNat e 0x0302 0) { Tbl.get {} t (entryNat e 0x0302 0) with nextR := entryNat e 0x0306 8 }) s.pports
  { s with
    pports := pports
    regs := Regs.put regs Reg.seamDomDev (s.confNat 0x0102 0 % 1024 + s.confNat 0x0103 1 % 2048 * 1024) }

/-- The map rebuilt at start-up (R221): the last checkpoint, and of the images of each NUM the one with the highest GEN;
each group's last GEN is its highest. -/
def State.rebuildMap (s : State) : State :=
  let gens := (s.slt.flash.map (fun f => (f.1, f.2.gen)) ++ s.slt.checkpoint).foldl (fun (t : Tbl Nat) e =>
    t.set (e.1 % 8) (max (t.get 0 (e.1 % 8)) e.2)) []
  { s with slt := { s.slt with gens } }

/-- Step 8 passed with NAND found on the channels of one mask, of which those of the other failed training: links in
training enter discovery, the other channels are trained, and the slow tier's map is rebuilt (R308, R213, R216, R221). -/
def State.trained (s : State) (present failed : Nat) : State :=
  let regs := (List.range 36).foldl (fun r n => if Regs.fld r (Reg.seamStatus n) 0 3 = 1 then Regs.putFld (Regs.putFld r (Reg.seamStatus n) 0 3 2) (Reg.seamLane n) 0 4 15 else r) s.regs
  if s.confNat 0x0104 0 = 0 then { s with regs := regs }
  else
    let regs := (List.range 32).foldl (fun r c =>
      let p := bit present c
      let bad := p && bit failed c
      Regs.put r (Reg.sltChStatus c) (b2n p + 2 * b2n (p && !bad) + 4 * b2n bad)) regs
    let most := (s.slt.blocks.map (·.2.erases)).foldl max 0
    { s.rebuildMap with regs := Regs.put (Regs.putFld regs Reg.sltStatus 0 1 1) Reg.sltMaxErase most }

/-- Every aligned device sends its counter on each link in service (R458). -/
def State.sendAlign (s : State) : State :=
  ((List.range 36).filter s.linkUp).foldl (fun s n =>
    s.setLink n { s.link n with linkOut := (s.link n).linkOut ++ [.align s.now (s.fld Reg.aonTime 4 10)] }) s

/-- Step 10 passed (R458): a device that no aligned one has reached is the reference. -/
def State.alignSelf (s : State) : State :=
  if s.fld Reg.aonTime 0 1 = 1 then s
  else ((s.putFld Reg.aonTime 0 1 1).putFld Reg.aonTime 4 10 s.device).sendAlign

/-- Step 11 passed: the handshake starts on every host port whose link is up (R436). -/
def State.contactCoordinator (s : State) : State :=
  let s := (s.putFld Reg.hptStatus 0 3 3).toStep 12
  ((List.range 4).filter fun h => s.fld (Reg.hptHStatus h) 0 1 = 1).foldl (fun s h => s.startHandshake (8 + h)) s

/-- The fuses after step 14 (R416): ARB up to the image's SVN, then the REVOKE bits it lists, its own slot apart. -/
def State.blowFuses (s : State) : State :=
  let f := s.fuseBits
  let arb := if s.host.arbAdvance then max f.2 s.host.cfgSvn else f.2
  let own := s.fld Reg.idStatus 0 2
  let rev := f.1 ||| sumNat ((List.range 4).map fun k => if bit s.host.revoke k ∧ k ≠ own then 2 ^ k else 0)
  { s with fuses := some (rev, arb)
           regs := Regs.putFld (Regs.putFld s.regs Reg.idStatus 2 4 rev) Reg.idStatus 6 7 arb }

/-- The POLICY section's GROUPS fill every group table (R171, R446). -/
def State.fillGroupTables (s : State) : State :=
  { s with hbm := s.groupTables.foldl (fun (m : Memory) base => m.write base ((s.polBytes 0x0408).getD [])) s.hbm }

/-- READY is posted, and job start ends (R455, R559): the registers that firmware wrote stand, so the group tables, the
constants of the first two steps, the queues and Brim take their first values; background deadlines count from here
(R257), and the slow tier's map stands at its address (R214). -/
def State.ready (s : State) : State :=
  let s := ((s.fillGroupTables.writeConstants s.job.firstStep).writeConstants (s.job.firstStep + 1)).boundarySequencer.brimStart
  let s := s.post 1 0x1F8 (leBytes 4 (s.reg Reg.seqStep))
  let s := s.slt.flash.foldl (fun s f => s.writeMap f.1) s
  { s with
    job := { s.job with start := false, config := false }
    seq := { s.seq with served := [(1, s.now), (2, s.now), (3, s.now)] } }

/-- A device whose reset was not by PORST_N asks to rejoin its domain (R186, R291): its census starts. -/
def State.rejoin (s : State) : State :=
  if s.fld Reg.aonResetCause 0 1 = 1 ∨ !s.job.active then s
  else
    let s := { s with
      seq := { s.seq with halted := true }
      job := { s.job with hbmLost := decide (s.fld Reg.aonBoot 12 1 = 0) } }
    s.startCensus.advanceCensus

/-- Step 14 passed (R416, R455, R460): RUN. -/
def State.bootDone (s : State) : State :=
  if s.power = 1 then (s.putFld Reg.aonState 0 3 2).blowFuses.latchTables.ready.rejoin
  else if s.power = 2 ∧ s.job.start then s.ready
  else s

/-- Step 9: a first sweep of every slack monitor, and the plan from it (R455, R462, R463). -/
def State.firstSweep (s : State) : State := ((List.range 1024).foldl (fun s m => s.readMonitor m) s).completeSweep.planDue

/-- A boot step that ended well (R455). Step 12 ends when a job image is being read, step 13 when it has been accepted. -/
def State.bootOk (s : State) : State :=
  let n := s.bootStep
  if n = 2 then s.toStep 3
  else if n = 4 then s.bootKeys
  else if n = 5 then s.toStep 6
  else if n = 6 then ((s.putFld Reg.aonFreq 0 7 48).putFld Reg.aonTime 0 1 0).toStep 7
  else if n = 7 then (s.bootHbm.setUpPorts).toStep 8
  else if n = 8 then (s.trained (2 ^ 32 - 1) 0).toStep 9
  else if n = 9 then s.firstSweep.toStep 10
  else if n = 10 then (s.alignSelf.startReport []).toStep 11
  else if n = 11 then s.contactCoordinator
  else if n = 12 then (if 5 ≤ s.fld Reg.hptStatus 0 3 then s.toStep 13 else s)
  else if n = 13 then (if s.job.active then s.toStep 14 else s)
  else if n = 14 then s.bootDone
  else s

/-- BOOT_STEP_COMPLETE (R455, R457): the step in progress ends; outside a boot only step 14 of a later job does. -/
def bootStepCompleteEffect (r : BootResult) (s : State) : State :=
  let n := s.bootStep
  if s.pins.porst ∨ s.aon.reset.isSome ∨ 3 ≤ s.power then s
  else match r with
  | .ok => s.bootOk
  | .image slot bs => if n = 3 then s.bootImage slot bs else s
  | .pwrgoodMissing => if n = 5 then s.bootFail 5 2 0 else s
  | .pllFailed => if n = 6 then s.bootFail 6 3 0 else s
  | .stackFailed k => if n = 7 then s.bootFail 7 4 k else s
  | .katFailed => if n = 4 then s.bootKat else s
  | .channels present failed => if n = 8 then (s.trained present failed).toStep 9 else s

/-! ### Alignment and time of day (R432, R458, R459) -/

/-- ALIGNMENT_FRAME (R458): a device not aligned takes F + C + 4 and passes its own counter on; an aligned one checks it. -/
def alignmentFrameEffect (n cycle refDev : Nat) (s : State) : State :=
  if 36 ≤ n ∨ !s.linkUp n then s
  else
    let want := (cycle + s.fld (Reg.seamLatPlan n) 0 12 + 4) % 2 ^ 64
    if s.fld Reg.aonTime 0 1 = 0 then
      (({ s with clk := { s.clk with fcnt := want } }.putFld Reg.aonTime 0 1 1).putFld Reg.aonTime 4 10 refDev).sendAlign
    else if s.now = want then s
    else (s.count Reg.aonEvcAlignerr).fault 0x200 0x0B 5 0 n false

/-- The time port (R432): of the host ports whose link is up, the one with the lowest priority number that is not 0. -/
def State.timePort (s : State) : Option Nat :=
  ((s.host.config.filter fun f => f.1 == 0x0200 && fieldAt f.2 2 1 != 0 && s.fld (Reg.hptHStatus (fieldAt f.2 0 1)) 0 1 == 1).foldl
    (fun (b : Option (Nat × Nat)) f =>
      let x := (fieldAt f.2 2 1, fieldAt f.2 0 1)
      match b with
      | none => some x
      | some y => if x.1 < y.1 then some x else some y) none).map (·.2)

/-- The PTP lock shown (R450, R479). -/
def State.showLock (s : State) (v : Nat) : State := (s.putFld Reg.hptStatus 3 1 v).putFld Reg.aonTime 1 1 v

/-- PTP lock is lost: holdover begins and is counted (R459). -/
def State.loseLock (s : State) : State :=
  if s.fld Reg.aonTime 1 1 = 0 then s else ((s.showLock 0).putFld Reg.aonTime 2 1 1).count Reg.aonEvcHoldover

/-- PTP is locked: holdover ends, and a re-plan that waited runs (R432, R459, R463). -/
def State.gainLock (s : State) : State :=
  let s := (s.showLock 1).putFld Reg.aonTime 2 1 0
  let s := if s.fld Reg.hptStatus 0 3 = 1 then s.putFld Reg.hptStatus 0 3 2 else s
  if s.aon.deferred.isSome then s.replan else s

/-- PTP_SYNC (R432, R450, R459): the time port's offset and time of day; 16 offsets in a row within 100 ns lock PTP. -/
def ptpSyncEffect (h : Nat) (offset : Int) (sec ns : Nat) (s : State) : State :=
  if s.timePort ≠ some h then s
  else
    let near := decide (-100 ≤ offset) && decide (offset ≤ 100)
    let n := if near then s.host.syncs + 1 else 0
    let s := { s with
      clk := { s.clk with todSec := sec % 2 ^ 48, todNs := ns % 1000000000 }
      host := { s.host with syncs := n }
      regs := Regs.put s.regs (Reg.hptHPtpofs h) (BitVec.ofInt 32 offset).toNat }
    if !near then s.loseLock
    else if 16 ≤ n ∧ s.fld Reg.aonTime 1 1 = 0 then s.gainLock
    else s

/-- A host port's link is down: without another time port PTP is lost (R432, R459). -/
def hostLinkDown (h : Nat) (s : State) : State :=
  let s := hostPortLinkDownEffect h s
  if s.timePort.isNone then s.loseLock else s

end Sys2Proof.Machine
end

