-- ==== Sys2Proof/Machine/Gauntlet.lean ====
section
/-! DEFINITION. Gauntlet (15_gauntlet_faults_counters_test, R481 to R493): reports, handling, escalation, isolation, the
watchdogs, UNFREEZE and the parity sweep. Records and the safe state are in Faults, the step abort in Mapping. -/

namespace Sys2Proof.Machine

/-- ACC_PARITY of a matrix engine poisons the row that it names in the active set (R103): promotions and drains of the tile
take the row as NaN. DESIGN CHOICE (log 127): the check itself, and what makes a row's parity fail, come from outside. -/
def State.poisonRow (s : State) (unit cause row : Nat) : State :=
  if cause = 0x01 ∧ unit < 0x80 then
    let e := s.engine unit
    if e.act.poisoned.contains row then s
    else s.setEngine unit { e with act := { e.act with poisoned := e.act.poisoned ++ [row] } }
  else s

/-- A fault from any other source reaches Gauntlet (R481 to R485); Mitten's, Gauntlet's and the watchdogs' need no crossing
of clock domains, and nothing else arises while the core clock is stopped. -/
def faultReportEffect (unit cause access addr detail : Nat) (s : State) : State :=
  let own := decide (0x200 ≤ unit ∧ unit < 0x205)
  if own then s.fault unit cause access addr detail false
  else if s.coreStopped || s.clk.held then s
  else (s.fault unit cause access addr detail).poisonRow unit cause detail

/-! ### Isolation (R488) -/

/-- The units that can be isolated: matrix engines, row units, service cores, Seam links, host and partner ports. -/
def canIsolate (unit : Nat) : Bool :=
  decide (unit < 0x1A0) || decide (0x1B0 ≤ unit ∧ unit < 0x1D4) || decide (0x1E0 ≤ unit ∧ unit < 0x1E4) ||
    decide (0x1E8 ≤ unit ∧ unit < 0x1F0)

/-- A unit isolated where that is possible: a Seam link goes down by R322, a host port carries nothing and so is no time
port. -/
def State.isolate (s : State) (unit : Nat) : State :=
  if !canIsolate unit || s.isolated unit then s
  else
    let s := { s with gnt := { s.gnt with isolated := s.gnt.isolated ++ [unit] } }
    if 0x1B0 ≤ unit ∧ unit < 0x1D4 then
      if s.fld (Reg.seamStatus (unit - 0x1B0)) 0 3 = 6 then s else s.linkDown (unit - 0x1B0)
    else if 0x1E0 ≤ unit ∧ unit < 0x1E4 then
      let s := s.putFld (Reg.hptHStatus (unit - 0x1E0)) 0 1 0
      if s.timePort.isNone then s.loseLock else s
    else s

/-! ### Handling (R486, R490) -/

/-- An open record of the log. -/
def State.openRecord (s : State) (e : Nat) : Option FaultRec :=
  match s.gnt.recs.get? e with
  | some r => if r.isOpen then some r else none
  | none => none

/-- A record's highest stage raised, and the record closed where asked. -/
def State.setRecord (s : State) (e stage : Nat) (open' : Bool) : State :=
  { s with gnt := { s.gnt with recs := s.gnt.recs.map fun (p : Nat × FaultRec) =>
    if p.1 = e then (p.1, { p.2 with stage := max p.2.stage stage, isOpen := open' }) else p } }

/-- The stage of a disposition's action: an abort and an isolation are those of stage 2 (R486, R487). -/
def dispositionStage (d : Nat) : Nat := if d = 0 then 0 else if d = 3 then 3 else 2

/-- The action of a disposition on a record (R486, R488, R489, R491). -/
def State.dispose (s : State) (r : FaultRec) (d : Nat) : State :=
  if d = 0 then s.count Reg.gntEvcDismiss
  else if d = 1 then s.abortStep
  else if d = 2 then (s.isolate r.unit).abortStep
  else s.enterSafe r.unit 3

/-- A record handled: its stage, its closing, and the disposition's action. -/
def State.handle (s : State) (e : Nat) (r : FaultRec) (d : Nat) : State :=
  ((s.setRecord e (dispositionStage d) false).dispose r d).showAlert

/-- A policy core's write of `GNT_ACK` (R486, R490): a closed entry is refused and counted; firmware has logged the
disposition before it writes. -/
def State.ack (s : State) (e d : Nat) : State :=
  match s.openRecord e with
  | none => s.count Reg.gntEvcViol
  | some r =>
    let t := s.logDecision 11 (leBytes 1 e ++ leBytes 1 r.cause ++ leBytes 2 r.unit ++ leBytes 1 d)
    t.handle e r d

/-- Ones written to `GNT_OPEN0` (`first` 0) or `GNT_OPEN1` (`first` 32): each dismisses its open record (R486). -/
def State.dismissBits (s : State) (first v : Nat) : State :=
  (List.range 32).foldl (fun s b =>
    if bit v b then
      match s.openRecord (first + b) with
      | some r => s.handle (first + b) r 0
      | none => s
    else s) s

/-! ### Escalation (R487) -/

/-- A further FAULT event of a stage, provided the host ports still run. -/
def State.postStage (s : State) (e unit stage : Nat) : State :=
  if s.coreStopped || s.clk.held || s.power == 0 then s else s.postFault e unit stage

/-- ESCALATION_NOTIFY: an open record reaches G. -/
def escalationNotifyEffect (e : Nat) (s : State) : State :=
  match s.openRecord e with
  | none => s
  | some r =>
    if r.stage ≠ 0 then s
    else
      let s := ((s.atAc (r.capAc + r.grace)).setRecord e 1 true).count Reg.gntEvcNotify
      (s.postStage e r.unit 1).showAlert

/-- ESCALATION_ISOLATE: an open record reaches 2G; its unit is isolated and the step aborted. -/
def escalationIsolateEffect (e : Nat) (s : State) : State :=
  match s.openRecord e with
  | none => s
  | some r =>
    if r.stage ≠ 1 then s
    else
      let s := ((s.atAc (r.capAc + 2 * r.grace)).setRecord e 2 true).postStage e r.unit 2
      let s := if s.coreStopped then s else (s.isolate r.unit).abortStep
      s.showAlert

/-- ESCALATION_SAFE: an open record reaches 3G and the safe state is entered. -/
def escalationSafeEffect (e : Nat) (s : State) : State :=
  match s.openRecord e with
  | none => s
  | some r =>
    if r.stage ≠ 2 then s
    else
      let s := ((s.atAc (r.capAc + 3 * r.grace)).setRecord e 3 true).postStage e r.unit 3
      (s.enterSafe r.unit 3).showAlert

/-! ### Watchdogs, UNFREEZE and parity (R486, R492, R493) -/

/-- A policy core's timer restarts at the present always-on cycle. -/
def State.restartWatchdog (s : State) (core : Nat) : State :=
  { s with gnt := { s.gnt with wdt := s.gnt.wdt.set core s.clk.acnt } }

/-- WATCHDOG_EXPIRY: a policy core has not written `GNT_WDT` for the limit; POLICY_WDT is raised and the timer restarts. -/
def watchdogExpiryEffect (core : Nat) (s : State) : State :=
  if 4 ≤ core ∨ ¬(s.power = 1 ∨ s.power = 2) then s
  else
    let s := s.atAc (s.gnt.wdt.getD core 0 + s.reg Reg.gntWdtLimit)
    (s.fault (0x201 + core) 0x0C 6 0 0 false).restartWatchdog core

/-- UNFREEZE: every record is cleared and HEAD is 1. -/
def State.unfreeze (s : State) : State :=
  { s with gnt := { s.gnt with recs := [] }, regs := Regs.putFld s.regs Reg.gntHead 0 6 1 }.showAlert

/-- GNT_PARITY (R484, R492): the safe state at once, with no record. -/
def State.parityFault (s : State) (off : Nat) : State := s.fault 0x200 0x0D 6 off 0 false

/-- PARITY_SWEEP: every register and log word is checked at each 65,536 ac; the sweep names the first word it finds wrong. -/
def paritySweepEffect (found : Option Nat) (s : State) : State :=
  let s := s.atAc ((s.clk.acnt / 65536 + 1) * 65536)
  match found, s.gnt.bad with
  | some off, _ => s.parityFault off
  | none, off :: _ => s.parityFault off
  | none, [] => s

end Sys2Proof.Machine
end

