-- ==== Sys2Proof/Machine/JobStart.lean ====
section
/-! DEFINITION. The job image verified (R415, R436, and the chapters' checks that its fields allow), and job start (R16, R172,
R227, R559). -/

namespace Sys2Proof.Machine

/-! ### The chapters' checks (R436 item 6) -/

/-- A group of GROUPS as its table allows (R171). -/
def groupOk (b : List Byte) : Bool :=
  let c := fieldAt b 0 4
  decide (bits c 0 4 < 4) && bits c 4 2 != 3 && bits c 6 2 != 3 && decide (bits c 8 6 ≤ 32) && c / 2 ^ 14 == 0 &&
    allZero ((b.take 64).drop 40) && allZero ((b.take 128).drop 96)

/-- The bytes of group `g` of GROUPS. -/
def groupBytes (v : List Byte) (g : Nat) : List Byte := (v.drop (128 * g)).take 128

/-- A TENSOR field sets SLT (R445). -/
def tensorSlt (v : List Byte) : Bool := bit (fieldAt v 5 1) 0

/-- A TENSOR field by its chapters: its format code, its group, and for a slow-tier tensor ROWP and OPT (R27, R155, R195);
with partner sites a slow-tier group's OMU is +0 (R340). -/
def tensorOk (groups : List Byte) (outer : Bool) (v : List Byte) : Bool :=
  let g := groupBytes groups (fieldAt v 7 1)
  decide (fieldAt v 4 1 < 15) && decide (fieldAt v 7 1 < 16) && fieldAt v 20 4 == 0 &&
  (!tensorSlt v || ([1, 2, 4, 8, 16, 32, 64].contains (fieldAt v 6 1) && bits (fieldAt g 0 4) 0 4 != 3 &&
    (!outer || fieldAt g 32 4 == 0)))

/-- Tensor identifiers lie at least 7 apart (R174, R445). -/
def tensorsApart (ids : List Nat) : Bool := decide (ids.Pairwise fun a b => a + 7 ≤ b ∨ b + 7 ≤ a)

/-- A LAYOUTS entry: its degrees multiply to its DEVICES, none is 0, within the domain, and TGSIZE lies in its range (R272,
R297). A block of TGSIZE lies in one tight group, so that tensor groups of t consecutive positions do where t divides it
(R273, R294; DEDUCED, log 115). -/
def State.layoutOk (s : State) (i : Nat) : Bool :=
  let f := s.layoutFld i
  f 0 2 == f 2 2 * f 4 1 * f 5 1 * f 8 2 && decide (f 0 2 ≤ s.confNat 0x0103 1) && [1, 2, 4, 8].contains (f 4 1) &&
    [1, 2, 4, 8].contains (f 5 1) && decide (1 ≤ f 2 2) && decide (1 ≤ f 8 2) && decide (1 ≤ f 6 1) && decide (f 6 1 ≤ 8) &&
    f 6 1 % f 4 1 == 0

/-- A route's MTU carries a class D frame with its SIDs (R363, R364). -/
def routeOk (v : List Byte) : Bool :=
  let n := fieldAt v 41 1
  decide (n ≤ 4) && v.length == 56 + 16 * n && decide (8296 + (if n = 0 then 0 else 8 + 16 * n) ≤ fieldAt v 42 2)

/-- A PARTNERS entry by R363. -/
def partnerOk (e : List (Nat × List Byte)) : Bool :=
  let speed := entryNat e 0x0303 100
  [25, 50, 100].contains speed && decide (entryNat e 0x0304 (1000 * speed) ≤ 1000 * speed) &&
    (e.filter (·.1 == 0x030C)).all fun r => routeOk r.2

/-- The merged section lacks a required field (R297, R446). -/
def State.policyLacks (s : State) : Bool :=
  [0x0408, 0x0410, 0x041A, 0x041B, 0x041F].any (fun t => (s.polBytes t).isNone) ||
    (!s.partnerSites.isEmpty && (s.polBytes 0x041E).isNone)

/-- MB_MIN ≤ MB_START ≤ MB_MAX (R297). -/
def State.batchBounds (s : State) : Bool :=
  match s.polBytes 0x0411, s.polBytes 0x0412 with
  | some lo, some hi => decide (leNat lo ≤ s.pol 0x0410 1) && decide (s.pol 0x0410 1 ≤ leNat hi)
  | _, _ => true

/-- KEEP values (R349). -/
def keepOk (k : Nat) : Bool := [16, 32, 64, 128, 256, 512].contains k

/-- No shard mixes slow-tier slices with others (R340). -/
def State.shardsPure (s : State) : Bool :=
  let slt (t : Nat) : Bool := s.job.fields.any fun f => f.1 == 0x0800 && fieldAt f.2 0 4 == t && tensorSlt f.2
  let m := s.recordMap 0
  m.all fun a => m.all fun b => a.shard != b.shard || slt a.tensor == slt b.tensor

/-- What the chapters refuse, read in a state whose job fields are the image's: none, or why. -/
def State.jobBad (s : State) : Option Bad :=
  let groups := (s.polBytes 0x0408).getD []
  let tensors := (s.job.fields.filter (·.1 == 0x0800)).map (·.2)
  let ports := s.partners.map fun e => entryNat e 0x0302 0
  let devs := (List.range s.layoutCount).map fun i => s.layoutFld i 0 2
  if s.policyLacks then some .lacking
  else if !s.batchBounds then some .range
  else if !((List.range 16).all fun g => groupOk (groupBytes groups g)) ||
      !(tensors.all (tensorOk groups (!s.partnerSites.isEmpty))) || !tensorsApart (tensors.map fun v => fieldAt v 0 4) ||
      !((List.range s.layoutCount).all s.layoutOk) || !decide (devs.Pairwise (· ≥ ·)) ||
      !(s.partners.all partnerOk) || ports.eraseDups.length != ports.length ||
      !([s.pol 0x0423 64, s.pol 0x0424 16, s.pol 0x0425 512].all keepOk) || decide (s.pol 0x042D 8 < s.pol 0x0428 2 + 2) || !s.shardsPure ||
      (tensors.any tensorSlt && s.cph.xts.isEmpty) then some .check
  else s.scheduleBad

/-! ### Verification and job start -/

/-- The allowed keys of a job image: the digests of JOB_SIGNERS (R415, R420). -/
def State.jobSigners (s : State) : List (List Byte) :=
  let v := (s.conf 0x0500).getD []
  (List.range (v.length / 57)).map fun k => Config.shake256 ((v.drop (57 * k)).take 57) 32

/-- A refusal: JOB_REFUSED, and the device waits for an ASSIGN again (R436, R440). -/
def State.refuseJob (s : State) (b : Bad) : State := (s.post 3 0x1E0 (leBytes 4 b.code)).putFld Reg.hptStatus 0 3 4

/-- The mode registers, limits and batch that the merged POLICY section gives (R16, R290, R465, R471). -/
def State.jobRegisters (s : State) : State :=
  let power := s.pol 0x0400 0
  let mode := power + 4 * s.pol 0x0401 0 + 8 * s.pol 0x0402 1 + 32 * s.pol 0x0403 1 + 128 * s.pol 0x0404 0
  let ceil := s.pol 0x0406 780 - (if power = 2 then 40 else 0)
  let limit := if power = 1 then 1300 else if power = 2 then 1150 else 1600
  let regs := Regs.put (Regs.put s.regs Reg.seqMode mode) Reg.seqModeNext mode
  let regs := Regs.putFld (Regs.putFld regs Reg.aonPower 16 12 limit) Reg.aonVcore 16 10 ceil
  { s with regs := Regs.putFld regs Reg.aonMargin 16 8 (s.pol 0x0407 48) }.setBatch (s.pol 0x0410 1)

/-- The step that a reset which kept HBM struck: the largest MTAG of the device's intact tags (R186, log 39); without such
a reset the step counter's own. -/
def State.struckStep (s : State) : Nat :=
  if s.fld Reg.aonBoot 12 1 = 1 ∧ s.power = 1 then
    ((ownedSlices s.job.map s.job.positions s.device).map fun e =>
      let t := (s.recordOf e).tag
      if t.intact then t.mtag else 0).foldl max (s.reg Reg.seqStep)
  else s.reg Reg.seqStep

/-- The first step of the job that a reset which kept HBM struck, where this image is its image (R186, R188). -/
def State.resumedFrom (s : State) (digest : List Byte) : Option Nat :=
  match s.aon.prevJob with
  | some j => if s.fld Reg.aonBoot 12 1 = 1 ∧ s.power = 1 ∧ j.1 = digest then some j.2 else none
  | none => none

/-- The job's own state at acceptance (R172, R227, R294, R559). -/
def State.openJob (s : State) (i : Image) : State :=
  let n := s.reg Reg.seqStep
  let j : Job :=
    { active := true, config := true, start := true, firstStep := n, n0 := n, fields := i.fields
      blob := s.jobArea.1 + i.blob, digest := i.digest, members := s.devices }
  let s := { s with job := j }
  let s := { s with job := { j with map := s.recordMap 0, positions := s.fillPositions 0 s.devices } }
  let k := s.struckStep
  let resumed := s.resumedFrom i.digest
  let first := resumed.getD k
  let s := (s.restartStreams k).clearLags
  let marks := (List.range 4).foldl (fun r st => Regs.putPair r (Reg.lnrSHwmLo st) (Regs.pair r (Reg.lnrSHeadLo st))) s.regs
  { s with
    regs := Regs.put marks Reg.seqStep k
    job := { s.job with firstStep := first, n0 := k, resumed := resumed.isSome }
    aon := { s.aon with prevJob := none }
    seq := { s.seq with halted := false, lastIssue := none }
    part := (List.range 8).map fun p =>
      (p, { s.partition p with slots := [], pass0 := k - first, updated := [], ended := [], aborting := false })
    vsr := { s.vsr with noise := [], taken := [] }
    gnt := if k = n then s.gnt else { s.gnt with aborted := some k } }

/-- A job image is accepted: JOB_ACCEPTED, and job start begins (R436, R559); Mitten plans its margin anew (R463), the ID
block signs a report (R418), and each partner port with its link up runs its handshake (R363, R406). -/
def State.acceptJob (s : State) (i : Image) : State :=
  let s := s.openJob i
  let s := { s with host := { s.host with jobSvn := i.svn }
                    regs := Regs.putFld (Regs.putFld s.regs Reg.idSvn 16 16 i.svn) Reg.hptStatus 0 3 7 }
  let s := (s.jobRegisters.post 2 0x1E0 (leBytes 4 i.svn ++ i.digest.take 16)).startReport []
  let s := ((List.range 8).filter fun p => (s.partner p).isSome && s.fld (Reg.brmPStatus p) 0 1 == 1).foldl
    State.startHandshake s
  s.planDue

/-- JOB_IMAGE_READ_COMPLETE (R415, R436): the image read into JOB_AREA is verified, and accepted or refused. -/
def jobImageReadCompleteEffect (s : State) : State :=
  if s.fld Reg.hptStatus 0 3 ≠ 5 ∨ s.host.jobLeft ≠ 0 ∨ s.host.jobLen = 0 then s
  else
    let s := s.putFld Reg.hptStatus 0 3 6
    let bs := s.hbm.read s.jobArea.1 s.host.jobLen
    match verifyImage true bs "PLYNENE-JOB" s.jobSigners (s.confNat 0x0501 0) with
    | .error b => s.refuseJob b
    | .ok i =>
      match { s with job := { s.job with fields := i.fields, digest := i.digest } }.jobBad with
      | some b => s.refuseJob b
      | none => s.acceptJob i

end Sys2Proof.Machine
end

