-- ==== Sys2Proof/Machine/Live.lean ====
section
/-! DEFINITION. What a direct read of a register shows (R526, R528): the stored value, or for the fields that follow the
state of a unit, that state. -/

namespace Sys2Proof.Machine

/-- Fields put into a word, each as low bit, width and value. -/
def putFields (w : Nat) (l : List (Nat × Nat × Nat)) : Nat := l.foldl (fun w f => putBits w f.1 f.2.1 f.2.2) w

/-- The POWER code of a unit of a cluster (R107, R149): its own gate, its cluster's, or isolation, which clock-gates it
(R488). -/
def State.powerCode (s : State) (u : Nat) : Nat :=
  let code (k : Nat) : Nat :=
    match s.seq.gates.get? k with
    | some g => if g.phase = 0 then 0 else if g.phase = 2 then 3 else if g.level = 1 then 1 else 2
    | none => 0
  let own := match clusterOf u with
    | some c => if code (4096 + c) = 0 then code u else code (4096 + c)
    | none => 0
  if own = 0 && s.isolated u then 1 else own

/-! ### Mitten and Gauntlet -/

/-- Live words of Mitten (R478): the fabric cycle counter and the time of day. -/
def State.liveAon (s : State) (off w : Nat) : Nat :=
  if off = 0x30 then s.clk.fcnt % 2 ^ 32
  else if off = 0x34 then s.clk.fcnt / 2 ^ 32
  else if off = 0x38 then s.clk.todNs
  else if off = 0x3C then s.clk.todSec % 2 ^ 32
  else if off = 0x40 then putBits w 0 16 (s.clk.todSec / 2 ^ 32)
  else w

/-- The eight words of a record (R482). -/
def FaultRec.words (r : FaultRec) : List Nat :=
  [r.unit % 4096 + r.access % 16 * 2 ^ 12 + r.cause % 256 * 2 ^ 16 + r.stage % 4 * 2 ^ 24 + b2n r.isOpen * 2 ^ 26 + 2 ^ 27,
   r.detail % 2 ^ 24 + r.rep % 256 * 2 ^ 24, r.addr % 2 ^ 32, bits r.addr 32 16 + bits r.todSec 32 16 * 2 ^ 16,
   r.fcyc % 2 ^ 32, bits r.fcyc 32 32, r.todNs % 2 ^ 32, r.todSec % 2 ^ 32]

/-- Word `w` of log entry `e`; zero where the entry holds no record. -/
def State.logWord (s : State) (e w : Nat) : Nat :=
  match s.gnt.recs.get? e with
  | some r => r.words.getD w 0
  | none => 0

/-- `GNT_STATUS` (R514). -/
def State.gntStatus (s : State) (w : Nat) : Nat :=
  let o := s.gnt.recs.filter fun r => r.2.isOpen
  let alert := o.any fun r => r.2.stage == 1 || r.2.stage == 2
  putFields w [(0, 2, (o.map (·.2.stage)).foldl max 0), (2, 7, o.length), (9, 1, b2n (s.gnt.recs.get? 0).isSome),
    (10, 1, b2n alert)]

/-- `GNT_OPEN0` and `GNT_OPEN1` (R513). -/
def State.gntOpen (s : State) (first : Nat) : Nat :=
  sumNat ((s.gnt.recs.filter fun r => r.2.isOpen && decide (first ≤ r.1) && decide (r.1 < first + 32)).map fun r => 2 ^ (r.1 - first))

/-- Live words of Gauntlet. -/
def State.liveGnt (s : State) (off w : Nat) : Nat :=
  if off = 0x4 then s.gntStatus w
  else if off = 0x18 then s.gntOpen 0
  else if off = 0x1C then s.gntOpen 32
  else if 0x800 ≤ off ∧ off < 0x1000 then s.logWord ((off - 0x800) / 32) (off % 32 / 4)
  else w

/-! ### Cipher, host ports, slow tier, Seam -/

/-- `CPH_STATUS` (R422). -/
def State.cphStatusNow (s : State) (w : Nat) : Nat :=
  putFields w [(1, 4, (s.lanes 0).length), (5, 4, (s.lanes 1).length), (9, 6, (s.savedRecs 0).length + (s.savedRecs 1).length)]

/-- Live words of the host ports' global area (R449, R450). -/
def State.liveHpt (s : State) (off w : Nat) : Nat :=
  if off = 0x4 then putBits w 4 4 (sumNat ((List.range 4).map fun h => if s.hostAssoc h then 2 ^ h else 0))
  else if off = 0x10 then putBits w 0 17 s.host.qps.length
  else if off = 0x14 then
    putBits w 0 19 (s.trackerHost + s.trackerSlow + s.trackerPartner +
      sumNat (s.seam.links.map fun l => ((l.2.out.filter fun f => f.prio == 5).map (·.key)).eraseDups.length))
  else w

/-- Live words of the slow tier (R223, R224). -/
def State.liveSlt (s : State) (off w : Nat) : Nat :=
  if off = 0x4 then putFields w [(1, 1, b2n (!s.slt.collecting.isEmpty)), (2, 8, min 255 (s.slt.fetches.filter (·.issued)).length)]
  else if off = 0x54 then ((List.range 8).map s.freeBlocks).foldl min (s.freeBlocks 0)
  else if 0x300 ≤ off ∧ off < 0x320 then
    putFields w [(0, 13, missUsed s.slt ((off - 0x300) / 4)), (13, 14, pendUsed s.slt ((off - 0x300) / 4))]
  else if off = 0x100 ∨ off = 0x104 then (s.nandBusy s.now).reg (Block.slt.base 0 + off)
  else w

/-! ### Engines, row units, Liner -/

/-- Engine `n` with the first entry of a continuation in front made, if its cycle has come (R78, R80): the entry is no step
of its own, and is noted with its first promotion. -/
def State.entered (s : State) (n : Nat) : Engine :=
  let e := s.engine n
  match e.prods with
  | [] => e
  | r :: _ =>
    let f := (s.continuationEntry n r r.operands).1
    if !r.operands.p.acc || r.first.isSome || decide (s.now < f) || e.behindSwap r f then e
    else (s.startContinuation n r r.operands).engine n

/-- Operands are entering engine `n` (R107). -/
def State.filling (s : State) (n : Nat) : Bool :=
  let e := s.entered n
  decide (s.now < e.entriesEnd) && e.prods.any fun p => match p.first with | some f => decide (f ≤ s.now) | none => false

/-- A drain is shifting engine `n`'s shadow out (R107). -/
def State.shadowBusy (s : State) (n : Nat) : Bool :=
  !(s.engine n).unread.isEmpty || decide (s.now < (s.engine n).shadowFree)

/-- `ME_STATUS` (R107). -/
def State.meStatusNow (s : State) (n w : Nat) : Nat :=
  let e := s.entered n
  putFields w [(1, 1, b2n e.act.opened), (2, 1, b2n (s.shadowBusy n)), (3, 1, b2n (s.filling n)), (4, 2, s.powerCode n),
    (6, 2, if e.act.opened then e.act.prec else s.fld Reg.seqMode 3 2), (8, 8, e.pendingCount s.now)]

/-- `ROW_STATUS` (R149). -/
def State.rowStatusNow (s : State) (n w : Nat) : Nat :=
  let u := s.rowUnit n
  let busy := decide (s.now < u.busyTo)
  putFields w [(0, 1, b2n busy), (1, 2, s.powerCode (0x80 + n)), (8, 8, u.held.length + b2n busy)]

/-- Live words of the Liner (R150). -/
def State.liveLnr (s : State) (off w : Nat) : Nat :=
  if off = 0x4 then
    putBits w 0 8 (sumNat (s.lnr.queues.map fun q => q.2.held.length + (q.2.doneAt.filter fun t => decide (s.now < t)).length))
  else if off = 0x8 then putBits w 0 17 s.lnr.dir.length
  else w

/-- The test-access value of a word offset of engine `n` (R105, R108): the selected cell's A20 or A34. -/
def State.tacc (s : State) (n off : Nat) : Nat :=
  let e := s.engine n
  let i := s.fld (Reg.meTaccSel n) 0 7
  let j := s.fld (Reg.meTaccSel n) 7 7
  let a := if s.fld (Reg.meTaccSel n) 14 1 = 0 then e.act else e.shadow
  let a34 := ((Tbl.get [] a.rows i).getD j 0).toNat
  if off = 0x34 then ((Tbl.get [] e.a20 i).getD j 0).toNat else if off = 0x38 then a34 % 2 ^ 32 else a34 / 2 ^ 32

/-- Test access is open (R109). -/
def State.taccOpen (s : State) (n : Nat) : Bool :=
  s.fld (Reg.meCfg n) 0 1 == 1 && !s.filling n && !s.shadowBusy n

/-- The offsets of the test-access values. -/
def isTacc (off : Nat) : Bool := off == 0x34 || off == 0x38 || off == 0x3C

/-- Live words of an engine. -/
def State.liveMe (s : State) (n off w : Nat) : Nat :=
  if off = 0x4 then s.meStatusNow n w
  else if isTacc off then (if s.taccOpen n then s.tacc n off else 0)
  else (s.settleEngine n).reg (Block.me.base n + off)

/-! ### The Cuff, Visor, the sequencer -/

/-- `CUF_STATUS` (R192). -/
def State.cufStatusNow (s : State) (p w : Nat) : Nat :=
  let x := s.partition p
  let ks := (programSlots s p ++ x.slots.map (·.1)).eraseDups
  putFields w [(0, 12, (ks.filter fun k => (s.slotNow p k).state != 0).length), (12, 5, x.pipe.length), (17, 9, x.pendCount),
    (26, 1, b2n x.flagStep.isSome)]

/-- `CUF_SLOT_STATE` of the slot that `CUF_SLOT_SEL` names (R192). -/
def State.cufSlotNow (s : State) (p w : Nat) : Nat :=
  let x := s.slotNow p (s.fld (Reg.cufSlotSel p) 0 11)
  putFields w [(0, 3, x.state), (3, 1, b2n (x.pieces.any fun q => q.2.abst != 0)), (4, 12, x.entry), (16, 4, x.window.length)]

/-- `SEQ_STATUS` (R270). -/
def State.seqStatusNow (s : State) (w : Nat) : Nat :=
  let on (k : Nat) : Bool := s.fld (Reg.seqSCfg k) 0 1 == 1
  let running := s.fld Reg.seqCfg 0 1 == 1 && !s.seq.halted && (List.range 40).any on
  putFields w [(0, 1, b2n running), (1, 6, ((List.range 40).filter fun k => on k && s.fld (Reg.seqSStatus k) 0 4 != 0).length)]

/-- Visor is collecting (R515). -/
def State.collectingNow (s : State) : Bool :=
  match s.vsr.collecting with
  | some c => decide (s.now < c.2)
  | none => false

/-! ### Every block -/

/-- The word that a direct read of offset `off` of a block instance shows, without latch or shadow. -/
def State.liveIn (s : State) (b : Block) (n off : Nat) : Nat :=
  let w := s.reg (b.base n + off)
  match b with
  | .aon => s.liveAon off w
  | .gnt => s.liveGnt off w
  | .cph => if off = 0x4 then s.cphStatusNow w else w
  | .hpt => s.liveHpt off w
  | .hptP => if off = 0x4 then putBits w 1 1 (b2n (s.timePort == some n)) else w
  | .slt => s.liveSlt off w
  | .seam => if off = 0x4 then putBits w 6 4 (sumNat ((s.link n).held.map fun v => 2 ^ v.1)) else w
  | .me => s.liveMe n off w
  | .row => if off = 0x4 then s.rowStatusNow n w else w
  | .cuf =>
    if off = 0x4 then s.cufStatusNow n w else if off = 0x34 then s.cufSlotNow n w
    else (s.settlePartition n).reg (Block.cuf.base n + off)
  | .lnr => s.liveLnr off w
  | .vsr => if off = 0x4 then putBits w 7 1 (b2n s.collectingNow) else w
  | .seq =>
    if off = 0x4 then s.seqStatusNow w
    else if 0x800 ≤ off ∧ off < 0xC00 then s.cueAt ((off - 0x800) / 4) s.now
    else w
  | .tpx => if off = 0x0 then putBits w 1 1 (b2n s.injecting) else w
  | .ident | .cphA | .brm | .brmP => w

end Sys2Proof.Machine
end

