-- ==== Sys2Proof/Machine/Window.lean ====
section
/-! DEFINITION. The control window (16_register_interface): who may write what and when, the action of a write, reads with
the shadow latch, sizes, and the aliases. -/

namespace Sys2Proof

/-! ### Masters and blocks -/

/-- The unit ID of a master (R518, R522). -/
def Master.unit : Master → Nat
  | .service k => 0xA0 + k
  | .policy k => 0x201 + k
  | .mitten => 0x200
  | .remote => 0x3FF

/-- A policy core. -/
def Master.isPolicy : Master → Bool
  | .policy _ => true
  | _ => false

/-- A service core. -/
def Master.isService : Master → Bool
  | .service _ => true
  | _ => false

end Sys2Proof

namespace Sys2Proof.Machine


/-- The violation counter of a block instance (R538). -/
def Block.violAddr (b : Block) (n : Nat) : Nat :=
  match b with
  | .aon => Reg.aonEvcViol
  | .gnt => Reg.gntEvcViol
  | .ident => Reg.idEvcViol
  | .cph | .cphA => Reg.cphEvcViol
  | .hpt | .hptP => Reg.hptEvcViol
  | .slt => Reg.sltEvcViol
  | .brm | .brmP => Reg.brmEvcViol
  | .seam => Reg.seamEvcViol n
  | .me => Reg.meEvcViol n
  | .cuf => Reg.cufEvcViol n
  | .lnr => Reg.lnrEvcViol
  | .vsr => Reg.vsrEvcViol
  | .seq => Reg.seqEvcViol
  | .row => Reg.rowEvcViol n
  | .tpx => Reg.tpxEvcViol

/-- A violation counted in the block addressed, or in Gauntlet's counter outside every block (R521, R531). -/
def State.violAt (s : State) (b : Option (Block × Nat × Nat)) : State :=
  match b with
  | some x => s.count (x.1.violAddr x.2.1)
  | none => s.count Reg.gntEvcViol

/-- The bits of a register with an access code (R7). -/
def RegRow.mask (r : RegRow) (a : Access) : Nat :=
  sumNat ((r.fields.filter fun f => f.acc == a).map fun f => 2 ^ (f.hi + 1) - 2 ^ f.lo)

/-- The RWT bits: those so marked, and every bit that no field names (R533). -/
def RegRow.rwt (r : RegRow) : Nat := 2 ^ 32 - 1 - (r.mask .ro + r.mask .rw + r.mask .w1c + r.mask .wo)

/-- The registers of an engine or row unit in a powered-off cluster (R525). -/
def State.poweredOff (s : State) (b : Block) (n : Nat) : Bool :=
  match b with
  | .me => s.gated (4096 + n / 4)
  | .row => s.gated (4096 + n)
  | _ => false

/-- Only Mitten's controller issues accesses in power states AON, SAFE and RESET (R525). -/
def State.quiet (s : State) : Bool := s.power == 0 || s.power == 3 || s.power == 4

/-! ### Restrictions of the chapters (R538) -/

/-- Bring-up, and layout-epoch boundaries (R329, R559). -/
def State.seamOpen (s : State) : Bool := s.power == 1 || (s.configOpen && !s.job.start)

/-- The Cuff's configuration is open in a partition: job start, and a boundary while MIGRATING is 1 (R193). -/
def State.cuffOpen (s : State) (p : Nat) : Bool :=
  s.job.start || (s.configOpen && s.fld (Reg.cufEpoch p) 16 1 == 1)

/-- A pair with one of its words replaced. -/
def pairWith (lo hi : Nat) (first : Bool) (v : Nat) : Nat := if first then v + 2 ^ 32 * hi else lo + 2 ^ 32 * v

/-- A sequencer register takes a new value (R241, R245, R271). -/
def State.seqMayWrite (s : State) (off v : Nat) : Bool :=
  if off ∈ [0x8, 0x10, 0x20, 0x24, 0x28, 0x2C, 0x40, 0x44, 0x50, 0x54, 0x58] then s.configOpen
  else if 0x200 ≤ off ∧ off < 0x700 then
    let k := (off - 0x200) / 0x20
    let o := off % 0x20
    if o < 0x10 then s.configOpen
    else if o = 0x14 then decide ((v + 2 ^ 32 - s.reg (Reg.seqSHead k)) % 2 ^ 32 ≤ s.reg (Reg.seqSLen k))
    else true
  else if 0xB80 ≤ off ∧ off < 0xC00 then false
  else if 0xC00 ≤ off ∧ off < 0x1000 ∧ off % 0x10 = 0 then s.configOpen
  else true

/-- A host-port register takes a new value (R439, R449). -/
def State.hptMayWrite (s : State) (off v : Nat) : Bool :=
  if off ∈ [0x8, 0x28, 0x2C, 0x30] then s.job.start
  else if off = 0x20 ∨ off = 0x24 then
    decide (pairWith (s.reg Reg.hptEvqConsLo) (s.reg Reg.hptEvqConsHi) (off == 0x20) v ≤ Regs.pair s.regs Reg.hptEvqProdLo)
  else true

/-- A Gauntlet register takes a new value (R486, R513). -/
def gntMayWrite (m : Master) (off v : Nat) : Bool :=
  if off ∈ [0x8, 0x14, 0x20, 0x24, 0x28] then m.isPolicy && (off != 0x8 || decide (1000 ≤ v % 2 ^ 24)) else true

/-- A Visor register takes a new value (R515). -/
def State.vsrMayWrite (s : State) (m : Master) (off : Nat) : Bool :=
  if off = 0x70 ∨ (0x200 ≤ off ∧ off < 0x280) then m.isPolicy
  else if off ∈ [0x8, 0xC, 0x10, 0x4C] ∨ (0x20 ≤ off ∧ off < 0x48) then s.configOpen
  else true

/-- A TPX register takes a new value (R508, R510). -/
def State.tpxMayWrite (s : State) (m : Master) (off v : Nat) : Bool :=
  s.testPermit && (m.isPolicy || m.isService) &&
    (!(decide (0x20 ≤ off) && decide (off < 0x30)) || decide (bits v 8 8 ≤ max 1 (bits v 16 8)))

/-- No rule of a chapter refuses a write of the whole value `v` by a master (R526, R538). -/
def State.mayWrite (s : State) (m : Master) (b : Block) (n off v : Nat) : Bool :=
  match b with
  | .aon => if off = 0x10 then m.isPolicy else if off = 0x50 then v % 256 != 0 else true
  | .gnt => gntMayWrite m off v
  | .ident => if off = 0x10 ∨ (0x20 ≤ off ∧ off < 0x40) then s.fld Reg.idStatus 14 1 == 0 else true
  | .hpt => s.hptMayWrite off v
  | .slt => if off ∈ [0x8, 0x10, 0x14, 0x18, 0x20, 0x24, 0x28, 0x2C, 0x30, 0x34] then s.configOpen else true
  | .brm => if off ∈ [0x8, 0x20, 0x24, 0x28] then s.job.start else true
  | .brmP => if off ∈ [0x8, 0xC, 0x10, 0x14, 0x18] then s.job.start else true
  | .seam => if off ∈ [0x8, 0xC, 0x1C] ∨ (0x804 ≤ off ∧ off < 0x820) then s.seamOpen else true
  | .me => if off = 0x8 then !bit v 0 || s.testPermit else true
  | .cuf => if off ∈ [0x8, 0xC, 0x10, 0x14, 0x18, 0x1C, 0x20, 0x24] then s.cuffOpen n else true
  | .lnr => if 0x200 ≤ off then s.configOpen else true
  | .vsr => s.vsrMayWrite m off
  | .seq => s.seqMayWrite off v
  | .tpx => s.tpxMayWrite m off v
  | .cph | .cphA | .hptP | .row => true

/-! ### What a write does -/

/-- A Seam link's ENABLE written: the link trains, or carries nothing (R327). -/
def State.enableLink (s : State) (n v : Nat) : State :=
  if bit v 0 ∧ s.linkState n = 0 then s.putLinkState n 1
  else if !bit v 0 ∧ s.linkState n ≠ 6 then s.putLinkState n 0
  else s

/-- The action of a written value `v`, its fields stored (R526): WO fields, and the registers whose value a unit follows at
once. -/
def State.actOn (s : State) (m : Master) (b : Block) (n off v : Nat) : State :=
  match b with
  | .aon => if off = 0x10 ∧ bit v 0 then s.startReset 4 (bit v 1) else s
  | .gnt =>
    if off = 0x14 then s.ack (bits v 0 6) (bits v 8 2)
    else if off = 0x18 then s.dismissBits 0 v
    else if off = 0x1C then s.dismissBits 32 v
    else if off = 0x20 ∧ bit v 0 then (match m with | .policy k => s.restartWatchdog k | _ => s)
    else if off = 0x28 ∧ bit v 0 then s.unfreeze
    else s
  | .ident => if off = 0x10 ∧ bit v 0 then s.startReport ((List.range 8).flatMap fun i => leBytes 4 (s.reg (Reg.idNonce i))) else s
  | .hpt => if off = 0x20 ∨ off = 0x24 then s.pumpEvents else s
  | .slt => if off = 0x58 then touchListPostEffect v s else s
  | .seam => if off = 0x8 then s.enableLink n v else s
  | .me =>
    if off = 0x20 then
      let r := if bit v 0 then clearBank s.regs n 0 else s.regs
      { s with regs := if bit v 1 then clearBank r n 1 else r }
    else s
  | .vsr => if off = 0x70 ∧ bit v 0 then s.goEntry s.windowTail else s
  | .lnr =>
    if 0x200 ≤ off ∧ off % 0x80 < 8 then
      let st := (off - 0x200) / 0x80
      { s with regs := setHead s.regs st (Regs.pair s.regs (Reg.lnrSBaseLo st)) }
    else s
  | .cph | .cphA | .hptP | .brm | .brmP | .cuf | .seq | .row | .tpx => s

/-- The stored bits after a write of `v` (R526, R527); WO bits hold nothing. -/
def RegRow.stored (r : RegRow) (permit : Bool) (cur v : Nat) : Nat :=
  (cur &&& r.mask .ro) + (v &&& r.mask .rw) + (cur &&& r.mask .w1c &&& (2 ^ 32 - 1 - v % 2 ^ 32)) +
    ((if permit then v else cur) &&& r.rwt)

/-- The registers hold what a write leaves; a cue's change is noted for its readers (R244). -/
def State.storeWord (s : State) (b : Block) (n off v : Nat) : State :=
  if b = .seq ∧ 0x800 ≤ off ∧ off < 0xB80 then s.setCue ((off - 0x800) / 4) v s.now else s.put (b.base n + off) v

/-- Before a write of a register of an engine whose bits its drains set, what they have set by now stands in it; a clear of
a bank comes before the increments of its own cycle (R100). -/
def State.settleFor (s : State) (b : Block) (n off : Nat) : State :=
  if b = .me ∧ off = 0x20 then (s.settleBank 0 s.now n).settleBank 1 s.now n
  else if b = .me ∧ off = 0x13C then s.settleEngine n
  else s

/-- A write that no rule refuses (R526, R527): RWT bits that it would change are counted once. -/
def State.writeFields (s : State) (m : Master) (b : Block) (n off : Nat) (r : RegRow) (v : Nat) : State :=
  let s := s.settleFor b n off
  let cur := s.reg (b.base n + off)
  let s := if (cur ^^^ v) &&& r.rwt = 0 then s else s.count (b.violAddr n)
  (s.storeWord b n off (r.stored s.testPermit cur v)).actOn m b n off v

/-- A remote write may act whole on a register (R430). -/
def remoteWhole (b : Block) (off : Nat) : Bool :=
  match b with
  | .ident => off == 0x10 || (decide (0x20 ≤ off) && decide (off < 0x40))
  | .hpt => off == 0x20 || off == 0x24
  | _ => false

/-- A remote write acts on the W1C fields of a register alone (R430); TPX refuses every one (R508). -/
def remoteW1c (b : Block) (r : RegRow) : Bool := b != .tpx && r.mask .w1c != 0

/-- A word write refused to a remote master (R430). -/
def State.refuseRemote (s : State) : State := s.count Reg.hptEvcWrefused

/-- A word write at a register's own address (R526, R527, R430, R525, R533). -/
def State.writeWord (s : State) (m : Master) (a v : Nat) : State :=
  match locate a with
  | none => if m = .remote then s.refuseRemote else s.count Reg.gntEvcViol
  | some (b, n, off) =>
    match b.regRow n off with
    | none => if m = .remote then s.refuseRemote else s.count (b.violAddr n)
    | some r =>
      if m = .remote ∧ !remoteWhole b off ∧ !remoteW1c b r then s.refuseRemote
      else if s.poweredOff b n then s.count (b.violAddr n)
      else if m = .remote ∧ !remoteWhole b off then
        let ones := v &&& r.mask .w1c
        (s.put a (s.reg a &&& (2 ^ 32 - 1 - ones))).actOn m b n off ones
      else if !s.mayWrite m b n off v then s.count (b.violAddr n)
      else s.writeFields m b n off r v

/-! ### Aliases (R480, R534 to R537) -/

/-- What an alias does to RW bits: set, clear or toggle (R535). -/
inductive AliasOp where
  | set | clear | toggle
  deriving DecidableEq, Repr

/-- The RW bits after an alias write. -/
def AliasOp.apply (o : AliasOp) (cur v : Nat) : Nat :=
  match o with
  | .set => cur ||| v
  | .clear => cur &&& (2 ^ 32 - 1 - v % 2 ^ 32)
  | .toggle => cur ^^^ v

/-- A word write of `v` through an alias of address `a` (R535): RW bits act, and a 1 elsewhere is counted once; every
restriction of a direct write binds. -/
def State.writeAlias (s : State) (m : Master) (o : AliasOp) (a v : Nat) : State :=
  if m = .remote then s.refuseRemote
  else match locate a with
  | none => s.count Reg.gntEvcViol
  | some (b, n, off) =>
    if b = .aon then s.count Reg.gntEvcViol
    else match b.regRow n off with
    | none => s.count (b.violAddr n)
    | some r =>
      let cur := s.reg a
      let rw := r.mask .rw
      let new := cur - (cur &&& rw) + (o.apply cur v &&& rw)
      if s.poweredOff b n || !s.mayWrite m b n off new then s.count (b.violAddr n)
      else
        let s := if v % 2 ^ 32 &&& (2 ^ 32 - 1 - rw) = 0 then s else s.count (b.violAddr n)
        if rw = 0 then s else (s.storeWord b n off new).actOn m b n off (new &&& rw)

/-- A word write of a Mitten bit alias at offset `x` of its region (R480): one bit of the register under its access code. -/
def State.writeBit (s : State) (m : Master) (x v : Nat) : State :=
  let off := 4 * (x / 128)
  let i := x % 128 / 4
  if m = .remote then s.refuseRemote
  else match Block.aon.regRow 0 off with
  | none => s.count Reg.aonEvcViol
  | some r =>
    let one := 2 ^ i
    let on := bit v 0
    let cur := s.reg off
    if r.mask .rw &&& one ≠ 0 then
      let new := if on then cur ||| one else cur - (cur &&& one)
      if s.mayWrite m .aon 0 off new then s.put off new else s.count Reg.aonEvcViol
    else if r.mask .w1c &&& one ≠ 0 then (if on then s.put off (cur - (cur &&& one)) else s)
    else if r.mask .wo &&& one ≠ 0 then
      if !s.mayWrite m .aon 0 off one then s.count Reg.aonEvcViol
      else if on then s.actOn m .aon 0 off one else s
    else s.count Reg.aonEvcViol

/-- Where an address of the window leads (R520, R534). -/
inductive Target where
  | direct (a : Nat)
  | aliasOf (o : AliasOp) (a : Nat)
  | bit (x : Nat)
  | nowhere
  deriving DecidableEq, Repr

/-- The target of an address. -/
def targetOf (a : Nat) : Target :=
  if a < 0x400000 then .direct a
  else if a < 0x800000 then .aliasOf .set (a - 0x400000)
  else if a < 0xC00000 then .aliasOf .clear (a - 0x800000)
  else if a < 0xE00000 then .aliasOf .toggle (a - 0xC00000)
  else if a < 0xE20000 then .bit (a - 0xE00000)
  else .nowhere

/-- The block instance that serves an address; none outside every block (R520, R521). -/
def Target.block : Target → Option (Block × Nat × Nat)
  | .direct a => locate a
  | .aliasOf _ a => if a < 0x10000 then none else locate a
  | .bit x => some (.aon, 0, 4 * (x / 128))
  | .nowhere => none

/-- A word write at an aligned address. -/
def State.writeAt (s : State) (m : Master) (a v : Nat) : State :=
  match targetOf a with
  | .direct x => s.writeWord m x v
  | .aliasOf o x => s.writeAlias m o x v
  | .bit x => s.writeBit m x v
  | .nowhere => if m = .remote then s.refuseRemote else s.count Reg.gntEvcViol

/-! ### Reads (R528 to R530) -/

/-- Offsets of the low words of 64-bit pairs (R529), the first of each row; the base registers of streams and stages
repeat. -/
def Block.lowOffs : Block → List Nat
  | .aon => [0x30]
  | .ident => [0x0]
  | .cph => [0x100, 0x108, 0x110]
  | .cphA => [0x10]
  | .hpt => [0x18, 0x20, 0x28]
  | .hptP => [0x100, 0x108]
  | .slt => [0x10, 0x20, 0x38, 0x40, 0x48, 0x100, 0x108]
  | .brm => [0x20]
  | .brmP => [0x40, 0x48, 0x100, 0x108]
  | .seam => [0x40, 0x100, 0x108, 0x808, 0x810, 0x818]
  | .me => [0x18, 0x38, 0x100, 0x108]
  | .cuf => [0x10, 0x18, 0x20, 0x100, 0x108]
  | .lnr => [0x100, 0x108, 0x200, 0x208, 0x210, 0x220, 0x238, 0x240]
  | .vsr => [0x20, 0x28, 0x30, 0x38, 0x50, 0x60]
  | .seq => [0x20, 0x40, 0x100, 0x108, 0x204]
  | .row => [0x100, 0x108]
  | .gnt | .tpx => []

/-- A register is `X_LO` of a pair (R529). -/
def Block.isLow (b : Block) (n off : Nat) : Bool :=
  match b.regRow n off with
  | some r => b.lowOffs.contains r.off
  | none => false

/-- A read of a test-access value that R109 refuses: closed, or the high word behind a refused low word. -/
def State.taccRefused (s : State) (m : Master) (b : Block) (n off : Nat) : Bool :=
  b == .me && isTacc off &&
  match Tbl.get? s.shadows (b.base n) with
  | some h => if off = 0x3C ∧ h.off = 0x38 ∧ h.master = m.unit then h.refused else !s.taccOpen n
  | none => !s.taccOpen n

/-- The word that a direct read of a register by a master returns, without its latch (R529, R478): the shadow for a high
word whose low word the same master read last. -/
def State.peek (s : State) (m : Master) (b : Block) (n off : Nat) : Nat :=
  if s.poweredOff b n || (b.regRow n off).isNone then 0
  else
    let live := s.liveIn b n off
    match Tbl.get? s.shadows (b.base n) with
    | none => live
    | some h =>
      if h.master ≠ m.unit then live
      else if b = .aon ∧ h.off = 0x38 then (if off = 0x3C then h.hi.toNat else if off = 0x40 then h.hi2.toNat else live)
      else if off = h.off + 4 ∧ b.isLow n h.off then h.hi.toNat
      else live

/-- The latch of a direct read of a low word (R529, R478). -/
def State.latch (s : State) (m : Master) (b : Block) (n off : Nat) : State :=
  if b = .aon ∧ off = 0x38 then
    let h : Shadow := ⟨off, m.unit, BitVec.ofNat 32 (s.liveIn b n 0x3C), BitVec.ofNat 32 (s.liveIn b n 0x40), false⟩
    { s with shadows := s.shadows.set (b.base n) h }
  else if b.isLow n off && !s.poweredOff b n then
    let h : Shadow := ⟨off, m.unit, BitVec.ofNat 32 (s.liveIn b n (off + 4)), 0, b == .me && off == 0x38 && !s.taccOpen n⟩
    { s with shadows := s.shadows.set (b.base n) h }
  else s

/-- A refused test access counted once (R109). -/
def State.taccCount (s : State) (refused : Bool) (n : Nat) : State := s.countN (Reg.meEvcViol n) (b2n refused)

/-- Parity is checked on every access to Gauntlet (R492). -/
def State.checkParity (s : State) (t : Target) : State :=
  match t.block with
  | some (.gnt, _, off) => if s.gnt.bad.contains off then s.parityFault off else s
  | _ => s

/-- A read of the aligned word at a target: its value, and the state with its latch and counts. -/
def State.readWord (s : State) (m : Master) (t : Target) : State × Nat :=
  match t.block, t with
  | some (b, n, off), .direct _ =>
    let refused := s.taccRefused m b n off && !s.poweredOff b n
    let v := if refused then 0 else s.peek m b n off
    ((s.latch m b n off).taccCount refused n, v)
  | some (b, n, off), .aliasOf _ _ =>
    let refused := s.taccRefused m b n off && !s.poweredOff b n
    (s.taccCount refused n, if refused then 0 else s.peek m b n off)
  | some (b, n, off), .bit x => (s, bits (s.peek m b n off) (x % 128 / 4) 1)
  | _, _ => (s.count Reg.gntEvcViol, 0)

/-- An aligned 64-bit read (R530): both words of one cycle, loading the shadow as a read of the low word would. -/
def State.readPair (s : State) (m : Master) (a : Nat) : State × Nat :=
  match targetOf a, (targetOf a).block with
  | .bit x, some (b, n, off) =>
    (s, bits (s.peek m b n off) (x % 128 / 4) 1 + 2 ^ 32 * bits (s.peek m b n off) ((x + 4) % 128 / 4) 1)
  | t, some (b, n, off) =>
    let off4 := off + 4
    let word (o : Nat) : Nat := if s.poweredOff b n || (b.regRow n o).isNone then 0 else s.liveIn b n o
    let refused := (b == .me && (isTacc off || isTacc off4)) && !s.taccOpen n && !s.poweredOff b n
    let v := word off + 2 ^ 32 * word off4
    let s := match t with
      | .direct _ => s.latch m b n off
      | _ => s
    (s.taccCount refused n, v)
  | _, none => (s.count Reg.gntEvcViol, 0)

/-! ### Accesses of every size (R531) -/

/-- All ones of `n` bytes. -/
def ones (n : Nat) : Nat := 2 ^ (8 * n) - 1

/-- The value of a read of `size` bytes at `a`, with its counts and latch. -/
def State.readSized (s : State) (m : Master) (a size : Nat) : State × Nat :=
  if a % max 1 size ≠ 0 then (s.violAt (targetOf a).block, ones size)
  else if size = 8 then s.readPair m a
  else
    let r := s.readWord m (targetOf (a / 4 * 4))
    (r.1, bits r.2 (8 * (a % 4)) (8 * size))

/-- A write of `size` bytes at `a`: narrow and unaligned writes are counted once; a 64-bit write is two word writes, the low
word first (R530, R531). -/
def State.writeSized (s : State) (m : Master) (a size v : Nat) : State :=
  if m = .remote ∧ (size < 4 ∨ a % 4 ≠ 0) then s.refuseRemote
  else if size < 4 ∨ a % max 1 size ≠ 0 then s.violAt (targetOf a).block
  else if size = 8 then (s.writeAt m a (v % 2 ^ 32)).writeAt m (a + 4) (v / 2 ^ 32 % 2 ^ 32)
  else s.writeAt m a (v % 2 ^ 32)

/-- The time an access takes (R523): 40 cc, from Mitten's controller with the 2 or 3 cc of its crossing; or 8 ac from the
always-on edge that takes it, which lies within 2 ac of an access from the core domain (R557, log 2). With the core clock
stopped an access outside Mitten and Gauntlet ends at once. -/
def State.accessTime (s : State) (m : Master) (t : Target) : State :=
  match t.block with
  | some (.aon, _) | some (.gnt, _) =>
    if m = .mitten then s.atAc (s.clk.acnt + 8) else (s.atAc (s.clk.acnt + 9 + s.freeBelow 2)).tookFree
  | _ =>
    if s.quiet then s
    else if m = .mitten then (s.atCycle (s.now + 42 + s.freeBelow 2)).tookFree
    else s.atCycle (s.now + 40)

/-- A master can issue an access (R518, R525): Mitten's controller always, the others while the core runs, a service core
while it is awake and not isolated (R250, R488). -/
def State.mayIssue (s : State) (m : Master) : Bool :=
  !s.pins.porst &&
  match m with
  | .mitten => true
  | .service k => !(s.quiet || s.clk.held) && s.awake (0xA0 + k) && !s.isolated (0xA0 + k)
  | .policy _ | .remote => !(s.quiet || s.clk.held)

/-- What Mitten's controller reaches in the quiet power states (R525): Mitten, Gauntlet, and the ranges outside every block,
which Gauntlet counts (R521). -/
def Target.alwaysOn (t : Target) : Bool :=
  match t.block with
  | some (.aon, _) | some (.gnt, _) | none => true
  | _ => false

/-- A register read by a master: the data go to `bus`. -/
def State.readAccess (s : State) (m : Master) (a size : Nat) : State :=
  if !s.mayIssue m then s
  else
    let t := targetOf a
    if s.quiet && !t.alwaysOn then { s with bus := List.replicate size 0 }
    else
      let s := (s.accessTime m t).checkParity t
      let r := s.readSized m a size
      { r.1 with bus := leBytes size r.2 }

/-- A register write by a master. -/
def State.writeAccess (s : State) (m : Master) (a size v : Nat) : State :=
  if !s.mayIssue m then s
  else
    let t := targetOf a
    if s.quiet && !t.alwaysOn then s
    else ((s.accessTime m t).checkParity t).writeSized m a size v

/-! ### JTAG (R545) -/

/-- JTAG_INSTRUCTION: a refused instruction loads BYPASS and is counted; IDCODE shifts the part's code out. -/
def jtagEffect (i : JtagInsn) (s : State) : State :=
  let ok := match i with
    | .bypass | .idcode | .samplePreload => true
    | .extest => s.power == 0 || s.testPermit
    | .vendor _ => s.testPermit
  let s := { s with pins := { s.pins with jtag := if ok then i else .bypass } }
  let s := if i = .idcode then { s with bus := leBytes 4 0x14800A3B } else s
  if ok then s else s.count Reg.aonEvcViol

end Sys2Proof.Machine
end

