-- ==== Sys2Proof/Machine/Remote.lean ====
section
/-! DEFINITION. The coordinator's requests over RoCE (13_host_ports_and_images, 16_register_interface): READs and WRITEs of the two
memory regions, SENDs and unsupported requests (R427 to R430, R532). -/

namespace Sys2Proof.Machine

/-! ### Records and packets (R428) -/

/-- A record's HSEQ is a replay: accepted before, or more than 2^20 below the highest accepted (R428). -/
def HPort.replayed (p : HPort) (q : Nat) : Bool :=
  p.hseqs.contains q || (match p.hseqHi with | some h => decide (q + 2 ^ 20 < h) | none => false)

/-- An HSEQ accepted; those that the distance alone refuses need no entry. -/
def HPort.accept (p : HPort) (q : Nat) : HPort :=
  let hi := match p.hseqHi with | some h => max h q | none => q
  { p with hseqHi := some hi, hseqs := (p.hseqs ++ [q]).filter fun x => decide (hi ≤ x + 2 ^ 20) }

/-- A host port takes the coordinator's requests: its link is up and its association established (R425, R428). -/
def State.hostOpen (s : State) (h : Nat) : Bool := decide (h < 4) && s.hostAssoc h && s.fld (Reg.hptHStatus h) 0 1 == 1

/-- A RoCE packet of the coordinator with `ext` bytes of extended headers and `n` of plaintext arrives: received and, where
its HSEQ is no replay, acted on by `f`. -/
def State.packet (s : State) (h hseq ext n : Nat) (f : State → State) : State :=
  if !s.hostOpen h then s
  else
    let s := s.received h (s.host.roceFrame h ext n)
    if (s.hport h).replayed hseq then s.count (Reg.hptHEvcReplay h)
    else f (s.setHport h ((s.hport h).accept hseq))

/-- An acknowledgement, a NAK or a response packet leaves (R427, R428): an AETH and `n` bytes. -/
def State.respond (s : State) (h ext n : Nat) : State :=
  { s with regs := Regs.count64 s.regs (Reg.hptHTxbytesLo h) (s.host.roceFrame h ext n) }

/-- The packets of a READ's response: 4,064 bytes each, with an AETH on the first and the last (R428). -/
def State.respondRead (s : State) (h n : Nat) : State :=
  let k := max 1 ((n + 4063) / 4064)
  (List.range k).foldl (fun s i => s.respond h (if i = 0 ∨ i + 1 = k then 4 else 0) (min 4064 (n - 4064 * i))) s

/-- A request the device does not serve: a NAK, counted (R427). -/
def State.invalid (s : State) (h : Nat) : State := (s.respond h 4 0).count Reg.hptEvcViol

/-! ### Accesses to MR0 (R529 to R532) -/

/-- One access of a remote READ whose data follow those on the bus. -/
def State.readNext (s : State) (a size : Nat) : State :=
  let t := s.readAccess .remote a size
  { t with bus := s.bus ++ t.bus }

/-- The aligned 64-bit reads of `n` pairs from `a` on. -/
def State.readPairs (s : State) : Nat → Nat → State
  | 0, _ => s
  | n + 1, a => (s.readNext a 8).readPairs n (a + 8)

/-- A READ of MR0 (R532): one access up to 8 bytes, else aligned 64-bit reads between a leading and a trailing word; a
misaligned one returns 0xFF and is counted once. -/
def State.readMr0 (s : State) (a n : Nat) : State :=
  if n = 0 then { s with bus := [] }
  else if a % 4 ≠ 0 ∨ n % 4 ≠ 0 then { s.violAt (targetOf a).block with bus := List.replicate n 0xFF }
  else if n ≤ 8 then s.readAccess .remote a n
  else
    let s := { s with bus := [] }
    let lead := decide (a % 8 = 4)
    let s := if lead then s.readNext a 4 else s
    let b := if lead then a + 4 else a
    let m := if lead then n - 4 else n
    let s := s.readPairs (m / 8) b
    if m % 8 = 4 then s.readNext (b + m / 8 * 8) 4 else s

/-- The word writes of a long WRITE, in ascending order (R532). -/
def State.writeWords (s : State) : Nat → Nat → List Byte → State
  | 0, _, _ => s
  | n + 1, a, d => (s.writeAccess .remote a 4 (leNat (d.take 4))).writeWords n (a + 4) (d.drop 4)

/-- A WRITE of MR0 (R532): one access of 4 or 8 bytes, else word writes; a misaligned one is one refused write (R430). -/
def State.writeMr0 (s : State) (a : Nat) (d : List Byte) : State :=
  if d.isEmpty then s
  else if a % 4 ≠ 0 ∨ d.length % 4 ≠ 0 then s.refuseRemote
  else if d.length ≤ 8 then s.writeAccess .remote a d.length (leNat d)
  else s.writeWords (d.length / 4) a d

/-! ### The requests -/

/-- RDMA_READ (R427, R429, R532): registers of MR0, or the rings of MR1; anything else is invalid. -/
def rdmaReadEffect (h hseq region a n : Nat) (s : State) : State :=
  s.packet h hseq 16 0 fun s =>
    if region = 0 ∧ a + n ≤ 0x1000000 then (s.readMr0 a n).respondRead h n
    else if region = 1 ∧ a + n ≤ s.ringBytes then
      { s.respondRead h n with bus := s.hbm.read (Regs.pair s.regs Reg.vsrRingBaseLo + a) n }
    else s.invalid h

/-- RDMA_WRITE (R427, R429, R430, R532): words of MR0, acknowledged whatever the registers make of them. -/
def rdmaWriteEffect (h hseq a : Nat) (d : List Byte) (s : State) : State :=
  s.packet h hseq 16 d.length fun s =>
    if a + d.length ≤ 0x1000000 then (s.writeMr0 a d).respond h 4 0 else s.invalid h

/-- RDMA_SEND (R427): acknowledged on a queue pair of the port; the manual gives its data no use. -/
def rdmaSendEffect (h hseq qpn : Nat) (d : List Byte) (s : State) : State :=
  s.packet h hseq 0 d.length fun s =>
    match s.qp (qpn - 0x10000) with
    | some x => if qpn < 0x10000 ∨ x.port ≠ h then s.invalid h else s.respond h 4 0
    | none => s.invalid h

/-- UNSUPPORTED_REQUEST (R427): an invalid-request NAK, counted. -/
def unsupportedRequestEffect (h hseq : Nat) (s : State) : State := s.packet h hseq 0 0 fun s => s.invalid h

end Sys2Proof.Machine
end

