-- ==== Sys2Proof/WellFormed.lean ====
section
/-! DEFINITION. Well-formed commands: every operand names something the block has, within the ranges of the spec's tables. What
is not well-formed is no command of the block, and nothing follows from it. -/

namespace Sys2Proof

/-- Field `[lo + w - 1 : lo]` of a descriptor (R231). -/
def Cmd.field (c : Cmd) (lo w : Nat) : Nat := c.toNat / 2 ^ lo % 2 ^ w

/-- A descriptor of opcode `o` for a unit from `lo` to `hi` (R231, R232). -/
def Cmd.isFor (c : Cmd) (o lo hi : Nat) : Bool :=
  c.field 0 8 == o && decide (lo ≤ c.field 8 12) && decide (c.field 8 12 ≤ hi)

/-- A command of the sequencer in the program of a stream (R225, R232, R233). -/
def Cmd.inStream (c : Cmd) (n o : Nat) : Bool := decide (n < 40) && c.isFor o 0x1F8 0x1F8

/-- A target of SLEEP: an engine, a row unit, or a cluster, numbered from 4,096 (R250). -/
def gateTarget (k : Nat) : Bool := decide (k < 0xA0) || decide (4096 ≤ k ∧ k < 4128)

/-- A master that exists (R518). -/
def Master.exists' : Master → Bool
  | .service c => decide (c < 256)
  | .policy c => decide (c < 4)
  | .mitten | .remote => true

/-- An access that a master can form: in the 16 MiB window, of 1, 2, 4 or 8 bytes (R520, R531). -/
def accessForm (m : Master) (a size : Nat) : Bool :=
  m.exists' && decide (a < 0x1000000) && (size == 1 || size == 2 || size == 4 || size == 8)

/-- A message's fields fit the header frame (R315). -/
def SeamMsg.fits (m : SeamMsg) : Bool :=
  decide (m.kind < 16 ∧ m.src < 1024 ∧ m.queue < 64 ∧ m.cue < 256 ∧ m.daddr < 2 ^ 48)

/-- A unit that has an ID (R522). -/
def unitExists (u : Nat) : Bool :=
  decide (u < 0x1A9) || decide (0x1B0 ≤ u ∧ u < 0x1D4) || decide (0x1E0 ≤ u ∧ u < 0x1E4) || decide (0x1E8 ≤ u ∧ u < 0x1F1) ||
    u == 0x1F4 || u == 0x1F8 || u == 0x1FC || decide (0x200 ≤ u ∧ u < 0x205)

/-- An inter-site packet's header fields fit their bits (R365). -/
def Packet.fits (k : Packet) : Bool :=
  decide (k.ver < 16 ∧ k.cls < 4 ∧ k.kid < 2 ∧ k.site < 16 ∧ k.route < 4 ∧ k.ext.length = 16 ∧ k.tag.length = 16)

/-- The checks of one command. -/
def wellFormed : Instr → Bool
  | .commandIssue n => decide (n < 40)
  | .prod c => c.isFor 0x20 0 0x7F
  | .tileStart n | .promotion n | .accumulatorSwap n => decide (n < 128)
  | .drain c => c.isFor 0x21 0 0x7F
  | .slotBeatSend c => decide (c < 32)
  | .rowred c => c.isFor 0x30 0x80 0x9F
  | .rowew c => c.isFor 0x31 0x80 0x9F
  | .rowfn c => c.isFor 0x32 0x80 0x9F
  | .rblk c => c.isFor 0x33 0x80 0x9F
  | .tblld c => c.isFor 0x34 0x80 0x9F
  | .rowCommandStart n => decide (n < 32)
  | .stash c => c.isFor 0x38 0x1A8 0x1A8
  | .unstash c => c.isFor 0x39 0x1A8 0x1A8
  | .sreset c => c.isFor 0x3A 0x1A8 0x1A8
  | .linerCommandStart c => decide (c < 32)
  | .send c => c.isFor 0x40 0x1B0 0x1D3
  | .write c => c.isFor 0x41 0x1B0 0x1D3
  | .mcast c => c.isFor 0x42 0x1B0 0x1D3
  | .post c => c.isFor 0x43 0x1B0 0x1D3
  | .start c => c.isFor 0x50 0xA0 0x19F
  | .nop n c => c.inStream n 0x00
  | .advance n c => c.inStream n 0x01
  | .slack n c => c.inStream n 0x02
  | .waitcue n c => c.inStream n 0x03
  | .postcue n c => c.inStream n 0x04
  | .sleep n c => c.inStream n 0x05
  | .unitGate k | .wakeStart k | .wakeComplete k => gateTarget k
  | .qbound n c => c.inStream n 0x06
  | .qwait n c => c.inStream n 0x07
  | .qfree n c => c.inStream n 0x08
  | .bgslot n c => c.inStream n 0x09
  | .bgslotClose => true
  | .expand n c => c.inStream n 0x0A
  | .stepend n c => c.inStream n 0x0B
  | .zcIssue k _ | .zcWait k _ | .zcTime k _ | .zcCue k _ | .zcCuewait k _ | .zcBeat k _ | .zcDone k _ => decide (k < 256)
  | .beatArrival p i | .windowEntry p i | .ingressStallLimit p i => decide (p < 8 ∧ i < 33)
  | .beatAdd p k q => decide (p < 8 ∧ k < 2048 ∧ q < 64)
  | .slotTrigger p k | .slotOpen p k => decide (p < 8 ∧ k < 2048)
  | .cuffEntryStart p | .hbmWriteAck p => decide (p < 8)
  | .hbmReadReturn (.prefetch n _) => decide (n < 40)
  | .hbmReadReturn (.cuff p) => decide (p < 8)
  | .noiseMessage d n _ _ _ => decide (d < 1024 ∧ n < 2 ^ 32)
  | .refreshWindow g => decide (g < 8)
  | .backgroundQuantum cls => decide (cls < 4)
  | .forcedSlot cls => decide (1 ≤ cls ∧ cls < 4)
  | .touchListPost m _ => m.exists'
  | .flashFetchComplete _ _ => true
  | .abortMessage l d n => decide (l < 36 ∧ d < 1024 ∧ n < 2 ^ 32)
  | .censusRecord d e h n ep => decide (d < 1024 ∧ e ≤ 128 ∧ h < 2 ^ 36 ∧ n < 2 ^ 32 ∧ ep < 2 ^ 16)
  | .censusSet d l => decide (d < 1024) && l.all fun x => decide (x < 1024)
  | .censusTimeout | .migrationComplete => true
  | .readyCycleMessage d t => decide (d < 1024 ∧ t < 2 ^ 64)
  | .frameReceive l _ p _ _ => decide (l < 36 ∧ p.length ≤ 256)
  | .egressSlot l | .retryTimeout l | .burstClose l => decide (l < 36)
  | .nak l n => decide (l < 36 ∧ n < 2 ^ 24)
  | .latencyProbe l t => decide (l < 36 ∧ t < 4096)
  | .discoveryIdentity l d p => decide (l < 36 ∧ d < 1024 ∧ p < 36)
  | .alignmentFrame l t d => decide (l < 36 ∧ t < 2 ^ 64 ∧ d < 1024)
  | .laneFail l n => decide (l < 36 ∧ n < 4)
  | .laneChange l n => decide (l < 36 ∧ n < 2)
  | .retrainComplete l _ t => decide (l < 36 ∧ t < 4096)
  | .qdataMessage m | .qcredMessage m | .cueMessage m | .writeMessage m | .ctrlMessage m => m.fits
  | .mcastMessage l m => decide (l < 36) && m.fits
  | .atomicBurst l b => decide (l < 36 ∧ b.length ≤ 16)
  | .roundSend x | .leaderCommit x | .commitDeadline x => decide (x < 2 ^ 32)
  | .round m | .commit m | .join m | .fetch m => decide (m.site < 16 ∧ m.nshard < 2 ^ 16 ∧ m.shard0 < 2 ^ 32 ∧ m.round < 2 ^ 32)
  | .siteSilent n => decide (n < 16)
  | .memberRemoval x n => decide (x < 2 ^ 32 ∧ n < 16)
  | .deltaObject p o | .anchorObject p o => decide (p < 8 ∧ o.site < 16)
  | .classCFragment p k | .classDFrame p k | .probe p k => decide (p < 8) && k.fits
  | .classCRelease p mid | .classCResend p mid => decide (p < 8 ∧ mid < 2 ^ 32)
  | .feedbackReport p k _ => decide (p < 8) && k.fits
  | .probeTimer p | .feedbackTimer p | .packetTransmit p | .partnerLinkDown p => decide (p < 8)
  | .routeDown p q => decide (p < 8 ∧ q < 4)
  | .neighborSolicitation p _ | .echoRequest p _ _ | .neighborAdvertisement p _ _ => decide (p < 8)
  | .macPause p => decide (p < 12)
  | .portLinkUp u => decide (0x1E0 ≤ u ∧ u < 0x1E4) || decide (0x1E8 ≤ u ∧ u < 0x1F0)
  | .recordStart _ a prio len => decide (a < 12 ∧ prio < 4 ∧ len ≤ 16384)
  | .recordComplete _ l n kid _ _ tag => decide (l < 10 ∧ n < 2 ^ 64 ∧ kid < 2 ∧ tag.length = 16)
  | .hello a _ | .finish a _ | .keySlotOverwrite a | .rekeyTimer a | .handshakeRestart a => decide (a < 12)
  | .keyupd a g n => decide (a < 12 ∧ g < 2 ^ 32 ∧ n < 2 ^ 64)
  | .keyack a g => decide (a < 12 ∧ g < 2 ^ 32)
  | .handshakeTimeout h | .contact h | .controlResend h | .hostPortLinkDown h => decide (h < 4)
  | .knownAnswerTest _ => true
  | .alarm n => decide (1 ≤ n ∧ n ≤ 6)
  | .reportSigned | .contactRetry | .jobImageReadComplete => true
  | .assign h mid ack b => decide (h < 4 ∧ mid < 2 ^ 32 ∧ ack < 2 ^ 32 ∧ b.length = 64)
  | .stop h mid ack => decide (h < 4 ∧ mid < 2 ^ 32 ∧ ack < 2 ^ 32)
  | .replace h mid ack b => decide (h < 4 ∧ mid < 2 ^ 32 ∧ ack < 2 ^ 32 ∧ b.length = 24)
  | .rdmaRead h n _ a len => decide (h < 4 ∧ n < 2 ^ 64 ∧ a < 2 ^ 64 ∧ len < 2 ^ 32)
  | .rdmaWrite h n a d => decide (h < 4 ∧ n < 2 ^ 64 ∧ a < 2 ^ 64 ∧ d.length < 2 ^ 32)
  | .rdmaSend h n q d => decide (h < 4 ∧ n < 2 ^ 64 ∧ q < 2 ^ 24 ∧ d.length < 2 ^ 32)
  | .unsupportedRequest h n => decide (h < 4 ∧ n < 2 ^ 64)
  | .roceAckTimeout q | .cnp q | .roceRateRecovery q => decide (q < 65536)
  | .roceResponse q n _ => decide (q < 65536 ∧ n < 2 ^ 24)
  | .dataDescriptorRead n b => decide (n < 2 ^ 32 ∧ b.length = 64)
  | .ptpSync h _ sec ns => decide (h < 4 ∧ sec < 2 ^ 48 ∧ ns < 1000000000)
  | .porstNAssert | .porstNRelease _ | .resetNAssert | .pwrgoodFall => true
  | .bootStepComplete _ | .selfRefreshConfirm _ | .resetRelease | .alarmReset => true
  | .marginEpochEnd | .replanHoldoverTimeout | .frequencyAgreementTimeout | .frequencySwitch | .clockRestart => true
  | .frequencyProposal d p n => decide (d < 1024 ∧ p < 128 ∧ n < 2 ^ 32)
  | .switchCycleMessage d t => decide (d < 1024 ∧ t < 2 ^ 64)
  | .powerSample w => decide (w < 2 ^ 16)
  | .temperatureSample t => decide (t < 2 ^ 10)
  | .faultReport u c a addr d => unitExists u && decide (c < 256 ∧ a < 7 ∧ addr < 2 ^ 48 ∧ d < 2 ^ 24)
  | .escalationNotify e | .escalationIsolate e | .escalationSafe e => decide (e < 64)
  | .ackDismiss m e | .ackAbort m e | .ackIsolate m e | .ackSafe m e => m.exists' && decide (e < 64)
  | .openDismiss m _ _ | .wdtKick m _ | .unfreeze m _ | .dlogPost m _ | .attest m _ | .fullReset m _ | .evqConsWrite m _ _ => m.exists'
  | .watchdogExpiry k => decide (k < 4)
  | .paritySweep none => true
  | .paritySweep (some o) => decide (o < 0x10000)
  | .telemetryPeriod => true
  | .histogramClear m n _ => m.exists' && decide (n < 128)
  | .ringTailWrite m n _ => m.exists' && decide (n < 40)
  | .cueWrite m q _ => m.exists' && decide (q < 224)
  | .testAccessRead m a _ | .lowWordRead m a _ => m.exists' && decide (a < 0x1000000)
  | .registerWrite m a z _ | .setAliasWrite m a z _ | .clearAliasWrite m a z _ | .toggleAliasWrite m a z _
  | .mittenBitAliasWrite m a z _ | .registerRead m a z => accessForm m a z
  | .jtagInstruction _ => true
  | .flashProgramComplete _ _ _ => true
  | .zcWaitResume k => decide (k < 256)

end Sys2Proof
end

