-- ==== Sys2Proof/Machine/Commands.lean ====
section
/-! DEFINITION. The meanings of the commands, one definition each: the effect of its row, in the clock domain that carries it.
A command of the core domain has no effect while the core clock stands; one of the always-on domain none while PORST_N
is asserted; a register access is judged by the register window; what is not well-formed has no effect. -/

namespace Sys2Proof.Machine

/-- The outcome of a meaning. -/
abbrev Out := Host.Outcome State Fault Refusal

/-- A command of the core domain (R491, R474, R470). -/
def State.inCore (s : State) (i : Instr) (f : State → State) : State := if wellFormed i then s.core f else s

/-- A command of the always-on domain (R474). -/
def State.inAlwaysOn (s : State) (i : Instr) (f : State → State) : State := if wellFormed i then s.always f else s

/-- A command that its own rule judges: a pin, a JTAG instruction, or an access to the register window. -/
def State.inWindow (s : State) (i : Instr) (f : State → State) : State := if wellFormed i then f s else s

/-- A command given outside a stream draws under the current step (R50, R281). -/
def State.stepNow (s : State) : Nat := s.reg Reg.seqStep

/-! ### Matrix engines (03_matrix_engines) -/

/-- COMMAND_ISSUE: a stream's next command comes due and issues once R229 holds (R228). -/
def execCommandIssue (stream : Nat) (s : State) : Out :=
  .next (s.inCore (.commandIssue stream) (streamIssueEffect stream))

/-- PROD: an engine accepts PROD (R72). -/
def execProd (cmd : Cmd) (s : State) : Out :=
  .next (s.inCore (.prod cmd) (prodEffect cmd))

/-- TILE_START: a tile's products start (R79). -/
def execTileStart (engine : Nat) (s : State) : Out :=
  .next (s.inCore (.tileStart engine) (tileStartEffect engine))

/-- PROMOTION: a promotion adds a segment's sum to the accumulator (R37). -/
def execPromotion (engine : Nat) (s : State) : Out :=
  .next (s.inCore (.promotion engine) (promotionEffect engine))

/-- DRAIN: an engine accepts DRAIN (R73). -/
def execDrain (cmd : Cmd) (s : State) : Out :=
  .next (s.inCore (.drain cmd) (drainEffect cmd s.stepNow))

/-- ACCUMULATOR_SWAP: the sets exchange and the drain leaves (R89). -/
def execAccumulatorSwap (engine : Nat) (s : State) : Out :=
  .next (s.inCore (.accumulatorSwap engine) (swapEffect engine))

/-- SLOT_BEAT_SEND: a cluster's next beat leaves in its slot (R96). -/
def execSlotBeatSend (cluster : Nat) (s : State) : Out :=
  .next (s.inCore (.slotBeatSend cluster) (slotBeatSendEffect cluster))

/-! ### Row units (04_backward_pass) -/

/-- ROWRED: a row unit accepts ROWRED (R122). -/
def execRowred (cmd : Cmd) (s : State) : Out :=
  .next (s.inCore (.rowred cmd) (rowIssue .red cmd s.stepNow))

/-- ROWEW: a row unit accepts ROWEW (R123). -/
def execRowew (cmd : Cmd) (s : State) : Out :=
  .next (s.inCore (.rowew cmd) (rowIssue .ew cmd s.stepNow))

/-- ROWFN: a row unit accepts ROWFN (R124). -/
def execRowfn (cmd : Cmd) (s : State) : Out :=
  .next (s.inCore (.rowfn cmd) (rowIssue .fn cmd s.stepNow))

/-- RBLK: a row unit accepts RBLK (R115). -/
def execRblk (cmd : Cmd) (s : State) : Out :=
  .next (s.inCore (.rblk cmd) (rowIssue .rblk cmd s.stepNow))

/-- TBLLD: a row unit accepts TBLLD (R125). -/
def execTblld (cmd : Cmd) (s : State) : Out :=
  .next (s.inCore (.tblld cmd) (rowIssue .tblld cmd s.stepNow))

/-- ROW_COMMAND_START: a held row-unit command starts (R118). -/
def execRowCommandStart (unit : Nat) (s : State) : Out :=
  .next (s.inCore (.rowCommandStart unit) (rowCommandStartEffect unit))

/-! ### Liner (04_backward_pass) -/

/-- STASH: Liner accepts STASH (R139). -/
def execStash (cmd : Cmd) (s : State) : Out :=
  .next (s.inCore (.stash cmd) (lnrIssue .stash cmd s.stepNow))

/-- UNSTASH: Liner accepts UNSTASH (R141). -/
def execUnstash (cmd : Cmd) (s : State) : Out :=
  .next (s.inCore (.unstash cmd) (lnrIssue .unstash cmd s.stepNow))

/-- SRESET: Liner accepts SRESET (R142). -/
def execSreset (cmd : Cmd) (s : State) : Out :=
  .next (s.inCore (.sreset cmd) (lnrIssue .sreset cmd s.stepNow))

/-- LINER_COMMAND_START: a held Liner command starts streaming (R134). -/
def execLinerCommandStart (cluster : Nat) (s : State) : Out :=
  .next (s.inCore (.linerCommandStart cluster) (linerCommandStartEffect cluster))

/-! ### Commands to the Seam (09_seam_links) -/

/-- SEND: a Seam link accepts SEND (R312). -/
def execSend (cmd : Cmd) (s : State) : Out :=
  .next (s.inCore (.send cmd) (seamIssue .send cmd))

/-- WRITE: a Seam link accepts WRITE (R312). -/
def execWrite (cmd : Cmd) (s : State) : Out :=
  .next (s.inCore (.write cmd) (seamIssue .write cmd))

/-- MCAST: a Seam link accepts MCAST (R320). -/
def execMcast (cmd : Cmd) (s : State) : Out :=
  .next (s.inCore (.mcast cmd) (seamIssue .mcast cmd))

/-- POST: a Seam link accepts POST (R312). -/
def execPost (cmd : Cmd) (s : State) : Out :=
  .next (s.inCore (.post cmd) (seamIssue .post cmd))

/-! ### Sequencer and service cores (07_clockwork) -/

/-- START: the START of a service core's routine (R232). -/
def execStart (cmd : Cmd) (s : State) : Out :=
  .next (s.inCore (.start cmd) (startEffect cmd (s.reg Reg.seqStep)))

/-- NOP: nothing but the count of reserved bits (R233). -/
def execNop (stream : Nat) (cmd : Cmd) (s : State) : Out :=
  .next (s.inCore (.nop stream cmd) (nopEffect cmd))

/-- ADVANCE: the stream's planned offset moves on (R233). -/
def execAdvance (stream : Nat) (cmd : Cmd) (s : State) : Out :=
  .next (s.inCore (.advance stream cmd) (advanceEffect stream cmd))

/-- SLACK: the stream's lag shrinks (R233). -/
def execSlack (stream : Nat) (cmd : Cmd) (s : State) : Out :=
  .next (s.inCore (.slack stream cmd) (slackEffect stream cmd))

/-- WAITCUE: the stream passes once the cue is reached (R243). -/
def execWaitcue (stream : Nat) (cmd : Cmd) (s : State) : Out :=
  .next (s.inCore (.waitcue stream cmd) (waitcueEffect stream cmd))

/-- POSTCUE: a cue is added to (R233). -/
def execPostcue (stream : Nat) (cmd : Cmd) (s : State) : Out :=
  .next (s.inCore (.postcue stream cmd) (postcueEffect cmd))

/-- SLEEP: a unit is to gate, and its wake is planned (R250). -/
def execSleep (stream : Nat) (cmd : Cmd) (s : State) : Out :=
  .next (s.inCore (.sleep stream cmd) (sleepEffect cmd))

/-- UNIT_GATE: a unit's gating completes (R250). -/
def execUnitGate (target : Nat) (s : State) : Out :=
  .next (s.inCore (.unitGate target) (unitGateEffect target))

/-- WAKE_START: a unit's wake begins (R250). -/
def execWakeStart (target : Nat) (s : State) : Out :=
  .next (s.inCore (.wakeStart target) (wakeStartEffect target))

/-- WAKE_COMPLETE: a unit's wake completes (R101). -/
def execWakeComplete (target : Nat) (s : State) : Out :=
  .next (s.inCore (.wakeComplete target) (wakeCompleteEffect target))

/-- QBOUND: a credit of a queue is taken (R247). -/
def execQbound (stream : Nat) (cmd : Cmd) (s : State) : Out :=
  .next (s.inCore (.qbound stream cmd) (qboundEffect stream cmd))

/-- QWAIT: the stream passes once a message has arrived (R247). -/
def execQwait (stream : Nat) (cmd : Cmd) (s : State) : Out :=
  .next (s.inCore (.qwait stream cmd) (qwaitEffect stream cmd))

/-- QFREE: a message is consumed and a credit returned (R248). -/
def execQfree (stream : Nat) (cmd : Cmd) (s : State) : Out :=
  .next (s.inCore (.qfree stream cmd) (qfreeEffect cmd))

/-- BGSLOT: a background slot opens (R258). -/
def execBgslot (stream : Nat) (cmd : Cmd) (s : State) : Out :=
  .next (s.inCore (.bgslot stream cmd) (bgslotEffect stream cmd))

/-- BGSLOT_CLOSE: the background slot closes (R258). -/
def execBgslotClose (s : State) : Out :=
  .next (s.inCore .bgslotClose bgslotCloseEffect)

/-- EXPAND: an expansion begins (R237). -/
def execExpand (stream : Nat) (cmd : Cmd) (s : State) : Out :=
  .next (s.inCore (.expand stream cmd) (expandEffect stream cmd))

/-- STEPEND: the program begins again for the next step (R233). -/
def execStepend (stream : Nat) (cmd : Cmd) (s : State) : Out :=
  .next (s.inCore (.stepend stream cmd) (streamEndEffect stream cmd))

/-- ZC_ISSUE: a command goes to a compatibility ring (R265). -/
def execZcIssue (core : Nat) (insn : Word) (s : State) : Out :=
  .next (s.inCore (.zcIssue core insn) (zcIssueEffect core insn))

/-- ZC_WAIT: the hart waits for a cycle (R265). -/
def execZcWait (core : Nat) (insn : Word) (s : State) : Out :=
  .next (s.inCore (.zcWait core insn) (zcWaitEffect core insn))

/-- ZC_TIME: the hart reads the cycle (R265). -/
def execZcTime (core : Nat) (insn : Word) (s : State) : Out :=
  .next (s.inCore (.zcTime core insn) (zcTimeEffect core insn))

/-- ZC_CUE: the hart reads a cue and adds to it (R265). -/
def execZcCue (core : Nat) (insn : Word) (s : State) : Out :=
  .next (s.inCore (.zcCue core insn) (zcCueEffect core insn))

/-- ZC_CUEWAIT: the hart waits for a cue (R265). -/
def execZcCuewait (core : Nat) (insn : Word) (s : State) : Out :=
  .next (s.inCore (.zcCuewait core insn) (zcCuewaitEffect core insn))

/-- ZC_BEAT: the hart sends a beat (R265). -/
def execZcBeat (core : Nat) (insn : Word) (s : State) : Out :=
  .next (s.inCore (.zcBeat core insn) (zcBeatEffect core insn))

/-- ZC_DONE: the routine ends (R265). -/
def execZcDone (core : Nat) (insn : Word) (s : State) : Out :=
  .next (s.inCore (.zcDone core insn) (zcDoneEffect core insn))

/-- ZC_WAIT_RESUME: a stalled hart resumes (R265). -/
def execZcWaitResume (core : Nat) (s : State) : Out :=
  .next (s.inCore (.zcWaitResume core) (zcWaitResumeEffect core))

/-! ### Reduction and the Cuff (05_reduction_and_cuff, 06_slow_tier) -/

/-- BEAT_ARRIVAL: a beat arrives at a partition (R164). -/
def execBeatArrival (part ingress : Nat) (s : State) : Out :=
  .next (s.inCore (.beatArrival part ingress) (beatArrivalEffect part ingress))

/-- BEAT_ADD: a beat's piece is added to its slot (R161). -/
def execBeatAdd (part slot piece : Nat) (s : State) : Out :=
  .next (s.inCore (.beatAdd part slot piece) (beatAddEffect part slot piece))

/-- WINDOW_ENTRY: a beat enters the reorder window (R162). -/
def execWindowEntry (part ingress : Nat) (s : State) : Out :=
  .next (s.inCore (.windowEntry part ingress) (windowEntryEffect part ingress))

/-- INGRESS_STALL_LIMIT: an ingress has stalled to its limit (R162). -/
def execIngressStallLimit (part ingress : Nat) (s : State) : Out :=
  .next (s.inCore (.ingressStallLimit part ingress) (ingressStallLimitEffect part ingress))

/-- SLOT_TRIGGER: a slice's contributions are complete (R166). -/
def execSlotTrigger (part slot : Nat) (s : State) : Out :=
  .next (s.inCore (.slotTrigger part slot) (slotTriggerEffect part slot))

/-- SLOT_OPEN: a slot opens for a slice (R157). -/
def execSlotOpen (part slot : Nat) (s : State) : Out :=
  .next (s.inCore (.slotOpen part slot) (slotOpenEffect part slot))

/-- CUFF_ENTRY_START: the Cuff starts its next entry (R169). -/
def execCuffEntryStart (part : Nat) (s : State) : Out :=
  .next (s.inCore (.cuffEntryStart part) (cuffEntryStartEffect part))

/-- HBM_READ_RETURN: HBM read data return (R255). -/
def execHbmReadReturn (what : ReadFor) (s : State) : Out :=
  .next (s.inCore (.hbmReadReturn what) (hbmReadReturnEffect what))

/-- HBM_WRITE_ACK: the write of a rewritten record is acknowledged (R255). -/
def execHbmWriteAck (part : Nat) (s : State) : Out :=
  .next (s.inCore (.hbmWriteAck part) (hbmWriteAckEffect part))

/-- NOISE_MESSAGE: a device's noise sums arrive (R501). -/
def execNoiseMessage (device step : Nat) (sums squares : Word) (full : Bool) (s : State) : Out :=
  .next (s.inCore (.noiseMessage device step sums squares full) (noiseMessageEffect device step sums squares full))

/-- TOUCH_LIST_POST: a touch list is posted (R201). -/
def execTouchListPost (master : Master) (step : Word) (s : State) : Out :=
  .next (s.inWindow (.touchListPost master step) fun s => s.writeAccess master 0xA0058 4 step.toNat)

/-- FLASH_FETCH_COMPLETE: a flash fetch completes (R215). -/
def execFlashFetchComplete (num : Nat) (result : FlashResult) (s : State) : Out :=
  .next (s.inCore (.flashFetchComplete num result) (flashFetchCompleteEffect num result))

/-- FLASH_PROGRAM_COMPLETE: a flash program or erasure completes (R220). -/
def execFlashProgramComplete (num block : Nat) (ok : Bool) (s : State) : Out :=
  .next (s.inCore (.flashProgramComplete num block ok) (flashProgramCompleteEffect num block ok))

/-! ### Background work and memory (07_clockwork) -/

/-- REFRESH_WINDOW: a refresh window opens (R254). -/
def execRefreshWindow (group : Nat) (s : State) : Out :=
  .next (s.inCore (.refreshWindow group) (refreshWindowEffect group))

/-- BACKGROUND_QUANTUM: a quantum of background work is dispatched (R256). -/
def execBackgroundQuantum (cls : Nat) (s : State) : Out :=
  .next (s.inCore (.backgroundQuantum cls) (backgroundQuantumEffect cls))

/-- FORCED_SLOT: a deadline forces a background slot (R259). -/
def execForcedSlot (cls : Nat) (s : State) : Out :=
  .next (s.inCore (.forcedSlot cls) (forcedSlotEffect cls))

/-! ### Mapping a job (08_mapping_a_job) -/

/-- ABORT_MESSAGE: ABORT arrives (R489). -/
def execAbortMessage (link device step : Nat) (s : State) : Out :=
  .next (s.inCore (.abortMessage link device step) (abortMessageEffect link device step))

/-- CENSUS_RECORD: CENSUS arrives (R291). -/
def execCensusRecord (device engines halfLinks lastStep epoch : Nat) (s : State) : Out :=
  .next (s.inCore (.censusRecord device engines halfLinks lastStep epoch) (censusRecordEffect device engines halfLinks lastStep epoch))

/-- CENSUS_SET: CENSUS_SET arrives (R292). -/
def execCensusSet (device : Nat) (heard : List Nat) (s : State) : Out :=
  .next (s.inCore (.censusSet device heard) (censusSetEffect device heard))

/-- CENSUS_TIMEOUT: the census ends unheard (R291). -/
def execCensusTimeout (s : State) : Out :=
  .next (s.inCore .censusTimeout censusTimeoutEffect)

/-- MIGRATION_COMPLETE: the migration is complete (R190). -/
def execMigrationComplete (s : State) : Out :=
  .next (s.inCore .migrationComplete migrationCompleteEffect)

/-- READY_CYCLE_MESSAGE: READY_CYCLE arrives (R285). -/
def execReadyCycleMessage (device cycle : Nat) (s : State) : Out :=
  .next (s.inCore (.readyCycleMessage device cycle) (readyCycleMessageEffect device cycle))

/-- DATA_DESCRIPTOR_READ: a data descriptor has been read (R438). -/
def execDataDescriptorRead (step : Nat) (bytes : List Byte) (s : State) : Out :=
  .next (s.inCore (.dataDescriptorRead step bytes) (dataDescriptorReadEffect step bytes))

/-- JOB_IMAGE_READ_COMPLETE: the job image is in HBM (R436). -/
def execJobImageReadComplete (s : State) : Out :=
  .next (s.inCore .jobImageReadComplete jobImageReadCompleteEffect)

/-! ### Seam links (09_seam_links) -/

/-- FRAME_RECEIVE: a frame arrives (R303). -/
def execFrameReceive (link : Nat) (header : BitVec 80) (payload : List Byte) (uncorrectable corrected : Nat) (s : State) : Out :=
  .next (s.inCore (.frameReceive link header payload uncorrectable corrected) (frameReceiveEffect link header payload uncorrectable corrected))

/-- EGRESS_SLOT: a link's next frame slot (R306). -/
def execEgressSlot (link : Nat) (s : State) : Out :=
  .next (s.inCore (.egressSlot link) (egressSlotEffect link))

/-- NAK: NAK arrives (R304). -/
def execNak (link seq : Nat) (s : State) : Out :=
  .next (s.inCore (.nak link seq) (nakEffect link seq))

/-- RETRY_TIMEOUT: a retry times out (R304). -/
def execRetryTimeout (link : Nat) (s : State) : Out :=
  .next (s.inCore (.retryTimeout link) (retryTimeoutEffect link))

/-- LATENCY_PROBE: a latency probe returns (R308). -/
def execLatencyProbe (link oneWay : Nat) (s : State) : Out :=
  .next (s.inCore (.latencyProbe link oneWay) (latencyProbeEffect link oneWay))

/-- DISCOVERY_IDENTITY: a neighbour's identity arrives (R308). -/
def execDiscoveryIdentity (link peerDev peerLink : Nat) (s : State) : Out :=
  .next (s.inCore (.discoveryIdentity link peerDev peerLink) (discoveryIdentityEffect link peerDev peerLink))

/-- ALIGNMENT_FRAME: an alignment frame arrives (R458). -/
def execAlignmentFrame (link cycle refDev : Nat) (s : State) : Out :=
  .next (s.inCore (.alignmentFrame link cycle refDev) (alignmentFrameEffect link cycle refDev))

/-- LANE_FAIL: a lane fails (R321). -/
def execLaneFail (link lane : Nat) (s : State) : Out :=
  .next (s.inCore (.laneFail link lane) (laneFailEffect link lane))

/-- LANE_CHANGE: the width change takes hold (R321). -/
def execLaneChange (link pair : Nat) (s : State) : Out :=
  .next (s.inCore (.laneChange link pair) (laneChangeEffect link pair))

/-- RETRAIN_COMPLETE: training ends (R321). -/
def execRetrainComplete (link : Nat) (ok : Bool) (oneWay : Nat) (s : State) : Out :=
  .next (s.inCore (.retrainComplete link ok oneWay) (retrainCompleteEffect link ok oneWay))

/-- QDATA_MESSAGE: QDATA is accepted (R316). -/
def execQdataMessage (msg : SeamMsg) (s : State) : Out :=
  .next (s.inCore (.qdataMessage msg) (qdataMessageEffect msg))

/-- QCRED_MESSAGE: QCRED is accepted (R316). -/
def execQcredMessage (msg : SeamMsg) (s : State) : Out :=
  .next (s.inCore (.qcredMessage msg) (qcredMessageEffect msg))

/-- CUE_MESSAGE: CUE is accepted (R316). -/
def execCueMessage (msg : SeamMsg) (s : State) : Out :=
  .next (s.inCore (.cueMessage msg) (cueMessageEffect msg))

/-- WRITE_MESSAGE: WRITE is accepted (R316). -/
def execWriteMessage (msg : SeamMsg) (s : State) : Out :=
  .next (s.inCore (.writeMessage msg) (writeMessageEffect msg))

/-- MCAST_MESSAGE: MCAST is accepted and forwarded (R320). -/
def execMcastMessage (link : Nat) (msg : SeamMsg) (s : State) : Out :=
  .next (s.inCore (.mcastMessage link msg) (mcastMessageEffect link msg))

/-- CTRL_MESSAGE: CTRL is accepted (R315). -/
def execCtrlMessage (msg : SeamMsg) (s : State) : Out :=
  .next (s.inCore (.ctrlMessage msg) (ctrlMessageEffect msg))

/-- ATOMIC_BURST: a burst of beats arrives (R318). -/
def execAtomicBurst (link : Nat) (beats : List Beat) (s : State) : Out :=
  .next (s.inCore (.atomicBurst link beats) (atomicBurstEffect link beats))

/-- BURST_CLOSE: a burst closes (R319). -/
def execBurstClose (link : Nat) (s : State) : Out :=
  .next (s.inCore (.burstClose link) (burstCloseEffect link))

/-! ### Brim (10_outer_sync) -/

/-- ROUND_SEND: an owner sends ROUND (R342). -/
def execRoundSend (shard : Nat) (s : State) : Out :=
  .next (s.inCore (.roundSend shard) (roundSendEffect shard))

/-- ROUND: ROUND arrives (R342). -/
def execRound (msg : ClassC) (s : State) : Out :=
  .next (s.inCore (.round msg) (roundEffect msg))

/-- COMMIT: COMMIT arrives (R348). -/
def execCommit (msg : ClassC) (s : State) : Out :=
  .next (s.inCore (.commit msg) (commitEffect msg))

/-- JOIN: JOIN arrives (R355). -/
def execJoin (msg : ClassC) (s : State) : Out :=
  .next (s.inCore (.join msg) (joinEffect msg))

/-- FETCH: FETCH arrives (R353). -/
def execFetch (msg : ClassC) (s : State) : Out :=
  .next (s.inCore (.fetch msg) (fetchEffect msg))

/-- LEADER_COMMIT: the leader commits a round (R344). -/
def execLeaderCommit (shard : Nat) (s : State) : Out :=
  .next (s.inCore (.leaderCommit shard) (leaderCommitEffect shard))

/-- COMMIT_DEADLINE: the deadline of a round passes (R344). -/
def execCommitDeadline (shard : Nat) (s : State) : Out :=
  .next (s.inCore (.commitDeadline shard) (commitDeadlineEffect shard))

/-- SITE_SILENT: a site has been silent (R351). -/
def execSiteSilent (site : Nat) (s : State) : Out :=
  .next (s.inCore (.siteSilent site) (siteSilentEffect site))

/-- MEMBER_REMOVAL: a member is removed (R352). -/
def execMemberRemoval (shard site : Nat) (s : State) : Out :=
  .next (s.inCore (.memberRemoval shard site) (memberRemovalEffect shard site))

/-- DELTA_OBJECT: a delta object is complete (R378). -/
def execDeltaObject (port : Nat) (obj : DObject) (s : State) : Out :=
  .next (s.inCore (.deltaObject port obj) (deltaObjectEffect port obj))

/-- ANCHOR_OBJECT: an anchor object is complete (R354). -/
def execAnchorObject (port : Nat) (obj : DObject) (s : State) : Out :=
  .next (s.inCore (.anchorObject port obj) (anchorObjectEffect port obj))

/-! ### Partner ports (11_partner_ports) -/

/-- CLASS_C_FRAGMENT: a class C fragment arrives (R374). -/
def execClassCFragment (port : Nat) (pkt : Packet) (s : State) : Out :=
  .next (s.inCore (.classCFragment port pkt) (classCFragmentEffect port pkt))

/-- CLASS_C_RELEASE: a class C message is delivered (R374). -/
def execClassCRelease (port mid : Nat) (s : State) : Out :=
  .next (s.inCore (.classCRelease port mid) (classCReleaseEffect port mid))

/-- CLASS_C_RESEND: a class C message is sent again (R375). -/
def execClassCResend (port mid : Nat) (s : State) : Out :=
  .next (s.inCore (.classCResend port mid) (classCResendEffect port mid))

/-- CLASS_D_FRAME: a class D frame arrives (R378). -/
def execClassDFrame (port : Nat) (pkt : Packet) (s : State) : Out :=
  .next (s.inCore (.classDFrame port pkt) (classDFrameEffect port pkt))

/-- PROBE: a probe arrives (R379). -/
def execProbe (port : Nat) (pkt : Packet) (s : State) : Out :=
  .next (s.inCore (.probe port pkt) (probeEffect port pkt))

/-- FEEDBACK_REPORT: a feedback report arrives (R382). -/
def execFeedbackReport (port : Nat) (pkt : Packet) (report : Feedback) (s : State) : Out :=
  .next (s.inCore (.feedbackReport port pkt report) (feedbackReportEffect port pkt report))

/-- PROBE_TIMER: probes are due (R368). -/
def execProbeTimer (port : Nat) (s : State) : Out :=
  .next (s.inCore (.probeTimer port) (probeTimerEffect port))

/-- FEEDBACK_TIMER: feedback is due (R368). -/
def execFeedbackTimer (port : Nat) (s : State) : Out :=
  .next (s.inCore (.feedbackTimer port) (feedbackTimerEffect port))

/-- ROUTE_DOWN: a route goes down (R368). -/
def execRouteDown (port route : Nat) (s : State) : Out :=
  .next (s.inCore (.routeDown port route) (routeDownEffect port route))

/-- PACKET_TRANSMIT: a port's next packet leaves (R371). -/
def execPacketTransmit (port : Nat) (s : State) : Out :=
  .next (s.inCore (.packetTransmit port) (packetTransmitEffect port))

/-- NEIGHBOR_SOLICITATION: a Neighbor Solicitation arrives (R362). -/
def execNeighborSolicitation (port : Nat) (target : BitVec 128) (s : State) : Out :=
  .next (s.inCore (.neighborSolicitation port target) (neighborSolicitationEffect port target))

/-- ECHO_REQUEST: an Echo Request arrives (R362). -/
def execEchoRequest (port : Nat) (source : BitVec 128) (data : List Byte) (s : State) : Out :=
  .next (s.inCore (.echoRequest port source data) (echoRequestEffect port source data))

/-- NEIGHBOR_ADVERTISEMENT: a Neighbor Advertisement arrives (R362). -/
def execNeighborAdvertisement (port : Nat) (target : BitVec 128) (mac : BitVec 48) (s : State) : Out :=
  .next (s.inCore (.neighborAdvertisement port target mac) (neighborAdvertisementEffect port target mac))

/-- MAC_PAUSE: a PAUSE frame arrives (R362). -/
def execMacPause (port : Nat) (s : State) : Out :=
  .next (s.inCore (.macPause port) (macPauseEffect port))

/-- PARTNER_LINK_DOWN: a partner port's link drops (R361). -/
def execPartnerLinkDown (port : Nat) (s : State) : Out :=
  .next (s.inCore (.partnerLinkDown port) (partnerLinkDownEffect port))

/-- PORT_LINK_UP: a port's link comes up (R361). -/
def execPortLinkUp (unit : Nat) (s : State) : Out :=
  .next (s.inCore (.portLinkUp unit) (portLinkUpEffect unit))

/-! ### Cipher engine (12_cipher_and_trust) -/

/-- RECORD_START: a record enters a lane (R399). -/
def execRecordStart (decrypt : Bool) (assoc prio len : Nat) (s : State) : Out :=
  .next (s.inCore (.recordStart decrypt assoc prio len) (recordStartEffect decrypt assoc prio len))

/-- RECORD_COMPLETE: a record leaves a lane (R397). -/
def execRecordComplete (decrypt : Bool) (lane nonceSeq kid : Nat) (aad body tag : List Byte) (s : State) : Out :=
  .next (s.inCore (.recordComplete decrypt lane nonceSeq kid aad body tag) (recordCompleteEffect decrypt lane nonceSeq kid aad body tag))

/-- HELLO: a HELLO arrives (R407). -/
def execHello (assoc : Nat) (body : List Byte) (s : State) : Out :=
  .next (s.inCore (.hello assoc body) (helloEffect assoc body))

/-- FINISH: a FINISH arrives (R407). -/
def execFinish (assoc : Nat) (sig : List Byte) (s : State) : Out :=
  .next (s.inCore (.finish assoc sig) (finishEffect assoc sig))

/-- KEYUPD: a KEYUPD arrives (R405). -/
def execKeyupd (assoc gen psn : Nat) (s : State) : Out :=
  .next (s.inCore (.keyupd assoc gen psn) (keyupdEffect assoc gen psn))

/-- KEYACK: a KEYACK arrives (R409). -/
def execKeyack (assoc gen : Nat) (s : State) : Out :=
  .next (s.inCore (.keyack assoc gen) (keyackEffect assoc gen))

/-- KEY_SLOT_OVERWRITE: a retired key slot is overwritten (R410). -/
def execKeySlotOverwrite (assoc : Nat) (s : State) : Out :=
  .next (s.inCore (.keySlotOverwrite assoc) (keySlotOverwriteEffect assoc))

/-- REKEY_TIMER: a rekey is due (R408). -/
def execRekeyTimer (assoc : Nat) (s : State) : Out :=
  .next (s.inCore (.rekeyTimer assoc) (rekeyTimerEffect assoc))

/-- HANDSHAKE_TIMEOUT: a host handshake fails (R436). -/
def execHandshakeTimeout (port : Nat) (s : State) : Out :=
  .next (s.inCore (.handshakeTimeout port) (handshakeTimeoutEffect port))

/-- HANDSHAKE_RESTART: a handshake starts again (R407). -/
def execHandshakeRestart (assoc : Nat) (s : State) : Out :=
  .next (s.inCore (.handshakeRestart assoc) (handshakeRestartEffect assoc))

/-- KNOWN_ANSWER_TEST: a known-answer test ends (R412). -/
def execKnownAnswerTest (pass : Bool) (s : State) : Out :=
  .next (s.inCore (.knownAnswerTest pass) (knownAnswerTestEffect pass))

/-- ALARM: an alarm (R413). -/
def execAlarm (source : Nat) (s : State) : Out :=
  .next (s.inAlwaysOn (.alarm source) (alarmEffect source))

/-- REPORT_SIGNED: a report is signed (R419). -/
def execReportSigned (s : State) : Out :=
  .next (s.inCore .reportSigned reportSignedEffect)

/-! ### Host ports (13_host_ports_and_images) -/

/-- CONTACT: a CONTACT is sent (R435). -/
def execContact (port : Nat) (s : State) : Out :=
  .next (s.inCore (.contact port) (contactEffect port))

/-- ASSIGN: ASSIGN arrives (R435). -/
def execAssign (port mid ack : Nat) (body : List Byte) (s : State) : Out :=
  .next (s.inCore (.assign port mid ack body) (assignEffect port mid ack body))

/-- STOP: STOP arrives (R437). -/
def execStop (port mid ack : Nat) (s : State) : Out :=
  .next (s.inCore (.stop port mid ack) (stopEffect port mid ack))

/-- REPLACE: REPLACE arrives (R437). -/
def execReplace (port mid ack : Nat) (body : List Byte) (s : State) : Out :=
  .next (s.inCore (.replace port mid ack body) (replaceEffect port mid ack body))

/-- CONTROL_RESEND: control messages go out again (R433). -/
def execControlResend (port : Nat) (s : State) : Out :=
  .next (s.inCore (.controlResend port) (controlResendEffect port))

/-- CONTACT_RETRY: the CONTACT goes out again (R435). -/
def execContactRetry (s : State) : Out :=
  .next (s.inCore .contactRetry contactRetryEffect)

/-- RDMA_READ: an RDMA READ arrives (R532). -/
def execRdmaRead (port hseq region addr len : Nat) (s : State) : Out :=
  .next (s.inCore (.rdmaRead port hseq region addr len) (rdmaReadEffect port hseq region addr len))

/-- RDMA_WRITE: an RDMA WRITE arrives (R532). -/
def execRdmaWrite (port hseq addr : Nat) (data : List Byte) (s : State) : Out :=
  .next (s.inCore (.rdmaWrite port hseq addr data) (rdmaWriteEffect port hseq addr data))

/-- RDMA_SEND: a SEND arrives (R427). -/
def execRdmaSend (port hseq qpn : Nat) (data : List Byte) (s : State) : Out :=
  .next (s.inCore (.rdmaSend port hseq qpn data) (rdmaSendEffect port hseq qpn data))

/-- UNSUPPORTED_REQUEST: an unsupported request arrives (R427). -/
def execUnsupportedRequest (port hseq : Nat) (s : State) : Out :=
  .next (s.inCore (.unsupportedRequest port hseq) (unsupportedRequestEffect port hseq))

/-- ROCE_ACK_TIMEOUT: a queue pair's acknowledgement times out (R427). -/
def execRoceAckTimeout (qp : Nat) (s : State) : Out :=
  .next (s.inCore (.roceAckTimeout qp) (roceAckTimeoutEffect qp))

/-- CNP: a CNP arrives (R427). -/
def execCnp (qp : Nat) (s : State) : Out :=
  .next (s.inCore (.cnp qp) (cnpEffect qp))

/-- ROCE_RATE_RECOVERY: a queue pair's rate recovers (R427). -/
def execRoceRateRecovery (qp : Nat) (s : State) : Out :=
  .next (s.inCore (.roceRateRecovery qp) (roceRateRecoveryEffect qp))

/-- ROCE_RESPONSE: a response packet arrives (R436). -/
def execRoceResponse (qp psn : Nat) (data : List Byte) (s : State) : Out :=
  .next (s.inCore (.roceResponse qp psn data) (roceResponseEffect qp psn data))

/-- HOST_PORT_LINK_DOWN: a host port's link drops (R425). -/
def execHostPortLinkDown (port : Nat) (s : State) : Out :=
  .next (s.inCore (.hostPortLinkDown port) (hostLinkDown port))

/-- PTP_SYNC: a Sync is evaluated (R432). -/
def execPtpSync (port : Nat) (offset : Int) (sec ns : Nat) (s : State) : Out :=
  .next (s.inCore (.ptpSync port offset sec ns) (ptpSyncEffect port offset sec ns))

/-! ### Mitten (14_mitten_power_ageing) -/

/-- PORST_N_ASSERT: PORST_N is asserted (R474). -/
def execPorstNAssert (s : State) : Out :=
  .next (s.inWindow .porstNAssert porstNAssertEffect)

/-- PORST_N_RELEASE: PORST_N is released (R455). -/
def execPorstNRelease (strap : BitVec 2) (s : State) : Out :=
  .next (s.inWindow (.porstNRelease strap) (porstNReleaseEffect strap))

/-- RESET_N_ASSERT: RESET_N is asserted (R474). -/
def execResetNAssert (s : State) : Out :=
  .next (s.inWindow .resetNAssert resetNAssertEffect)

/-- PWRGOOD_FALL: PWRGOOD falls (R549). -/
def execPwrgoodFall (s : State) : Out :=
  .next (s.inWindow .pwrgoodFall pwrgoodFallEffect)

/-- BOOT_STEP_COMPLETE: a boot step completes (R455). -/
def execBootStepComplete (result : BootResult) (s : State) : Out :=
  .next (s.inAlwaysOn (.bootStepComplete result) (bootStepCompleteEffect result))

/-- SELF_REFRESH_CONFIRM: the stacks confirm self-refresh (R474). -/
def execSelfRefreshConfirm (ok : Bool) (s : State) : Out :=
  .next (s.inAlwaysOn (.selfRefreshConfirm ok) (selfRefreshConfirmEffect ok))

/-- RESET_RELEASE: a reset ends (R474). -/
def execResetRelease (s : State) : Out :=
  .next (s.inAlwaysOn .resetRelease resetReleaseEffect)

/-- ALARM_RESET: the reset after an alarm (R475). -/
def execAlarmReset (s : State) : Out :=
  .next (s.inAlwaysOn .alarmReset alarmResetEffect)

/-- MARGIN_EPOCH_END: a margin epoch ends (R463). -/
def execMarginEpochEnd (s : State) : Out :=
  .next (s.inCore .marginEpochEnd marginEpochEndEffect)

/-- REPLAN_HOLDOVER_TIMEOUT: the holdover of a re-plan ends (R463). -/
def execReplanHoldoverTimeout (s : State) : Out :=
  .next (s.inAlwaysOn .replanHoldoverTimeout replanHoldoverTimeoutEffect)

/-- FREQUENCY_PROPOSAL: a proposal arrives (R467). -/
def execFrequencyProposal (device prop step : Nat) (s : State) : Out :=
  .next (s.inCore (.frequencyProposal device prop step) (frequencyProposalEffect device prop step))

/-- FREQUENCY_AGREEMENT_TIMEOUT: an agreement fails (R467). -/
def execFrequencyAgreementTimeout (s : State) : Out :=
  .next (s.inCore .frequencyAgreementTimeout frequencyAgreementTimeoutEffect)

/-- SWITCH_CYCLE_MESSAGE: the switch cycle arrives (R469). -/
def execSwitchCycleMessage (device cycle : Nat) (s : State) : Out :=
  .next (s.inCore (.switchCycleMessage device cycle) (switchCycleMessageEffect device cycle))

/-- FREQUENCY_SWITCH: the core clock stops for a switch (R470). -/
def execFrequencySwitch (s : State) : Out :=
  .next (s.inAlwaysOn .frequencySwitch frequencySwitchEffect)

/-- CLOCK_RESTART: the core clock starts again (R470). -/
def execClockRestart (s : State) : Out :=
  .next (s.inAlwaysOn .clockRestart clockRestartEffect)

/-- POWER_SAMPLE: the power is sampled (R471). -/
def execPowerSample (watts : Nat) (s : State) : Out :=
  .next (s.inAlwaysOn (.powerSample watts) (powerSampleEffect watts))

/-- TEMPERATURE_SAMPLE: the temperature is sampled (R472). -/
def execTemperatureSample (halfDegrees : Nat) (s : State) : Out :=
  .next (s.inAlwaysOn (.temperatureSample halfDegrees) (temperatureSampleEffect halfDegrees))

/-! ### Gauntlet (15_gauntlet_faults_counters_test) -/

/-- FAULT_REPORT: a unit reports a fault (R483). -/
def execFaultReport (unit cause access addr detail : Nat) (s : State) : Out :=
  .next (s.inAlwaysOn (.faultReport unit cause access addr detail) (faultReportEffect unit cause access addr detail))

/-- ESCALATION_NOTIFY: stage 1 of an escalation (R487). -/
def execEscalationNotify (entry : Nat) (s : State) : Out :=
  .next (s.inAlwaysOn (.escalationNotify entry) (escalationNotifyEffect entry))

/-- ESCALATION_ISOLATE: stage 2 of an escalation (R487). -/
def execEscalationIsolate (entry : Nat) (s : State) : Out :=
  .next (s.inAlwaysOn (.escalationIsolate entry) (escalationIsolateEffect entry))

/-- ESCALATION_SAFE: stage 3 of an escalation (R487). -/
def execEscalationSafe (entry : Nat) (s : State) : Out :=
  .next (s.inAlwaysOn (.escalationSafe entry) (escalationSafeEffect entry))

/-- ACK_DISMISS: an entry is dismissed (R486). -/
def execAckDismiss (master : Master) (entry : Nat) (s : State) : Out :=
  .next (s.inWindow (.ackDismiss master entry) fun s => s.writeAccess master 0x10014 4 entry)

/-- ACK_ABORT: an entry is answered by an abort (R486). -/
def execAckAbort (master : Master) (entry : Nat) (s : State) : Out :=
  .next (s.inWindow (.ackAbort master entry) fun s => s.writeAccess master 0x10014 4 (entry + 256))

/-- ACK_ISOLATE: an entry is answered by isolation (R486). -/
def execAckIsolate (master : Master) (entry : Nat) (s : State) : Out :=
  .next (s.inWindow (.ackIsolate master entry) fun s => s.writeAccess master 0x10014 4 (entry + 512))

/-- ACK_SAFE: an entry is answered by the safe state (R486). -/
def execAckSafe (master : Master) (entry : Nat) (s : State) : Out :=
  .next (s.inWindow (.ackSafe master entry) fun s => s.writeAccess master 0x10014 4 (entry + 768))

/-- OPEN_DISMISS: open entries are dismissed by bit (R486). -/
def execOpenDismiss (master : Master) (high : Bool) (value : Word) (s : State) : Out :=
  .next (s.inWindow (.openDismiss master high value) fun s => s.writeAccess master (if high then 0x1001C else 0x10018) 4 value.toNat)

/-- WDT_KICK: a watchdog is restarted (R486). -/
def execWdtKick (master : Master) (value : Word) (s : State) : Out :=
  .next (s.inWindow (.wdtKick master value) fun s => s.writeAccess master 0x10020 4 value.toNat)

/-- WATCHDOG_EXPIRY: a watchdog expires (R486). -/
def execWatchdogExpiry (core : Nat) (s : State) : Out :=
  .next (s.inAlwaysOn (.watchdogExpiry core) (watchdogExpiryEffect core))

/-- UNFREEZE: the log is unfrozen (R493). -/
def execUnfreeze (master : Master) (value : Word) (s : State) : Out :=
  .next (s.inWindow (.unfreeze master value) fun s => s.writeAccess master 0x10028 4 value.toNat)

/-- PARITY_SWEEP: the parity sweep passes (R492). -/
def execParitySweep (badOffset : Option Nat) (s : State) : Out :=
  .next (s.inAlwaysOn (.paritySweep badOffset) (paritySweepEffect badOffset))

/-- DLOG_POST: a decision is posted (R504). -/
def execDlogPost (master : Master) (value : Word) (s : State) : Out :=
  .next (s.inWindow (.dlogPost master value) fun s => s.writeAccess master 0x360070 4 value.toNat)

/-- TELEMETRY_PERIOD: a telemetry period ends (R506). -/
def execTelemetryPeriod (s : State) : Out :=
  .next (s.inCore .telemetryPeriod telemetryPeriodEffect)

/-! ### The register window (16_register_interface) -/

/-- HISTOGRAM_CLEAR: a histogram is cleared (R100). -/
def execHistogramClear (master : Master) (engine : Nat) (value : Word) (s : State) : Out :=
  .next (s.inWindow (.histogramClear master engine value) fun s => s.writeAccess master (0x200020 + 0x1000 * engine) 4 value.toNat)

/-- ATTEST: a report is requested (R419). -/
def execAttest (master : Master) (value : Word) (s : State) : Out :=
  .next (s.inWindow (.attest master value) fun s => s.writeAccess master 0x20010 4 value.toNat)

/-- FULL_RESET: a full reset is requested (R473). -/
def execFullReset (master : Master) (value : Word) (s : State) : Out :=
  .next (s.inWindow (.fullReset master value) fun s => s.writeAccess master 0x10 4 value.toNat)

/-- RING_TAIL_WRITE: a ring's tail is moved (R241). -/
def execRingTailWrite (master : Master) (stream : Nat) (value : Word) (s : State) : Out :=
  .next (s.inWindow (.ringTailWrite master stream value) fun s => s.writeAccess master (0x380214 + 0x20 * stream) 4 value.toNat)

/-- CUE_WRITE: a cue is written (R245). -/
def execCueWrite (master : Master) (cue : Nat) (value : Word) (s : State) : Out :=
  .next (s.inWindow (.cueWrite master cue value) fun s => s.writeAccess master (0x380800 + 4 * cue) 4 value.toNat)

/-- EVQ_CONS_WRITE: the event ring's consumer index is written (R439). -/
def execEvqConsWrite (master : Master) (high : Bool) (value : Word) (s : State) : Out :=
  .next (s.inWindow (.evqConsWrite master high value) fun s => s.writeAccess master (if high then 0x80024 else 0x80020) 4 value.toNat)

/-- TEST_ACCESS_READ: a test-access value is read (R109). -/
def execTestAccessRead (master : Master) (addr : Nat) (wide : Bool) (s : State) : Out :=
  .next (s.inWindow (.testAccessRead master addr wide) fun s => s.readAccess master addr (if wide then 8 else 4))

/-- LOW_WORD_READ: the low word of a pair is read (R529). -/
def execLowWordRead (master : Master) (addr : Nat) (wide : Bool) (s : State) : Out :=
  .next (s.inWindow (.lowWordRead master addr wide) fun s => s.readAccess master addr (if wide then 8 else 4))

/-- REGISTER_WRITE: a register is written (R526). -/
def execRegisterWrite (master : Master) (addr size : Nat) (value : DWord) (s : State) : Out :=
  .next (s.inWindow (.registerWrite master addr size value) fun s => s.writeAccess master addr size value.toNat)

/-- SET_ALIAS_WRITE: a set alias is written (R535). -/
def execSetAliasWrite (master : Master) (addr size : Nat) (value : DWord) (s : State) : Out :=
  .next (s.inWindow (.setAliasWrite master addr size value) fun s => s.writeAccess master addr size value.toNat)

/-- CLEAR_ALIAS_WRITE: a clear alias is written (R535). -/
def execClearAliasWrite (master : Master) (addr size : Nat) (value : DWord) (s : State) : Out :=
  .next (s.inWindow (.clearAliasWrite master addr size value) fun s => s.writeAccess master addr size value.toNat)

/-- TOGGLE_ALIAS_WRITE: a toggle alias is written (R535). -/
def execToggleAliasWrite (master : Master) (addr size : Nat) (value : DWord) (s : State) : Out :=
  .next (s.inWindow (.toggleAliasWrite master addr size value) fun s => s.writeAccess master addr size value.toNat)

/-- MITTEN_BIT_ALIAS_WRITE: a bit of Mitten is written (R480). -/
def execMittenBitAliasWrite (master : Master) (addr size : Nat) (value : DWord) (s : State) : Out :=
  .next (s.inWindow (.mittenBitAliasWrite master addr size value) fun s => s.writeAccess master addr size value.toNat)

/-- REGISTER_READ: a register is read (R531). -/
def execRegisterRead (master : Master) (addr size : Nat) (s : State) : Out :=
  .next (s.inWindow (.registerRead master addr size) fun s => s.readAccess master addr size)

/-- JTAG_INSTRUCTION: a JTAG instruction is loaded (R545). -/
def execJtagInstruction (insn : JtagInsn) (s : State) : Out :=
  .next (s.inWindow (.jtagInstruction insn) (jtagEffect insn))

end Sys2Proof.Machine
end

