-- ==== Sys2Proof/Machine/Dispatch.lean ====
section
/-! DEFINITION. One arm per command, each one direct call of its meaning. -/

namespace Sys2Proof.Machine

def exec (i : Instr) (s : State) : Host.Outcome State Fault Refusal :=
  match i with
  | .commandIssue stream => Sys2Proof.Machine.execCommandIssue stream s
  | .prod cmd => Sys2Proof.Machine.execProd cmd s
  | .tileStart engine => Sys2Proof.Machine.execTileStart engine s
  | .promotion engine => Sys2Proof.Machine.execPromotion engine s
  | .drain cmd => Sys2Proof.Machine.execDrain cmd s
  | .accumulatorSwap engine => Sys2Proof.Machine.execAccumulatorSwap engine s
  | .slotBeatSend cluster => Sys2Proof.Machine.execSlotBeatSend cluster s
  | .rowred cmd => Sys2Proof.Machine.execRowred cmd s
  | .rowew cmd => Sys2Proof.Machine.execRowew cmd s
  | .rowfn cmd => Sys2Proof.Machine.execRowfn cmd s
  | .rblk cmd => Sys2Proof.Machine.execRblk cmd s
  | .tblld cmd => Sys2Proof.Machine.execTblld cmd s
  | .rowCommandStart unit => Sys2Proof.Machine.execRowCommandStart unit s
  | .stash cmd => Sys2Proof.Machine.execStash cmd s
  | .unstash cmd => Sys2Proof.Machine.execUnstash cmd s
  | .sreset cmd => Sys2Proof.Machine.execSreset cmd s
  | .linerCommandStart cluster => Sys2Proof.Machine.execLinerCommandStart cluster s
  | .send cmd => Sys2Proof.Machine.execSend cmd s
  | .write cmd => Sys2Proof.Machine.execWrite cmd s
  | .mcast cmd => Sys2Proof.Machine.execMcast cmd s
  | .post cmd => Sys2Proof.Machine.execPost cmd s
  | .start cmd => Sys2Proof.Machine.execStart cmd s
  | .nop stream cmd => Sys2Proof.Machine.execNop stream cmd s
  | .advance stream cmd => Sys2Proof.Machine.execAdvance stream cmd s
  | .slack stream cmd => Sys2Proof.Machine.execSlack stream cmd s
  | .waitcue stream cmd => Sys2Proof.Machine.execWaitcue stream cmd s
  | .postcue stream cmd => Sys2Proof.Machine.execPostcue stream cmd s
  | .sleep stream cmd => Sys2Proof.Machine.execSleep stream cmd s
  | .unitGate target => Sys2Proof.Machine.execUnitGate target s
  | .wakeStart target => Sys2Proof.Machine.execWakeStart target s
  | .wakeComplete target => Sys2Proof.Machine.execWakeComplete target s
  | .qbound stream cmd => Sys2Proof.Machine.execQbound stream cmd s
  | .qwait stream cmd => Sys2Proof.Machine.execQwait stream cmd s
  | .qfree stream cmd => Sys2Proof.Machine.execQfree stream cmd s
  | .bgslot stream cmd => Sys2Proof.Machine.execBgslot stream cmd s
  | .bgslotClose => Sys2Proof.Machine.execBgslotClose s
  | .expand stream cmd => Sys2Proof.Machine.execExpand stream cmd s
  | .stepend stream cmd => Sys2Proof.Machine.execStepend stream cmd s
  | .zcIssue core insn => Sys2Proof.Machine.execZcIssue core insn s
  | .zcWait core insn => Sys2Proof.Machine.execZcWait core insn s
  | .zcTime core insn => Sys2Proof.Machine.execZcTime core insn s
  | .zcCue core insn => Sys2Proof.Machine.execZcCue core insn s
  | .zcCuewait core insn => Sys2Proof.Machine.execZcCuewait core insn s
  | .zcBeat core insn => Sys2Proof.Machine.execZcBeat core insn s
  | .zcDone core insn => Sys2Proof.Machine.execZcDone core insn s
  | .beatArrival part ingress => Sys2Proof.Machine.execBeatArrival part ingress s
  | .beatAdd part slot piece => Sys2Proof.Machine.execBeatAdd part slot piece s
  | .windowEntry part ingress => Sys2Proof.Machine.execWindowEntry part ingress s
  | .ingressStallLimit part ingress => Sys2Proof.Machine.execIngressStallLimit part ingress s
  | .slotTrigger part slot => Sys2Proof.Machine.execSlotTrigger part slot s
  | .slotOpen part slot => Sys2Proof.Machine.execSlotOpen part slot s
  | .cuffEntryStart part => Sys2Proof.Machine.execCuffEntryStart part s
  | .hbmReadReturn what => Sys2Proof.Machine.execHbmReadReturn what s
  | .hbmWriteAck part => Sys2Proof.Machine.execHbmWriteAck part s
  | .noiseMessage device step sums squares full => Sys2Proof.Machine.execNoiseMessage device step sums squares full s
  | .refreshWindow group => Sys2Proof.Machine.execRefreshWindow group s
  | .backgroundQuantum cls => Sys2Proof.Machine.execBackgroundQuantum cls s
  | .forcedSlot cls => Sys2Proof.Machine.execForcedSlot cls s
  | .touchListPost master step => Sys2Proof.Machine.execTouchListPost master step s
  | .flashFetchComplete num result => Sys2Proof.Machine.execFlashFetchComplete num result s
  | .abortMessage link device step => Sys2Proof.Machine.execAbortMessage link device step s
  | .censusRecord device engines halfLinks lastStep epoch => Sys2Proof.Machine.execCensusRecord device engines halfLinks lastStep epoch s
  | .censusSet device heard => Sys2Proof.Machine.execCensusSet device heard s
  | .censusTimeout => Sys2Proof.Machine.execCensusTimeout s
  | .migrationComplete => Sys2Proof.Machine.execMigrationComplete s
  | .readyCycleMessage device cycle => Sys2Proof.Machine.execReadyCycleMessage device cycle s
  | .frameReceive link header payload uncorrectable corrected => Sys2Proof.Machine.execFrameReceive link header payload uncorrectable corrected s
  | .egressSlot link => Sys2Proof.Machine.execEgressSlot link s
  | .nak link seq => Sys2Proof.Machine.execNak link seq s
  | .retryTimeout link => Sys2Proof.Machine.execRetryTimeout link s
  | .latencyProbe link oneWay => Sys2Proof.Machine.execLatencyProbe link oneWay s
  | .discoveryIdentity link peerDev peerLink => Sys2Proof.Machine.execDiscoveryIdentity link peerDev peerLink s
  | .alignmentFrame link cycle refDev => Sys2Proof.Machine.execAlignmentFrame link cycle refDev s
  | .laneFail link lane => Sys2Proof.Machine.execLaneFail link lane s
  | .laneChange link pair => Sys2Proof.Machine.execLaneChange link pair s
  | .retrainComplete link ok oneWay => Sys2Proof.Machine.execRetrainComplete link ok oneWay s
  | .qdataMessage msg => Sys2Proof.Machine.execQdataMessage msg s
  | .qcredMessage msg => Sys2Proof.Machine.execQcredMessage msg s
  | .cueMessage msg => Sys2Proof.Machine.execCueMessage msg s
  | .writeMessage msg => Sys2Proof.Machine.execWriteMessage msg s
  | .mcastMessage link msg => Sys2Proof.Machine.execMcastMessage link msg s
  | .ctrlMessage msg => Sys2Proof.Machine.execCtrlMessage msg s
  | .atomicBurst link beats => Sys2Proof.Machine.execAtomicBurst link beats s
  | .burstClose link => Sys2Proof.Machine.execBurstClose link s
  | .roundSend shard => Sys2Proof.Machine.execRoundSend shard s
  | .round msg => Sys2Proof.Machine.execRound msg s
  | .commit msg => Sys2Proof.Machine.execCommit msg s
  | .join msg => Sys2Proof.Machine.execJoin msg s
  | .fetch msg => Sys2Proof.Machine.execFetch msg s
  | .leaderCommit shard => Sys2Proof.Machine.execLeaderCommit shard s
  | .commitDeadline shard => Sys2Proof.Machine.execCommitDeadline shard s
  | .siteSilent site => Sys2Proof.Machine.execSiteSilent site s
  | .memberRemoval shard site => Sys2Proof.Machine.execMemberRemoval shard site s
  | .deltaObject port obj => Sys2Proof.Machine.execDeltaObject port obj s
  | .anchorObject port obj => Sys2Proof.Machine.execAnchorObject port obj s
  | .classCFragment port pkt => Sys2Proof.Machine.execClassCFragment port pkt s
  | .classCRelease port mid => Sys2Proof.Machine.execClassCRelease port mid s
  | .classCResend port mid => Sys2Proof.Machine.execClassCResend port mid s
  | .classDFrame port pkt => Sys2Proof.Machine.execClassDFrame port pkt s
  | .probe port pkt => Sys2Proof.Machine.execProbe port pkt s
  | .feedbackReport port pkt report => Sys2Proof.Machine.execFeedbackReport port pkt report s
  | .probeTimer port => Sys2Proof.Machine.execProbeTimer port s
  | .feedbackTimer port => Sys2Proof.Machine.execFeedbackTimer port s
  | .routeDown port route => Sys2Proof.Machine.execRouteDown port route s
  | .packetTransmit port => Sys2Proof.Machine.execPacketTransmit port s
  | .neighborSolicitation port target => Sys2Proof.Machine.execNeighborSolicitation port target s
  | .echoRequest port source data => Sys2Proof.Machine.execEchoRequest port source data s
  | .macPause port => Sys2Proof.Machine.execMacPause port s
  | .partnerLinkDown port => Sys2Proof.Machine.execPartnerLinkDown port s
  | .recordStart decrypt assoc prio len => Sys2Proof.Machine.execRecordStart decrypt assoc prio len s
  | .recordComplete decrypt lane nonceSeq kid aad body tag => Sys2Proof.Machine.execRecordComplete decrypt lane nonceSeq kid aad body tag s
  | .hello assoc body => Sys2Proof.Machine.execHello assoc body s
  | .finish assoc sig => Sys2Proof.Machine.execFinish assoc sig s
  | .keyupd assoc gen psn => Sys2Proof.Machine.execKeyupd assoc gen psn s
  | .keyack assoc gen => Sys2Proof.Machine.execKeyack assoc gen s
  | .keySlotOverwrite assoc => Sys2Proof.Machine.execKeySlotOverwrite assoc s
  | .rekeyTimer assoc => Sys2Proof.Machine.execRekeyTimer assoc s
  | .handshakeTimeout port => Sys2Proof.Machine.execHandshakeTimeout port s
  | .knownAnswerTest pass => Sys2Proof.Machine.execKnownAnswerTest pass s
  | .alarm source => Sys2Proof.Machine.execAlarm source s
  | .reportSigned => Sys2Proof.Machine.execReportSigned s
  | .contact port => Sys2Proof.Machine.execContact port s
  | .assign port mid ack body => Sys2Proof.Machine.execAssign port mid ack body s
  | .stop port mid ack => Sys2Proof.Machine.execStop port mid ack s
  | .replace port mid ack body => Sys2Proof.Machine.execReplace port mid ack body s
  | .controlResend port => Sys2Proof.Machine.execControlResend port s
  | .contactRetry => Sys2Proof.Machine.execContactRetry s
  | .jobImageReadComplete => Sys2Proof.Machine.execJobImageReadComplete s
  | .rdmaRead port hseq region addr len => Sys2Proof.Machine.execRdmaRead port hseq region addr len s
  | .rdmaWrite port hseq addr data => Sys2Proof.Machine.execRdmaWrite port hseq addr data s
  | .rdmaSend port hseq qpn data => Sys2Proof.Machine.execRdmaSend port hseq qpn data s
  | .unsupportedRequest port hseq => Sys2Proof.Machine.execUnsupportedRequest port hseq s
  | .roceAckTimeout qp => Sys2Proof.Machine.execRoceAckTimeout qp s
  | .cnp qp => Sys2Proof.Machine.execCnp qp s
  | .dataDescriptorRead step bytes => Sys2Proof.Machine.execDataDescriptorRead step bytes s
  | .ptpSync port offset sec ns => Sys2Proof.Machine.execPtpSync port offset sec ns s
  | .porstNAssert => Sys2Proof.Machine.execPorstNAssert s
  | .porstNRelease strap => Sys2Proof.Machine.execPorstNRelease strap s
  | .resetNAssert => Sys2Proof.Machine.execResetNAssert s
  | .pwrgoodFall => Sys2Proof.Machine.execPwrgoodFall s
  | .bootStepComplete result => Sys2Proof.Machine.execBootStepComplete result s
  | .selfRefreshConfirm ok => Sys2Proof.Machine.execSelfRefreshConfirm ok s
  | .resetRelease => Sys2Proof.Machine.execResetRelease s
  | .alarmReset => Sys2Proof.Machine.execAlarmReset s
  | .marginEpochEnd => Sys2Proof.Machine.execMarginEpochEnd s
  | .frequencyProposal device prop step => Sys2Proof.Machine.execFrequencyProposal device prop step s
  | .switchCycleMessage device cycle => Sys2Proof.Machine.execSwitchCycleMessage device cycle s
  | .frequencySwitch => Sys2Proof.Machine.execFrequencySwitch s
  | .clockRestart => Sys2Proof.Machine.execClockRestart s
  | .powerSample watts => Sys2Proof.Machine.execPowerSample watts s
  | .temperatureSample halfDegrees => Sys2Proof.Machine.execTemperatureSample halfDegrees s
  | .faultReport unit cause access addr detail => Sys2Proof.Machine.execFaultReport unit cause access addr detail s
  | .escalationNotify entry => Sys2Proof.Machine.execEscalationNotify entry s
  | .escalationIsolate entry => Sys2Proof.Machine.execEscalationIsolate entry s
  | .escalationSafe entry => Sys2Proof.Machine.execEscalationSafe entry s
  | .ackDismiss master entry => Sys2Proof.Machine.execAckDismiss master entry s
  | .ackAbort master entry => Sys2Proof.Machine.execAckAbort master entry s
  | .ackIsolate master entry => Sys2Proof.Machine.execAckIsolate master entry s
  | .ackSafe master entry => Sys2Proof.Machine.execAckSafe master entry s
  | .openDismiss master high value => Sys2Proof.Machine.execOpenDismiss master high value s
  | .wdtKick master value => Sys2Proof.Machine.execWdtKick master value s
  | .watchdogExpiry core => Sys2Proof.Machine.execWatchdogExpiry core s
  | .unfreeze master value => Sys2Proof.Machine.execUnfreeze master value s
  | .paritySweep badOffset => Sys2Proof.Machine.execParitySweep badOffset s
  | .dlogPost master value => Sys2Proof.Machine.execDlogPost master value s
  | .telemetryPeriod => Sys2Proof.Machine.execTelemetryPeriod s
  | .histogramClear master engine value => Sys2Proof.Machine.execHistogramClear master engine value s
  | .attest master value => Sys2Proof.Machine.execAttest master value s
  | .fullReset master value => Sys2Proof.Machine.execFullReset master value s
  | .ringTailWrite master stream value => Sys2Proof.Machine.execRingTailWrite master stream value s
  | .cueWrite master cue value => Sys2Proof.Machine.execCueWrite master cue value s
  | .evqConsWrite master high value => Sys2Proof.Machine.execEvqConsWrite master high value s
  | .testAccessRead master addr wide => Sys2Proof.Machine.execTestAccessRead master addr wide s
  | .lowWordRead master addr wide => Sys2Proof.Machine.execLowWordRead master addr wide s
  | .registerWrite master addr size value => Sys2Proof.Machine.execRegisterWrite master addr size value s
  | .setAliasWrite master addr size value => Sys2Proof.Machine.execSetAliasWrite master addr size value s
  | .clearAliasWrite master addr size value => Sys2Proof.Machine.execClearAliasWrite master addr size value s
  | .toggleAliasWrite master addr size value => Sys2Proof.Machine.execToggleAliasWrite master addr size value s
  | .mittenBitAliasWrite master addr size value => Sys2Proof.Machine.execMittenBitAliasWrite master addr size value s
  | .jtagInstruction insn => Sys2Proof.Machine.execJtagInstruction insn s
  | .hostPortLinkDown port => Sys2Proof.Machine.execHostPortLinkDown port s
  | .portLinkUp unit => Sys2Proof.Machine.execPortLinkUp unit s
  | .roceResponse qp psn data => Sys2Proof.Machine.execRoceResponse qp psn data s
  | .roceRateRecovery qp => Sys2Proof.Machine.execRoceRateRecovery qp s
  | .flashProgramComplete num block ok => Sys2Proof.Machine.execFlashProgramComplete num block ok s
  | .replanHoldoverTimeout => Sys2Proof.Machine.execReplanHoldoverTimeout s
  | .frequencyAgreementTimeout => Sys2Proof.Machine.execFrequencyAgreementTimeout s
  | .handshakeRestart assoc => Sys2Proof.Machine.execHandshakeRestart assoc s
  | .zcWaitResume core => Sys2Proof.Machine.execZcWaitResume core s
  | .registerRead master addr size => Sys2Proof.Machine.execRegisterRead master addr size s
  | .neighborAdvertisement port target mac => Sys2Proof.Machine.execNeighborAdvertisement port target mac s

end Sys2Proof.Machine
end

