-- ==== Sys2Proof/Safety.lean ====
section
/-! DEFINITION. The terms in which claims speak of a run: when the core domain acts, which domain a
command belongs to, what a step may never do to the fuses, and the canonical form of the stores. -/

namespace Sys2Proof

/-- The commands of the core domain: its units act, and stand still while the core clock stands (R491, R474, R470). -/
def Instr.inCoreDomain : Instr → Bool
  | .commandIssue _ | .prod _ | .tileStart _ | .promotion _ | .drain _ | .accumulatorSwap _ | .slotBeatSend _
  | .rowred _ | .rowew _ | .rowfn _ | .rblk _ | .tblld _ | .rowCommandStart _ | .stash _ | .unstash _ | .sreset _
  | .linerCommandStart _ | .send _ | .write _ | .mcast _ | .post _ | .start _ | .nop _ _ | .advance _ _ | .slack _ _
  | .waitcue _ _ | .postcue _ _ | .sleep _ _ | .unitGate _ | .wakeStart _ | .wakeComplete _ | .qbound _ _
  | .qwait _ _ | .qfree _ _ | .bgslot _ _ | .bgslotClose | .expand _ _ | .stepend _ _ | .zcIssue _ _ | .zcWait _ _
  | .zcTime _ _ | .zcCue _ _ | .zcCuewait _ _ | .zcBeat _ _ | .zcDone _ _ | .zcWaitResume _ | .beatArrival _ _
  | .beatAdd _ _ _ | .windowEntry _ _ | .ingressStallLimit _ _ | .slotTrigger _ _ | .slotOpen _ _ | .cuffEntryStart _
  | .hbmReadReturn _ | .hbmWriteAck _ | .noiseMessage _ _ _ _ _ | .flashFetchComplete _ _
  | .flashProgramComplete _ _ _ | .refreshWindow _ | .backgroundQuantum _ | .forcedSlot _ | .abortMessage _ _ _
  | .censusRecord _ _ _ _ _ | .censusSet _ _ | .censusTimeout | .migrationComplete | .readyCycleMessage _ _
  | .dataDescriptorRead _ _ | .jobImageReadComplete | .frameReceive _ _ _ _ _ | .egressSlot _ | .nak _ _
  | .retryTimeout _ | .latencyProbe _ _ | .discoveryIdentity _ _ _ | .alignmentFrame _ _ _ | .laneFail _ _
  | .laneChange _ _ | .retrainComplete _ _ _ | .qdataMessage _ | .qcredMessage _ | .cueMessage _ | .writeMessage _
  | .mcastMessage _ _ | .ctrlMessage _ | .atomicBurst _ _ | .burstClose _ | .roundSend _ | .round _ | .commit _
  | .join _ | .fetch _ | .leaderCommit _ | .commitDeadline _ | .siteSilent _ | .memberRemoval _ _ | .deltaObject _ _
  | .anchorObject _ _ | .classCFragment _ _ | .classCRelease _ _ | .classCResend _ _ | .classDFrame _ _ | .probe _ _
  | .feedbackReport _ _ _ | .probeTimer _ | .feedbackTimer _ | .routeDown _ _ | .packetTransmit _
  | .neighborSolicitation _ _ | .echoRequest _ _ _ | .neighborAdvertisement _ _ _ | .macPause _ | .partnerLinkDown _
  | .portLinkUp _ | .recordStart _ _ _ _ | .recordComplete _ _ _ _ _ _ _ | .hello _ _ | .finish _ _ | .keyupd _ _ _
  | .keyack _ _ | .keySlotOverwrite _ | .rekeyTimer _ | .handshakeTimeout _ | .handshakeRestart _
  | .knownAnswerTest _ | .reportSigned | .contact _ | .assign _ _ _ _ | .stop _ _ _ | .replace _ _ _ _
  | .controlResend _ | .contactRetry | .rdmaRead _ _ _ _ _ | .rdmaWrite _ _ _ _ | .rdmaSend _ _ _ _
  | .unsupportedRequest _ _ | .roceAckTimeout _ | .cnp _ | .roceRateRecovery _ | .roceResponse _ _ _
  | .hostPortLinkDown _ | .ptpSync _ _ _ _ | .marginEpochEnd | .frequencyProposal _ _ _ | .frequencyAgreementTimeout
  | .switchCycleMessage _ _ | .telemetryPeriod => true
  | .alarm _ | .bootStepComplete _ | .selfRefreshConfirm _ | .resetRelease | .alarmReset | .replanHoldoverTimeout
  | .frequencySwitch | .clockRestart | .powerSample _ | .temperatureSample _ | .faultReport _ _ _ _ _
  | .escalationNotify _ | .escalationIsolate _ | .escalationSafe _ | .watchdogExpiry _ | .paritySweep _
  | .touchListPost _ _ | .porstNAssert | .porstNRelease _ | .resetNAssert | .pwrgoodFall | .ackDismiss _ _
  | .ackAbort _ _ | .ackIsolate _ _ | .ackSafe _ _ | .openDismiss _ _ _ | .wdtKick _ _ | .unfreeze _ _
  | .dlogPost _ _ | .histogramClear _ _ _ | .attest _ _ | .fullReset _ _ | .ringTailWrite _ _ _ | .cueWrite _ _ _
  | .evqConsWrite _ _ _ | .testAccessRead _ _ _ | .lowWordRead _ _ _ | .registerWrite _ _ _ _
  | .setAliasWrite _ _ _ _ | .clearAliasWrite _ _ _ _ | .toggleAliasWrite _ _ _ _ | .mittenBitAliasWrite _ _ _ _
  | .registerRead _ _ _ | .jtagInstruction _ => false

/-- The commands of the always-on domain: Mitten, Gauntlet and the alarms, which PORST_N alone holds (R474). -/
def Instr.inAlwaysOnDomain : Instr → Bool
  | .alarm _ | .bootStepComplete _ | .selfRefreshConfirm _ | .resetRelease | .alarmReset | .replanHoldoverTimeout
  | .frequencySwitch | .clockRestart | .powerSample _ | .temperatureSample _ | .faultReport _ _ _ _ _
  | .escalationNotify _ | .escalationIsolate _ | .escalationSafe _ | .watchdogExpiry _ | .paritySweep _ => true
  | .commandIssue _ | .prod _ | .tileStart _ | .promotion _ | .drain _ | .accumulatorSwap _ | .slotBeatSend _
  | .rowred _ | .rowew _ | .rowfn _ | .rblk _ | .tblld _ | .rowCommandStart _ | .stash _ | .unstash _ | .sreset _
  | .linerCommandStart _ | .send _ | .write _ | .mcast _ | .post _ | .start _ | .nop _ _ | .advance _ _ | .slack _ _
  | .waitcue _ _ | .postcue _ _ | .sleep _ _ | .unitGate _ | .wakeStart _ | .wakeComplete _ | .qbound _ _
  | .qwait _ _ | .qfree _ _ | .bgslot _ _ | .bgslotClose | .expand _ _ | .stepend _ _ | .zcIssue _ _ | .zcWait _ _
  | .zcTime _ _ | .zcCue _ _ | .zcCuewait _ _ | .zcBeat _ _ | .zcDone _ _ | .zcWaitResume _ | .beatArrival _ _
  | .beatAdd _ _ _ | .windowEntry _ _ | .ingressStallLimit _ _ | .slotTrigger _ _ | .slotOpen _ _ | .cuffEntryStart _
  | .hbmReadReturn _ | .hbmWriteAck _ | .noiseMessage _ _ _ _ _ | .flashFetchComplete _ _
  | .flashProgramComplete _ _ _ | .refreshWindow _ | .backgroundQuantum _ | .forcedSlot _ | .abortMessage _ _ _
  | .censusRecord _ _ _ _ _ | .censusSet _ _ | .censusTimeout | .migrationComplete | .readyCycleMessage _ _
  | .dataDescriptorRead _ _ | .jobImageReadComplete | .frameReceive _ _ _ _ _ | .egressSlot _ | .nak _ _
  | .retryTimeout _ | .latencyProbe _ _ | .discoveryIdentity _ _ _ | .alignmentFrame _ _ _ | .laneFail _ _
  | .laneChange _ _ | .retrainComplete _ _ _ | .qdataMessage _ | .qcredMessage _ | .cueMessage _ | .writeMessage _
  | .mcastMessage _ _ | .ctrlMessage _ | .atomicBurst _ _ | .burstClose _ | .roundSend _ | .round _ | .commit _
  | .join _ | .fetch _ | .leaderCommit _ | .commitDeadline _ | .siteSilent _ | .memberRemoval _ _ | .deltaObject _ _
  | .anchorObject _ _ | .classCFragment _ _ | .classCRelease _ _ | .classCResend _ _ | .classDFrame _ _ | .probe _ _
  | .feedbackReport _ _ _ | .probeTimer _ | .feedbackTimer _ | .routeDown _ _ | .packetTransmit _
  | .neighborSolicitation _ _ | .echoRequest _ _ _ | .neighborAdvertisement _ _ _ | .macPause _ | .partnerLinkDown _
  | .portLinkUp _ | .recordStart _ _ _ _ | .recordComplete _ _ _ _ _ _ _ | .hello _ _ | .finish _ _ | .keyupd _ _ _
  | .keyack _ _ | .keySlotOverwrite _ | .rekeyTimer _ | .handshakeTimeout _ | .handshakeRestart _
  | .knownAnswerTest _ | .reportSigned | .contact _ | .assign _ _ _ _ | .stop _ _ _ | .replace _ _ _ _
  | .controlResend _ | .contactRetry | .rdmaRead _ _ _ _ _ | .rdmaWrite _ _ _ _ | .rdmaSend _ _ _ _
  | .unsupportedRequest _ _ | .roceAckTimeout _ | .cnp _ | .roceRateRecovery _ | .roceResponse _ _ _
  | .hostPortLinkDown _ | .ptpSync _ _ _ _ | .marginEpochEnd | .frequencyProposal _ _ _ | .frequencyAgreementTimeout
  | .switchCycleMessage _ _ | .telemetryPeriod | .touchListPost _ _ | .porstNAssert | .porstNRelease _
  | .resetNAssert | .pwrgoodFall | .ackDismiss _ _ | .ackAbort _ _ | .ackIsolate _ _ | .ackSafe _ _
  | .openDismiss _ _ _ | .wdtKick _ _ | .unfreeze _ _ | .dlogPost _ _ | .histogramClear _ _ _ | .attest _ _
  | .fullReset _ _ | .ringTailWrite _ _ _ | .cueWrite _ _ _ | .evqConsWrite _ _ _ | .testAccessRead _ _ _
  | .lowWordRead _ _ _ | .registerWrite _ _ _ _ | .setAliasWrite _ _ _ _ | .clearAliasWrite _ _ _ _
  | .toggleAliasWrite _ _ _ _ | .mittenBitAliasWrite _ _ _ _ | .registerRead _ _ _ | .jtagInstruction _ => false

end Sys2Proof

namespace Sys2Proof.Machine

/-- The core domain acts: its clock runs, and no frequency switch holds it (R470, R474, R491). -/
abbrev State.coreRunning (s : State) : Prop := s.coreStopped = false ∧ s.clk.held = false

/-- Fuses once blown stay blown (R401, R416): the anti-rollback counter of `t` is no lower than that of `s`, and every REVOKE
bit of `s` is set in `t`. -/
def FusesHold (s t : State) : Prop :=
  s.fuseBits.2 ≤ t.fuseBits.2 ∧ s.fuseBits.1 &&& t.fuseBits.1 = s.fuseBits.1

/-- The fuses hold at least what Jorsil blew at the part's test (R401). -/
def FusesAboveTest (s : State) : Prop :=
  min 64 Config.arbFuse ≤ s.fuseBits.2 ∧ Config.revokeFuse.toNat &&& s.fuseBits.1 = Config.revokeFuse.toNat

/-- Tile stores and HBM are in canonical form. -/
abbrev State.storesWf (s : State) : Prop := s.hbm.wf = true ∧ s.tile.wf = true

/-- The step answers a next state. -/
def Completes (o : Host.Outcome State Fault Refusal) : Prop := ∃ t, o = .next t

end Sys2Proof.Machine
end

