-- ==== Sys2Proof/Certificates/Slice0/Obligations.lean ====
section
/-! DEFINITION. The statements for the provers: what the spec's rules say the block does, command by command, with what each
command leaves alone, and what no step may do. -/

section
open Sys2Proof Sys2Proof.Machine

/-- A step of a queue that holds a command runs that command with the queue's rest behind it. -/
def Obligations.StepRunsFrontCommand : Prop :=
  ∀ (c : Instr) (rest : List Instr) (s : State), s.pending = c :: rest → step s = exec c { s with pending := rest }

/-- A step of an empty queue moves the clocks and nothing else: one core cycle while the core clock runs, one always-on
cycle while it is stopped, nothing while PORST_N is asserted. That an empty queue lets time pass is the model's
choice (log 1). -/
def Obligations.EmptyQueueTicks : Prop :=
  ∀ s : State, s.pending = [] → ∃ t, step s = .next t ∧ t = { s with clk := t.clk } ∧
    (s.pins.porst = true → t.clk = s.clk) ∧
    (s.pins.porst = false → s.coreStopped = true → t.clk.fcnt = s.clk.fcnt ∧ t.clk.acnt = s.clk.acnt + 1) ∧
    (s.coreStopped = false → t.clk.fcnt = (s.clk.fcnt + 1) % 2 ^ 64 ∧ s.clk.acnt ≤ t.clk.acnt)

/-- Every command is given an outcome that goes on: none stops the block. A command that is not well-formed has no
effect (log 40). -/
def Obligations.EveryCommandGoesOn : Prop :=
  (∀ (c : Instr) (s : State), Completes (exec c s)) ∧
  (∀ (c : Instr) (s : State), wellFormed c = false → exec c s = .next s)

/-- The commands that wait are those the step left: no command's effect takes one away or adds one. -/
def Obligations.ExecKeepsQueue : Prop :=
  ∀ (c : Instr) (s t : State), exec c s = .next t → t.pending = s.pending

/-- While the core clock stands (safe state, reset, PORST_N asserted, or held for a frequency switch) no command of the
core domain changes anything (R491, R474, R470). While PORST_N is asserted only the pins and the JTAG port act
(R474): every other command leaves the state as it is. -/
def Obligations.StoppedDomainsStand : Prop :=
  (∀ (c : Instr) (s : State), c.inCoreDomain = true → ¬ s.coreRunning → exec c s = .next s) ∧
  (∀ (c : Instr) (s : State), s.pins.porst = true →
    (∀ i, c ≠ .jtagInstruction i) → (∀ k, c ≠ .porstNRelease k) → c ≠ .porstNAssert → c ≠ .resetNAssert → c ≠ .pwrgoodFall →
    exec c s = .next s)

/-- The reset state's fuses are those of the part's test (R401). In the reset state the tile stores and HBM are in
canonical form: addresses strictly rising, no listed byte zero. -/
def Obligations.ResetMeetsTheInvariants : Prop :=
  (FusesAboveTest State.reset) ∧
  (State.reset.storesWf)

/-- From every state, a step keeps the fuses at what Jorsil blew at the part's test or above: the anti-rollback counter
no lower, the REVOKE bits still set (R401, R416). -/
def Obligations.StepKeepsFusesAboveTest : Prop :=
  ∀ s t : State, FusesAboveTest s → step s = .next t → FusesAboveTest t

/-- Across every step the anti-rollback counter never falls and no REVOKE bit clears (R401, R416). -/
def Obligations.StepNeverUnblowsFuses : Prop := ∀ s t : State, step s = .next t → FusesHold s t

/-- From every state whose tile stores and HBM are in canonical form, a step leaves them in canonical form. -/
def Obligations.StepKeepsStoresCanonical : Prop := ∀ s t : State, s.storesWf → step s = .next t → t.storesWf

/-- PROD at an engine that is not isolated (R75, R76): an invalid command moves nothing, is counted once, reserved bits
once more, and is over after 6 cycles; an empty one is counted as empty, and is over after 6 cycles unless it starts a
tile; one that has products to make, or that starts a tile, waits behind the engine's other PRODs with its descriptors
and the holds that move it. Tile store, HBM, the other engines and every other component stay as they are. DRAIN at an
engine that is not isolated (R75, R76, R44): an invalid command moves nothing, is counted, and is over after 1 cycle; one
with no rows or columns is counted as empty, swaps nothing, and is over after 1 cycle; any other waits behind the engine's
other DRAINs with the step of its draws and the layout epoch of its issue; one of DEST 3 that swaps counts nothing
(R91). -/
def Obligations.EnginesAcceptCommands : Prop :=
  (∀ (cmd : Cmd) (s : State), s.coreRunning → wellFormed (.prod cmd) = true → s.isolated (cmdUnit cmd) = false →
    let n := cmdUnit cmd
    let p := ProdCmd.of cmd
    let a := engineDesc s n p.aDesc
    let b := engineDesc s n p.bDesc
    let e := s.engine n
    let resv := b2n (p.reserved || reservedOf [a, b])
    ∃ t, exec (.prod cmd) s = .next t ∧ t = { s with regs := t.regs, eng := t.eng } ∧
      (∀ k, k ≠ n → t.engine k = s.engine k) ∧
      (prodInvalid p a b = true → t = (s.countN (Reg.meEvcViol n) (1 + resv)).setEngine n (e.brief s.now 6)) ∧
      (prodInvalid p a b = false →
        t.regs = Regs.counts s.regs
          [(Reg.meEvcViol n, resv), (Reg.meEvcEmpty n, b2n (p.m == 0 || p.n == 0 || p.k == 0))] ∧
        (p.m ≠ 0 → p.n ≠ 0 → p.k ≠ 0 ∨ p.acc = false →
          t.engine n = { e.next s.now with prods := e.prods ++
            [{ cmd, serial := e.serial, issue := s.now, moved := e.movedNow s.now
               aDesc := engineDescBytes s n p.aDesc, bDesc := engineDescBytes s n p.bDesc }] }) ∧
        (p.m = 0 ∨ p.n = 0 ∨ (p.k = 0 ∧ p.acc = true) → t.engine n = e.brief s.now 6))) ∧
  (∀ (cmd : Cmd) (s : State), s.coreRunning → wellFormed (.drain cmd) = true → s.isolated (cmdUnit cmd) = false →
    let n := cmdUnit cmd
    let d := DrainCmd.of cmd
    let o := engineDesc s n d.desc
    let e := s.engine n
    let resv := b2n (d.reserved || (d.dest == 0 && reservedOf [o]))
    ∃ t, exec (.drain cmd) s = .next t ∧ t = { s with regs := t.regs, eng := t.eng } ∧
      (∀ k, k ≠ n → t.engine k = s.engine k) ∧
      (drainInvalid d o = true → t = (s.countN (Reg.meEvcViol n) (1 + resv)).setEngine n (e.brief s.now 1)) ∧
      (drainInvalid d o = false →
        (d.dest ≠ 3 ∨ d.m = 0 ∨ d.n = 0 → t.regs = Regs.counts s.regs
          [(Reg.meEvcViol n, resv + b2n (d.rnd == 3)), (Reg.meEvcEmpty n, b2n (d.m == 0 || d.n == 0))]) ∧
        (d.dest = 3 → d.m ≠ 0 → d.n ≠ 0 → t.regs = s.regs) ∧
        (d.m ≠ 0 → d.n ≠ 0 →
          t.engine n = { e.next s.now with drains := e.drains ++
            [{ cmd, serial := e.serial, issue := s.now, moved := e.movedNow s.now
               desc := engineDescBytes s n d.desc, step := s.reg Reg.seqStep, lepoch := s.fld Reg.seqEpoch 0 16 }] }) ∧
        (d.m = 0 ∨ d.n = 0 → t.engine n = e.brief s.now 1)))

/-- TILE_START completes (R77, R79, R82, R84): the PROD with ACC = 0 in front of its engine makes its first operand
entry, which clears every cell of the active set to +0, resets the promotion counter, sets BOUND_OK, and takes the
precision mode in force; a tile still open is discarded and counted; with K = 0 the PROD is over. PROMOTION completes
(R37, R81, R84) for a PROD whose first entry is made, or a continuation (ACC = 1) that then makes it: the set is open,
its counter is left by the first promotion and goes up by one at each later one, to 0x7FFF at most, where BOUND_OK
clears; without block scales each cell takes the A20 sum of the partial's products; every other set and engine and the
tile store stay as they are. ACCUMULATOR_SWAP completes (R89, R90, R95 to R98): a DRAIN whose rule lets it swap leaves a
cleared active set, is taken off the queue, and toggles the set that `ME_STATUS.ACTIVE` names; to tile store (DEST 0)
line l of its output is written 10 + l cycles after the first line is read, to a slot every beat of its output is read
out behind the engine's others. The first entry, and the DRAIN in the queue, are conditions on the state alone. Stated
where no row read fails its parity. -/
def Obligations.TilesStartPromoteAndSwap : Prop :=
  (∀ (n : Nat) (s : State) (r : ProdRun) (rest : List ProdRun), s.coreRunning → n < 128 → s.isolated n = false →
    let e := s.engine n
    let o := r.operands
    let entry := (firstEntry e r o.p 0).1
    e.prods = r :: rest → r.first = none → o.p.acc = false → e.behindSwap r entry = false →
    ∃ t, exec (.tileStart n) s = .next t ∧ t = { s with regs := t.regs, eng := t.eng, clk := t.clk } ∧
      (∀ k, k ≠ n → t.engine k = s.engine k) ∧ (entry < 2 ^ 64 → t.now = max s.now entry) ∧
      (t.engine n).act = { opened := true, prec := s.fld Reg.seqMode 3 2, ready :=
        if o.p.k = 0 then entry
        else entry + (o.pairs.length - 1) * passCycles o.p.k + (passEntries o.p.k - 1) + 13 } ∧
      (o.p.k = 0 → (t.engine n).prods.map (·.cmd) = rest.map (·.cmd)) ∧
      (o.p.k ≠ 0 → (t.engine n).prods.head? = some { r with first := some entry } ∧
        (t.engine n).prods.map (·.cmd) = e.prods.map (·.cmd)) ∧
      (t.engine n).drains.map (·.cmd) = e.drains.map (·.cmd) ∧
      (t.engine n).shadow = e.shadow ∧ (t.engine n).a20 = e.a20 ∧ (t.engine n).beats = e.beats ∧
      t.reg (Reg.meEvcDiscard n) = min 0xFFFFFFFF (s.reg (Reg.meEvcDiscard n) + b2n e.act.opened)) ∧
  (∀ (n : Nat) (s : State) (r : ProdRun) (rest : List ProdRun), s.coreRunning → n < 128 → s.isolated n = false →
    let e := s.engine n
    let o := r.operands
    let entry := r.first.getD (s.continuationEntry n r o).1
    let prec := if r.first.isSome ∨ e.act.opened = true then e.act.prec else s.fld Reg.seqMode 3 2
    let lo := r.next
    let hi := min (lo + intervalOf prec) (passEntries o.p.k)
    let mem (x : Nat) : Memory := s.tileSeen (entry + r.pass * passCycles o.p.k + x - 4)
    let pq := o.pairs.getD r.pass (0, 0)
    let ks := (List.range (min o.p.k (2 * hi) - 2 * lo)).map (2 * lo + ·)
    e.prods = r :: rest → e.act.failing o.p.m = [] →
    (r.first = none → o.p.acc = true ∧ o.p.k ≠ 0 ∧ e.behindSwap r entry = false) →
    ∃ t, exec (.promotion n) s = .next t ∧ t = { s with regs := t.regs, eng := t.eng, clk := t.clk } ∧
      (∀ k, k ≠ n → t.engine k = s.engine k) ∧
      (t.engine n).shadow = e.shadow ∧ (t.engine n).drains.map (·.cmd) = e.drains.map (·.cmd) ∧
      (t.engine n).act.promoted = true ∧ (r.first = none → (t.engine n).act.opened = true) ∧
      (t.engine n).act.promo =
        (if e.act.promoted then max e.act.promo (min 0x7FFF (e.act.promo + 1)) else e.act.promo) ∧
      ((t.engine n).act.boundOk = true ↔
        e.act.boundOk = true ∧ (e.act.promoted = true → e.act.promo < 0x7FFF)) ∧
      (r.half = false → o.a.scaled = false → o.b.scaled = false → ∀ i j, i < o.p.m → j < o.p.n →
        ((t.engine n).act.rows.get [] i).getD j 0 = promoteCell ((e.act.rows.get [] i).getD j 0)
          (partialSum (ks.map fun k => o.a.elem (mem (k / 2)) (n / 4) true o.p.aOff pq.1 i k)
            (ks.map fun k => o.b.elem (mem (k / 2)) (n / 4) false o.p.bOff pq.2 j k)).1 127 127)) ∧
  (∀ (n : Nat) (s : State) (dr : DrainRun) (rest : List DrainRun), s.coreRunning → n < 128 → s.isolated n = false →
    let e := s.engine n
    let d := DrainCmd.of dr.cmd
    let t0 := e.swapAt dr
    e.drains = dr :: rest → e.swapBlocked dr (s.entryOfFront n) = false → e.act.failing d.m = [] →
    ∃ t, exec (.accumulatorSwap n) s = .next t ∧
      t = { s with regs := t.regs, eng := t.eng, tileDue := t.tileDue, clk := t.clk } ∧
      (∀ k, k ≠ n → t.engine k = s.engine k) ∧
      (t.engine n).act = {} ∧ (t.engine n).drains.map (·.cmd) = rest.map (·.cmd) ∧
      (t.engine n).prods.map (·.cmd) = e.prods.map (·.cmd) ∧ (t.engine n).a20 = e.a20 ∧
      (t0 < 2 ^ 64 → t.now = max s.now t0) ∧
      t.fld (Reg.meStatus n) 0 1 = 1 - s.fld (Reg.meStatus n) 0 1 ∧
      (d.dest ≠ 0 → t.tileDue = s.tileDue) ∧
      (d.dest = 0 → ∀ l x w, (drainLines d (Desc.ofNat dr.desc) (n / 4) dr.step e.act e.act.poisoned)[l]? = some x →
        w ∈ x.1.writes → (t0 + 11 + l, w) ∈ t.tileDue) ∧
      (d.dest = 1 ∨ d.dest = 2 →
        (t.engine n).beats.map (·.beat) ++ (t.engine n).unread.map (·.1.beat) = e.beats.map (·.beat) ++
          (drainBeats d dr s.device n e.act e.act.poisoned).map (·.1.beat)) ∧
      (d.dest = 0 ∨ d.dest = 3 → (t.engine n).beats = e.beats))

/-- A command to an isolated unit moves nothing and is counted in `GNT_EVC_ISOCMD` (R488). -/
def Obligations.IsolatedUnitTakesNoCommand : Prop :=
  ∀ (c : Cmd) (s : State) (i : Instr), s.coreRunning →
    i ∈ [.prod c, .drain c, .rowred c, .rowew c, .rowfn c, .rblk c, .tblld c, .send c, .write c, .mcast c, .post c, .start c] →
    wellFormed i = true → s.isolated (cmdUnit c) = true → exec i s = .next (s.count Reg.gntEvcIsocmd)

/-- ROWRED, ROWEW, ROWFN, RBLK and TBLLD behind another command of their row unit wait in order of issue, with the step
of their draws (R118, R50); nothing else changes. ROWRED, ROWEW, ROWFN, RBLK and TBLLD at an idle row unit start at
their issue (R118): the unit is busy for the command's own cycles, its results are those of the command's rule, and
HBM, the other row units, the engines and every component beside registers, tile store and this row unit stay as
they are. ROW_COMMAND_START (R118): the command held longest starts at its issue or when the unit is free, whichever
is later, and leaves the list of held ones; a later start is counted in `ROW_EVC_HOLD`. -/
def Obligations.RowCommandsRunInOrder : Prop :=
  (∀ (c : Cmd) (s : State) (i : Instr) (k : RowOp), s.coreRunning →
    (i, k) ∈ [(.rowred c, RowOp.red), (.rowew c, .ew), (.rowfn c, .fn), (.rblk c, .rblk), (.tblld c, .tblld)] →
    wellFormed i = true → s.isolated (cmdUnit c) = false →
    let u := s.rowUnit (cmdUnit c - 0x80)
    u.held ≠ [] ∨ s.now < u.busyTo →
    exec i s = .next { s with row := s.row.set (cmdUnit c - 0x80) { u with
      held := u.held ++ [(k, { cmd := c, issue := s.now, step := s.reg Reg.seqStep, lepoch := s.fld Reg.seqEpoch 0 16 })] } }) ∧
  (∀ (c : Cmd) (s : State) (i : Instr) (k : RowOp), s.coreRunning →
    (i, k) ∈ [(.rowred c, RowOp.red), (.rowew c, .ew), (.rowfn c, .fn), (.rblk c, .rblk), (.tblld c, .tblld)] →
    wellFormed i = true → s.isolated (cmdUnit c) = false →
    let n := cmdUnit c - 0x80
    let r := runRow s.landedTiles n k { cmd := c, issue := s.now, step := s.reg Reg.seqStep, lepoch := s.fld Reg.seqEpoch 0 16 } s.now
    (s.rowUnit n).held = [] → (s.rowUnit n).busyTo ≤ s.now →
    ∃ t, exec i s = .next t ∧
      t = { s with regs := t.regs, tile := t.tile, tileDue := t.tileDue, tileWas := t.tileWas, row := t.row } ∧
      t.tileNow = r.tile ∧
      (∀ j, j ≠ n → t.rowUnit j = s.rowUnit j) ∧ t.tile = r.tile ∧ (t.rowUnit n).rv = r.unit.rv ∧
      (t.rowUnit n).tables = r.unit.tables ∧ (t.rowUnit n).busyTo = s.now + r.cycles) ∧
  (∀ (n : Nat) (s : State) (k : RowOp) (h : HeldCmd) (rest : List (RowOp × HeldCmd)), s.coreRunning → n < 32 →
    s.isolated (0x80 + n) = false → (s.rowUnit n).held = (k, h) :: rest →
    let start := max (s.rowUnit n).busyTo h.issue
    let s' := { s with row := s.row.set n { s.rowUnit n with held := rest } }
    let r := runRow (s'.atCycle start).landedTiles n k h start
    ∃ t, exec (.rowCommandStart n) s = .next t ∧
      t = { s with regs := t.regs, tile := t.tile, tileDue := t.tileDue, tileWas := t.tileWas, row := t.row, clk := t.clk } ∧
      (∀ j, j ≠ n → t.rowUnit j = s.rowUnit j) ∧ (start < 2 ^ 64 → t.now = max s.now start) ∧
      t.tile = r.tile ∧ (t.rowUnit n).rv = r.unit.rv ∧ (t.rowUnit n).busyTo = start + r.cycles)

/-- STASH, UNSTASH and SRESET behind another Liner command of their cluster wait in order of issue (R134); nothing else
changes. STASH, UNSTASH and SRESET on an idle cluster stream from their issue (R134): HBM and the tile store hold
what the command's rule puts there, and the engines, the row units, Gauntlet and the other components stay as they
are; a partition keeps all but the use of its banks. LINER_COMMAND_START starts the command held longest, at its issue or
when its cluster's streaming ends. SRESET of a stage (R142): the head goes to BASE, the stage's directory span and
scratch directory hold no valid entry, the RECOMP bits and `LNR_Ss_FULL` are clear, and the memory the stash used stays
as it is. -/
def Obligations.LinerCommandsRunInOrder : Prop :=
  (∀ (c : Cmd) (s : State) (i : Instr) (k : LnrOp), s.coreRunning →
    (i, k) ∈ [(.stash c, LnrOp.stash), (.unstash c, .unstash), (.sreset c, .sreset)] → wellFormed i = true →
    let cl := (LnrCmd.of k c).cluster
    let q := s.lnr.queues.get {} cl
    q.held ≠ [] ∨ s.now < q.streamTo →
    exec i s = .next { s with lnr := { s.lnr with queues := s.lnr.queues.set cl { q with
      held := q.held ++ [(k, { cmd := c, issue := s.now, step := s.reg Reg.seqStep, lepoch := s.fld Reg.seqEpoch 0 16 })] } } }) ∧
  ((∀ (c : Cmd) (s : State) (i : Instr) (k : LnrOp), s.coreRunning →
    (i, k) ∈ [(.stash c, LnrOp.stash), (.unstash c, .unstash), (.sreset c, .sreset)] → wellFormed i = true →
    let cl := (LnrCmd.of k c).cluster
    let q := s.lnr.queues.get {} cl
    let r := runLnr s.landedTiles k { cmd := c, issue := s.now, step := s.reg Reg.seqStep, lepoch := s.fld Reg.seqEpoch 0 16 }
    q.held = [] → q.streamTo ≤ s.now →
    ∃ t, exec i s = .next t ∧
      t = { s with regs := t.regs, tile := t.tile, tileDue := t.tileDue, tileWas := t.tileWas, part := t.part, hbm := t.hbm
                   lnr := t.lnr, seq := { s.seq with cueHist := t.seq.cueHist } } ∧
      (∀ p, t.partition p = { s.partition p with bankUse := (t.partition p).bankUse }) ∧
      t.tileNow = r.tile ∧ t.hbm = r.hbm ∧ t.lnr.dir = r.lnr.dir ∧ (t.lnr.queues.get {} cl).streamTo = s.now + r.stream) ∧
  (∀ (cl : Nat) (s : State) (k : LnrOp) (h : HeldCmd) (rest : List (LnrOp × HeldCmd)), s.coreRunning → cl < 32 →
    (s.lnr.queues.get {} cl).held = (k, h) :: rest →
    let start := max (s.lnr.queues.get {} cl).streamTo h.issue
    let s' := { s with lnr := { s.lnr with queues := s.lnr.queues.set cl { (s.lnr.queues.get {} cl : LnrQueue) with held := rest } } }
    let r := runLnr (s'.atCycle start).landedTiles k h
    ∃ t, exec (.linerCommandStart cl) s = .next t ∧
      t = { s with regs := t.regs, tile := t.tile, tileDue := t.tileDue, tileWas := t.tileWas, part := t.part, hbm := t.hbm
                   lnr := t.lnr, clk := t.clk, seq := { s.seq with cueHist := t.seq.cueHist } } ∧
      (start < 2 ^ 64 → t.now = max s.now start) ∧ t.tile = r.tile ∧ t.hbm = r.hbm ∧ t.lnr.dir = r.lnr.dir)) ∧
  (∀ (c : Cmd) (s : State), s.coreRunning → wellFormed (.sreset c) = true →
    let x := LnrCmd.of .sreset c
    let q := s.lnr.queues.get {} x.cluster
    q.held = [] → q.streamTo ≤ s.now →
    ∃ t, exec (.sreset c) s = .next t ∧ t.hbm = s.hbm ∧ t.tileNow = s.tileNow ∧ t.eng = s.eng ∧ t.row = s.row ∧
      Regs.pair t.regs (Reg.lnrSHeadLo x.stage) = Regs.pair s.regs (Reg.lnrSBaseLo x.stage) ∧
      (∀ e, s.fld (Reg.lnrSDir x.stage) 0 16 ≤ e →
        e < s.fld (Reg.lnrSDir x.stage) 0 16 + 256 * s.fld (Reg.lnrSDir x.stage) 16 16 → Tbl.get? t.lnr.dir e = none) ∧
      (∀ e, e / 65536 = x.stage → Tbl.get? t.lnr.scrDir e = none) ∧
      (∀ w, w < 8 → t.reg (Reg.lnrSRecomp0 x.stage + 4 * w) = 0) ∧ t.fld (Reg.lnrSFull x.stage) 0 9 = 0)

/-- SLOT_BEAT_SEND completes (R96): where some unit of the cluster has a beat that its partition or link accepts, the
port's places of one cycle, the first in which such a beat is ready and the port free, are given in ascending unit ID, two
to a unit that alone has a beat; the first of them goes to the lowest unit, whose oldest acceptable beat leaves it for its
partition's ingress of this cluster or for its device's link, 28 cycles later; and the port is next free a cycle later. -/
def Obligations.PortGivesTwoPlacesACycle : Prop :=
  ∀ (c : Nat) (s : State) (r : Nat) (rs : List Nat), s.coreRunning → c < 32 →
    ((portUnits c).filterMap (s.offered c)).map (·.readyAt) = r :: rs →
    let t0 := max (Tbl.get 0 s.ports c) (rs.foldl min r)
    ∃ t, exec (.slotBeatSend c) s = .next t ∧ Tbl.get 0 t.ports c = t0 + 1 ∧ (t0 < 2 ^ 64 → t.now = max s.now t0) ∧
      t = { s with regs := t.regs, eng := t.eng, row := t.row, part := t.part, seam := t.seam, lnr := t.lnr, clk := t.clk
                   ports := t.ports, seq := { s.seq with cores := t.seq.cores, cueHist := t.seq.cueHist } } ∧
      ∃ u b, (s.readyUnits c t0).head? = some u ∧ s.offered c u = some b ∧
        (t.unitBeats u).length + (t.engine u).unread.length < (s.unitBeats u).length + (s.engine u).unread.length ∧
        (b.device = none →
          ((t.partition (b.part % 8)).ingressAt c).queue.take (((s.partition (b.part % 8)).ingressAt c).queue.length + 1) =
            ((s.partition (b.part % 8)).ingressAt c).queue ++ [(t0 + 28, b.beat)]) ∧
        (∀ d k, b.device = some d → s.beatLink d b.beat.srcUnit = some k →
          (t.link k).beats.take ((s.link k).beats.length + 1) = (s.link k).beats ++ [(t0 + 28, d, b.beat)])

/-- SEND, WRITE, MCAST and POST that are invalid are counted once, with reserved bits once more, send no frame, and
complete a cycle after their issue (R314). SEND, WRITE and POST that are valid put their message's frames behind the
others of their link, in the VC and under the priority of their kind, and change no other link and no memory; MCAST
puts them on its own link and on every other link of its group (R312 to R315, R317). -/
def Obligations.SeamCommandsQueueTheirFrames : Prop :=
  (∀ (c : Cmd) (s : State) (i : Instr) (op : SeamOp), s.coreRunning →
    (i, op) ∈ [(.send c, SeamOp.send), (.write c, .write), (.mcast c, .mcast), (.post c, .post)] →
    wellFormed i = true → s.isolated (cmdUnit c) = false → seamInvalid s op c = true →
    let n := cmdUnit c - 0x1B0
    exec i s = .next ((s.countN (Reg.seamEvcViol n) (1 + b2n (seamReserved op c))).shortCommand n)) ∧
  ((∀ (c : Cmd) (s : State) (i : Instr) (op : SeamOp), s.coreRunning →
    (i, op) ∈ [(.send c, SeamOp.send), (.write c, .write), (.post c, .post)] →
    wellFormed i = true → s.isolated (cmdUnit c) = false → seamInvalid s op c = false →
    let n := cmdUnit c - 0x1B0
    let x := SeamCmd.of c
    (op = .post ∨ x.len ≠ 0 ∨ (op = .send ∧ x.last = true)) →
    let m : SeamMsg := if op = .post then { emptyMsg 2 s.device with cue := x.cue, add := BitVec.ofNat 32 x.add }
      else if op = .send then { emptyMsg 0 s.device with last := x.last, queue := (s.peerOf x.queue).2, daddr := x.daddr, len := x.len }
      else { emptyMsg 3 s.device with cueEn := x.cueEn, cue := x.cue, daddr := x.daddr, len := x.len }
    let pl := if op = .post then [messageHeader m] else messageFrames m (s.read48 x.saddr x.len)
    ∃ t, exec i s = .next t ∧ t = { s with regs := t.regs, seam := t.seam } ∧
      (∀ k, k ≠ n → t.link k = s.link k) ∧ (t.link n).out.length = (s.link n).out.length + pl.length ∧
      ((t.link n).out.drop (s.link n).out.length).map (·.f.payload) = pl ∧
      (∀ f ∈ (t.link n).out.drop (s.link n).out.length, f.cmd = true ∧
        f.f.dest = (if op = .send then (s.peerOf x.queue).1 else x.dest) ∧
        f.f.vc = (if op = .post then 0 else if op = .send then 1 else 3))) ∧
  (∀ (c : Cmd) (s : State), s.coreRunning → wellFormed (.mcast c) = true → s.isolated (cmdUnit c) = false →
    seamInvalid s .mcast c = false → (SeamCmd.of c).len ≠ 0 →
    let n := cmdUnit c - 0x1B0
    ∃ t, exec (.mcast c) s = .next t ∧ t = { s with regs := t.regs, seam := t.seam } ∧
      (∀ k, k ≠ n → k ∉ maskLinks (s.group (SeamCmd.of c).group).1 → t.link k = s.link k) ∧
      (s.link n).out.length < (t.link n).out.length))

/-- NOP does nothing but the count of reserved bits that are not zero (R233, R234). ADVANCE moves the planned offset
that the stream's next DELTA counts from on by N, SLACK takes the smaller of the lag and N from the lag (R233); a
SLACK or ADVANCE by 0 is counted as empty (R234); no other stream's offset or lag changes. -/
def Obligations.StreamCommandsMoveTheirStream : Prop :=
  (∀ (n : Nat) (c : Cmd) (s : State), s.coreRunning → wellFormed (.nop n c) = true →
    exec (.nop n c) s = .next (s.countN Reg.seqEvcViol (b2n (seqReserved 0 c))) ∧
    (c.toNat / 2 ^ 32 = 0 → exec (.nop n c) s = .next s)) ∧
  (∀ (n : Nat) (c : Cmd) (s : State), s.coreRunning →
    let k := cmdFld c 32 32
    (wellFormed (.advance n c) = true → k ≠ 0 →
      ∃ t, exec (.advance n c) s = .next t ∧ t = { s with regs := t.regs, seq := { s.seq with streams := t.seq.streams } } ∧
        (t.stream n).offset = (s.stream n).offset + k ∧ (∀ j, j ≠ n → t.stream j = s.stream j) ∧
        (∀ j, j < 40 → t.lag j = s.lag j)) ∧
    (wellFormed (.slack n c) = true → k ≠ 0 →
      ∃ t, exec (.slack n c) s = .next t ∧ t = { s with regs := t.regs } ∧ t.lag n = s.lag n - min (s.lag n) k ∧
        (∀ j, j < 40 → j ≠ n → t.lag j = s.lag j)) ∧
    (k = 0 → seqReserved 1 c = false → (wellFormed (.advance n c) = true → exec (.advance n c) s = .next (s.count Reg.seqEvcEmpty)) ∧
      (wellFormed (.slack n c) = true → exec (.slack n c) s = .next (s.count Reg.seqEvcEmpty))))

/-- WAITCUE (R243): the stream passes when (cue - V) mod 2^32 < 2^31 for the cue as the stream sees it, V = VALUE + k x
STEP_INC with k the stream's step less n0; otherwise the stream waits with the cue as its cause. POSTCUE adds ADD to
a cue below 224, modulo 2^32, and changes no other cue; naming a read-only cue (224 to 255) it changes nothing and
is counted in `SEQ_EVC_VIOL` (R233, R245). -/
def Obligations.CuesCompareAndAdd : Prop :=
  (∀ (n : Nat) (c : Cmd) (s : State), s.coreRunning → wellFormed (.waitcue n c) = true →
    let v := (cmdFld c 40 32 + ((s.stream n).step - s.job.n0) * cmdFld c 72 32) % 2 ^ 32
    ∃ t, exec (.waitcue n c) s = .next t ∧ t = { s with regs := t.regs } ∧
      ((s.cueSeen (cmdFld c 32 8) s.now + 2 ^ 32 - v) % 2 ^ 32 < 2 ^ 31 → t.fld (Reg.seqSStatus n) 0 4 = 0) ∧
      (¬ (s.cueSeen (cmdFld c 32 8) s.now + 2 ^ 32 - v) % 2 ^ 32 < 2 ^ 31 → t.fld (Reg.seqSStatus n) 0 4 = 1 ∧
        ∀ a, a ≠ Reg.seqSStatus n → t.reg a = s.reg a)) ∧
  (∀ (n : Nat) (c : Cmd) (s : State), s.coreRunning → wellFormed (.postcue n c) = true → seqReserved 4 c = false →
    let q := cmdFld c 32 8
    (q < 224 → ∃ t, exec (.postcue n c) s = .next t ∧
      t = { s with regs := t.regs, seq := { s.seq with cueHist := t.seq.cueHist } } ∧
      t.reg (Reg.seqCue q) = (s.reg (Reg.seqCue q) + cmdFld c 40 32) % 2 ^ 32 ∧
      ∀ a, a ≠ Reg.seqCue q → t.reg a = s.reg a) ∧
    (224 ≤ q → exec (.postcue n c) s = .next (s.count Reg.seqEvcViol)))

/-- QBOUND, QWAIT and QFREE (R247, R248). QBOUND takes one credit of a sending queue, and with none left its stream
waits. QWAIT passes while a message has arrived that is not consumed, and otherwise its stream waits. QFREE consumes
one message and queues one credit for the peer; with CONS equal to ARR it sends nothing and is counted in
`SEQ_EVC_VIOL`. -/
def Obligations.QueueCommandsMoveCredits : Prop :=
  ∀ (n : Nat) (c : Cmd) (s : State), s.coreRunning → cmdFld c 38 218 = 0 →
    let q := cmdFld c 32 6
    (wellFormed (.qbound n c) = true → s.queueOk q false = true →
      (s.fld (Reg.seqQCred q) 0 5 ≠ 0 → s.denied q = false →
        ∃ t, exec (.qbound n c) s = .next t ∧ t = { s with regs := t.regs } ∧
          t.fld (Reg.seqQCred q) 0 5 = s.fld (Reg.seqQCred q) 0 5 - 1 ∧ ∀ a, a ≠ Reg.seqQCred q → t.reg a = s.reg a) ∧
      (s.fld (Reg.seqQCred q) 0 5 = 0 →
        ∃ t, exec (.qbound n c) s = .next t ∧ t = { s with regs := t.regs } ∧ t.fld (Reg.seqSStatus n) 0 4 = 3 ∧
          ∀ a, a ≠ Reg.seqSStatus n → t.reg a = s.reg a)) ∧
    (wellFormed (.qwait n c) = true → s.queueOk q true = true →
      (s.reg (Reg.seqQArr q) ≠ s.reg (Reg.seqQCons q) → exec (.qwait n c) s = .next s) ∧
      (s.reg (Reg.seqQArr q) = s.reg (Reg.seqQCons q) →
        ∃ t, exec (.qwait n c) s = .next t ∧ t = { s with regs := t.regs } ∧ t.fld (Reg.seqSStatus n) 0 4 = 2)) ∧
    (wellFormed (.qfree n c) = true → s.queueOk q true = true →
      (s.reg (Reg.seqQArr q) ≠ s.reg (Reg.seqQCons q) →
        ∃ t, exec (.qfree n c) s = .next t ∧ t = { s with regs := t.regs, seam := t.seam } ∧
          t.reg (Reg.seqQCons q) = (s.reg (Reg.seqQCons q) + 1) % 2 ^ 32 ∧
          (∀ a, a ≠ Reg.seqQCons q → t.reg a = s.reg a) ∧
          (t.link (s.routeTo (s.peerOf q).1).1).out.length = (s.link (s.routeTo (s.peerOf q).1).1).out.length + 1) ∧
      (s.reg (Reg.seqQArr q) = s.reg (Reg.seqQCons q) → exec (.qfree n c) s = .next (s.count Reg.seqEvcViol)))

/-- BGSLOT in the stream that `SEQ_CFG.BGSTREAM` names opens a slot of its classes for LENGTH cycles beside those
open, and the one that ends first closes at its end (R258); the command in another stream opens nothing. EXPAND begins
an expansion of its stream in the native order, and is counted as a violation in the compatibility order (R235,
R241); STEPEND begins the stream's next step at offset 0, and in the native order the program from its first command
(R233), and the steps that are over by then end (R10). -/
def Obligations.SlotsExpansionsAndSteps : Prop :=
  ((∀ (n : Nat) (c : Cmd) (s : State), s.coreRunning → wellFormed (.bgslot n c) = true → seqReserved 9 c = false →
    cmdFld c 32 32 ≠ 0 → cmdFld c 64 4 ≠ 0 →
    (s.fld Reg.seqCfg 2 6 = n → exec (.bgslot n c) s = .next { s with seq := { s.seq with
      slots := s.seq.slots ++ [{ classes := cmdFld c 64 4, closes := s.now + cmdFld c 32 32 }] } }) ∧
    (s.fld Reg.seqCfg 2 6 ≠ n → exec (.bgslot n c) s = .next s)) ∧
  (∀ s : State, s.coreRunning → s.seq.slots ≠ [] → (∀ b ∈ s.seq.slots, b.closes < 2 ^ 64) →
    ∃ t, ∃ b ∈ s.seq.slots, exec .bgslotClose s = .next t ∧ (∀ x ∈ s.seq.slots, b.closes ≤ x.closes) ∧
      t = { s with clk := t.clk, seq := { s.seq with slots := s.seq.slots.erase b } } ∧ t.now = max s.now b.closes)) ∧
  (∀ (n : Nat) (c : Cmd) (s : State), s.coreRunning →
    (wellFormed (.expand n c) = true → s.fld Reg.seqCfg 1 1 = 0 →
      ∃ t, exec (.expand n c) s = .next t ∧ t = { s with regs := t.regs, seq := { s.seq with streams := t.seq.streams } } ∧
        (t.stream n).expand = some ⟨c, .forward, 0, 0, []⟩ ∧ t.fld (Reg.seqSStatus n) 4 1 = 1 ∧
        ∀ j, j ≠ n → t.stream j = s.stream j) ∧
    (wellFormed (.expand n c) = true → s.fld Reg.seqCfg 1 1 = 1 → exec (.expand n c) s = .next (s.count Reg.seqEvcViol)) ∧
    (wellFormed (.stepend n c) = true →
      ∃ t : State, exec (.stepend n c) s = .next (t.endSteps 2) ∧ (t.stepOver (t.reg Reg.seqStep) = false → t.endSteps 2 = t) ∧
        t = { s with regs := t.regs, seq := { s.seq with streams := t.seq.streams } } ∧
        (t.stream n).step = (s.stream n).step + 1 ∧ (t.stream n).offset = 0 ∧ (∀ j, j ≠ n → t.stream j = s.stream j) ∧
        (s.fld Reg.seqCfg 1 1 = 0 → t.reg (Reg.seqSHead n) = 0) ∧
        (s.fld Reg.seqCfg 1 1 = 1 → t.reg (Reg.seqSHead n) = s.reg (Reg.seqSHead n))))

/-- SLEEP plans the gating of an engine, a row unit or a cluster, with the wake ahead of the unit's next command by the
lead time of its level, or no wake at all (R250, R251): a target awake waits for idleness, one gated stays gated at the
deeper of the two levels with the new wake, one in its wake keeps waking and is gated afterwards; another target or
LEVEL 0 is counted in `SEQ_EVC_VIOL` (R234). Gating and waking (R250 to R252): a target that is idle and has time gates,
losing at level 1 nothing and otherwise what R250 lists, HBM and tile store kept; one that would not be gated before its
wake is not gated and is counted in `SEQ_EVC_NOGATE`; a gated one wakes from its wake cycle on; and its wake's end frees
it, or has it wait for the gating planned meanwhile. -/
def Obligations.UnitsSleepAndWake : Prop :=
  (∀ (n : Nat) (c : Cmd) (s : State), s.coreRunning → wellFormed (.sleep n c) = true → seqReserved 5 c = false →
    let u := cmdFld c 32 12
    let level := cmdFld c 44 2
    let next := cmdFld c 64 32
    let lead := if level = 1 then 12 else if level = 2 then 1536 else 6000
    let wake := if next = 0xFFFFFFFF then none else some (s.now + next - lead)
    let old := Tbl.get? s.seq.gates (gateKey u level)
    (u < 0xA0 → level ≠ 0 → ∃ t, exec (.sleep n c) s = .next t ∧ t.tile = s.tile ∧ t.hbm = s.hbm ∧
      (∀ k, k ≠ gateKey u level → Tbl.get? t.seq.gates k = Tbl.get? s.seq.gates k) ∧
      ((old = none ∨ ∃ g, old = some g ∧ g.phase = 0) → t = { s with seq := { s.seq with gates := t.seq.gates } } ∧
        Tbl.get? t.seq.gates (gateKey u level) = some ⟨level, wake, 0, 0, none⟩) ∧
      (∀ g, old = some g → g.phase = 1 →
        Tbl.get? t.seq.gates (gateKey u level) = some { g with level := max g.level level, wakeAt := wake } ∧
        (level ≤ g.level → t = { s with seq := { s.seq with gates := t.seq.gates } })) ∧
      (∀ g, old = some g → g.phase = 2 → t = { s with seq := { s.seq with gates := t.seq.gates } } ∧
        Tbl.get? t.seq.gates (gateKey u level) = some { g with next := some (level, wake) })) ∧
    (0xA0 ≤ u ∨ level = 0 → exec (.sleep n c) s = .next (s.count Reg.seqEvcViol))) ∧
  (∀ (k : Nat) (g : Gate) (s : State), s.coreRunning → gateTarget k = true → Tbl.get? s.seq.gates k = some g →
    (g.phase = 0 → s.targetIdle k = true → (∀ w, g.wakeAt = some w → s.now + (gateTimes g.level).1 ≤ w) →
      ∃ t, exec (.unitGate k) s = .next t ∧ t.tile = s.tile ∧ t.hbm = s.hbm ∧
        Tbl.get? t.seq.gates k = some { g with phase := 1, at' := s.now + (gateTimes g.level).1 } ∧
        (g.level = 1 → t.eng = s.eng ∧ t.row = s.row ∧ t.seq.cores = s.seq.cores)) ∧
    (∀ w, g.phase = 0 → g.wakeAt = some w → w < s.now + (gateTimes g.level).1 →
      exec (.unitGate k) s = .next ((s.dropGate k).count Reg.seqEvcNogate)) ∧
    (∀ w, g.phase = 1 → g.wakeAt = some w → w < 2 ^ 64 →
      ∃ t, exec (.wakeStart k) s = .next t ∧ t.now = max s.now w ∧ t.tile = s.tile ∧ t.hbm = s.hbm ∧ t.eng = s.eng ∧
        ∃ g', Tbl.get? t.seq.gates k = some g' ∧ g'.phase = 2 ∧ t.now + (gateTimes g.level).2 ≤ g'.at') ∧
    (g.phase = 2 → g.at' < 2 ^ 64 →
      ∃ t, exec (.wakeComplete k) s = .next t ∧ t.now = max s.now g.at' ∧
        (g.next = none → t = { s with clk := t.clk, seq := { s.seq with gates := s.seq.gates.erase k } }) ∧
        (∀ l w, g.next = some (l, w) →
          t = { s with clk := t.clk, seq := { s.seq with gates := s.seq.gates.set k ⟨l, w, 0, 0, none⟩ } })))

/-- COMMAND_ISSUE in a stream that does not run issues nothing; in a stream of the native order, a NOP that nothing
holds issues in its due cycle, or a cycle after the stream's last command where that is later, or in the present cycle
where both are over; the stream's program goes on to the next command, and the planned offset is that command's (R225,
R228, R229, R233). -/
def Obligations.CommandIssuesWhenDue : Prop :=
  (∀ (n : Nat) (s : State), s.coreRunning → n < 40 → s.streamRuns n = false → exec (.commandIssue n) s = .next s) ∧
  (∀ (n : Nat) (s : State) (c : Cmd), s.coreRunning → n < 40 → s.streamRuns n = true → s.fld Reg.seqCfg 1 1 = 0 →
    (s.stream n).expand = none → s.nextItem n = (s, .cmd c false) → cmdUnit c = 0x1F8 → cmdOpcode c = 0 →
    cmdFld c 32 224 = 0 → (s.stream n).ronly = none →
    let d := s.dueAt n c false
    let at' := (s.stream n).from' d.1
    (s.atCycle at').holds n c = 0 → at' < 2 ^ 64 →
    ∃ t, exec (.commandIssue n) s = .next t ∧ t.now = max s.now at' ∧
      (t.stream n).lastIssue = t.now ∧ (t.stream n).offset = d.2 ∧
      t.reg (Reg.seqSHead n) = (s.reg (Reg.seqSHead n) + 1) % 2 ^ 32 ∧ t.hbm = s.hbm ∧ t.tile = s.tile ∧ t.eng = s.eng ∧
      ∀ j, j ≠ n → t.stream j = s.stream j)

/-- The custom instructions of a service core that runs (R265), of words with funct7 = 0 and the instruction's own
funct3. `zc.time` reads the cycle counter; `zc.wait` stalls until the cycle in rs1, or not where it has passed;
`zc.done` makes the core idle; `zc.cue` reads a cue and adds to one below 224; `zc.cuewait` stalls while the cue has
not reached rs2; `zc.issue` answers 2 for a stream that is not a compatibility ring, 1 for a full one, and otherwise
appends the command and answers 0; `zc.beat` hands a beat to the cluster's port and answers 0; a stalled hart
resumes. -/
def Obligations.ServiceCoreInstructions : Prop :=
  ∀ (k : Nat) (w : Word) (s : State), s.coreRunning → k < 256 → s.coreRuns k = true →
    let i := ZcInsn.of w
    let c := s.serviceCore k
    i.opcode = 0x0B → i.funct7 = 0 →
    (i.funct3 = 2 → exec (.zcTime k w) s = .next (s.setCore k (c.setX i.rd s.now))) ∧
    (i.funct3 = 1 → (c.x i.rs1 ≤ s.now → exec (.zcWait k w) s = .next s) ∧
      (s.now < c.x i.rs1 → exec (.zcWait k w) s = .next (s.setCore k { c with waitUntil := some (c.x i.rs1) }))) ∧
    (i.funct3 = 7 → exec (.zcDone k w) s = .next (s.setCore k { c with busy := false })) ∧
    (i.funct3 = 3 → ∃ t, exec (.zcCue k w) s = .next t ∧
      t.serviceCore k = c.setX i.rd (s.cueAt (c.x i.rs1 % 256) s.now) ∧
      (c.x i.rs1 % 256 < 224 → t.reg (Reg.seqCue (c.x i.rs1 % 256)) =
        (s.reg (Reg.seqCue (c.x i.rs1 % 256)) + c.x i.rs2) % 2 ^ 32) ∧
      (∀ q, q < 256 → q ≠ c.x i.rs1 % 256 → t.reg (cueReg q) = s.reg (cueReg q))) ∧
    (i.funct3 = 4 → ∃ t, exec (.zcCuewait k w) s = .next t ∧
      t = { s with seq := { s.seq with cores := t.seq.cores } } ∧
      ((t.serviceCore k).waitCue = none ↔
        cueReached (s.cueSeen (c.x i.rs1 % 256) s.now) (c.x i.rs2 % 2 ^ 32) = true)) ∧
    (i.funct3 = 0 →
      let n := c.x i.rs2 % 64
      let used := (s.reg (Reg.seqSTail n) + 2 ^ 32 - s.reg (Reg.seqSHead n)) % 2 ^ 32
      (s.ringOk n = false → exec (.zcIssue k w) s = .next ((s.setCore k (c.setX i.rd 2)).count Reg.seqEvcViol)) ∧
      (s.ringOk n = true → s.reg (Reg.seqSLen n) ≤ used → exec (.zcIssue k w) s = .next (s.setCore k (c.setX i.rd 1))) ∧
      (s.ringOk n = true → used < s.reg (Reg.seqSLen n) → ∃ t, exec (.zcIssue k w) s = .next t ∧
        t.serviceCore k = c.setX i.rd 0 ∧ t.tile = s.tile ∧
        t.reg (Reg.seqSTail n) = (s.reg (Reg.seqSTail n) + 1) % 2 ^ 32 ∧
        (∀ a, a ≠ Reg.seqSTail n → t.reg a = s.reg a) ∧
        (∀ b, b < Regs.pair s.regs (Reg.seqSBaseLo n) + 32 * (s.reg (Reg.seqSTail n) % s.reg (Reg.seqSLen n)) ∨
          Regs.pair s.regs (Reg.seqSBaseLo n) + 32 * (s.reg (Reg.seqSTail n) % s.reg (Reg.seqSLen n)) + 32 ≤ b →
          t.hbm.get b = s.hbm.get b))) ∧
    (i.funct3 = 5 → ∃ t, exec (.zcBeat k w) s = .next t ∧ t = { s with seq := { s.seq with cores := t.seq.cores } } ∧
      (t.serviceCore k).beats.length = c.beats.length + 1 ∧ (i.rd ≠ 0 → (t.serviceCore k).x i.rd = 0))

/-- START at an idle service core begins its routine: the hart's entry, and its argument in x10 (R232, R267), and starts
the routine's forward reads, which change the slow tier and its counters only (R203); a core that runs a routine is
left as it is. A word of the custom-0 opcode with funct3 0b110 or another funct7 raises the
illegal-instruction exception (R265), and a stalled hart resumes once its cycle or its cue has come (R265). -/
def Obligations.RoutinesStartAndResume : Prop :=
  (∀ (c : Cmd) (s : State), s.coreRunning → wellFormed (.start c) = true → s.isolated (cmdUnit c) = false →
    let k := cmdUnit c - 0xA0
    ((s.serviceCore k).busy = false → ∃ t, exec (.start c) s = .next t ∧
      t = { s with regs := t.regs, slt := t.slt, seq := { s.seq with cores := t.seq.cores } } ∧
      (t.serviceCore k).busy = true ∧ (t.serviceCore k).illegal = false ∧
      (t.serviceCore k).entry = cmdFld c 32 64 ∧ (t.serviceCore k).x 10 = cmdFld c 96 64 ∧
      (∀ r, r ≠ 10 → (t.serviceCore k).x r = (s.serviceCore k).x r) ∧
      ∀ j, j ≠ k → t.serviceCore j = s.serviceCore j) ∧
    ((s.serviceCore k).busy = true → exec (.start c) s = .next s)) ∧
  ((∀ (k : Nat) (w : Word) (s : State), s.coreRunning → k < 256 → s.coreRuns k = true → (ZcInsn.of w).opcode = 0x0B →
    (ZcInsn.of w).funct7 ≠ 0 ∨ (ZcInsn.of w).funct3 = 6 →
    exec (.zcTime k w) s = .next (s.setCore k { s.serviceCore k with illegal := true })) ∧
  (∀ (k : Nat) (s : State) (t : Nat), s.coreRunning → k < 256 → (s.serviceCore k).waitUntil = some t → t < 2 ^ 64 →
    ∃ u, exec (.zcWaitResume k) s = .next u ∧ u.now = max s.now t ∧ (u.serviceCore k).waitUntil = none ∧
      u = { s with clk := u.clk, seq := { s.seq with cores := u.seq.cores } }) ∧
  (∀ (k : Nat) (s : State) (q : Nat × Nat), s.coreRunning → k < 256 → (s.serviceCore k).waitUntil = none →
    (s.serviceCore k).waitCue = some q →
    exec (.zcWaitResume k) s = .next (if cueReached (s.cueSeen q.1 s.now) q.2
      then s.setCore k { s.serviceCore k with waitCue := none } else s)))

/-- BEAT_ARRIVAL (R164, R182, R189): the first beat of an ingress, not waiting yet, is routed. A beat with no slot is
discarded and counted; one for a later entry or epoch goes to the pending buffer, counted, while that has room, and
otherwise waits at its ingress; one whose turn it is at its open slot becomes ready, and the slot's sums change only
by BEAT_ADD. WINDOW_ENTRY (R162): a beat that waits at its ingress and whose rank is ahead of the pointer enters the
reorder window once that has room, and the ingress goes on; its waiting ends. INGRESS_STALL_LIMIT: a wait longer
than `CUF_STALL_LIMIT` is reported once as a fault with the partition's unit ID and the slot number. BEAT_ADD (R161,
R165): the ready beat of a piece whose turn it is is added lane by lane into the piece's sums in the partition's
next add cycle, the pointer advances by one, an abstention is counted, and an opened slot turns to collecting.
Stated of a slot whose reorder window is empty and whose piece has no rank added ahead. -/
def Obligations.BeatsAreRoutedAndAdded : Prop :=
  (∀ (p i at' : Nat) (b : Beat) (rest : List (Nat × Beat)) (s : State), s.coreRunning → p < 8 → i < 33 →
    ((s.partition p).ingressAt i).queue = (at', b) :: rest → ((s.partition p).ingressAt i).wait = none →
    let out := fun (t : State) => ((t.partition p).ingressAt i).queue = rest ∧ ((t.partition p).ingressAt i).wait = none
    let route := routeBeat (s.atCycle at') p b
    (∀ c, route = .discard c → ∃ t, exec (.beatArrival p i) s = .next t ∧ out t ∧
      (t.partition p).slots = (s.partition p).slots ∧ (t.partition p).pend = (s.partition p).pend ∧
      t.reg c = min 0xFFFFFFFF (s.reg c + 1) ∧ t.hbm = s.hbm ∧ t.tile = s.tile) ∧
    (∀ c, route = .pend c → (s.partition p).pendCount < 256 → ∃ t, exec (.beatArrival p i) s = .next t ∧ out t ∧
      (t.partition p).slots = (s.partition p).slots ∧ (t.partition p).pend = (s.partition p).pend ++ [b] ∧
      t.reg c = min 0xFFFFFFFF (s.reg c + 1) ∧ t.hbm = s.hbm ∧ t.tile = s.tile) ∧
    (∀ c, route = .pend c → 256 ≤ (s.partition p).pendCount → ∃ t, exec (.beatArrival p i) s = .next t ∧
      ((t.partition p).ingressAt i).queue = (at', b) :: rest ∧ ((t.partition p).ingressAt i).wait.isSome = true ∧
      (t.partition p).pend = (s.partition p).pend ∧ t.regs = s.regs) ∧
    (∀ k r, route = .slot k → (s.slot p k).taking = [] → (s.slot p k).rank b = .turn r →
      ∃ t, exec (.beatArrival p i) s = .next t ∧ out t ∧ (t.slot p k).ready = (s.slot p k).ready ++ [r] ∧
        (∀ q, ((t.slot p k).piece q).sums = ((s.slot p k).piece q).sums) ∧ (∀ j, j ≠ k → t.slot p j = s.slot p j) ∧
        t.hbm = s.hbm ∧ t.tile = s.tile)) ∧
  ((∀ (p i at' k : Nat) (b : Beat) (r : RankBeat) (rest : List (Nat × Beat)) (w : IngressWait) (s : State), s.coreRunning →
    p < 8 → i < 33 → ((s.partition p).ingressAt i).queue = (at', b) :: rest → ((s.partition p).ingressAt i).wait = some w →
    routeBeat s p b = .slot k → (s.slot p k).taking = [] → (s.slot p k).rank b = .ahead r →
    (s.slot p k).window.length < 8 →
    ∃ t, exec (.windowEntry p i) s = .next t ∧ (t.slot p k).window = (s.slot p k).window ++ [r] ∧
      ((t.partition p).ingressAt i).queue = rest ∧ ((t.partition p).ingressAt i).wait = none ∧
      (∀ q, ((t.slot p k).piece q).sums = ((s.slot p k).piece q).sums) ∧ t.hbm = s.hbm ∧ t.tile = s.tile) ∧
  (∀ (p i : Nat) (w : IngressWait) (s : State), s.coreRunning → p < 8 → i < 33 →
    ((s.partition p).ingressAt i).wait = some w →
    (w.reported = true → exec (.ingressStallLimit p i) s = .next s) ∧
    (w.reported = false →
      let s1 := s.atCycle (w.since + s.reg (Reg.cufStallLimit p) + 1)
      exec (.ingressStallLimit p i) s = .next ((s1.setIngress p i { (s.partition p).ingressAt i with
        wait := some { w with reported := true } }).fault (0x1A0 + p) 0x02 3 0 w.slot)))) ∧
  (∀ (p k q : Nat) (r : RankBeat) (s : State), s.coreRunning → p < 8 → k < 2048 → q < 64 →
    (s.slot p k).ready.find? (fun r => r.piece == q) = some r → (s.slot p k).window = [] → (s.slot p k).taking = [] →
    ((s.slot p k).piece q).skip = [] →
    ∃ t, exec (.beatAdd p k q) s = .next t ∧ t.hbm = s.hbm ∧ t.tile = s.tile ∧ t.job = s.job ∧
      ((t.slot p k).piece q).sums = addLanes ((s.slot p k).piece q).sums r.beat.vals ∧
      ((t.slot p k).piece q).ptr = ((s.slot p k).piece q).ptr + 1 ∧
      ((t.slot p k).piece q).abst = ((s.slot p k).piece q).abst + b2n r.beat.abstain ∧
      (∀ j, j ≠ q → (t.slot p k).piece j = (s.slot p k).piece j) ∧
      (t.slot p k).ready = (s.slot p k).ready.erase r ∧
      (t.partition p).addFree = max s.now (s.partition p).addFree + 1 ∧ ∀ j, j ≠ k → t.slot p j = s.slot p j)

/-- SLOT_TRIGGER (R166, R169, R162) of a slice in HBM whose every expected piece is complete: the slot is complete, its
sums stand, the slice's update waits in the Cuff queue, `CUF_STEP` shows its step, and the trigger clears what FLAGGED
keeps of an earlier step; the steps that are over with it end (R10). A slot that is not complete is left as it is.
SLOT_OPEN (R153, R157): a slot that may open takes its program's next entry of the current epoch with its plan, all its
pieces at +0 and its pointers at 0, in the cycle after it left the previous slice; the pending buffer keeps what it
holds for other slices. A partition that is not enabled opens nothing. CUFF_ENTRY_START (R169, R170, R172): the oldest
entry whose step's constants stand leaves the queue and enters the pipeline, with reads issued 2 cycles after its
trigger at the earliest and data 448 cycles later; the next entry starts 64 cycles later at the earliest. One whose
constants are not written stays and is counted in `CUF_EVC_WAIT` once; nothing starts while 16 are in the pipeline or
the Cuff is not enabled. -/
def Obligations.SlotsTriggerOpenAndStart : Prop :=
  (∀ (p k : Nat) (s : State), s.coreRunning → p < 8 → k < 2048 →
    let x := s.slot p k
    let t := s.slotTrigger p k
    exec (.slotTrigger p k) s = .next (t.endSteps 2) ∧
    (t.stepOver (t.reg Reg.seqStep) = false → exec (.slotTrigger p k) s = .next t) ∧
    (x.state = 2 → x.complete = true → x.ready = [] → x.window = [] → x.slice.slt = false →
        (t.slot p k).state = 3 ∧
        (∀ q, (t.slot p k).piece q = x.piece q) ∧ (∀ j, j ≠ k → t.slot p j = s.slot p j) ∧
        (t.partition p).queue.length = (s.partition p).queue.length + 1 ∧
        (∃ e ∈ (t.partition p).queue, e.slot = k ∧ e.slice = x.slice ∧ e.step = s.passStep x ∧ e.outer = none) ∧
        t.reg (Reg.cufStep p) = s.passStep x % 2 ^ 32 ∧
        (∀ n, (s.partition p).flagStep = some n → n < s.passStep x → (t.partition p).flagStep = none) ∧
        (∀ n, (s.partition p).flagStep = some n → s.passStep x ≤ n → (t.partition p).flagStep = some n) ∧
        t.hbm = s.hbm ∧ t.tile = s.tile) ∧
    (x.complete = false → t = s)) ∧
  (∀ (p k : Nat) (e : SliceEntry) (s : State), s.coreRunning → p < 8 → k < 2048 →
    let x := s.slotAfter p k
    programEntry s p k x.entry = some e →
    (s.fld (Reg.cufCfg p) 0 1 = 0 → exec (.slotOpen p k) s = .next s) ∧
    (s.fld (Reg.cufCfg p) 0 1 = 1 → x.mayOpen = true → s.passHeld x.pass = false → e.slt = false →
      ((s.partition p).aborting = true → s.job.census = none) →
      e.lepoch = s.fld (Reg.cufEpoch p) 0 16 → (∀ b ∈ (s.partition p).pend, e.holds b = false) →
      ∃ t, exec (.slotOpen p k) s = .next t ∧ t = { s with clk := t.clk, part := t.part } ∧
        t.slot p k = { state := 1, entry := x.entry, pass := x.pass, slice := e, runs := planRuns s p e.plan } ∧
        (∀ c, x.freeAt = some c → c + 1 < 2 ^ 64 → t.now = max s.now (c + 1)) ∧
        (∀ j, j ≠ k → t.slot p j = s.slot p j) ∧ (t.partition p).pend = (s.partition p).pend ∧
        ∀ q, q ≠ p → t.partition q = s.partition q)) ∧
  (∀ (p : Nat) (s : State), s.coreRunning → p < 8 →
    let x := s.partition p
    (s.fld (Reg.cufCfg p) 0 1 = 0 ∨ 16 ≤ x.pipe.length → exec (.cuffEntryStart p) s = .next s) ∧
    (∀ e, s.fld (Reg.cufCfg p) 0 1 = 1 → x.pipe.length < 16 → s.nextEntry' x [] x.queue = some e → e.outer = none →
      s.constsReady e.step = false →
      ∃ t, exec (.cuffEntryStart p) s = .next t ∧ t = { s with regs := t.regs, part := t.part } ∧
        (t.partition p).pipe = x.pipe ∧
        t.reg (Reg.cufEvcWait p) = min 0xFFFFFFFF (s.reg (Reg.cufEvcWait p) + b2n (!e.waited))) ∧
    (∀ e, s.fld (Reg.cufCfg p) 0 1 = 1 → x.pipe.length < 16 → s.nextEntry' x [] x.queue = some e → e.outer = none →
      e.slice.slt = false → s.constsReady e.step = true →
      let t0 := max s.now (max (e.entered + 2) x.startFree)
      ∃ t, exec (.cuffEntryStart p) s = .next t ∧ t.hbm = s.hbm ∧ t.tile = s.tile ∧ t.job = s.job ∧
        (t.partition p).queue = x.queue.erase e ∧ (t.partition p).pipe.length = x.pipe.length + 1 ∧
        (∃ r ∈ (t.partition p).pipe, r.entry = e ∧ r.base = e.slice.record ∧ r.anchor = t0 - 2 ∧ t0 + 448 ≤ r.dataAt) ∧
        t0 + 64 ≤ (t.partition p).startFree))

/-- HBM_READ_RETURN (R170, R225): a prefetch fills the stream's buffer to 128 commands at most; the data of an inner
update's reads schedule its writes, in the order of R180, with HBM unchanged until they are acknowledged.
HBM_WRITE_ACK: the writes of the run that is acknowledged first stand in HBM, every other byte as before, and the
partition's cue goes up by one (R244). The second and third are stated of a skip (R167), where what is written is
one tag block. NOISE_MESSAGE (R208, R500, R501): the first message of a device for a step is kept with its sums, and
a second one changes nothing; HBM, the tile stores and the partitions stay as they are. -/
def Obligations.UpdatesReadAndWrite : Prop :=
  ((∀ (n count : Nat) (s : State), s.coreRunning → n < 40 →
    ∃ t, exec (.hbmReadReturn (.prefetch n count)) s = .next t ∧
      t = { s with seq := { s.seq with streams := t.seq.streams } } ∧
      t.stream n = { s.stream n with fetched := min 128 ((s.stream n).fetched + count) } ∧
      ∀ j, j ≠ n → t.stream j = s.stream j) ∧
  (∀ (p : Nat) (run : CuffRun) (s : State), s.coreRunning → p < 8 →
    (s.partition p).pipe.find? (fun r => !r.returned) = some run → run.skip = true →
    ∃ t, exec (.hbmReadReturn (.cuff p)) s = .next t ∧ t.hbm = s.hbm ∧ t.tile = s.tile ∧
      ∃ r ∈ (t.partition p).pipe, r.returned = true ∧ r.entry = run.entry ∧
        r.writes.map (fun w => (w.2.1, w.2.2.length)) = [(run.base + recTag, 64)] ∧
        ∀ w ∈ r.writes, run.dataAt + 1 ≤ w.1 ∧ w.1 + 380 ≤ r.ackAt) ∧
  (∀ (p : Nat) (run : CuffRun) (s : State), s.coreRunning → p < 8 → firstAck (s.partition p).pipe = some run →
    run.skip = true → run.entry.outer = none → run.entry.slice.slt = false →
    let t := (s.ackRun p run)
    exec (.hbmWriteAck p) s = .next ((t.endSteps 2).advanceCensus) ∧ t.hbm = commitWrites s.hbm run.writes ∧
      t.tile = s.tile ∧ t.reg (Reg.seqCueHw p) = (s.reg (Reg.seqCueHw p) + 1) % 2 ^ 32 ∧
      (t.partition p).pipe = (s.partition p).pipe.erase run ∧
      Tbl.get 0 (t.partition p).ended run.entry.step = Tbl.get 0 (s.partition p).ended run.entry.step + 1)) ∧
  (∀ (d n : Nat) (a b : Word) (f : Bool) (s : State), s.coreRunning → d < 1024 → n < 2 ^ 32 →
    let m := Tbl.get [] s.vsr.noise n
    (Tbl.get? m d ≠ none → exec (.noiseMessage d n a b f) s = .next s) ∧
    (Tbl.get? m d = none → ∃ t, exec (.noiseMessage d n a b f) s = .next t ∧
      exec (.noiseMessage d n a b f) s =
        .next (State.noisePair { s with vsr := { s.vsr with noise := s.vsr.noise.set n (Tbl.set m d (a, b, f)) } } n) ∧
      t.hbm = s.hbm ∧ t.tile = s.tile ∧ t.part = s.part))

/-- TOUCH_LIST_POST by a master that may access the slow tier in the run state (R199, R201): a list for a step other
than the current one or the next, or with the slow tier off, is counted as a violation and plans nothing; a good one
becomes the step's residency plan and sets cue 240 to the step; the slices that the list alone concerns and the steps that
are over follow. FLASH_FETCH_COMPLETE (R203, R215, R216): the image of a readable fetch lands whole on its line, or is
handed to the service core whose forward read it served, and the fetch is done; an unreadable one is counted and reported
to Gauntlet; with no such fetch and no scrub nothing happens. FLASH_PROGRAM_COMPLETE (R220): an image programmed into a
block that takes it is the slice's image from then on; for an erased block the erase count goes up by one and the block is
empty; a failed erase retires it, counted once. -/
def Obligations.SlowTierPlansAndFetches : Prop :=
  (∀ (m : Master) (w : Word) (s : State), m.exists' = true → m ≠ .remote → s.mayIssue m = true → s.quiet = false →
    let st := w.toNat
    let list := touchList s.hbm (Regs.pair s.regs Reg.sltTlistLo)
    let good := s.fld Reg.sltCfg 0 1 = 1 ∧ (st = s.reg Reg.seqStep ∨ st = (s.reg Reg.seqStep + 1) % 2 ^ 32) ∧
      ascending (list.map (·.1)) = true ∧ list.any (fun e => e.2.1 == 0) = false
    ∃ s1 : State, s1 = { s with clk := s1.clk, free := s1.free, regs := s1.regs } ∧
      (∀ a, a ≠ 0xA0058 → s1.reg a = s.reg a) ∧
      exec (.touchListPost m w) s = .next (((s1.planList st).queueUntouched.retryFetches).endSteps 2) ∧
      (¬ good → s1.planList st = s1.count Reg.sltEvcViol) ∧
      (good → (Tbl.get? (s1.planList st).slt.plans st).isSome = true ∧ (s1.planList st).reg (Reg.seqCueHw 16) = st)) ∧
  ((∀ (num : Nat) (r : FlashResult) (f : SltFetch) (i : FlashImage) (s : State), s.coreRunning →
    s.slt.fetches.find? (fun f => f.num == num && f.issued) = some f → s.readImage num r = some i →
    (f.reader = none →
      let s1 := { s with hbm := s.hbm.write (s.lineAddr f.line) i.bytes }
      ∃ t, exec (.flashFetchComplete num r) s = .next t ∧
        t.hbm = (if f.line < s.cacheLines then (s1.putLine f.line { s1.cacheLine f.line with gen := i.gen }).hbm else s1.hbm) ∧
        t.slt.fetches = s.slt.fetches.erase f ∧ t.slt.flash = s.slt.flash ∧ t.tile = s.tile ∧ t.part = s.part) ∧
    (∀ k since, f.reader = some (k, since) →
      ∃ t, exec (.flashFetchComplete num r) s = .next t ∧ t.hbm = s.hbm ∧
        Tbl.get? (t.serviceCore k).copies num = some ((i.bytes.drop recWc).take 4224) ∧
        t.slt.flash = s.slt.flash ∧ t.tile = s.tile ∧ t.part = s.part)) ∧
  (∀ (num : Nat) (r : FlashResult) (s : State), s.coreRunning →
    s.slt.fetches.find? (fun f => f.num == num && f.issued) = none →
    s.fld Reg.sltCfg 1 1 = 0 → exec (.flashFetchComplete num r) s = .next s) ∧
  (∀ (num block : Nat) (g : SltProgram) (s : State), s.coreRunning →
    s.slt.programs.find? (fun g => g.num == num) = some g → s.blockTakes g block = true →
    ∃ t, exec (.flashProgramComplete num block true) s = .next t ∧ t.tile = s.tile ∧ t.eng = s.eng ∧
      Tbl.get? t.slt.flash g.num = some ⟨s.cph.xts, g.gen, block, g.bytes⟩) ∧
  (∀ (num block : Nat) (ok : Bool) (s : State), s.coreRunning → s.slt.programs.find? (fun g => g.num == num) = none →
    let key := blockKey num block
    let x : FlashBlock := s.slt.blocks.get {} key
    x.written = true → x.retired = false → (imagesIn s.slt key).isEmpty = true →
    ∃ t, exec (.flashProgramComplete num block ok) s = .next t ∧
      t = { s with regs := t.regs, slt := { s.slt with
        blocks := t.slt.blocks, busyTo := t.slt.busyTo, collecting := s.slt.collecting.erase key } } ∧
      (ok = true → (Tbl.get {} t.slt.blocks key : FlashBlock).erases = x.erases + 1 ∧
        (Tbl.get {} t.slt.blocks key : FlashBlock).written = false) ∧
      (ok = false → (Tbl.get {} t.slt.blocks key : FlashBlock).retired = true ∧
        t.reg Reg.sltEvcRetire = min 0xFFFFFFFF (s.reg Reg.sltEvcRetire + 1)) ∧
      ∀ k, k ≠ key → Tbl.get? t.slt.blocks k = Tbl.get? s.slt.blocks k))

/-- REFRESH_WINDOW (R254): the clock stands where the group's next window opens, (F - 731 g) mod 5,850 = 0, and the
stacks' stored data do not change. BACKGROUND_QUANTUM (R258, R259): a class that an open slot names, with room before that
slot closes, is served one quantum of its length; with no slot open that names it nothing runs. FORCED_SLOT: with no slot
open that names the class, and no lower class due with it, the class's deadline takes a forced slot of one quantum; with a
slot open that names the class it takes none (R259). -/
def Obligations.RefreshAndBackgroundWork : Prop :=
  (∀ (g : Nat) (s : State), s.coreRunning → g < 8 → s.now + 5850 < 2 ^ 64 →
    ∃ t, exec (.refreshWindow g) s = .next t ∧ (t.now + 5850 * 8 - 731 * g) % 5850 = 0 ∧ s.now < t.now ∧
      t.now ≤ s.now + 5850 ∧ t = { s with clk := t.clk, part := t.part, regs := t.regs } ∧
      ∀ a, a ≠ Reg.seqMem → t.reg a = s.reg a) ∧
  ((∀ (c : Nat) (s : State), s.coreRunning → c < 4 →
    ((∀ b ∈ s.seq.slots, bit b.classes c = false) → exec (.backgroundQuantum c) s = .next s) ∧
    (∀ b ∈ s.seq.slots, bit b.classes c = true → max s.now s.seq.quantumTo + 2 * (1024 * 2 ^ c) ≤ b.closes →
      ∃ t, exec (.backgroundQuantum c) s = .next t ∧
        t.seq.quantumTo = max s.now s.seq.quantumTo + 1024 * 2 ^ c ∧
        Tbl.get? t.seq.served c = some (max s.now s.seq.quantumTo))) ∧
  (∀ (c : Nat) (s : State), s.coreRunning → 1 ≤ c → c < 4 →
    let s1 := s.atCycle (s.deadline c)
    (s1.slotNames c = true → exec (.forcedSlot c) s = .next s1) ∧
    (s1.slotNames c = false → s1.lowerFirst c = false → ∃ t, exec (.forcedSlot c) s = .next t ∧
      Tbl.get? t.seq.served c = some (max s1.now s.seq.forcedTo) ∧
      t.seq.quantumTo = max s1.now s.seq.forcedTo + 1024 * 2 ^ c)))

/-- ABORT_MESSAGE (R489, R182): every abort is counted; one of the current step, not aborted before, aborts it here: no
stream issues further, and a membership census begins (R291). One of another step does nothing more. CENSUS_RECORD
and CENSUS_SET keep what a device sent in a census under way, in its first and second round; CENSUS_TIMEOUT ends an
unheard first round with the device's own set of those it heard (R291, R292). Without an active job a record does
nothing, and without a census a set or a timeout does nothing. -/
def Obligations.AbortsAndCensus : Prop :=
  (∀ (l d n : Nat) (s : State), s.coreRunning → l < 36 → d < 1024 → n < 2 ^ 32 →
    (n ≠ s.reg Reg.seqStep ∨ s.gnt.aborted = some n →
      exec (.abortMessage l d n) s = .next (s.count Reg.gntEvcPeerabort)) ∧
    (n = s.reg Reg.seqStep → s.gnt.aborted ≠ some n → ∃ t, exec (.abortMessage l d n) s = .next t ∧
      t.gnt.aborted = some n ∧ t.seq.halted = true ∧ t.job.census.isSome = true)) ∧
  ((∀ (d e h n ep : Nat) (s : State), s.coreRunning → wellFormed (.censusRecord d e h n ep) = true →
    (s.job.active = false → exec (.censusRecord d e h n ep) s = .next s) ∧
    (∀ c, s.job.active = true → d < s.domainSize → s.job.census = some c → c.second = false →
      let c' := { c with records := c.records.set d ⟨e, h, n, ep⟩ }
      ((s.devices.all fun d => (Tbl.get? c'.records d).isSome) = false →
        exec (.censusRecord d e h n ep) s = .next { s with job := { s.job with census := some c' } }))) ∧
  (∀ (d : Nat) (l : List Nat) (s : State), s.coreRunning → wellFormed (.censusSet d l) = true →
    (s.job.census = none → exec (.censusSet d l) s = .next s) ∧
    (∀ c, s.job.census = some c → c.second = true → (c.heard.all fun x => ((c.sets.set d l).get? x).isSome) = false →
      exec (.censusSet d l) s = .next { s with job := { s.job with census := some { c with sets := c.sets.set d l } } })) ∧
  (∀ s : State, s.coreRunning →
    (s.job.census = none → exec .censusTimeout s = .next s) ∧
    (∀ c, s.job.census = some c → c.second = false → s.job.held = false →
      ∃ t c', exec .censusTimeout s = .next t ∧ t.job.census = some c' ∧ c'.second = true ∧
        Tbl.get? c'.sets s.device = some c.heard ∧ c'.records = c.records ∧ t.hbm = s.hbm ∧ t.tile = s.tile)))

/-- READY_CYCLE_MESSAGE (R285): outside a boundary nothing follows; during one the device's cycle is kept, and once all
have come and this device has finished its own steps, the new epoch starts BMARGIN after the largest of them, with the
boundary's step as its first, and configuration stays open up to that cycle (R559). MIGRATION_COMPLETE outside the
migrating step of a boundary changes nothing; in it, once the Cuffs are quiet and the migration does not hold training,
the records of the new layout are in place and the boundary goes on with the layout epoch one higher (R283, R284, R293).
-/
def Obligations.EpochsBeginAgreed : Prop :=
  (∀ (d c : Nat) (s : State), s.coreRunning → wellFormed (.readyCycleMessage d c) = true →
    let s1 := { s with job := { s.job with readyAt := s.job.readyAt.set d c } }
    (s.job.boundary = none → exec (.readyCycleMessage d c) s = .next s) ∧
    (∀ nb, s.job.boundary = some nb → s1.agreed s1.job.readyAt = none → exec (.readyCycleMessage d c) s = .next s1) ∧
    (∀ nb m, s.job.boundary = some nb → s1.agreed s1.job.readyAt = some m → s.job.phase = 5 →
      ∃ t, exec (.readyCycleMessage d c) s = .next t ∧
        Regs.pair t.regs Reg.seqEpochStartLo = (m + s.pol 0x0419 65536) % 2 ^ 64 ∧ t.job.n0 = nb ∧
        t.job.boundary = s.job.nextBoundary ∧ t.job.config = false ∧
        t.job.configTo = (m + s.pol 0x0419 65536) % 2 ^ 64 ∧ t.seq.halted = false ∧ t.hbm = s.hbm ∧ t.tile = s.tile)) ∧
  (∀ s : State, s.coreRunning →
    (s.job.phase ≠ 2 ∨ s.mayMigrate = false → exec .migrationComplete s = .next s) ∧
    (s.job.phase = 2 → s.mayMigrate = true →
      let s1 := s.migrate (s.job.boundary.getD 1 - 1)
      (s1.job.held = true → exec .migrationComplete s = .next s1) ∧
      let e := (s1.fld Reg.seqEpoch 0 16 + 1) % 65536
      let s2 := ((s1.putEpochs 0 16 e).putEpochs 16 1 0).putFld Reg.seqEpoch 0 16 e
      let s3 := (List.range 8).foldl State.routeHeld s2
      (s1.job.held = false →
        exec .migrationComplete s = .next (if s3.boundaryRegisters.job.stopping.isSome
          then s3.boundaryRegisters.honourStop else s3.boundaryRegisters) ∧
        s3.fld Reg.seqEpoch 0 16 = e ∧ s3.hbm = s1.hbm ∧
          ∀ p, p < 8 → s3.fld (Reg.cufEpoch p) 0 16 = e ∧ s3.fld (Reg.cufEpoch p) 16 1 = 0)))

/-- DATA_DESCRIPTOR_READ (R438, R279): a descriptor of another step, or one not marked valid, is counted in
`HPT_EVC_DATALATE`; one whose index block has another length than the step needs is counted as a violation; neither
makes the step's data ready. A valid one of the step with the length it needs has its index block, and at stage 0 its
samples, read, counts nothing as late, and leaves the step's data ready when those bytes have come.
JOB_IMAGE_READ_COMPLETE (R436): once the whole image has come, it is verified; a bad one is refused with an event and
the CONTACT state 4, a good one opens the job. -/
def Obligations.DescriptorAndJobImage : Prop :=
  (∀ (n : Nat) (b : List Byte) (s : State), s.coreRunning → wellFormed (.dataDescriptorRead n b) = true →
    let stale := fieldAt b 0 4 ≠ n ∨ bit (fieldAt b 4 4) 0 = false
    (s.job.active = false ∨ s.host.dataEntries = 0 → exec (.dataDescriptorRead n b) s = .next s) ∧
    (s.job.active = true → s.host.dataEntries ≠ 0 →
      ∃ t, exec (.dataDescriptorRead n b) s = .next t ∧ t.hbm = s.hbm ∧ t.tile = s.tile ∧ t.eng = s.eng ∧ t.job = s.job ∧
        (stale → t.reg Reg.hptEvcDatalate = min 0xFFFFFFFF (s.reg Reg.hptEvcDatalate + 1) ∧
          ∃ d ∈ t.host.data, d.step = n ∧ d.valid = false) ∧
        (¬ stale → fieldAt b 24 4 ≠ s.indexLength n →
          t.reg Reg.hptEvcViol = min 0xFFFFFFFF (s.reg Reg.hptEvcViol + 1) ∧
          ∃ d ∈ t.host.data, d.step = n ∧ d.valid = false) ∧
        (¬ stale → fieldAt b 24 4 = s.indexLength n →
          let left := fieldAt b 24 4 + (if s.stageZero then fieldAt b 48 8 else 0)
          t.reg Reg.hptEvcDatalate = s.reg Reg.hptEvcDatalate ∧ t.reg Reg.hptEvcViol = s.reg Reg.hptEvcViol ∧
          (∃ d ∈ t.host.data, d.step = n ∧ d.valid = true ∧ d.left = left) ∧
          (left = 0 → t.dataReady n = true ∧ t.host.qps = s.host.qps) ∧
          (left ≠ 0 → ∀ q, s.usableQps.head? = some q → ∃ x, t.qp q = some x ∧ ∃ r ∈ x.reqs, r.what = .data n)))) ∧
  (∀ s : State, s.coreRunning →
    let s1 := s.putFld Reg.hptStatus 0 3 6
    let image := verifyImage true (s.hbm.read s1.jobArea.1 s.host.jobLen) "PLYNENE-JOB" s1.jobSigners (s1.confNat 0x0501 0)
    (s.fld Reg.hptStatus 0 3 ≠ 5 ∨ s.host.jobLeft ≠ 0 ∨ s.host.jobLen = 0 → exec .jobImageReadComplete s = .next s) ∧
    (s.fld Reg.hptStatus 0 3 = 5 → s.host.jobLeft = 0 → s.host.jobLen ≠ 0 →
      (∀ b, image = .error b → ∃ t, exec .jobImageReadComplete s = .next t ∧ t.fld Reg.hptStatus 0 3 = 4 ∧
        t.job = s.job ∧ t.hbm = s.hbm ∧ t.tile = s.tile) ∧
      (∀ i, image = .ok i →
        { s1 with job := { s1.job with fields := i.fields, digest := i.digest } }.jobBad = none →
        exec .jobImageReadComplete s = .next (s1.acceptJob i) ∧ (s1.openJob i).job.active = true ∧
          (s1.openJob i).job.start = true)))

/-- R303. Sequenced frames are numbered from 0 at bring-up, modulo 2^24: a frame that leaves takes `SEAM_TXSEQ`, which
goes up by one. The receiver accepts a frame numbered e and advances e; a frame ahead is discarded and one NAK
naming e is sent, and no further one until a frame numbered e arrives; any other frame is a duplicate, discarded
without a NAK and counted in `SEAM_EVC_DUP`. Stated of frames without error on a link that carries frames. -/
def Obligations.SequenceNumbersDecideAcceptance : Prop :=
  (∀ n, n < 36 → State.reset.reg (Reg.seamTxseq n) = 0 ∧ State.reset.reg (Reg.seamRxseq n) = 0) ∧
  (∀ (n : Nat) (f : EFrame) (s : State) (t w : Nat), n < 36 → s.reg (Reg.seamTxseq n) < 2 ^ 24 →
    (s.sendSequenced n t w f).reg (Reg.seamTxseq n) = (s.reg (Reg.seamTxseq n) + 1) % 2 ^ 24) ∧
  (∀ (n : Nat) (header : BitVec 80) (payload : List Byte) (corrected : Nat) (s : State), s.coreRunning →
    wellFormed (.frameReceive n header payload 0 corrected) = true → s.linkUp n = true → s.isolated (linkUnit n) = false →
    let h := header.toNat
    crc16 (leBytes 8 (h % 2 ^ 64) ++ pad256 payload) = bits h 64 16 → 2 ≤ bits h 24 4 → bits h 24 4 ≤ 5 →
    s.reg (Reg.seamRxseq n) < 2 ^ 24 →
    let e := s.reg (Reg.seamRxseq n)
    let d := (bits h 0 24 + 2 ^ 24 - e) % 2 ^ 24
    (d = 0 → ∃ t, exec (.frameReceive n header payload 0 corrected) s = .next t ∧
      t.reg (Reg.seamRxseq n) = (e + 1) % 2 ^ 24 ∧ (t.link n).nakSent = false) ∧
    (1 ≤ d → d ≤ 2 ^ 23 - 1 → ∃ t, exec (.frameReceive n header payload 0 corrected) s = .next t ∧
      t.reg (Reg.seamRxseq n) = e ∧ (t.link n).nakSent = true ∧ t.seam.inbox = s.seam.inbox ∧ t.hbm = s.hbm ∧ t.tile = s.tile ∧
      (t.link n).linkOut = (s.link n).linkOut ++ (if (s.link n).nakSent then [] else [.nak e])) ∧
    (2 ^ 23 ≤ d → ∃ t, exec (.frameReceive n header payload 0 corrected) s = .next t ∧
      t.reg (Reg.seamRxseq n) = e ∧ (t.link n).linkOut = (s.link n).linkOut ∧ (t.link n).nakSent = (s.link n).nakSent ∧
      t.seam.inbox = s.seam.inbox ∧ t.hbm = s.hbm ∧ t.tile = s.tile ∧
      t.reg (Reg.seamEvcDup n) = min 0xFFFFFFFF (s.reg (Reg.seamEvcDup n) + 1)))

/-- FRAME_RECEIVE of a frame with an uncorrectable codeword or a wrong CRC (R302): it is discarded and counted, once per
codeword or once, and a NAK of the expected number goes out unless one has. -/
def Obligations.DamagedFramesAreDiscarded : Prop :=
  ∀ (n : Nat) (header : BitVec 80) (payload : List Byte) (bad corrected : Nat) (s : State), s.coreRunning →
    wellFormed (.frameReceive n header payload bad corrected) = true → s.linkUp n = true → s.isolated (linkUnit n) = false →
    let h := header.toNat
    let crc := crc16 (leBytes 8 (h % 2 ^ 64) ++ pad256 payload) = bits h 64 16
    bad ≠ 0 ∨ ¬ crc →
    ∃ t, exec (.frameReceive n header payload bad corrected) s = .next t ∧
      t = { s with regs := t.regs, seam := t.seam, free := t.free } ∧
      t.reg (Reg.seamRxseq n) = s.reg (Reg.seamRxseq n) ∧ t.seam.inbox = s.seam.inbox ∧
      (t.link n).linkOut =
        (s.link n).linkOut ++ (if (s.link n).nakSent then [] else [.nak (s.reg (Reg.seamRxseq n))]) ∧
      t.reg (Reg.seamEvcUncorr n) = min 0xFFFFFFFF (s.reg (Reg.seamEvcUncorr n) + bad) ∧
      (bad = 0 → t.reg (Reg.seamEvcCrc n) = min 0xFFFFFFFF (s.reg (Reg.seamEvcCrc n) + 1))

/-- EGRESS_SLOT (R306): a replay goes first, outside a recalibration quantum (R258), then a LINK frame, then the first
candidate that can leave and has room in the retry buffer, and a link with nothing to send sends an IDLE frame; a
link that is not up sends nothing. NAK and RETRY_TIMEOUT (R304): a NAK naming an outstanding frame, or no advance of
the acknowledgement for 2,048 cc, starts a replay from that frame or from the oldest one, counted in
`SEAM_EVC_RETRY` or `SEAM_EVC_TIMEOUT`; the eighth in a row from the same frame takes the link down. A NAK of no
outstanding frame, and a timeout with none outstanding, do nothing. -/
def Obligations.EgressOrderAndReplays : Prop :=
  (∀ (n : Nat) (s : State), s.coreRunning → n < 36 →
    (s.linkUp n = false → exec (.egressSlot n) s = .next s) ∧
    (s.linkUp n = true → s.isolated (linkUnit n) = false → (s.link n).retraining = false →
      (∀ seq f rest, (s.link n).replay = (seq, f) :: rest → (s.link n).recalTo ≤ max s.now (s.link n).slotFree → ∃ t, exec (.egressSlot n) s = .next t ∧
        (t.link n).replay = rest ∧ (∃ h, (t.link n).wire = .frame h f.payload) ∧ (t.link n).linkOut = (s.link n).linkOut ∧
        t.reg (Reg.seamTxseq n) = s.reg (Reg.seamTxseq n) ∧ t.hbm = s.hbm ∧ t.tile = s.tile) ∧
      (∀ m rest, (s.link n).replay = [] → (s.link n).linkOut = m :: rest → ∃ t, exec (.egressSlot n) s = .next t ∧
        (t.link n).linkOut = rest ∧ (t.link n).wire = .link m ∧ t.reg (Reg.seamTxseq n) = s.reg (Reg.seamTxseq n) ∧
        t.hbm = s.hbm ∧ t.tile = s.tile) ∧
      (∀ f, (s.link n).replay = [] → (s.link n).linkOut = [] → (s.link n).out = [f] → f.prio ∈ [3, 4, 5, 6] →
        f.readyAt ≤ max s.now (s.link n).slotFree → (s.link n).recalTo ≤ max s.now (s.link n).slotFree →
        (s.link n).heldByOther f = false → (s.link n).cred.getD f.f.vc 0 ≠ 0 → (s.link n).retry.length < 512 →
        ∃ t, exec (.egressSlot n) s = .next t ∧ (t.link n).out = [] ∧
          (t.link n).retry = (s.link n).retry ++ [(s.reg (Reg.seamTxseq n), f.f)] ∧
          (∃ h, (t.link n).wire = .frame h f.f.payload) ∧
          t.reg (Reg.seamTxseq n) = (s.reg (Reg.seamTxseq n) + 1) % 2 ^ 24 ∧ t.hbm = s.hbm ∧ t.tile = s.tile) ∧
      ((s.link n).replay = [] → (s.link n).linkOut = [] → (s.link n).out = [] → ∃ t, exec (.egressSlot n) s = .next t ∧
        (t.link n).wire = .idle ∧ t.regs = s.regs ∧ t.hbm = s.hbm ∧ t.tile = s.tile))) ∧
  (∀ (n : Nat) (s : State), s.coreRunning → n < 36 → s.linkUp n = true →
    let l := s.link n
    let eighth := fun e => l.replayFrom = some e ∧ l.replays = 7
    (∀ e, e < 2 ^ 24 → (l.retry.all fun f => f.1 != e) = true → exec (.nak n e) s = .next s) ∧
    (∀ e, e < 2 ^ 24 → (l.retry.all fun f => f.1 != e) = false → ¬ eighth e → ∃ t, exec (.nak n e) s = .next t ∧
      (t.link n).replay = l.retry.dropWhile (fun f => f.1 != e) ∧ (t.link n).retry = l.retry ∧
      t.reg (Reg.seamEvcRetry n) = min 0xFFFFFFFF (s.reg (Reg.seamEvcRetry n) + 1)) ∧
    (∀ e, e < 2 ^ 24 → (l.retry.all fun f => f.1 != e) = false → eighth e → ∃ t, exec (.nak n e) s = .next t ∧
      t.linkState n = 6) ∧
    (l.retry = [] → exec (.retryTimeout n) s = .next s) ∧
    (∀ f rest, l.retry = f :: rest → ¬ eighth f.1 → l.ackAt + 2048 < 2 ^ 64 → ∃ t, exec (.retryTimeout n) s = .next t ∧
      (t.link n).replay = f :: rest ∧ t.now = max s.now (l.ackAt + 2048) ∧
      t.reg (Reg.seamEvcTimeout n) = min 0xFFFFFFFF (s.reg (Reg.seamEvcTimeout n) + 1)))

/-- Discovery (R308). DISCOVERY_IDENTITY: a peer other than the one expected sets MISWIRE and leaves the link out of
service (state 6); the expected one is noted. LATENCY_PROBE: before the peer is known nothing is measured; then the 64th
probe gives `SEAM_LAT_MEAS`; within C - 8 the elastic depth becomes C less the latency, beyond it LATFAIL is set and the
link is left out. ALIGNMENT_FRAME on a link that carries frames: an unaligned part takes the cycle of the frame, with
the link's planned latency and the frame's own 4 cycles, as its own counter and passes it on each link in service; an
aligned part whose counter agrees is left as it is, and one whose counter differs is counted in `AON_EVC_ALIGNERR` and
reported. -/
def Obligations.LinksComeUpAligned : Prop :=
  (∀ (n : Nat) (s : State), s.coreRunning → n < 36 → s.linkState n = 2 →
    (∀ d p, d < 1024 → p < 36 →
      (s.reg (Reg.seamPeerExp n) % 2 ^ 17 = d + p * 1024 + 65536 →
        exec (.discoveryIdentity n d p) s = .next (s.put (Reg.seamPeer n) (d + p * 1024 + 65536))) ∧
      (s.reg (Reg.seamPeerExp n) % 2 ^ 17 ≠ d + p * 1024 + 65536 → ∃ t, exec (.discoveryIdentity n d p) s = .next t ∧
        t.linkState n = 6 ∧ t.fld (Reg.seamStatus n) 4 1 = 1 ∧ t.reg (Reg.seamPeer n) = d + p * 1024 + 65536)) ∧
    (∀ x, x < 4096 → s.fld (Reg.seamPeer n) 16 1 = 0 → exec (.latencyProbe n x) s = .next s) ∧
    (∀ x, x < 4096 → s.fld (Reg.seamPeer n) 16 1 = 1 →
      let m := max (s.link n).probed x
      let c := s.fld (Reg.seamLatPlan n) 0 12
      ((s.link n).probes + 1 < 64 → exec (.latencyProbe n x) s =
        .next (s.setLink n { s.link n with probed := m, probes := (s.link n).probes + 1 })) ∧
      (63 ≤ (s.link n).probes → m < 4096 → m + 8 ≤ c → ∃ t, exec (.latencyProbe n x) s = .next t ∧ t.linkState n = 3 ∧
        t.fld (Reg.seamLatMeas n) 0 12 = m ∧ t.fld (Reg.seamElastic n) 0 12 = c - m) ∧
      (63 ≤ (s.link n).probes → m < 4096 → c < m + 8 → ∃ t, exec (.latencyProbe n x) s = .next t ∧ t.linkState n = 6 ∧
        t.fld (Reg.seamLatMeas n) 0 12 = m ∧ t.fld (Reg.seamStatus n) 3 1 = 1))) ∧
  (∀ (n c d : Nat) (s : State), s.coreRunning → wellFormed (.alignmentFrame n c d) = true → s.linkUp n = true →
    let want := (c + s.fld (Reg.seamLatPlan n) 0 12 + 4) % 2 ^ 64
    (s.fld Reg.aonTime 0 1 = 0 → ∃ t, exec (.alignmentFrame n c d) s = .next t ∧ t.now = want ∧ t.fld Reg.aonTime 0 1 = 1 ∧
      t.fld Reg.aonTime 4 10 = d ∧ (t.link n).linkOut = (s.link n).linkOut ++ [.align want d] ∧ t.hbm = s.hbm ∧
      t.tile = s.tile) ∧
    (s.fld Reg.aonTime 0 1 = 1 → s.now = want → exec (.alignmentFrame n c d) s = .next s) ∧
    (s.fld Reg.aonTime 0 1 = 1 → s.now ≠ want →
      exec (.alignmentFrame n c d) s = .next ((s.count Reg.aonEvcAlignerr).fault 0x200 0x0B 5 0 n false)))

/-- Lanes (R321, R322). LANE_FAIL with lanes of one pair failed turns a link of full width to the other pair, counts the
lane and sends a lane change; with a lane of each pair failed the link is down; a lane of the pair no longer in use
is noted and counted only. LANE_CHANGE from the peer marks the pair it
leaves and retrains. RETRAIN_COMPLETE: initial training leads to discovery or out of service; a retrained link
replays its retry buffer, and one whose retraining fails is down. A link that is not up is left as it is. -/
def Obligations.LaneFailuresHalveOrDropTheLink : Prop :=
  ∀ (n : Nat) (s : State), s.coreRunning → n < 36 →
    (∀ k, k < 4 → s.linkUp n = false → exec (.laneFail n k) s = .next s) ∧
    (∀ k, k < 4 → s.linkState n = 3 → s.fld (Reg.seamLane n) 4 4 = 0 → ∃ t, exec (.laneFail n k) s = .next t ∧
      t.linkState n = (if k < 2 then 5 else 4) ∧
      t.reg (Reg.seamEvcLanefail n) = min 0xFFFFFFFF (s.reg (Reg.seamEvcLanefail n) + 1) ∧ (t.link n).retraining = true ∧ t.fld (Reg.seamLane n) (4 + k) 1 = 1 ∧
      (t.link n).linkOut = (s.link n).linkOut ++ [.laneChange (if k < 2 then 1 else 0)]) ∧
    (∀ k, k < 2 → s.linkState n = 5 → ∃ t, exec (.laneFail n k) s = .next t ∧ t = { s with regs := t.regs } ∧
      t.linkState n = 5 ∧ t.fld (Reg.seamLane n) (4 + k) 1 = 1 ∧
      t.reg (Reg.seamEvcLanefail n) = min 0xFFFFFFFF (s.reg (Reg.seamEvcLanefail n) + 1)) ∧
    (∀ k, k < 2 → s.linkUp n = true → s.linkState n ≠ 5 → s.fld (Reg.seamLane n) 6 2 ≠ 0 → ∃ t, exec (.laneFail n k) s = .next t ∧
      t.linkState n = 6 ∧ (t.link n).replay = []) ∧
    (∀ p, p < 2 → s.linkUp n = true → (s.link n).retraining = false → ∃ t, exec (.laneChange n p) s = .next t ∧
      t.linkState n = 4 + p ∧ (t.link n).retraining = true) ∧
    (∀ ok x, x < 4096 → s.linkState n = 1 →
      (ok = true → ∃ t, exec (.retrainComplete n ok x) s = .next t ∧ t.linkState n = 2) ∧
      (ok = false → ∃ t, exec (.retrainComplete n ok x) s = .next t ∧ t.linkState n = 6)) ∧
    (∀ ok x, x < 4096 → s.linkState n ≠ 1 → (s.link n).retraining = true →
      (ok = true → ∃ t, exec (.retrainComplete n ok x) s = .next t ∧ (t.link n).retraining = false ∧
        (t.link n).replay = (s.link n).retry ∧ t.fld (Reg.seamLatMeas n) 0 12 = x ∧ t.hbm = s.hbm ∧ t.tile = s.tile) ∧
      (ok = false → ∃ t, exec (.retrainComplete n ok x) s = .next t ∧ t.linkState n = 6))

/-- Messages that write memory (R316). A QDATA, WRITE or MCAST message whose range lies outside every enabled window is
dropped whole and counted, and no cue or queue changes; an accepted one stores its bytes at its address and nowhere
else, 31 or 408 cycles after its last frame came (R316), and then a QDATA with LAST adds one to the queue's arrivals, a
WRITE with CUE_EN one to its cue. Messages without data (R245, R247, R315, R316): QCRED adds one credit to its queue, 16
at most; CUE adds ADD to a cue below 224; CTRL is handed to the policy cores with at most 224 bytes; no memory changes.
MCAST_MESSAGE (R317): a message of a group that has this device as a receiver stores its bytes at LBASE plus its
address, where that lies in an enabled window; one of a group that has not stores nothing. A message that never stood in
the inbox is forwarded on the group's links first. -/
def Obligations.MessagesActOnce : Prop :=
  (∀ (m : SeamMsg) (s : State), s.coreRunning → m.fits = true →
    let r := s.takeInbox m
    (m.len ≠ 0 → r.1.inWindows m.daddr m.len = false →
      ∃ l, exec (.qdataMessage m) s = .next (r.1.count (Reg.seamEvcRxdrop l)) ∧
        exec (.writeMessage m) s = .next (r.1.count (Reg.seamEvcRxdrop l))) ∧
    (r.1.inWindows m.daddr m.len = true ∨ m.len = 0 →
      let s1 := match r.2 with
        | some x => r.1.atCycle (x.2 + deliverCycles m.daddr)
        | none => r.1
      let st := s1.write48 m.daddr (m.data.take m.len)
      (∃ t, exec (.qdataMessage m) s = .next t ∧ t.hbm = st.hbm ∧ t.tile = st.tile ∧
        t.reg (Reg.seqQArr m.queue) = (s.reg (Reg.seqQArr m.queue) + b2n m.last) % 2 ^ 32 ∧
        ∀ a, a ≠ Reg.seqQArr m.queue → t.reg a = s.reg a) ∧
      (∃ t, exec (.writeMessage m) s = .next t ∧ t.hbm = st.hbm ∧ t.tile = st.tile ∧
        (m.cue < 224 → t.reg (Reg.seqCue m.cue) = (s.reg (Reg.seqCue m.cue) + b2n m.cueEn) % 2 ^ 32)))) ∧
  (∀ (m : SeamMsg) (s : State), s.coreRunning → m.fits = true →
    (∃ t, exec (.qcredMessage m) s = .next t ∧
      t.fld (Reg.seqQCred m.queue) 0 5 = min 16 (s.fld (Reg.seqQCred m.queue) 0 5 + 1) ∧ t.hbm = s.hbm ∧ t.tile = s.tile ∧
      ∀ a, a ≠ Reg.seqQCred m.queue → t.reg a = s.reg a) ∧
    (m.cue < 224 → ∃ t, exec (.cueMessage m) s = .next t ∧
      t.reg (Reg.seqCue m.cue) = (s.reg (Reg.seqCue m.cue) + m.add.toNat) % 2 ^ 32 ∧ t.hbm = s.hbm ∧ t.tile = s.tile ∧
      ∀ a, a ≠ Reg.seqCue m.cue → t.reg a = s.reg a) ∧
    (∃ t, exec (.ctrlMessage m) s = .next t ∧ t.seam.ctrl = s.seam.ctrl ++ [(m.src, m.data.take 224)] ∧ t.regs = s.regs ∧
      t.hbm = s.hbm ∧ t.tile = s.tile)) ∧
  (∀ (l : Nat) (m : SeamMsg) (s : State), s.coreRunning → l < 36 → m.fits = true → m ∈ s.seam.inbox.map (·.2.2) →
    let g := s.group m.queue
    (g.2.1 = false → exec (.mcastMessage l m) s = .next (s.takeInbox m).1) ∧
    (g.2.1 = true → (s.takeInbox m).1.inWindows ((g.2.2 + m.daddr) % 2 ^ 48) m.len = true →
      let a := (g.2.2 + m.daddr) % 2 ^ 48
      let r := s.takeInbox m
      let s1 := match r.2 with
        | some x => r.1.atCycle (x.2 + deliverCycles a)
        | none => r.1
      let st := s1.write48 a (m.data.take m.len)
      ∃ t, exec (.mcastMessage l m) s = .next t ∧ t.hbm = st.hbm ∧ t.tile = st.tile ∧
        (m.cue < 224 → t.reg (Reg.seqCue m.cue) = (s.reg (Reg.seqCue m.cue) + b2n m.cueEn) % 2 ^ 32)))

/-- ATOMIC_BURST (R318, R319): a beat that arrives crosses to the Seam ingress of its partition, behind the others
there; with the domain off the burst is counted in `SEAM_EVC_RXDROP` and dropped. BURST_CLOSE: the beats of one run
leave as one burst of an ATOMH frame and a frame per beat, and the rest wait. -/
def Obligations.BurstsCarryBeats : Prop :=
  (∀ (l : Nat) (b : Beat) (s : State), s.coreRunning → l < 36 →
    (s.fld Reg.seamDomCfg 0 1 = 0 → exec (.atomicBurst l [b]) s = .next (s.count (Reg.seamEvcRxdrop l))) ∧
    (s.fld Reg.seamDomCfg 0 1 = 1 → ∃ t, exec (.atomicBurst l [b]) s = .next t ∧ t = { s with part := t.part } ∧
      ((t.partition (b.part % 8)).ingressAt 32).queue =
        ((s.partition (b.part % 8)).ingressAt 32).queue ++ [(s.now + 28, b)] ∧
      ∀ p, p ≠ b.part % 8 → t.partition p = s.partition p)) ∧
  (∀ (n : Nat) (s : State), s.coreRunning → n < 36 →
    let l := s.link n
    (l.beats = [] → exec (.burstClose n) s = .next s) ∧
    (l.beats ≠ [] → ∃ t, exec (.burstClose n) s = .next t ∧ t = { s with clk := t.clk, seam := t.seam } ∧
      (t.link n).beats = l.beats.drop (burstRun 16 l.beats).length ∧
      (t.link n).out.length = l.out.length + 1 + (burstRun 16 l.beats).length ∧
      ∀ k, k ≠ n → t.link k = s.link k))

/-- Class C messages (R341, R351). With outer sync off a ROUND, COMMIT, JOIN or FETCH message is taken and nothing
follows; one of another operand digest is counted in `BRM_EVC_OPD` and nothing follows; any other is heard from its
site now, which ends the site's silence, and one for a shard that this device does not own is relayed to its owner.
A FETCH from a site with a weight (R353) is served: of the slices asked for, those whose tags show OIP = 0 leave in
one ANCHOR object, and the others wait to be served.
The owner's side of a round (R342, R344, R351, R352, R356). ROUND_SEND: the owner's report leaves, at the latest a
quarter of its silence period after the one before, and marks that nothing has changed since. LEADER_COMMIT and
COMMIT_DEADLINE: the leader of a round whose deadline has passed commits it once; a shard with no deadline running
is left as it is. SITE_SILENT and MEMBER_REMOVAL: a partner site not heard for its time is silent, and a member
silent for longer is removed. -/
def Obligations.OuterRoundsCommit : Prop :=
  (∀ (m : ClassC) (i : Instr) (s : State), s.coreRunning → wellFormed i = true →
    i ∈ [.round m, .commit m, .join m, .fetch m] →
    let s1 := s.takeC m
    let s2 : State := { s1 with brim := { s1.brim with
      heard := s1.brim.heard.set m.site s1.clk.acnt, silent := s1.brim.silent.filter (· != m.site) } }
    (s.fld Reg.brmCfg 0 1 = 0 → exec i s = .next s1) ∧
    (s.fld Reg.brmCfg 0 1 = 1 → m.opd ≠ s1.opd → exec i s = .next (s1.count Reg.brmEvcOpd)) ∧
    (s.fld Reg.brmCfg 0 1 = 1 → m.opd = s1.opd →
      ((s2.ownedShards.contains m.shard0 = false → m.shards.filter s2.ownedShards.contains = [] → i ≠ .join m →
        exec i s = .next (s2.relayC m)) ∧
      (∀ x, m.shards.filter s2.ownedShards.contains = [x] →
        (∃ t, exec (.round m) s = .next t ∧ Tbl.get? (t.shard x).rounds m.site = some (s1.clk.acnt, m) ∧
          (t.shard x).commits = (s2.shard x).commits ∧ t.hbm = s.hbm ∧ t.tile = s.tile) ∧
        (s2.commitOk x m = false → exec (.commit m) s = .next (s2.count Reg.brmEvcConflict)) ∧
        (s2.commitOk x m = true → s.vsr.goWaits = [] → s.vsr.staged.length < 64 → ∃ t, exec (.commit m) s = .next t ∧ Tbl.get? (t.shard x).commits m.round = some m ∧
          Tbl.get? (t.shard x).weights (m.round + 1) = some m.lambda ∧ (t.shard x).t0 = none ∧ t.hbm = s.hbm ∧
          t.tile = s.tile) ∧
        (∃ t, exec (.join m) s = .next t ∧ Tbl.get? (t.shard x).joins m.site = some m ∧
          t.brim.removed = s.brim.removed.filter (· != m.site) ∧ t.hbm = s.hbm)) ∧
      (s2.ownedShards.contains m.shard0 = true → (s2.weights m.shard0 (s2.pendingRound m.shard0)).getD m.site 0xFF = 0xFF →
        exec (.fetch m) s = .next s2) ∧
      (s2.ownedShards.contains m.shard0 = true → (s2.weights m.shard0 (s2.pendingRound m.shard0)).getD m.site 0xFF ≠ 0xFF →
        let asked := (List.range (fieldAt m.body 4 4)).map (fieldAt m.body 0 4 + ·)
        let now := asked.filter (s2.mayServe m.shard0)
        let later := asked.filter fun j => !s2.mayServe m.shard0 j && decide (j < (s2.shardSlices m.shard0).length)
        ∃ s3 : State, s3 = { s2 with brim := { s2.brim with serve := s2.brim.serve ++ later.map fun j => (m.site, m.shard0, j) } } ∧
          (now = [] → exec (.fetch m) s = .next s3) ∧
          (now ≠ [] → exec (.fetch m) s = .next (s3.sendOut m.site (.object (s3.anchorObject' m.shard0 now) true))))))) ∧
  ((∀ (x : Nat) (s : State), s.coreRunning → x < 2 ^ 32 →
    (s.job.active = false → exec (.roundSend x) s = .next s ∧ exec (.leaderCommit x) s = .next s) ∧
    (s.job.active = true → s.fld Reg.brmCfg 0 1 = 1 → s.ownedShards.contains x = true → (s.shard x).changed = true →
      ∃ t, exec (.roundSend x) s = .next t ∧ (t.shard x).changed = false ∧ (t.shard x).sentAt = s.clk.acnt ∧
        t.clk = s.clk ∧ t.hbm = s.hbm ∧ t.tile = s.tile) ∧
    ((s.shard x).t0 = none → exec (.commitDeadline x) s = .next s) ∧
    (s.job.active = true → s.fld Reg.brmCfg 0 1 = 1 → s.ownedShards.contains x = true →
      let r := s.pendingRound x
      s.leaderOf x r = s.site → r ≤ s.brim.round → (s.shard x).t0.isSome = true → (s.shard x).expired = true →
      Tbl.get? (s.shard x).commits r = none →
      ∃ t m, exec (.leaderCommit x) s = .next t ∧ Tbl.get? (t.shard x).commits r = some m ∧ m.round = r) ∧
    (∀ t0, (s.shard x).t0 = some t0 →
      let s1 := s.atAc (t0 + msAc (s.pol 0x0429 1000))
      exec (.commitDeadline x) s = .next ((s1.setShard x { s1.shard x with expired := true }).tryCommit x))) ∧
  (∀ (k : Nat) (s : State), s.coreRunning → k < 16 →
    (s.job.active = false → exec (.siteSilent k) s = .next s) ∧
    (s.job.active = true → s.brim.silent.contains k = false → s.partnerSites.contains k = true →
      ∃ t, exec (.siteSilent k) s = .next t ∧ t.brim.silent = s.brim.silent ++ [k] ∧ t.hbm = s.hbm ∧ t.tile = s.tile ∧
        t.seam = s.seam)) ∧
  (∀ (x k : Nat) (s : State), s.coreRunning → x < 2 ^ 32 → k < 16 →
    (s.brim.silent.contains k = false → exec (.memberRemoval x k) s = .next s) ∧
    (s.brim.silent.contains k = true → s.brim.removed.contains k = false →
      (s.memberSites x (s.pendingRound x)).contains k = true → ∃ t, exec (.memberRemoval x k) s = .next t ∧
        t.brim.removed = s.brim.removed ++ [k] ∧ t.hbm = s.hbm ∧ t.tile = s.tile)))

/-- DELTA_OBJECT and ANCHOR_OBJECT (R347, R353): with outer sync off the object is taken and nothing follows; a DELTA of
an owned shard is retained, a second one of the same site and round is counted in `BRM_Pp_EVC_DUP`; one of a shard that
another device owns goes on to it by relay, and one of a shard outside the map is counted as a violation (R358); an
anchor object of a shard that is not owned is counted as a violation, and one of an owned shard is taken slice by
slice. -/
def Obligations.ObjectsAreRetainedOnce : Prop :=
  ∀ (p : Nat) (o : DObject) (s : State), s.coreRunning → p < 8 → o.site < 16 →
    let s1 := s.takeD p o
    (s.fld Reg.brmCfg 0 1 = 0 → exec (.deltaObject p o) s = .next s1 ∧ exec (.anchorObject p o) s = .next s1) ∧
    (s.fld Reg.brmCfg 0 1 = 1 → s1.ownedShards.contains o.shard = true → s1.holds' o.shard o.round o.site = true →
      exec (.deltaObject p o) s = .next (s1.count (Reg.brmPEvcDup p))) ∧
    (s.fld Reg.brmCfg 0 1 = 1 → s1.ownedShards.contains o.shard = true → s1.holds' o.shard o.round o.site = false →
      ∃ t, exec (.deltaObject p o) s = .next t ∧ t.holds' o.shard o.round o.site = true ∧ (t.shard o.shard).changed = true ∧
        t.regs = s.regs ∧ t.hbm = s.hbm ∧ t.tile = s.tile) ∧
    (s.fld Reg.brmCfg 0 1 = 1 → s1.ownedShards.contains o.shard = false →
      exec (.deltaObject p o) s = .next (if s1.job.map.any fun e => e.shard == o.shard
        then { s1 with brim := { s1.brim with relay := s1.brim.relay ++ [(s1.site, .object o false)] } }
        else s1.count Reg.brmEvcViol)) ∧
    (s.fld Reg.brmCfg 0 1 = 1 → s1.ownedShards.contains o.shard = false →
      exec (.anchorObject p o) s = .next (s1.count Reg.brmEvcViol)) ∧
    (s.fld Reg.brmCfg 0 1 = 1 → s1.ownedShards.contains o.shard = true →
      exec (.anchorObject p o) s = .next (s1.takeSlices o.count o.shard o.records))

/-- A packet at a partner port (R364 to R367, R373, R377, R369, R382). A port that does not run takes none. One that a
rule discards is counted in that rule's counter and changes nothing more, and a class D frame, probe or report that does
not open under its key changes nothing beyond the received bytes; one that opens is the first of its generation or not
(R410). The 16th probe of a run in which each comes less than two probe intervals after the one before brings its route
up (the run's rule is the model's, log 29). A fragment of a message that is not complete with it, and a frame of a
window not complete with it, are kept. PACKET_TRANSMIT (R362, R366, R372): with nothing ready to leave nothing leaves; a
packet that leaves takes the port's next PSN, carries the port's site, its key slot and its route's next sequence
number, and is sealed under the key of its slot. Stated of a port whose key is young, whose next hops are known or asked
for, of windows whose FEC is settled and a shaper with room. -/
def Obligations.PartnerPacketsAreJudged : Prop :=
  (∀ (p : Nat) (k : Packet) (s : State), s.coreRunning → p < 8 → k.fits = true →
    let s0 := { s with regs := Regs.count64 s.regs (Reg.brmPRxbytesLo p) (frameBytes ((s.routes p).getD k.route []) k.len) }
    (∀ i f, i ∈ [.classCFragment p k, .classDFrame p k, .probe p k, .feedbackReport p k f] →
      (s.portRuns p = false → exec i s = .next s) ∧
      (s.portRuns p = true → s0.discards p k ≠ 0 → exec i s = .next (s0.count (s0.discards p k)))) ∧
    (∀ i f, i ∈ [.classDFrame p k, .probe p k, .feedbackReport p k f] → s.portRuns p = true → s0.discards p k = 0 →
      s0.openPacket p k = none → exec i s = .next s0) ∧
    (∀ plain, s.portRuns p = true → s0.discards p k = 0 → s0.openPacket p k = some plain →
      let a := (s0.accepted p k).noteGeneration p (s0.slotGeneration p k.kid)
      let r := (s.pport p).route k.route
      (exec (.classCFragment p k) s = .next (a.takeFragment p k plain)) ∧
      (exec (.classDFrame p k) s = .next (a.takeFrame p k plain)) ∧
      (15 ≤ r.run → (∀ e, s.partner p = some e → s.ns < r.probeNs + 2000 * entryNat e 0x0309 1000) →
        ∃ t, exec (.probe p k) s = .next t ∧ t.fld (Reg.brmPRoute p k.route) 0 1 = 1 ∧
          ((t.pport p).route k.route).run = r.run + 1 ∧ ((t.pport p).route k.route).probeNs = s.ns) ∧
      (∀ f : Feedback, f.routes = [] → f.resend = [] → f.oreq = [] →
        exec (.feedbackReport p k f) s = .next (a.takeAcks p f.cack f.cmap)))) ∧
  (∀ (p : Nat) (s : State), s.coreRunning → p < 8 → s.portRuns p = true → (s.pport p).sinceR < 1024 →
    (s.pport p).sending.any (·.block.isEmpty) = false →
    (∀ q, q < (s.routes p).length → s.resolved p q = true ∨ (s.pport p).solicited.contains q = true) →
    (s.nextPacket p = none → exec (.packetTransmit p) s = .next s) ∧
    (∀ x k, s.nextPacket p = some (x, k) → k.hello = true →
      8 * (frameBytes ((s.routes p).getD k.route []) k.plain.length + 20) ≤ s.bucket p →
      let psn := Regs.pair s.regs (Reg.brmPTxpsnLo p)
      psn + 1 < 2 ^ 64 → ∃ t w, exec (.packetTransmit p) s = .next t ∧ Regs.pair t.regs (Reg.brmPTxpsnLo p) = psn + 1 ∧
        (t.pport p).wire = some w ∧ w.psn = psn ∧ w.site = s.site ∧ w.route = k.route ∧
        w.body = (sealRecord (s.helloKey p) psn (packetHeader { w with body := [], tag := [] }) k.plain).1 ∧
        t.hbm = s.hbm ∧ t.tile = s.tile ∧ t.seam = s.seam))

/-- The timers of a partner port (R368, R369, R370, R374, R375, R382). PROBE_TIMER and FEEDBACK_TIMER make a probe or a
report due on every route, one `BRM_Pp_TIMING` interval after the last time; ROUTE_DOWN ends a route that is up,
counted; CLASS_C_RELEASE gives up a message 250 ms after its first fragment, counted in `BRM_Pp_EVC_CLOST`;
CLASS_C_RESEND sends an unacknowledged message's six fragments again, counted. A port that does not run, and a message
that is not there, are left as they are. -/
def Obligations.PartnerTimers : Prop :=
  ∀ (p : Nat) (s : State), s.coreRunning → p < 8 →
    (s.portRuns p = false → exec (.probeTimer p) s = .next s ∧ exec (.feedbackTimer p) s = .next s ∧
      exec (.packetTransmit p) s = .next s ∧ exec (.partnerLinkDown p) s = .next s ∧
      ∀ q, q < 4 → exec (.routeDown p q) s = .next s) ∧
    (s.portRuns p = true → s.established p = true →
      (let u := s.atTimer (s.pport p).probeAt (s.fld (Reg.brmPTiming p) 0 16)
       exec (.probeTimer p) s =
         .next (u.setPport p { u.pport p with probes := List.range (s.routes p).length, probeAt := some u.ns })) ∧
      (let u := s.atTimer (s.pport p).feedbackAt (s.fld (Reg.brmPTiming p) 16 16)
       exec (.feedbackTimer p) s =
         .next (u.setPport p { u.pport p with feedback := List.range (s.routes p).length, feedbackAt := some u.ns }))) ∧
    (∀ q, q < 4 → s.portRuns p = true → s.fld (Reg.brmPRoute p q) 0 1 = 1 → (s.pport p).arriving = [] →
      ∃ t, exec (.routeDown p q) s = .next t ∧ t.fld (Reg.brmPRoute p q) 0 1 = 0 ∧
        t.fld (Reg.brmPStatus p) (1 + q) 1 = 0 ∧ ((t.pport p).route q).run = 0 ∧ t.hbm = s.hbm ∧
        t.reg (Reg.brmPEvcRoutedown p) = min 0xFFFFFFFF (s.reg (Reg.brmPEvcRoutedown p) + 1)) ∧
    (∀ mid, mid < 2 ^ 32 → Tbl.get? (s.pport p).crx mid = none → exec (.classCRelease p mid) s = .next s) ∧
    (∀ mid m, mid < 2 ^ 32 → Tbl.get? (s.pport p).crx mid = some m → ∃ t, exec (.classCRelease p mid) s = .next t ∧
      Tbl.get? (t.pport p).crx mid = none ∧ (t.pport p).inC = (s.pport p).inC ∧
      t.reg (Reg.brmPEvcClost p) = min 0xFFFFFFFF (s.reg (Reg.brmPEvcClost p) + 1)) ∧
    (∀ mid m, mid < 2 ^ 32 → (s.pport p).cun.find? (·.mid == mid) = some m → m.frags = [] →
      ∃ t, exec (.classCResend p mid) s = .next t ∧
        (∃ c ∈ (t.pport p).cun, c.mid = mid ∧ c.frags = List.range 6 ∧ c.bytes = m.bytes) ∧
        t.reg (Reg.brmPEvcCresend p) = min 0xFFFFFFFF (s.reg (Reg.brmPEvcCresend p) + 1)) ∧
    (s.portRuns p = true → exec (.partnerLinkDown p) s = .next ((s.putFld (Reg.brmPStatus p) 0 1 0).count (Reg.brmPEvcLinkdown p)))

/-- Neighbour and link events of the Ethernet ports (R361, R362, R425, R427). A Neighbor Solicitation for one of the
port's addresses and an Echo Request are answered; a solicitation or advertisement for none is dropped and counted;
an advertisement gives its route its MAC address. PAUSE is counted and obeyed by neither kind of port. A link that
comes up or drops shows in its port's status. -/
def Obligations.NeighbourAndLinkEvents : Prop :=
  (∀ (p : Nat) (a : BitVec 128) (mac : BitVec 48) (d : List Byte) (s : State), s.coreRunning → p < 8 → s.portRuns p = true →
    ((s.routes p).any (fun r => routeAddr r 0 == a.toNat) = true → exec (.neighborSolicitation p a) s =
      .next (s.setPport p { s.pport p with answers := (s.pport p).answers ++ [(135, a.toNat, [])] })) ∧
    ((s.routes p).any (fun r => routeAddr r 0 == a.toNat) = false →
      exec (.neighborSolicitation p a) s = .next (s.count (Reg.brmPEvcRxdrop p))) ∧
    exec (.echoRequest p a d) s = .next (s.setPport p { s.pport p with answers := (s.pport p).answers ++ [(128, a.toNat, d)] }) ∧
    (s.routes p = [] → exec (.neighborAdvertisement p a mac) s = .next (s.count (Reg.brmPEvcRxdrop p))) ∧
    (∀ r, s.routes p = [r] → fieldAt r 48 6 = 0 → routeAddr r (if fieldAt r 41 1 = 0 then 16 else 56) = a.toNat →
      exec (.neighborAdvertisement p a mac) s = .next (s.setPport p { s.pport p with macs := (s.pport p).macs.set 0 mac.toNat })) ∧
    exec (.macPause p) s = .next (s.count (Reg.brmPEvcMacpause p))) ∧
  (∀ (h : Nat) (s : State), s.coreRunning → h < 4 →
    (s.fld (Reg.hptHStatus h) 0 1 = 1 → exec (.macPause (8 + h)) s = .next (s.count (Reg.hptHEvcRxdrop h)) ∧
      (let u := (s.putFld (Reg.hptHStatus h) 0 1 0).count (Reg.hptHEvcLinkdown h)
       exec (.hostPortLinkDown h) s = .next (if u.timePort.isNone then u.loseLock else u))) ∧
    (s.fld (Reg.hptHStatus h) 0 1 = 0 → s.timePort ≠ none → exec (.hostPortLinkDown h) s = .next s) ∧
    (s.isolated (0x1E0 + h) = false → exec (.portLinkUp (0x1E0 + h)) s = .next (s.putFld (Reg.hptHStatus h) 0 1 1))) ∧
  (∀ (p : Nat) (s : State), s.coreRunning → p < 8 → s.isolated (0x1E8 + p) = false →
    (s.fld (Reg.brmPCfg p) 0 1 = 1 → exec (.portLinkUp (0x1E8 + p)) s = .next (s.putFld (Reg.brmPStatus p) 0 1 1)) ∧
    (s.fld (Reg.brmPCfg p) 0 1 = 0 → exec (.portLinkUp (0x1E8 + p)) s = .next s))

/-- Cipher lanes (R396, R397, R399). With the engine ready a record takes the lowest free lane; with none free it takes
the lane of the running record of largest priority number if that number is larger than its own, that record has
been suspended fewer than 4 times and fewer than 32 contexts are held, which is counted; else it waits, and one that
finds its port's FIFO past 256 KiB is dropped and counted. A plaintext is released only where its tag verifies; else
nothing is released and TAGFAIL is counted. A partner's record is sealed under its association's key slot. -/
def Obligations.LanesSealAndOpen : Prop :=
  ∀ (d : Bool) (a prio len : Nat) (s : State), s.coreRunning → a < 12 → prio < 4 → len ≤ 16384 →
    let q := b2n d
    let r : LaneRec := { assoc := a, prio, len, start := s.now }
    (s.fld Reg.cphStatus 0 1 = 0 → exec (.recordStart d a prio len) s = .next s) ∧
    (s.fld Reg.cphStatus 0 1 = 1 → s.fifoBytes a ≤ 262144 →
      (∀ i, freeLane (s.lanes q) = some i →
        exec (.recordStart d a prio len) s = .next (s.setPipe q (Tbl.set (s.lanes q) i r) (s.savedRecs q) (s.waitingRecs q))) ∧
      (∀ i x, freeLane (s.lanes q) = none → worstLane (s.lanes q) = some (i, x) →
        (prio < x.prio → x.suspended < 4 → s.contexts < 32 → exec (.recordStart d a prio len) s =
          .next ((s.setPipe q (Tbl.set (s.lanes q) i r) (s.savedRecs q ++ [{ x with suspended := x.suspended + 1, start := s.now - x.start }])
            (s.waitingRecs q)).count Reg.cphEvcSuspend)) ∧
        (¬ (prio < x.prio ∧ x.suspended < 4 ∧ s.contexts < 32) → exec (.recordStart d a prio len) s =
          .next (if d && decide (262144 < s.fifoBytes a + len) then s.count Reg.cphEvcNobuf
                 else s.setPipe q (s.lanes q) (s.savedRecs q) (s.waitingRecs q ++ [r]))))) ∧
    (∀ l n kid aad body tag, l < 10 → n < 2 ^ 64 → kid < 2 → tag.length = 16 →
      (Tbl.get? (s.lanes q) l = none → exec (.recordComplete d l n kid aad body tag) s = .next s) ∧
      (∀ x, Tbl.get? (s.lanes q) l = some x → x.assoc < 12 →
        (d = false → x.assoc < 8 → ∃ t, exec (.recordComplete d l n kid aad body tag) s = .next t ∧
          t.bus = (let o := sealRecord (Tbl.get (0, []) (s.assoc x.assoc).tx (s.fld (Reg.cphAState x.assoc) 2 1)).2 n aad body
                   o.1 ++ o.2) ∧ t.regs = s.regs ∧ t.hbm = s.hbm) ∧
        (d = true → ∀ g p, Tbl.get? (s.assoc x.assoc).rx kid = some g → openRecord g.2 n aad body tag = some p → g.1 < 2 ^ 32 →
          ∃ t, exec (.recordComplete d l n kid aad body tag) s = .next t ∧ t.bus = p ∧ t.hbm = s.hbm ∧
            (t.reg (Reg.cphARxgen x.assoc) = s.reg (Reg.cphARxgen x.assoc) ∨ t.reg (Reg.cphARxgen x.assoc) = g.1)) ∧
        (d = true → x.prio ≠ 0 → (∀ g, Tbl.get? (s.assoc x.assoc).rx kid = some g → openRecord g.2 n aad body tag = none) →
          ∃ t, exec (.recordComplete d l n kid aad body tag) s = .next t ∧ t.bus = [] ∧ t.hbm = s.hbm ∧
            t.reg (Reg.cphAEvcTagfail x.assoc) = min 0xFFFFFFFF (s.reg (Reg.cphAEvcTagfail x.assoc) + 1))))

/-- Handshakes (R405, R407 to R410). HELLO acts only with keys derived and, for a partner, with its entry; a credential
that does not verify is counted and nothing more; with one that does, on an association whose handshake is under
way, the peer's HELLO is kept and FINISH goes out, unless the shared secret is all zero, which fails the handshake.
FINISH acts once this side has sent its own; one that does not verify fails the handshake; one that does establishes
the association, at generation 0. KEYUPD notes the generation after the newest and KEYACK a generation no more than
one ahead. -/
def Obligations.HandshakesEstablish : Prop :=
  ∀ (a : Nat) (h sig : List Byte) (s : State), s.coreRunning → a < 12 →
    (s.cph.keyed = false → exec (.hello a h) s = .next s) ∧
    (s.cph.keyed = true → (8 ≤ a ∨ (s.partner a).isSome) →
      (s.credOk a h = false → exec (.hello a h) s = .next (s.count (Reg.cphAEvcHellofail a))) ∧
      (s.credOk a h = true → s.fld (Reg.cphAState a) 0 2 = 1 →
        let x : Assoc := { s.assoc a with peerHello := h }
        exec (.hello a h) s =
          .next (if allZero x.shared then (s.setAssoc a x).handshakeFailed a else (s.setAssoc a x).sendFinish a))) ∧
    (s.fld (Reg.cphAState a) 0 2 ≠ 1 ∨ (s.assoc a).finished = false → exec (.finish a sig) s = .next s) ∧
    (s.fld (Reg.cphAState a) 0 2 = 1 → (s.assoc a).finished = true →
      (s.finishOk a sig = false → exec (.finish a sig) s = .next (s.handshakeFailed a)) ∧
      (s.finishOk a sig = true → ∃ t, exec (.finish a sig) s = .next t ∧ t = s.establish a ∧
        t.fld (Reg.cphAState a) 0 4 = 2 ∧ t.reg (Reg.cphATxgen a) = 0 ∧ t.reg (Reg.cphARxgen a) = 0)) ∧
    (∀ g n, g < 2 ^ 32 → n < 2 ^ 64 →
      (s.established a = false → exec (.keyupd a g n) s = .next s ∧ exec (.keyack a g) s = .next s) ∧
      (s.established a = true →
        (g ≠ s.reg (Reg.cphARxgen a) + 1 → exec (.keyupd a g n) s = .next s) ∧
        (g = s.reg (Reg.cphARxgen a) + 1 → exec (.keyupd a g n) s =
          .next ((s.setAssoc a { s.assoc a with newGen := some (g, s.clk.acnt) }).put (Reg.cphARxgen a) g)) ∧
        (s.reg (Reg.cphATxgen a) + 1 < g → exec (.keyack a g) s = .next s) ∧
        (g ≤ s.reg (Reg.cphATxgen a) + 1 → s.keyAged a = false →
          exec (.keyack a g) s = .next (s.setAssoc a { s.assoc a with acked := max (s.assoc a).acked g }))))

/-- Key timers (R407, R408, R410, R434, R436). 500 ms after a generation first verified, the slot of the one before
takes the next secret and is counted. A fresh handshake, REKEY_S seconds after the association was established, comes
from the lower-numbered site, and from the device towards the coordinator. A host handshake whose HELLO is a second old
without FINISH has failed, and a failed handshake starts again. -/
def Obligations.KeyTimersAct : Prop :=
  ∀ (a : Nat) (s : State), s.coreRunning → a < 12 →
    ((s.assoc a).newGen = none → exec (.keySlotOverwrite a) s = .next s) ∧
    (∀ g u, (s.assoc a).newGen = some (g, u) → ∃ t, exec (.keySlotOverwrite a) s = .next t ∧ (t.assoc a).newGen = none ∧
      Tbl.get? (t.assoc a).rx ((g + 1) % 2) = some (g + 1, nextSecret (Tbl.get (0, []) (s.assoc a).rx (g % 2)).2) ∧
      t.reg (Reg.cphAEvcKeyupd a) = min 0xFFFFFFFF (s.reg (Reg.cphAEvcKeyupd a) + 1)) ∧
    ((s.assoc a).since = none ∨ s.established a = false ∨ (a < 8 ∧ s.peerSite a < s.site) →
      exec (.rekeyTimer a) s = .next s) ∧
    (∀ u, (s.assoc a).since = some u → s.established a = true → (8 ≤ a ∨ s.site ≤ s.peerSite a) →
      exec (.rekeyTimer a) s = .next ((s.atAc (u + 25000 * (1000 * s.confNat 0x0508 86400))).startHandshake a)) ∧
    (s.fld (Reg.cphAState a) 0 2 ≠ 3 → exec (.handshakeRestart a) s = .next s) ∧
    (∀ u, s.fld (Reg.cphAState a) 0 2 = 3 → (s.assoc a).helloAt = some u → a < 8 →
      exec (.handshakeRestart a) s = .next ((s.atAc (secAc + u)).startHandshake a)) ∧
    (∀ h, h < 4 →
      (s.fld (Reg.cphAState (8 + h)) 0 2 ≠ 1 → exec (.handshakeTimeout h) s = .next s) ∧
      (∀ u, s.fld (Reg.cphAState (8 + h)) 0 2 = 1 → (s.assoc (8 + h)).helloAt = some u → (s.hport h).failures < 2 →
        ∃ t, exec (.handshakeTimeout h) s = .next t ∧ t.fld (Reg.cphAState (8 + h)) 0 2 = 3 ∧
          (t.hport h).failures = (s.hport h).failures + 1 ∧ (t.hport h).address = (s.hport h).address))

/-- Alarms and reports (R412, R413, R418, R419). An alarm erases every key and secret, keeps its cause in ALARM_SRC and
brings the safe state; a failed known-answer test is alarm 6, and one that passes changes nothing. REPORT_SIGNED
puts the oldest report asked for in ID_REPORT, and changes nothing with none asked for. -/
def Obligations.AlarmsEraseAndReportsAppear : Prop :=
  (∀ (n : Nat) (s : State), s.pins.porst = false → 1 ≤ n → n ≤ 6 → s.power ≠ 3 →
    ∃ t, exec (.alarm n) s = .next t ∧ t.power = 3 ∧ t.pins.safe = true ∧ t.cph.keyed = false ∧ t.cph.xts = [] ∧
      t.cph.lanes = [] ∧ t.cph.signing = [] ∧ t.aon.alarm = some n ∧ t.fld Reg.aonResetCause 8 4 = n) ∧
  (∀ s : State, s.coreRunning → exec (.knownAnswerTest true) s = .next s ∧
    exec (.knownAnswerTest false) s = exec (.alarm 6) s) ∧
  (∀ s : State, s.coreRunning →
    (s.cph.signing = [] → exec .reportSigned s = .next s) ∧
    (∀ nonce rest, s.cph.signing = nonce :: rest → ∃ t, exec .reportSigned s = .next t ∧ t.cph.signing = rest ∧
      t.cph.reports = s.cph.reports + 1 ∧ t.fld Reg.idStatus 15 1 = 1 ∧ t.fld Reg.idStatus 14 1 = b2n (!rest.isEmpty) ∧
      ∀ i, i < 160 → t.reg (Reg.idReport i) = fieldAt (s.reportBytes nonce) (4 * i) 4))

/-- Contact with the coordinator (R433, R435 to R437). CONTACT goes out only on an established port, opens its queue
pairs and waits for an ASSIGN; CONTACT_RETRY sends it again on every established port, 10 s after the last wait began. A
control message acts once: a second one of its MID only acknowledges. ASSIGN acts only while the device waits for one:
without a job it waits again; a job image longer than JOB_AREA is refused; any other is read. STOP and REPLACE stop a
running job at its next step boundary, and STOP abandons an image that is being read. -/
def Obligations.CoordinatorAssignsAndStops : Prop :=
  ∀ (h mid ack : Nat) (b : List Byte) (s : State), s.coreRunning → h < 4 → mid < 2 ^ 32 → ack < 2 ^ 32 →
    (s.hostAssoc h = false → exec (.contact h) s = .next s) ∧
    (s.hostAssoc h = true → ∃ t, exec (.contact h) s = .next t ∧ t.portQps h ≠ [] ∧
      t.fld Reg.hptStatus 0 3 = max 4 (s.fld Reg.hptStatus 0 3) ∧ t.hbm = s.hbm) ∧
    exec (.controlResend h) s = .next ((s.hport h).unacked.foldl (fun s c => s.emitControl h c) s) ∧
    (s.host.waitJob = none → exec .contactRetry s = .next s) ∧
    (∀ u, s.host.waitJob = some u → 0 < s.freqStep → ∃ t, exec .contactRetry s = .next t ∧
      10 * secAc + u ≤ t.clk.acnt ∧ t.host.waitJob = some t.clk.acnt ∧
      (∀ k, k < 4 → s.hostAssoc k = true → t.portQps k ≠ []) ∧
      ((∀ k, k < 4 → s.hostAssoc k = false) →
        t = { s with clk := t.clk, host := { s.host with waitJob := some t.clk.acnt } })) ∧
    (b.length = 64 →
      let r := s.takeControl h mid ack 64
      (r.2 = false ∨ r.1.fld Reg.hptStatus 0 3 ≠ 4 → exec (.assign h mid ack b) s = .next r.1) ∧
      (r.2 = true → r.1.fld Reg.hptStatus 0 3 = 4 → s.host.evWait = [] → s.host.evDropped = 0 → ∃ t,
        exec (.assign h mid ack b) s = .next t ∧ t.hbm = s.hbm ∧
        t.host.evEntries = fieldAt b 44 4 ∧ t.host.dataEntries = fieldAt b 60 4 ∧ t.host.jobLen = fieldAt b 24 8 ∧
        (fieldAt b 24 8 = 0 → t.fld Reg.hptStatus 0 3 = 4 ∧ t.host.waitJob = some s.clk.acnt) ∧
        (s.jobArea.2 < fieldAt b 24 8 → t.fld Reg.hptStatus 0 3 = 4) ∧
        (fieldAt b 24 8 ≠ 0 → fieldAt b 24 8 ≤ s.jobArea.2 →
          t.fld Reg.hptStatus 0 3 = 5 ∧ t.host.jobLeft = fieldAt b 24 8 ∧ t.host.waitJob = none))) ∧
    (let r := s.takeControl h mid ack 0
     (r.2 = false → exec (.stop h mid ack) s = .next r.1) ∧
     (r.2 = true → s.job.active = true →
      exec (.stop h mid ack) s = .next { r.1 with job := { r.1.job with stopping := some false } }) ∧
     (r.2 = true → s.job.active = false → r.1.fld Reg.hptStatus 0 3 = 5 → ∃ t, exec (.stop h mid ack) s = .next t ∧
      t.fld Reg.hptStatus 0 3 = 4 ∧ t.host.jobLeft = 0 ∧ t.host.data = [])) ∧
    (b.length = 24 →
      let r := s.takeControl h mid ack 24
      (r.2 = false → exec (.replace h mid ack b) s = .next r.1) ∧
      (r.2 = true → s.job.active = true → ∃ t, exec (.replace h mid ack b) s = .next t ∧
        t.job.stopping = some true ∧ t.host.jobVa = fieldAt b 0 8 ∧ t.host.jobKey = fieldAt b 8 4 ∧ t.host.jobLen = fieldAt b 16 8))

/-- Requests of the coordinator (R427 to R430, R532). A port whose link is down or whose association is not established
takes none. A replayed record is counted and nothing more. Otherwise a READ inside MR0 reads registers and one
inside MR1 the rings in HBM, a WRITE inside MR0 writes words, a SEND to a queue pair of the port is acknowledged,
and any other request is answered by a NAK and counted. -/
def Obligations.RemoteRequestsAreServed : Prop :=
  ∀ (h n region a len qpn : Nat) (d : List Byte) (s : State), s.coreRunning → h < 4 → n < 2 ^ 64 → a < 2 ^ 64 →
    len < 2 ^ 32 → d.length < 2 ^ 32 → qpn < 2 ^ 24 →
    (s.hostOpen h = false → exec (.rdmaRead h n region a len) s = .next s ∧ exec (.rdmaWrite h n a d) s = .next s ∧
      exec (.rdmaSend h n qpn d) s = .next s ∧ exec (.unsupportedRequest h n) s = .next s) ∧
    (s.hostOpen h = true → (s.hport h).replayed n = true →
      let u (ext k : Nat) : State := (s.received h (s.host.roceFrame h ext k)).count (Reg.hptHEvcReplay h)
      exec (.rdmaRead h n region a len) s = .next (u 16 0) ∧ exec (.rdmaWrite h n a d) s = .next (u 16 d.length) ∧
      exec (.rdmaSend h n qpn d) s = .next (u 0 d.length) ∧ exec (.unsupportedRequest h n) s = .next (u 0 0)) ∧
    (s.hostOpen h = true → (s.hport h).replayed n = false →
      let v (ext k : Nat) : State := (s.received h (s.host.roceFrame h ext k)).setHport h ((s.hport h).accept n)
      (region = 0 → a + len ≤ 0x1000000 →
        exec (.rdmaRead h n region a len) s = .next (((v 16 0).readMr0 a len).respondRead h len)) ∧
      (region = 1 → a + len ≤ s.ringBytes → ∃ t, exec (.rdmaRead h n region a len) s = .next t ∧
        t.bus = s.hbm.read (Regs.pair s.regs Reg.vsrRingBaseLo + a) len ∧ t.hbm = s.hbm) ∧
      (1 < region → exec (.rdmaRead h n region a len) s = .next ((v 16 0).invalid h)) ∧
      (a + d.length ≤ 0x1000000 →
        exec (.rdmaWrite h n a d) s = .next (((v 16 d.length).writeMr0 a d).respond h 4 0)) ∧
      (0x1000000 < a + d.length → exec (.rdmaWrite h n a d) s = .next ((v 16 d.length).invalid h)) ∧
      (∀ x, 0x10000 ≤ qpn → s.qp (qpn - 0x10000) = some x → x.port = h →
        exec (.rdmaSend h n qpn d) s = .next ((v 0 d.length).respond h 4 0)) ∧
      (qpn < 0x10000 → exec (.rdmaSend h n qpn d) s = .next ((v 0 d.length).invalid h)) ∧
      exec (.unsupportedRequest h n) s = .next ((v 0 0).invalid h))

/-- Queue pairs and time (R427, R432, R436, R438, R450, R459). A request without an answer is tried again seven times,
then its queue pair fails and is counted. CNP halves a pair's rate and a recovery, 55 µs after the last change, regains
1/16 of the line rate, up to it. An answer of another PSN than the oldest request's is none of it; the data of one land
at the request's address. The time port's offsets set the time of day; the sixteenth in a row within 100 ns locks PTP,
and one beyond loses it. -/
def Obligations.QueuePairsAndTimeFollow : Prop :=
  (∀ (q psn : Nat) (d : List Byte) (s : State), s.coreRunning → q < 65536 → psn < 2 ^ 24 →
    (s.qp q = none → exec (.roceAckTimeout q) s = .next s ∧ exec (.cnp q) s = .next s ∧
      exec (.roceRateRecovery q) s = .next s ∧ exec (.roceResponse q psn d) s = .next s) ∧
    (∀ x, s.qp q = some x →
      exec (.cnp q) s = .next (s.setQp q { x with rate := x.rate / 2, cnpNs := some s.ns }) ∧
      (let u := match x.cnpNs with
         | some c => s.atNs (c + 55000)
         | none => s
       let r := min 65536 (x.rate + 4096)
       exec (.roceRateRecovery q) s = .next (u.setQp q { x with rate := r, cnpNs := if r = 65536 then none else some u.ns })) ∧
      (x.failed = true ∨ x.reqs = [] → exec (.roceAckTimeout q) s = .next s) ∧
      (x.failed = false → x.reqs ≠ [] →
        (x.retries < 7 → ∃ t, exec (.roceAckTimeout q) s = .next t ∧ t = { s with regs := t.regs, host := t.host } ∧
          t.qp q = some { x with retries := x.retries + 1 } ∧
          t.regs = Regs.count64 s.regs (Reg.hptHTxbytesLo x.port) (s.host.roceFrame x.port 16 0)) ∧
        (7 ≤ x.retries → ∃ t y, exec (.roceAckTimeout q) s = .next t ∧ t.qp q = some y ∧ y.failed = true)) ∧
      (x.reqs = [] → exec (.roceResponse q psn d) s = .next s) ∧
      (∀ r rest, x.reqs = r :: rest →
        (r.psn ≠ psn → exec (.roceResponse q psn d) s = .next s) ∧
        (r.psn = psn → r.what = .image → d.length = r.len → ∃ t, exec (.roceResponse q psn d) s = .next t ∧
          t.hbm = s.hbm.write r.addr d ∧ t.host.jobLeft = s.host.jobLeft - r.len ∧
          t.qp q = some { x with reqs := rest, retries := 0 })))) ∧
  (∀ (h sec ns : Nat) (o : Int) (s : State), s.coreRunning → h < 4 → sec < 2 ^ 48 → ns < 1000000000 →
    (s.timePort ≠ some h → exec (.ptpSync h o sec ns) s = .next s) ∧
    (s.timePort = some h →
      ((o < -100 ∨ 100 < o) → ∃ t, exec (.ptpSync h o sec ns) s = .next t ∧ t.clk.todSec = sec ∧ t.clk.todNs = ns ∧
        t.host.syncs = 0 ∧ t.reg (Reg.hptHPtpofs h) = (BitVec.ofInt 32 o).toNat ∧ t.fld Reg.aonTime 1 1 = 0) ∧
      (-100 ≤ o → o ≤ 100 → s.host.syncs < 15 → ∃ t, exec (.ptpSync h o sec ns) s = .next t ∧ t.clk.todSec = sec ∧
        t.clk.todNs = ns ∧ t.host.syncs = s.host.syncs + 1 ∧ t.fld Reg.aonTime 1 1 = s.fld Reg.aonTime 1 1) ∧
      (-100 ≤ o → o ≤ 100 → 15 ≤ s.host.syncs → s.aon.deferred = none → ∃ t, exec (.ptpSync h o sec ns) s = .next t ∧
        t.clk.todSec = sec ∧ t.clk.todNs = ns ∧ t.fld Reg.aonTime 1 1 = 1 ∧
        (s.fld Reg.aonTime 1 1 = 0 → t.fld Reg.aonTime 2 1 = 0))))

/-- A fall of PWRGOOD while MAIN_EN is asserted acts as an assertion of PORST_N (R549): nothing is retained, and
`AON_RESET_CAUSE.PORST` is set. Beside the pins and the straps' field in `AON_BOOT`, the state is that of the assertion.
-/
def Obligations.PwrgoodFallActsAsPorst : Prop :=
  ∀ s : State, s.pins.mainEn = true → ∃ t p, exec .pwrgoodFall s = .next t ∧ exec .porstNAssert s = .next p ∧
    t = { p with pins := t.pins, regs := t.regs } ∧ (∀ a, a ≠ Reg.aonBoot → t.reg a = p.reg a) ∧
    t.fld Reg.aonResetCause 0 1 = 1 ∧ t.aon.retain = false ∧ t.hbm = [] ∧ t.tile = []

/-- Full resets (R473 to R477, R491). PORST_N clears all but flash and fuses; its release samples STRAP_NVM. After a
fall of PWRGOOD with MAIN_EN asserted PORST_N holds the part only if it did before, and where it does not the straps
stand as they are (the model's choice, log 75); with MAIN_EN deasserted nothing but the pin changes, and that HBM cannot
be kept (R476). RESET_N takes a part that runs to the reset state with the source PIN, and joins a reset under way. The
stacks' confirmation takes the main rails down no sooner than 2,500 ac after the source; the release starts the boot
again at step 2 no sooner than 2,600 ac after it, with HBM kept only where nothing forbids it. An alarm resets the part
at most three times, from the safe state with the stacks in self-refresh, once its cause has been gone for 100 ms. The
boot (R213, R414, R455, R457, R460). A step that ends well leads to the next; step 8 notes the NAND channels found and
trained; step 4 raises the main rails and enters BOOT; a missing PWRGOOD, a PLL that does not lock or a stack that does
not train stops the boot in the safe state with its cause; step 14 of a boot after PORST_N ends in RUN. Nothing of a
boot ends while the part is held, in the safe state or in reset. -/
def Obligations.ResetsAndBootRun : Prop :=
  (∀ s : State,
    (s.pins.mainEn = true → ∃ t p, exec .pwrgoodFall s = .next t ∧ exec .porstNAssert s = .next p ∧
      (let k := if s.pins.porst then p.pins.strap else s.pins.strap
       t.pins = { p.pins with porst := s.pins.porst, pwrgood := false, strap := k } ∧
       t.regs = if s.pins.porst then p.regs else Regs.putFld p.regs Reg.aonBoot 13 2 k.toNat)) ∧
    (s.pins.mainEn = false → ∃ t, exec .pwrgoodFall s = .next t ∧ t = { s with pins := t.pins, aon := t.aon } ∧
      t.pins = { s.pins with pwrgood := false } ∧ t.aon = { s.aon with retain := false, reset := t.aon.reset } ∧
      (s.aon.reset = none → t.aon.reset = none) ∧
      (∀ r, s.aon.reset = some r → t.aon.reset = some { r with noretain := true })) ∧
    (∃ t, exec .porstNAssert s = .next t ∧ t.pins.porst = true ∧ t.regs = [] ∧ t.hbm = [] ∧ t.tile = [] ∧
      t.slt.flash = s.slt.flash ∧ t.fuses = s.fuses) ∧
    (∀ k : BitVec 2, (s.pins.porst = false → exec (.porstNRelease k) s = .next s) ∧
      (s.pins.porst = true → ∃ t, exec (.porstNRelease k) s = .next t ∧ t.pins.porst = false ∧ t.pins.strap = k ∧
        t.fld Reg.aonBoot 13 2 = k.toNat ∧ t.fld Reg.aonState 0 3 = s.fld Reg.aonState 0 3)) ∧
    (s.pins.porst = false →
      (s.aon.reset = none → s.power = 1 ∨ s.power = 2 → ∃ t r, exec .resetNAssert s = .next t ∧ t.power = 4 ∧
        t.pins.resetN = true ∧ t.aon.reset = some r ∧ r.cause = 2 ∧ r.noretain = false ∧ r.at' = s.clk.acnt) ∧
      (∀ r, s.aon.reset = some r → ∃ t, exec .resetNAssert s = .next t ∧ t.pins.resetN = true ∧
        t.aon.reset = some { r with cause := r.cause ||| 2 }) ∧
      (∀ r ok, s.aon.reset = some r → r.stage = 0 → s.coreStopped = true → ∃ t, exec (.selfRefreshConfirm ok) s = .next t ∧
        t.pins.mainEn = false ∧ t.aon.reset = some { r with stage := 1, confirmed := ok } ∧ r.at' + 2500 ≤ t.clk.acnt) ∧
      (∀ ok, s.aon.reset = none → (s.power = 3 →
          exec (.selfRefreshConfirm ok) s = .next { s with aon := { s.aon with refreshed := ok } }) ∧
        (s.power ≠ 3 → exec (.selfRefreshConfirm ok) s = .next s) ∧ exec .resetRelease s = .next s) ∧
      (∀ r, s.aon.reset = some r → s.coreStopped = true → ∃ t, exec .resetRelease s = .next t ∧ t.aon.reset = none ∧
        t.fld Reg.aonState 0 8 = 0x20 ∧ r.at' + 2600 ≤ t.clk.acnt ∧ t.fuses = s.fuses ∧ t.slt.flash = s.slt.flash ∧
        t.fld Reg.aonResetCause 0 5 = r.cause % 32 ∧ (r.noretain = true ∨ r.confirmed = false → t.hbm = []) ∧
        (t.hbm = s.hbm ∨ t.hbm = [])) ∧
      (let gone := s.aon.alarm = some 6 ∨ s.fld Reg.aonTemp 0 10 < 200
       (s.power ≠ 3 ∨ s.aon.refreshed = false ∨ s.aon.alarm = none ∨ s.fld Reg.aonResetCause 12 2 = 3 ∨ ¬ gone →
        exec .alarmReset s = .next s) ∧
       (s.power = 3 → s.aon.refreshed = true → s.aon.alarm ≠ none → s.fld Reg.aonResetCause 12 2 ≠ 3 → gone →
        s.aon.reset = none →
        ∃ t r, exec .alarmReset s = .next t ∧ t.power = 4 ∧ t.aon.reset = some r ∧ r.cause = 24 ∧ r.stage = 1 ∧
          (s.aon.alarm ≠ some 6 → s.aon.causeAt + 2500000 ≤ r.at'))))) ∧
  (∀ (r : BootResult) (s : State),
    (s.pins.porst = true ∨ s.aon.reset.isSome = true ∨ 3 ≤ s.power → exec (.bootStepComplete r) s = .next s) ∧
    (s.pins.porst = false → s.aon.reset = none → s.power < 3 →
      (∀ n, n ∈ [2, 5] → s.bootStep = n → exec (.bootStepComplete .ok) s = .next (s.putFld Reg.aonState 4 4 (n + 1))) ∧
      (s.bootStep = 4 → ∃ t, exec (.bootStepComplete .ok) s = .next t ∧ t.power = 1 ∧ t.bootStep = 5 ∧
        t.pins.mainEn = true ∧ t.pins.hbmEn = true ∧ t.cph.keyed = true) ∧
      (s.bootStep = 6 → ∃ t, exec (.bootStepComplete .ok) s = .next t ∧ t.fld Reg.aonFreq 0 7 = 48 ∧
        t.fld Reg.aonTime 0 1 = 0 ∧ t.bootStep = 7) ∧
      (s.bootStep = 7 → ∃ t, exec (.bootStepComplete .ok) s = .next t ∧ t.bootStep = 8 ∧ (t.hbm = s.hbm ∨ t.hbm = [])) ∧
      (s.bootStep = 8 → ∀ p f, ∃ t, exec (.bootStepComplete (.channels p f)) s = .next t ∧ t.bootStep = 9 ∧
        (s.confNat 0x0104 0 ≠ 0 → t.fld Reg.sltStatus 0 1 = 1 ∧ ∀ c, c < 32 →
          t.reg (Reg.sltChStatus c) =
            b2n (p.testBit c) + 2 * b2n (p.testBit c && !f.testBit c) + 4 * b2n (p.testBit c && f.testBit c))) ∧
      (s.bootStep = 12 → s.fld Reg.hptStatus 0 3 < 5 → exec (.bootStepComplete .ok) s = .next s) ∧
      (s.bootStep = 13 → s.job.active = false → exec (.bootStepComplete .ok) s = .next s) ∧
      (s.bootStep = 14 → s.power = 1 → s.fld Reg.aonResetCause 0 1 = 1 → s.job.resumed = false →
        ∃ t, exec (.bootStepComplete .ok) s = .next t ∧ t.power = 2) ∧
      (s.bootStep = 3 → ∀ slot bs i, slot = b2n s.aon.slotB → s.fld Reg.idStatus 16 4 ≠ 2 → s.verifyConfig bs = some i →
        exec (.bootStepComplete (.image slot bs)) s = .next ((s.applyConfig i slot).toStep 4)) ∧
      (s.bootStep = 5 → ∃ t, exec (.bootStepComplete .pwrgoodMissing) s = .next t ∧ t.power = 3 ∧
        t.fld Reg.aonBoot 0 8 = 0x25 ∧ t.pins.safe = true) ∧
      (s.bootStep = 6 → ∃ t, exec (.bootStepComplete .pllFailed) s = .next t ∧ t.power = 3 ∧ t.fld Reg.aonBoot 0 8 = 0x36) ∧
      (∀ k, k < 8 → s.bootStep = 7 → ∃ t, exec (.bootStepComplete (.stackFailed k)) s = .next t ∧ t.power = 3 ∧
        t.fld Reg.aonBoot 0 8 = 0x47 ∧ t.fld Reg.aonBoot 8 3 = k)))

/-- Margin and frequency (R463, R464, R467 to R470). A margin epoch ends only while the part boots or runs, at a whole
multiple of its length, with a re-plan that counts `AON_MEPOCH` up by one; in holdover the re-plan waits. Proposals
count only while one is being agreed; the step agreed is the lowest proposed, and inside a job only a lower one than
that in force is applied. At the switch cycle the core clock stops; 32,768 cc later it runs at the agreed step, and the
switch is counted. -/
def Obligations.FrequencyIsAgreedAndSwitched : Prop :=
  ∀ s : State,
    (s.coreRunning →
      (s.power ≠ 1 → s.power ≠ 2 → exec .marginEpochEnd s = .next s) ∧
      (s.power = 1 ∨ s.power = 2 → s.fld Reg.aonTime 2 1 = 1 → ∃ t, exec .marginEpochEnd s = .next t ∧
        t.aon.deferred = some t.clk.todSec ∧ t.regs = s.regs) ∧
      (s.power = 1 ∨ s.power = 2 → s.fld Reg.aonTime 2 1 = 0 →
        let e := 3600 * max 1 (s.fld Reg.aonMargin 0 8)
        ∃ t, exec .marginEpochEnd s = .next t ∧ t = (s.atNs (1000000000 * ((s.clk.todSec / e + 1) * e))).replan ∧
          t.aon.deferred = none ∧ t.reg Reg.aonMepoch = (s.reg Reg.aonMepoch + 1) % 2 ^ 32) ∧
      (s.aon.deferred = none → exec .replanHoldoverTimeout s = .next s) ∧
      (∀ u, s.aon.deferred = some u → exec .replanHoldoverTimeout s = .next (s.atNs (1000000000 * (3600 + u))).replan) ∧
      (∀ d p n, d < 1024 → p < 128 → n < 2 ^ 32 →
        (s.job.propsSince = none → exec (.frequencyProposal d p n) s = .next s ∧ exec .frequencyAgreementTimeout s = .next s) ∧
        (s.job.propsSince ≠ none → ((s.device :: s.others).all fun e => (Tbl.get? (Tbl.set s.job.props d (p, n)) e).isSome) = false →
          exec (.frequencyProposal d p n) s = .next { s with job := { s.job with props := Tbl.set s.job.props d (p, n) } }) ∧
        (s.job.propsSince ≠ none → ((s.device :: s.others).all fun e => (Tbl.get? (Tbl.set s.job.props d (p, n)) e).isSome) = true →
          exec (.frequencyProposal d p n) s =
            .next (State.agreeFrequency { s with job := { s.job with props := Tbl.set s.job.props d (p, n) } }))) ∧
      (∀ u, s.job.propsSince = some u → s.job.start = false → ∃ t, exec .frequencyAgreementTimeout s = .next t ∧
        t.job.propsSince = none ∧ t.job.props = [] ∧ t.fld Reg.aonFreq 8 7 = (s.job.props.map (·.2.1)).foldl min 127 ∧
        ((s.job.props.map (·.2.1)).foldl min 127 < s.fld Reg.aonFreq 0 7 →
          t.job.newK = some ((s.job.props.map (·.2.1)).foldl min 127)) ∧
        (s.fld Reg.aonFreq 0 7 ≤ (s.job.props.map (·.2.1)).foldl min 127 → t.job.newK = s.job.newK)) ∧
      (∀ d c, d < 1024 → c < 2 ^ 64 → (s.job.newK = none → exec (.switchCycleMessage d c) s = .next s) ∧
        (s.job.newK ≠ none → exec (.switchCycleMessage d c) s =
          .next { s with job := { s.job with switchAt := Tbl.set s.job.switchAt d c } }.noteSwitch)) ∧
      (s.job.newK = none → exec .frequencySwitch s = .next s) ∧
      (∀ f k, s.job.fsw = some f → s.job.newK = some k → f < 2 ^ 64 → k < 128 → ∃ t, exec .frequencySwitch s = .next t ∧
        t.clk.held = true ∧ t.now = max s.now f ∧ t.fld Reg.aonFreq 8 7 = k ∧ t.aon.restartAt = some (32768 + t.now))) ∧
    (s.pins.porst = false →
      (s.aon.restartAt = none → exec .clockRestart s = .next s) ∧
      (∀ u, s.aon.restartAt = some u → ∃ t, exec .clockRestart s = .next t ∧ t.clk.held = false ∧
        t.aon.restartAt = none ∧ t.job.newK = none ∧ t.fld Reg.aonFreq 0 7 = s.fld Reg.aonFreq 8 7 ∧
        t.reg Reg.aonEvcFswitch = min 0xFFFFFFFF (s.reg Reg.aonEvcFswitch + 1)))

/-- Power and temperature (R471, R472, R553). The tenth consecutive millisecond above the limit asserts ALERT_N, counts
the episode once and caps the next re-plan; the hundredth below it ends the alert. A reading of 100 °C asserts
ALERT_N until one below 97 °C; 110 °C raises the temperature alarm; 120 °C asserts THERM_TRIP_N, which stays. -/
def Obligations.PowerAndTemperatureAlert : Prop :=
  ∀ (w h : Nat) (s : State), s.pins.porst = false → w < 2 ^ 16 → h < 2 ^ 10 →
    (let limit := s.fld Reg.aonPower 16 12
     ∃ t, exec (.powerSample w) s = .next t ∧ t.fld Reg.aonPower 0 12 = min w 4095 ∧ t.fld Reg.aonPower 16 12 = limit ∧
      t.aon.overMs = (if limit < w then s.aon.overMs + 1 else 0) ∧ t.aon.underMs = (if w < limit then s.aon.underMs + 1 else 0) ∧
      (10 ≤ t.aon.overMs → t.aon.powerAlert = true ∧ t.pins.alert = true ∧ t.aon.powerCap = true) ∧
      (t.aon.overMs < 10 → t.aon.powerAlert = (s.aon.powerAlert && decide (t.aon.underMs < 100))) ∧
      t.reg Reg.aonEvcPwrover = (if t.aon.overMs = 10 ∧ s.aon.powerAlert = false
        then min 0xFFFFFFFF (s.reg Reg.aonEvcPwrover + 1) else s.reg Reg.aonEvcPwrover)) ∧
    (∃ t, exec (.temperatureSample h) s = .next t ∧ t.fld Reg.aonTemp 0 10 = h ∧
      t.aon.tempAlert = (decide (200 ≤ h) || (s.aon.tempAlert && decide (194 ≤ h))) ∧ (200 ≤ h → t.pins.alert = true) ∧
      t.pins.thermTrip = (s.pins.thermTrip || decide (240 ≤ h)) ∧
      (220 ≤ h → s.aon.alarm ≠ some 5 → t.aon.alarm = some 5 ∧ t.power = 3) ∧ (h < 220 → t.power = s.power))

/-- Fault capture (R481 to R485, R491, R492). A fault whose unit, cause and detail an open record has adds to that
record's repeat count, up to 255. Any other takes a record: entry 0 while the log is empty, then HEAD, which moves
on from 63 to 1; with an open record at HEAD the safe state is entered instead. While the core clock stands nothing
but Mitten, Gauntlet and the watchdogs raises a fault. An accumulator parity fault of an engine poisons the row
it names (R103). A parity fault and an entry stage of 3 enter the safe state.
Escalation, watchdogs and parity (R486, R487, R491, R492). An open record goes from stage to stage: nothing happens
to a record that is closed or at another stage. At G it is counted and ALERT_N asserted, at 2G stage 2 is noted and
in a running part the step aborted, at 3G the safe state is entered. A watchdog that expires restarts; the sweep
that finds no bad word changes no register, and one that names a bad word enters the safe state. -/
def Obligations.FaultsAreRecordedAndEscalate : Prop :=
  (∀ (u c a addr d : Nat) (s : State), s.pins.porst = false → unitExists u = true → c < 256 → a < 7 → addr < 2 ^ 48 → d < 2 ^ 24 →
    (u < 0x200 → ¬ s.coreRunning → exec (.faultReport u c a addr d) s = .next s) ∧
    (s.coreRunning → c ≠ 0x0D →
      (∀ e r, openTwin s.gnt u c d = some (e, r) → ∃ t, exec (.faultReport u c a addr d) s = .next t ∧
        Tbl.get? t.gnt.recs e = some { r with rep := min 255 (r.rep + 1) } ∧ t.hbm = s.hbm ∧
        t.reg Reg.gntEvcCoalesce = min 0xFFFFFFFF (s.reg Reg.gntEvcCoalesce + 1)) ∧
      (openTwin s.gnt u c d = none → s.logFull = true → s.power < 3 → ∃ t, exec (.faultReport u c a addr d) s = .next t ∧
        t.power = 3 ∧ t.pins.safe = true ∧ t.gnt.recs = s.gnt.recs) ∧
      (openTwin s.gnt u c d = none → s.logFull = false → entryStage c = 0 → ∃ t r, exec (.faultReport u c a addr d) s = .next t ∧
        Tbl.get? t.gnt.recs s.nextEntry = some r ∧ r.unit = u ∧ r.cause = c ∧ r.access = a ∧ r.addr = addr ∧ r.detail = d ∧
        r.rep = 0 ∧ r.stage = 0 ∧ r.isOpen = decide (c ≠ 0x0E) ∧ r.grace = s.fld Reg.gntGrace 0 24 ∧
        t.reg Reg.gntEvcFault = min 0xFFFFFFFF (s.reg Reg.gntEvcFault + 1) ∧
        t.fld Reg.gntHead 0 6 = (if Tbl.get? s.gnt.recs 0 = none then s.fld Reg.gntHead 0 6
          else if s.fld Reg.gntHead 0 6 = 63 then 1 else s.fld Reg.gntHead 0 6 + 1)) ∧
      (entryStage c = 3 → s.power < 3 → openTwin s.gnt u c d = none → ∃ t, exec (.faultReport u c a addr d) s = .next t ∧
        t.power = 3 ∧ t.pins.safe = true)) ∧
    (s.coreRunning → u < 0x80 → c = 1 → ∃ t, exec (.faultReport u c a addr d) s = .next t ∧
      (t.engine u).act.poisoned.contains d = true) ∧
    (0x200 ≤ u → c = 0x0D → s.power < 3 → ∃ t, exec (.faultReport u c a addr d) s = .next t ∧ t.power = 3 ∧
      t.gnt.recs = s.gnt.recs)) ∧
  (∀ (e : Nat) (s : State), s.pins.porst = false → e < 64 →
    (s.openRecord e = none → exec (.escalationNotify e) s = .next s ∧ exec (.escalationIsolate e) s = .next s ∧
      exec (.escalationSafe e) s = .next s) ∧
    (∀ r, s.openRecord e = some r →
      (r.stage ≠ 0 → exec (.escalationNotify e) s = .next s) ∧ (r.stage ≠ 1 → exec (.escalationIsolate e) s = .next s) ∧
      (r.stage ≠ 2 → exec (.escalationSafe e) s = .next s) ∧
      (r.stage = 0 → ∃ t x, exec (.escalationNotify e) s = .next t ∧ Tbl.get? t.gnt.recs e = some x ∧ x.stage = 1 ∧
        x.isOpen = true ∧ t.pins.alert = true ∧
        t.reg Reg.gntEvcNotify = min 0xFFFFFFFF (s.reg Reg.gntEvcNotify + 1)) ∧
      (r.stage = 1 → ∃ t x, exec (.escalationIsolate e) s = .next t ∧ Tbl.get? t.gnt.recs e = some x ∧ 2 ≤ x.stage ∧
        x.isOpen = true ∧ t.pins.alert = true ∧ (s.coreStopped = false → t.gnt.aborted = some (s.reg Reg.seqStep))) ∧
      (r.stage = 2 → ∃ t x, exec (.escalationSafe e) s = .next t ∧ Tbl.get? t.gnt.recs e = some x ∧ x.stage = 3 ∧ t.power = 3)) ∧
    (∀ k, k < 4 → (s.power ≠ 1 → s.power ≠ 2 → exec (.watchdogExpiry k) s = .next s) ∧
      (s.power = 1 ∨ s.power = 2 → ∃ t, exec (.watchdogExpiry k) s = .next t ∧
        t.gnt.wdt = s.gnt.wdt.set k t.clk.acnt ∧ s.clk.acnt ≤ t.clk.acnt)) ∧
    (s.gnt.bad = [] → ∃ t, exec (.paritySweep none) s = .next t ∧ t = { s with clk := t.clk }) ∧
    (∀ o, o < 0x10000 → s.power < 3 → ∃ t, exec (.paritySweep (some o)) s = .next t ∧ t.power = 3 ∧ t.pins.safe = true))

/-- Firmware's answers to faults (R486, R490, R493, R504, R506, R526): writes of `GNT_ACK`, `GNT_OPEN0`, `GNT_OPEN1`,
`GNT_WDT`, `GNT_CTRL` and `VSR_DLOG_POST` by a policy core in a running part. An entry that is not open is refused
and counted; an open one is closed by its disposition, with the disposition logged. A bit written to `GNT_OPENn`
dismisses its open record. UNFREEZE clears every record. The GO bit logs the window's entry, which waits while 64
are staged. A service core's kick is refused and counted. A telemetry period makes a record due while collection is
enabled. -/
def Obligations.FirmwareAnswersFaults : Prop :=
  ∀ (k e : Nat) (v : Word) (s : State), k < 4 → e < 64 → s.coreRunning → s.power ≠ 0 → s.gnt.bad = [] →
    let m : Master := .policy k
    let u : State := (s.atAc (s.clk.acnt + 9 + s.freeBelow 2)).tookFree
    let w : State := u.put Reg.gntAck 0
    (s.reg Reg.gntAck = 0 → s.openRecord e = none →
      exec (.ackDismiss m e) s = .next (w.count Reg.gntEvcViol) ∧ exec (.ackAbort m e) s = .next (w.count Reg.gntEvcViol) ∧
      exec (.ackIsolate m e) s = .next (w.count Reg.gntEvcViol) ∧ exec (.ackSafe m e) s = .next (w.count Reg.gntEvcViol)) ∧
    (∀ r, s.reg Reg.gntAck = 0 → s.openRecord e = some r →
      let l (d : Nat) : State := w.logDecision 11 (leBytes 1 e ++ leBytes 1 r.cause ++ leBytes 2 r.unit ++ leBytes 1 d)
      exec (.ackDismiss m e) s = .next ((l 0).handle e r 0) ∧ exec (.ackAbort m e) s = .next ((l 1).handle e r 1) ∧
      exec (.ackIsolate m e) s = .next ((l 2).handle e r 2) ∧ exec (.ackSafe m e) s = .next ((l 3).handle e r 3) ∧
      ∃ t x, exec (.ackDismiss m e) s = .next t ∧ Tbl.get? t.gnt.recs e = some x ∧ x.isOpen = false ∧ x.stage = r.stage) ∧
    (exec (.openDismiss m false v) s =
      .next ((u.put Reg.gntOpen0 (s.reg Reg.gntOpen0 &&& (2 ^ 32 - 1 - v.toNat))).dismissBits 0 v.toNat)) ∧
    (exec (.openDismiss m true v) s =
      .next ((u.put Reg.gntOpen1 (s.reg Reg.gntOpen1 &&& (2 ^ 32 - 1 - v.toNat))).dismissBits 32 v.toNat)) ∧
    (∃ t, exec (.wdtKick m 1) s = .next t ∧ t.gnt.wdt = s.gnt.wdt.set k t.clk.acnt ∧ t.gnt.recs = s.gnt.recs) ∧
    (∀ n, n < 256 → exec (.wdtKick (.service n) v) s = .next (if s.mayIssue (.service n) then u.count Reg.gntEvcViol else s)) ∧
    (∃ t, exec (.unfreeze m 1) s = .next t ∧ t.gnt.recs = [] ∧ t.fld Reg.gntHead 0 6 = 1) ∧
    (∃ t, exec (.dlogPost m 1) s = .next t ∧
      (s.vsr.goWaits = [] → s.vsr.staged.length < 64 → t.vsr.dlogSeq = s.vsr.dlogSeq + 1 ∧
        t.vsr.staged.length = s.vsr.staged.length + 1) ∧
      (s.vsr.goWaits ≠ [] ∨ 64 ≤ s.vsr.staged.length → t.vsr.goWaits = s.vsr.goWaits ++ [s.windowTail] ∧
        t.vsr.dlogSeq = s.vsr.dlogSeq)) ∧
    exec .telemetryPeriod s = .next (if s.fld Reg.vsrCfg 0 1 = 0 then s
      else { s with vsr := { s.vsr with recordsDue := s.vsr.recordsDue + 1 } })

/-- Direct writes (R7, R526, R527, R533, R538), stated of the blocks whose registers no unit follows at once (cipher,
Brim, partner ports, Cuff, Liner, row units) and of a master that may issue accesses in a part that runs; an access
takes 40 cc, and 2 or 3 more from Mitten's controller (R523). A 32-bit
write at a register's own address stores its RW bits, clears the W1C bits it writes as 1, keeps its RO bits, and
stores reserved bits only under a TEST_PERMIT. One that a rule of its chapter refuses stores nothing and is counted.
Alias writes (R534, R535), of the same blocks: a 1 written through the set, clear or toggle alias sets, clears or
toggles the RW bit it lies on, every other bit of the register keeps its value, and a 1 on a bit that is not RW is
counted once. Masters and power (R430, R480, R518, R525, R531). A master that cannot issue an access changes
nothing. A narrow or unaligned write stores nothing and is counted once; of a remote master it is a refused write.
Through Mitten's bit aliases one bit of `AON_MARGIN` is written. -/
def Obligations.WindowWritesFollowAccessCodes : Prop :=
  (∀ (m : Master) (b : Block) (n off a : Nat) (r : RegRow) (v : BitVec 64) (s : State),
    b ∈ [.cph, .cphA, .brm, .brmP, .cuf, .lnr, .row] → locate a = some (b, n, off) → a % 4 = 0 → b.regRow n off = some r →
    m.exists' = true → m ≠ .remote → s.coreRunning → s.power ≠ 0 → s.mayIssue m = true → s.poweredOff b n = false →
    v.toNat < 2 ^ 32 →
    let u : State := if m = .mitten then (s.atCycle (s.now + 42 + s.freeBelow 2)).tookFree else s.atCycle (s.now + 40)
    (u.mayWrite m b n off v.toNat = true → ∃ t, exec (.registerWrite m a 4 v) s = .next t ∧
      t.reg a = r.stored s.testPermit (s.reg a) v.toNat % 2 ^ 32 ∧ t.hbm = s.hbm ∧ t.tile = s.tile) ∧
    (u.mayWrite m b n off v.toNat = false → exec (.registerWrite m a 4 v) s = .next (u.count (b.violAddr n)))) ∧
  (∀ (m : Master) (b : Block) (n off a : Nat) (r : RegRow) (v : BitVec 64) (s : State),
    b ∈ [.cph, .cphA, .brm, .brmP, .cuf, .lnr, .row] → locate a = some (b, n, off) → a % 4 = 0 → b.regRow n off = some r →
    0x10000 ≤ a → r.mask .rw ≠ 0 → m.exists' = true → m ≠ .remote → s.coreRunning → s.power ≠ 0 → s.mayIssue m = true →
    s.poweredOff b n = false → v.toNat < 2 ^ 32 →
    let u : State := if m = .mitten then (s.atCycle (s.now + 42 + s.freeBelow 2)).tookFree else s.atCycle (s.now + 40)
    let cur := s.reg a
    let rw := r.mask .rw
    let new (o : AliasOp) : Nat := cur - (cur &&& rw) + (o.apply cur v.toNat &&& rw)
    (u.mayWrite m b n off (new .set) = true → ∃ t, exec (.setAliasWrite m (0x400000 + a) 4 v) s = .next t ∧
      t.reg a = new .set % 2 ^ 32) ∧
    (u.mayWrite m b n off (new .clear) = true → ∃ t, exec (.clearAliasWrite m (0x800000 + a) 4 v) s = .next t ∧
      t.reg a = new .clear % 2 ^ 32) ∧
    (a < 0x200000 → u.mayWrite m b n off (new .toggle) = true → ∃ t, exec (.toggleAliasWrite m (0xC00000 + a) 4 v) s = .next t ∧
      t.reg a = new .toggle % 2 ^ 32)) ∧
  (∀ (m : Master) (a size : Nat) (v : BitVec 64) (s : State), m.exists' = true → a < 0x1000000 → size ∈ [1, 2, 4, 8] →
    (s.mayIssue m = false → exec (.registerWrite m a size v) s = .next s ∧ exec (.setAliasWrite m a size v) s = .next s ∧
      exec (.clearAliasWrite m a size v) s = .next s ∧ exec (.toggleAliasWrite m a size v) s = .next s ∧
      exec (.mittenBitAliasWrite m a size v) s = .next s ∧ exec (.registerRead m a size) s = .next s ∧
      ∀ w, exec (.lowWordRead m a w) s = .next s ∧ exec (.testAccessRead m a w) s = .next s) ∧
    (s.mayIssue m = true → s.quiet = false →
      (∀ x, (targetOf a).block ≠ some (.aon, x) ∧ (targetOf a).block ≠ some (.gnt, x)) →
      let u : State := if m = .mitten then (s.atCycle (s.now + 42 + s.freeBelow 2)).tookFree else s.atCycle (s.now + 40)
      (m ≠ .remote → (size < 4 ∨ a % size ≠ 0) →
        exec (.registerWrite m a size v) s = .next (u.violAt (targetOf a).block)) ∧
      (m = .remote → (size < 4 ∨ a % 4 ≠ 0) →
        exec (.registerWrite m a size v) s = .next (u.count Reg.hptEvcWrefused))) ∧
    (s.mayIssue m = true → s.quiet = false → m ≠ .remote → ∀ i, 8 ≤ i → i < 16 → s.fld Reg.aonMargin 0 8 ≠ 0 →
      ∃ t, exec (.mittenBitAliasWrite m (0xE00000 + 0x80 * 20 + 4 * i) 4 v) s = .next t ∧
        t.reg Reg.aonMargin = (if v.toNat % 2 = 1 then s.reg Reg.aonMargin ||| 2 ^ i
          else s.reg Reg.aonMargin - (s.reg Reg.aonMargin &&& 2 ^ i))))

/-- Reads (R528 to R531), of the same blocks. A 32-bit read returns the register, or the high word that the master's
last read of a low word latched, in place of a live high word. A 64-bit read of a pair returns both of its words at
once. A misaligned read returns all ones and is counted once. JTAG (R545): BYPASS, IDCODE and SAMPLE/PRELOAD load
always, EXTEST in power state AON or under a TEST_PERMIT, a vendor instruction under one alone; what is refused
loads BYPASS and is counted. IDCODE shifts out the part's code. -/
def Obligations.WindowReadsAndJtag : Prop :=
  (∀ (m : Master) (b : Block) (n off a : Nat) (r : RegRow) (s : State),
    b ∈ [.cph, .cphA, .brm, .brmP, .cuf, .lnr, .row] → locate a = some (b, n, off) → a % 4 = 0 → b.regRow n off = some r →
    m.exists' = true → s.coreRunning → s.power ≠ 0 → s.mayIssue m = true → s.poweredOff b n = false →
    let u : State := if m = .mitten then (s.atCycle (s.now + 42 + s.freeBelow 2)).tookFree else s.atCycle (s.now + 40)
    (∃ t, exec (.registerRead m a 4) s = .next t ∧ t.bus = leBytes 4 (u.peek m b n off) ∧ t.regs = s.regs ∧ t.hbm = s.hbm) ∧
    (Tbl.get? s.shadows (b.base n) = none → u.peek m b n off = u.liveIn b n off) ∧
    (b.isLow n off = true →
      (∃ t, exec (.lowWordRead m a false) s = .next t ∧ t.bus = leBytes 4 (u.peek m b n off) ∧
        Tbl.get? t.shadows (b.base n) = some ⟨off, m.unit, BitVec.ofNat 32 (u.liveIn b n (off + 4)), 0, false⟩ ∧
        t.peek m b n (off + 4) = u.liveIn b n (off + 4) % 2 ^ 32 * b2n (b.regRow n (off + 4)).isSome) ∧
      (a % 8 = 0 → (b.regRow n (off + 4)).isSome = true → ∃ t, exec (.lowWordRead m a true) s = .next t ∧
        t.bus = leBytes 8 (u.liveIn b n off + 2 ^ 32 * u.liveIn b n (off + 4)))) ∧
    (∀ i z, i ∈ [1, 2, 3] → z ∈ [2, 4, 8] → (a + i) % z ≠ 0 → locate (a + i) = some (b, n, off + i) →
      exec (.registerRead m (a + i) z) s = .next { u.count (b.violAddr n) with bus := leBytes z (ones z) })) ∧
  (∀ s : State,
    exec (.jtagInstruction .bypass) s = .next { s with pins := { s.pins with jtag := .bypass } } ∧
    exec (.jtagInstruction .samplePreload) s = .next { s with pins := { s.pins with jtag := .samplePreload } } ∧
    exec (.jtagInstruction .idcode) s =
      .next { s with pins := { s.pins with jtag := .idcode }, bus := [0x3B#8, 0x0A#8, 0x80#8, 0x14#8] } ∧
    (s.power = 0 ∨ s.testPermit = true →
      exec (.jtagInstruction .extest) s = .next { s with pins := { s.pins with jtag := .extest } }) ∧
    (s.power ≠ 0 → s.testPermit = false →
      exec (.jtagInstruction .extest) s = .next ({ s with pins := { s.pins with jtag := .bypass } }.count Reg.aonEvcViol)) ∧
    (∀ k, (s.testPermit = true →
        exec (.jtagInstruction (.vendor k)) s = .next { s with pins := { s.pins with jtag := .vendor k } }) ∧
      (s.testPermit = false → exec (.jtagInstruction (.vendor k)) s =
        .next ({ s with pins := { s.pins with jtag := .bypass } }.count Reg.aonEvcViol))))

/-- Registers that act (R100, R109, R241, R245, R419, R439, R473). A histogram bank's counters clear at a 1 written for
it, and the other bank's stand as the drains have left them. A cue takes the value written, and a ring's tail is refused
where it would pass its head by more than its length. The event ring's consumer index is refused past the producer's. A
report is refused while one is being signed. FULL by a policy core resets the part, and by any other master is refused
and counted. An open test access reads the selected cell, both words of the A34 at once in a 64-bit read; a closed one
reads 0 and is counted. -/
def Obligations.WindowCommandsAct : Prop :=
  ∀ (m : Master) (v : Word) (s : State), m.exists' = true → m ≠ .remote → s.coreRunning → s.power ≠ 0 → s.mayIssue m = true →
    let u : State := if m = .mitten then (s.atCycle (s.now + 42 + s.freeBelow 2)).tookFree else s.atCycle (s.now + 40)
    (∀ n, n < 128 → s.gated (4096 + n / 4) = false → ∃ t, exec (.histogramClear m n v) s = .next t ∧ ∀ bank i, bank < 2 → i < 68 →
      t.reg (histAddr n bank i) = if v.toNat.testBit bank then 0
        else ((u.settleBank 0 u.now n).settleBank 1 u.now n).reg (histAddr n bank i)) ∧
    (∀ q, q < 224 → ∃ t, exec (.cueWrite m q v) s = .next t ∧ t.reg (Reg.seqCue q) = v.toNat ∧ t.hbm = s.hbm) ∧
    (∀ k, k < 40 → let far := (v.toNat + 2 ^ 32 - s.reg (Reg.seqSHead k)) % 2 ^ 32
      (far ≤ s.reg (Reg.seqSLen k) → ∃ t, exec (.ringTailWrite m k v) s = .next t ∧ t.reg (Reg.seqSTail k) = v.toNat) ∧
      (s.reg (Reg.seqSLen k) < far → exec (.ringTailWrite m k v) s = .next (u.count Reg.seqEvcViol))) ∧
    (∀ h : Bool,
      (let pair := if h then s.reg Reg.hptEvqConsLo + 2 ^ 32 * v.toNat else v.toNat + 2 ^ 32 * s.reg Reg.hptEvqConsHi
       (Regs.pair s.regs Reg.hptEvqProdLo < pair → exec (.evqConsWrite m h v) s = .next (u.count Reg.hptEvcViol)) ∧
       (pair ≤ Regs.pair s.regs Reg.hptEvqProdLo → ∃ t, exec (.evqConsWrite m h v) s = .next t ∧
        t.reg (if h then Reg.hptEvqConsHi else Reg.hptEvqConsLo) = v.toNat))) ∧
    (s.fld Reg.idStatus 14 1 = 1 → exec (.attest m v) s = .next (u.count Reg.idEvcViol)) ∧
    (s.fld Reg.idStatus 14 1 = 0 → v = 1 → ∃ t, exec (.attest m v) s = .next t ∧
      t.cph.signing = s.cph.signing ++ [(List.range 8).flatMap fun i => leBytes 4 (s.reg (Reg.idNonce i))] ∧
      t.fld Reg.idStatus 14 1 = 1) ∧
    (m.isPolicy = true → s.aon.reset = none → s.power ≠ 3 → v = 1 → ∃ t, exec (.fullReset m v) s = .next t ∧ t.power = 4) ∧
    (m.isPolicy = false → ∃ t, exec (.fullReset m v) s = .next t ∧ t.regs = Regs.count s.regs Reg.aonEvcViol 1 ∧
      t.aon.reset = s.aon.reset) ∧
    (∀ n, n < 128 → s.gated (4096 + n / 4) = false → u.taccOpen n = true → Tbl.get? s.shadows (Block.me.base n) = none →
      (∀ off, off ∈ [0x34, 0x38, 0x3C] → ∃ t, exec (.testAccessRead m (0x200000 + 0x1000 * n + off) false) s = .next t ∧
        t.bus = leBytes 4 (u.tacc n off) ∧ t.regs = s.regs ∧ t.eng = s.eng) ∧
      (∃ t, exec (.testAccessRead m (0x200000 + 0x1000 * n + 0x38) true) s = .next t ∧
        t.bus = leBytes 8 (u.tacc n 0x38 + 2 ^ 32 * u.tacc n 0x3C) ∧ t.regs = s.regs ∧ t.eng = s.eng)) ∧
    (∀ n off, n < 128 → off ∈ [0x34, 0x38, 0x3C] → s.gated (4096 + n / 4) = false → s.fld (Reg.meCfg n) 0 1 = 0 →
      Tbl.get? s.shadows (Block.me.base n) = none → ∃ t,
        exec (.testAccessRead m (0x200000 + 0x1000 * n + off) false) s = .next t ∧ t.bus = leBytes 4 0 ∧
        t.regs = Regs.count s.regs (Reg.meEvcViol n) 1)

end
end

