-- ==== Sys2Proof/Laws/Kept.lean ====
section
/-! SUPPORT. What the operations leave alone: the queue of commands and the fuses. -/

namespace Sys2Proof.Machine

/-- A fold of steps that keep the queue and the fuses keeps them. -/
theorem foldl_pending {α : Type} (g : State → α → State) (h : ∀ s a, (g s a).pending = s.pending) (l : List α) (s : State) :
    (l.foldl g s).pending = s.pending := by
  induction l generalizing s with
  | nil => rfl
  | cons a l ih => simp [ih, h]

/-- A fold of steps that keep the fuses keeps them. -/
theorem foldl_fuses {α : Type} (g : State → α → State) (h : ∀ s a, (g s a).fuses = s.fuses) (l : List α) (s : State) :
    (l.foldl g s).fuses = s.fuses := by
  induction l generalizing s with
  | nil => rfl
  | cons a l ih => simp [ih, h]

end Sys2Proof.Machine
end

