-- ==== Sys2Proof/Laws/KeptOps.lean ====
section
/-! SUPPORT. The operations of Machine/Ops.lean keep the queue and the fuses. -/

set_option linter.unusedSimpArgs false

namespace Sys2Proof.Machine

@[simp] theorem state_put_kept (s : State) (a v : Nat) :
    (State.put s a v).pending = s.pending ∧ (State.put s a v).fuses = s.fuses := ⟨rfl, rfl⟩

@[simp] theorem state_putFld_kept (s : State) (a lo w v : Nat) :
    (State.putFld s a lo w v).pending = s.pending ∧ (State.putFld s a lo w v).fuses = s.fuses := ⟨rfl, rfl⟩

@[simp] theorem state_countN_kept (s : State) (a n : Nat) :
    (State.countN s a n).pending = s.pending ∧ (State.countN s a n).fuses = s.fuses := ⟨rfl, rfl⟩

@[simp] theorem state_count_kept (s : State) (a : Nat) :
    (State.count s a).pending = s.pending ∧ (State.count s a).fuses = s.fuses := ⟨rfl, rfl⟩

@[simp] theorem state_tookFree_kept (s : State) :
    (State.tookFree s).pending = s.pending ∧ (State.tookFree s).fuses = s.fuses := ⟨rfl, rfl⟩

@[simp] theorem state_atCycle_kept (s : State) (t : Nat) :
    (State.atCycle s t).pending = s.pending ∧ (State.atCycle s t).fuses = s.fuses := by
  unfold State.atCycle
  simp [apply_ite State.pending, apply_ite State.fuses, foldl_pending, foldl_fuses]

@[simp] theorem state_atAc_kept (s : State) (t : Nat) :
    (State.atAc s t).pending = s.pending ∧ (State.atAc s t).fuses = s.fuses := by
  unfold State.atAc
  simp [apply_ite State.pending, apply_ite State.fuses, foldl_pending, foldl_fuses]

@[simp] theorem state_core_kept (s : State) (f : State → State)
    (h : ∀ s, (f s).pending = s.pending ∧ (f s).fuses = s.fuses) :
    (s.core f).pending = s.pending ∧ (s.core f).fuses = s.fuses := by
  unfold State.core
  split
  · exact ⟨rfl, rfl⟩
  · exact h s

@[simp] theorem state_always_kept (s : State) (f : State → State)
    (h : ∀ s, (f s).pending = s.pending ∧ (f s).fuses = s.fuses) :
    (s.always f).pending = s.pending ∧ (s.always f).fuses = s.fuses := by
  unfold State.always
  split
  · exact ⟨rfl, rfl⟩
  · exact h s

@[simp] theorem state_tick_kept (s : State) :
    (State.tick s).pending = s.pending ∧ (State.tick s).fuses = s.fuses := by
  unfold State.tick
  simp [apply_ite State.pending, apply_ite State.fuses, foldl_pending, foldl_fuses]

@[simp] theorem state_setTile_kept (s : State) (m : Memory) :
    (State.setTile s m).pending = s.pending ∧ (State.setTile s m).fuses = s.fuses := ⟨rfl, rfl⟩

@[simp] theorem state_landedTiles_kept (s : State) :
    (State.landedTiles s).pending = s.pending ∧ (State.landedTiles s).fuses = s.fuses := ⟨rfl, rfl⟩

end Sys2Proof.Machine
end

