-- ==== Sys2Proof/Laws/KeptFaults.lean ====
section
/-! SUPPORT. The operations of Machine/Faults.lean keep the queue and the fuses. -/

set_option linter.unusedSimpArgs false

namespace Sys2Proof.Machine

@[simp] theorem state_post_kept (s : State) (kind unit : Nat) (arg : List Byte) :
    (State.post s kind unit arg).pending = s.pending ∧ (State.post s kind unit arg).fuses = s.fuses := by
  unfold State.post
  simp [apply_ite State.pending, apply_ite State.fuses, foldl_pending, foldl_fuses]

@[simp] theorem state_drainEvents_kept (n : Nat) (s : State) :
    (s.drainEvents n).pending = s.pending ∧ (s.drainEvents n).fuses = s.fuses := by
  induction n generalizing s with
  | zero => exact ⟨rfl, rfl⟩
  | succ n ih =>
    unfold State.drainEvents
    split
    · exact ⟨rfl, rfl⟩
    · split
      · exact ih _
      · exact ⟨rfl, rfl⟩

@[simp] theorem state_pumpEvents_kept (s : State) :
    (State.pumpEvents s).pending = s.pending ∧ (State.pumpEvents s).fuses = s.fuses := by
  unfold State.pumpEvents
  simp [apply_ite State.pending, apply_ite State.fuses, foldl_pending, foldl_fuses]

@[simp] theorem state_eraseKeys_kept (s : State) :
    (State.eraseKeys s).pending = s.pending ∧ (State.eraseKeys s).fuses = s.fuses := by
  unfold State.eraseKeys
  simp [apply_ite State.pending, apply_ite State.fuses, foldl_pending, foldl_fuses]

@[simp] theorem state_commitAccepted_kept (s : State) :
    (State.commitAccepted s).pending = s.pending ∧ (State.commitAccepted s).fuses = s.fuses := ⟨rfl, rfl⟩

@[simp] theorem state_enterSafe_kept (s : State) (unit stage : Nat) :
    (State.enterSafe s unit stage).pending = s.pending ∧ (State.enterSafe s unit stage).fuses = s.fuses := by
  unfold State.enterSafe
  simp [apply_ite State.pending, apply_ite State.fuses, foldl_pending, foldl_fuses]

@[simp] theorem state_postFault_kept (s : State) (entry unit stage : Nat) :
    (State.postFault s entry unit stage).pending = s.pending ∧ (State.postFault s entry unit stage).fuses = s.fuses := by
  unfold State.postFault
  simp [apply_ite State.pending, apply_ite State.fuses, foldl_pending, foldl_fuses]

@[simp] theorem state_placeRecord_kept (s : State) (r : FaultRec) :
    (State.placeRecord s r).pending = s.pending ∧ (State.placeRecord s r).fuses = s.fuses := by
  unfold State.placeRecord
  simp [apply_ite State.pending, apply_ite State.fuses, foldl_pending, foldl_fuses]

@[simp] theorem state_fault_kept (s : State) (unit cause access addr detail : Nat) (crossing : Bool) :
    (State.fault s unit cause access addr detail crossing).pending = s.pending ∧ (State.fault s unit cause access addr detail crossing).fuses = s.fuses := by
  unfold State.fault
  dsimp only
  constructor <;> (repeat' split) <;> first | rfl | simp [apply_ite State.pending, apply_ite State.fuses, foldl_pending, foldl_fuses]

end Sys2Proof.Machine
end

