-- ==== Sys2Proof/Laws/KeptMatrix.lean ====
section
/-! SUPPORT. The operations of Machine/Matrix.lean keep the queue and the fuses. -/

set_option linter.unusedSimpArgs false

namespace Sys2Proof.Machine

@[simp] theorem state_setEngine_kept (s : State) (n : Nat) (e : Engine) :
    (State.setEngine s n e).pending = s.pending ∧ (State.setEngine s n e).fuses = s.fuses := ⟨rfl, rfl⟩

@[simp] theorem state_toUnit_kept (s : State) (unit : Nat) (f : State → State)
    (h : ∀ s, (f s).pending = s.pending ∧ (f s).fuses = s.fuses) :
    (s.toUnit unit f).pending = s.pending ∧ (s.toUnit unit f).fuses = s.fuses := by
  unfold State.toUnit
  split <;> simp [h]

@[simp] theorem prodEffect_kept (c : Cmd) (s : State) :
    (prodEffect c s).pending = s.pending ∧ (prodEffect c s).fuses = s.fuses := by
  unfold prodEffect
  simp [apply_ite State.pending, apply_ite State.fuses, foldl_pending, foldl_fuses]

@[simp] theorem drainEffect_kept (c : Cmd) (step : Nat) (s : State) :
    (drainEffect c step s).pending = s.pending ∧ (drainEffect c step s).fuses = s.fuses := by
  unfold drainEffect
  simp [apply_ite State.pending, apply_ite State.fuses, foldl_pending, foldl_fuses]

@[simp] theorem engineUndefined_kept (c : Cmd) (s : State) :
    (engineUndefined c s).pending = s.pending ∧ (engineUndefined c s).fuses = s.fuses := by
  unfold engineUndefined
  simp [apply_ite State.pending, apply_ite State.fuses, foldl_pending, foldl_fuses]

@[simp] theorem tileStartEffect_kept (n : Nat) (s : State) :
    (tileStartEffect n s).pending = s.pending ∧ (tileStartEffect n s).fuses = s.fuses := by
  unfold tileStartEffect
  dsimp only
  constructor <;> (repeat' split) <;> first | rfl | simp [apply_ite State.pending, apply_ite State.fuses, foldl_pending, foldl_fuses]

@[simp] theorem state_faultAt_kept (s : State) (c unit cause access addr detail : Nat) :
    (State.faultAt s c unit cause access addr detail).pending = s.pending ∧ (State.faultAt s c unit cause access addr detail).fuses = s.fuses := by
  unfold State.faultAt
  simp [apply_ite State.pending, apply_ite State.fuses, foldl_pending, foldl_fuses]

@[simp] theorem state_parityFaults_kept (s : State) (n : Nat) (rows : List Nat) :
    (State.parityFaults s n rows).pending = s.pending ∧ (State.parityFaults s n rows).fuses = s.fuses := by
  unfold State.parityFaults
  simp [apply_ite State.pending, apply_ite State.fuses, foldl_pending, foldl_fuses]

@[simp] theorem state_startContinuation_kept (s : State) (n : Nat) (r : ProdRun) (o : Operands) :
    (State.startContinuation s n r o).pending = s.pending ∧ (State.startContinuation s n r o).fuses = s.fuses := ⟨rfl, rfl⟩

@[simp] theorem state_promoteFront_kept (s : State) (n : Nat) (r : ProdRun) (first : Nat) (o : Operands) :
    (State.promoteFront s n r first o).pending = s.pending ∧ (State.promoteFront s n r first o).fuses = s.fuses := by
  unfold State.promoteFront
  simp [apply_ite State.pending, apply_ite State.fuses, foldl_pending, foldl_fuses]

@[simp] theorem promotionEffect_kept (n : Nat) (s : State) :
    (promotionEffect n s).pending = s.pending ∧ (promotionEffect n s).fuses = s.fuses := by
  unfold promotionEffect
  dsimp only
  constructor <;> (repeat' split) <;> first | rfl | simp [apply_ite State.pending, apply_ite State.fuses, foldl_pending, foldl_fuses]

@[simp] theorem state_settleEngine_kept (s : State) (n : Nat) :
    (State.settleEngine s n).pending = s.pending ∧ (State.settleEngine s n).fuses = s.fuses := ⟨rfl, rfl⟩

@[simp] theorem state_settleBank_kept (s : State) (bank t n : Nat) :
    (State.settleBank s bank t n).pending = s.pending ∧ (State.settleBank s bank t n).fuses = s.fuses := ⟨rfl, rfl⟩

@[simp] theorem state_swapAndDrain_kept (s : State) (n : Nat) (dr : DrainRun) :
    (State.swapAndDrain s n dr).pending = s.pending ∧ (State.swapAndDrain s n dr).fuses = s.fuses := by
  unfold State.swapAndDrain
  simp [apply_ite State.pending, apply_ite State.fuses, foldl_pending, foldl_fuses]

@[simp] theorem swapEffect_kept (n : Nat) (s : State) :
    (swapEffect n s).pending = s.pending ∧ (swapEffect n s).fuses = s.fuses := by
  unfold swapEffect
  dsimp only
  constructor <;> (repeat' split) <;> first | rfl | simp [apply_ite State.pending, apply_ite State.fuses, foldl_pending, foldl_fuses]

@[simp] theorem state_beatDone_kept (s : State) (n dest t : Nat) (beat : Nat × Nat × Nat) :
    (State.beatDone s n dest t beat).pending = s.pending ∧ (State.beatDone s n dest t beat).fuses = s.fuses := by
  unfold State.beatDone
  dsimp only
  constructor <;> (repeat' split) <;> first | rfl | simp [apply_ite State.pending, apply_ite State.fuses, foldl_pending, foldl_fuses]

end Sys2Proof.Machine
end

