-- ==== Sys2Proof/Laws/KeptRows.lean ====
section
/-! SUPPORT. The operations of Machine/Rows.lean keep the queue and the fuses. -/

set_option linter.unusedSimpArgs false

namespace Sys2Proof.Machine

@[simp] theorem state_rowStart_kept (s : State) (n : Nat) (k : RowOp) (h : HeldCmd) (start : Nat) :
    (State.rowStart s n k h start).pending = s.pending ∧ (State.rowStart s n k h start).fuses = s.fuses := by
  unfold State.rowStart
  simp [apply_ite State.pending, apply_ite State.fuses, foldl_pending, foldl_fuses]

@[simp] theorem rowIssue_kept (k : RowOp) (c : Cmd) (step : Nat) (s : State) :
    (rowIssue k c step s).pending = s.pending ∧ (rowIssue k c step s).fuses = s.fuses := by
  unfold rowIssue
  simp [apply_ite State.pending, apply_ite State.fuses, foldl_pending, foldl_fuses]

@[simp] theorem rowCommandStartEffect_kept (n : Nat) (s : State) :
    (rowCommandStartEffect n s).pending = s.pending ∧ (rowCommandStartEffect n s).fuses = s.fuses := by
  unfold rowCommandStartEffect
  dsimp only
  constructor <;> (repeat' split) <;> first | rfl | simp [apply_ite State.pending, apply_ite State.fuses, foldl_pending, foldl_fuses]

end Sys2Proof.Machine
end

