-- ==== Sys2Proof/Laws/KeptCues.lean ====
section
/-! SUPPORT. The operations of Machine/Cues.lean keep the queue and the fuses. -/

set_option linter.unusedSimpArgs false

namespace Sys2Proof.Machine

@[simp] theorem state_setCue_kept (s : State) (c v t : Nat) :
    (State.setCue s c v t).pending = s.pending ∧ (State.setCue s c v t).fuses = s.fuses := ⟨rfl, rfl⟩

@[simp] theorem state_addCue_kept (s : State) (c n t : Nat) :
    (State.addCue s c n t).pending = s.pending ∧ (State.addCue s c n t).fuses = s.fuses := ⟨rfl, rfl⟩

@[simp] theorem state_postCue_kept (s : State) (c n t : Nat) :
    (State.postCue s c n t).pending = s.pending ∧ (State.postCue s c n t).fuses = s.fuses := by
  unfold State.postCue
  simp [apply_ite State.pending, apply_ite State.fuses, foldl_pending, foldl_fuses]

end Sys2Proof.Machine
end

