-- ==== Sys2Proof/Laws/KeptHbm.lean ====
section
/-! SUPPORT. The operations of Machine/Hbm.lean keep the queue and the fuses. -/

set_option linter.unusedSimpArgs false

namespace Sys2Proof.Machine

@[simp] theorem state_streamAccess_kept (s : State) (a n t : Nat) :
    (State.streamAccess s a n t).1.pending = s.pending ∧ (State.streamAccess s a n t).1.fuses = s.fuses := by
  unfold State.streamAccess
  dsimp only
  constructor <;> (repeat' split) <;> first | rfl | simp [apply_ite State.pending, apply_ite State.fuses, foldl_pending, foldl_fuses]

end Sys2Proof.Machine
end

