-- ==== Sys2Proof/Laws/KeptLiner.lean ====
section
/-! SUPPORT. The operations of Machine/Liner.lean keep the queue and the fuses. -/

set_option linter.unusedSimpArgs false

namespace Sys2Proof.Machine

@[simp] theorem state_lnrStart_kept (s : State) (cl : Nat) (k : LnrOp) (h : HeldCmd) (start : Nat) :
    (State.lnrStart s cl k h start).pending = s.pending ∧ (State.lnrStart s cl k h start).fuses = s.fuses := by
  unfold State.lnrStart
  simp [apply_ite State.pending, apply_ite State.fuses, foldl_pending, foldl_fuses]

@[simp] theorem state_lnrWait_kept (s : State) (cl t lost : Nat) :
    (State.lnrWait s cl t lost).pending = s.pending ∧ (State.lnrWait s cl t lost).fuses = s.fuses := by
  unfold State.lnrWait
  simp [apply_ite State.pending, apply_ite State.fuses, foldl_pending, foldl_fuses]

@[simp] theorem lnrIssue_kept (k : LnrOp) (c : Cmd) (step : Nat) (s : State) :
    (lnrIssue k c step s).pending = s.pending ∧ (lnrIssue k c step s).fuses = s.fuses := by
  unfold lnrIssue
  simp [apply_ite State.pending, apply_ite State.fuses, foldl_pending, foldl_fuses]

@[simp] theorem linerCommandStartEffect_kept (cl : Nat) (s : State) :
    (linerCommandStartEffect cl s).pending = s.pending ∧ (linerCommandStartEffect cl s).fuses = s.fuses := by
  unfold linerCommandStartEffect
  dsimp only
  constructor <;> (repeat' split) <;> first | rfl | simp [apply_ite State.pending, apply_ite State.fuses, foldl_pending, foldl_fuses]

end Sys2Proof.Machine
end

