-- ==== Sys2Proof/Laws/KeptPartition.lean ====
section
/-! SUPPORT. The operations of Machine/Partition.lean keep the queue and the fuses. -/

set_option linter.unusedSimpArgs false

namespace Sys2Proof.Machine

@[simp] theorem state_setPartition_kept (s : State) (p : Nat) (x : Partition) :
    (State.setPartition s p x).pending = s.pending ∧ (State.setPartition s p x).fuses = s.fuses := ⟨rfl, rfl⟩

@[simp] theorem state_setSlot_kept (s : State) (p k : Nat) (x : Slot) :
    (State.setSlot s p k x).pending = s.pending ∧ (State.setSlot s p k x).fuses = s.fuses := ⟨rfl, rfl⟩

@[simp] theorem state_setIngress_kept (s : State) (p i : Nat) (g : Ingress) :
    (State.setIngress s p i g).pending = s.pending ∧ (State.setIngress s p i g).fuses = s.fuses := ⟨rfl, rfl⟩

@[simp] theorem state_beatAdded_kept (s : State) (p : Nat) (b : Beat) (t : Nat) :
    (State.beatAdded s p b t).pending = s.pending ∧ (State.beatAdded s p b t).fuses = s.fuses := by
  unfold State.beatAdded
  simp [apply_ite State.pending, apply_ite State.fuses, foldl_pending, foldl_fuses]

@[simp] theorem state_addBeat_kept (s : State) (p k : Nat) (r : RankBeat) (inTurn : Bool) (t : Nat) :
    (State.addBeat s p k r inTurn t).pending = s.pending ∧ (State.addBeat s p k r inTurn t).fuses = s.fuses := by
  unfold State.addBeat
  simp [apply_ite State.pending, apply_ite State.fuses, foldl_pending, foldl_fuses]

theorem state_handBeat_kept (s : State) (p k : Nat) (b : Beat) (t : State) (h : s.handBeat p k b = .done t) :
    t.pending = s.pending ∧ t.fuses = s.fuses := by
  unfold State.handBeat at h
  dsimp only at h
  repeat' split at h
  all_goals first | (cases h; simp [apply_ite State.pending, apply_ite State.fuses, foldl_pending, foldl_fuses]) | cases h

@[simp] theorem state_takeBeats_kept (n : Nat) (s : State) (p k : Nat) :
    (s.takeBeats n p k).pending = s.pending ∧ (s.takeBeats n p k).fuses = s.fuses := by
  induction n generalizing s with
  | zero => exact ⟨rfl, rfl⟩
  | succ n ih =>
    unfold State.takeBeats
    dsimp only
    split
    · exact ⟨rfl, rfl⟩
    · split
      · simp
      · rename_i h
        have := state_handBeat_kept _ _ _ _ _ h
        simp [ih, this]

@[simp] theorem state_releaseSeam_kept (s : State) (p : Nat) :
    (State.releaseSeam s p).pending = s.pending ∧ (State.releaseSeam s p).fuses = s.fuses := by
  unfold State.releaseSeam
  constructor <;> (repeat' split) <;> first | rfl | simp [apply_ite State.pending, apply_ite State.fuses, foldl_pending, foldl_fuses]

@[simp] theorem state_leaveIngress_kept (s : State) (p i : Nat) :
    (State.leaveIngress s p i).pending = s.pending ∧ (State.leaveIngress s p i).fuses = s.fuses := by
  unfold State.leaveIngress
  simp [apply_ite State.pending, apply_ite State.fuses, foldl_pending, foldl_fuses]

@[simp] theorem state_waitIngress_kept (s : State) (p i : Nat) (window : Bool) (slot : Nat) :
    (State.waitIngress s p i window slot).pending = s.pending ∧ (State.waitIngress s p i window slot).fuses = s.fuses := by
  unfold State.waitIngress
  dsimp only
  constructor <;> (repeat' split) <;> first | rfl | simp [apply_ite State.pending, apply_ite State.fuses, foldl_pending, foldl_fuses]

@[simp] theorem state_routeFirst_kept (s : State) (p i : Nat) (b : Beat) :
    (State.routeFirst s p i b).pending = s.pending ∧ (State.routeFirst s p i b).fuses = s.fuses := by
  unfold State.routeFirst
  dsimp only
  split
  · simp
  · split <;> simp
  · split
    · simp
    · split
      · rename_i h
        have := state_handBeat_kept _ _ _ _ _ h
        simpa using this
      · simp

@[simp] theorem beatArrivalEffect_kept (p i : Nat) (s : State) :
    (beatArrivalEffect p i s).pending = s.pending ∧ (beatArrivalEffect p i s).fuses = s.fuses := by
  unfold beatArrivalEffect
  dsimp only
  constructor <;> (repeat' split) <;> first | rfl | simp [apply_ite State.pending, apply_ite State.fuses, foldl_pending, foldl_fuses]

@[simp] theorem windowEntryEffect_kept (p i : Nat) (s : State) :
    (windowEntryEffect p i s).pending = s.pending ∧ (windowEntryEffect p i s).fuses = s.fuses := by
  unfold windowEntryEffect
  dsimp only
  constructor <;> (repeat' split) <;> first | rfl | simp [apply_ite State.pending, apply_ite State.fuses, foldl_pending, foldl_fuses]

@[simp] theorem ingressStallLimitEffect_kept (p i : Nat) (s : State) :
    (ingressStallLimitEffect p i s).pending = s.pending ∧ (ingressStallLimitEffect p i s).fuses = s.fuses := by
  unfold ingressStallLimitEffect
  dsimp only
  constructor <;> (repeat' split) <;> first | rfl | simp [apply_ite State.pending, apply_ite State.fuses, foldl_pending, foldl_fuses]

@[simp] theorem state_addWaiting_kept (n : Nat) (s : State) (p k q : Nat) :
    (s.addWaiting n p k q).pending = s.pending ∧ (s.addWaiting n p k q).fuses = s.fuses := by
  induction n generalizing s with
  | zero => exact ⟨rfl, rfl⟩
  | succ n ih =>
    unfold State.addWaiting
    dsimp only
    split
    · exact ⟨rfl, rfl⟩
    · split
      · exact ⟨rfl, rfl⟩
      · simp [ih]

@[simp] theorem beatAddEffect_kept (p k q : Nat) (s : State) :
    (beatAddEffect p k q s).pending = s.pending ∧ (beatAddEffect p k q s).fuses = s.fuses := by
  unfold beatAddEffect
  dsimp only
  constructor <;> (repeat' split) <;> first | rfl | simp [apply_ite State.pending, apply_ite State.fuses, foldl_pending, foldl_fuses]

@[simp] theorem slotOpenEffect_kept (p k : Nat) (s : State) :
    (slotOpenEffect p k s).pending = s.pending ∧ (slotOpenEffect p k s).fuses = s.fuses := by
  unfold slotOpenEffect
  dsimp only
  constructor <;> (repeat' split) <;> first | rfl | simp [apply_ite State.pending, apply_ite State.fuses, foldl_pending, foldl_fuses]

end Sys2Proof.Machine
end

