-- ==== Sys2Proof/Laws/KeptSlow.lean ====
section
/-! SUPPORT. The operations of Machine/Slow.lean keep the queue and the fuses. -/

set_option linter.unusedSimpArgs false

namespace Sys2Proof.Machine

@[simp] theorem state_putLine_kept (s : State) (l : Nat) (c : CacheLine) :
    (State.putLine s l c).pending = s.pending ∧ (State.putLine s l c).fuses = s.fuses := ⟨rfl, rfl⟩

@[simp] theorem state_startProgram_kept (s : State) (num line : Nat) (body : List Byte) (above : Option Nat) :
    (State.startProgram s num line body above).pending = s.pending ∧ (State.startProgram s num line body above).fuses = s.fuses := ⟨rfl, rfl⟩

@[simp] theorem state_writeBack_kept (s : State) (l num : Nat) :
    (State.writeBack s l num).pending = s.pending ∧ (State.writeBack s l num).fuses = s.fuses := ⟨rfl, rfl⟩

@[simp] theorem state_startFetch_kept (s : State) (num l : Nat) (reader : Option (Nat × Nat)) :
    (State.startFetch s num l reader).pending = s.pending ∧ (State.startFetch s num l reader).fuses = s.fuses := ⟨rfl, rfl⟩

@[simp] theorem state_assignLine_kept (s : State) (l num st : Nat) :
    (State.assignLine s l num st).pending = s.pending ∧ (State.assignLine s l num st).fuses = s.fuses := by
  unfold State.assignLine
  simp [apply_ite State.pending, apply_ite State.fuses, foldl_pending, foldl_fuses]

@[simp] theorem state_unreadable_kept (s : State) (num : Nat) :
    (State.unreadable s num).pending = s.pending ∧ (State.unreadable s num).fuses = s.fuses := by
  unfold State.unreadable
  simp [apply_ite State.pending, apply_ite State.fuses, foldl_pending, foldl_fuses]

@[simp] theorem state_readThrough_kept (s : State) (num core l since : Nat) :
    (State.readThrough s num core l since).pending = s.pending ∧ (State.readThrough s num core l since).fuses = s.fuses := ⟨rfl, rfl⟩

@[simp] theorem state_startReads_kept (s : State) :
    (State.startReads s).pending = s.pending ∧ (State.startReads s).fuses = s.fuses := by
  unfold State.startReads
  constructor
  · rw [foldl_pending]
    intros; split <;> simp
  · rw [foldl_fuses]
    intros; split <;> simp

theorem planSlice_pending (st : Nat) (acc : State × List (Nat × Nat × Bool)) (x : Nat × Nat) :
    (planSlice st acc x).1.pending = acc.1.pending := by
  unfold planSlice
  dsimp only
  repeat' split
  all_goals simp

theorem planSlice_fuses (st : Nat) (acc : State × List (Nat × Nat × Bool)) (x : Nat × Nat) :
    (planSlice st acc x).1.fuses = acc.1.fuses := by
  unfold planSlice
  dsimp only
  repeat' split
  all_goals simp

/-- A fold over a state with a result keeps what each of its steps keeps. -/
theorem foldl_fst_pending {α β : Type} (g : State × β → α → State × β) (h : ∀ s a, (g s a).1.pending = s.1.pending)
    (l : List α) (s : State × β) : (l.foldl g s).1.pending = s.1.pending := by
  induction l generalizing s with
  | nil => rfl
  | cons a l ih => simp [ih, h]

/-- A fold over a state with a result keeps what each of its steps keeps. -/
theorem foldl_fst_fuses {α β : Type} (g : State × β → α → State × β) (h : ∀ s a, (g s a).1.fuses = s.1.fuses)
    (l : List α) (s : State × β) : (l.foldl g s).1.fuses = s.1.fuses := by
  induction l generalizing s with
  | nil => rfl
  | cons a l ih => simp [ih, h]

@[simp] theorem state_planList_kept (s : State) (st : Nat) :
    (State.planList s st).pending = s.pending ∧ (State.planList s st).fuses = s.fuses := by
  unfold State.planList
  dsimp only
  constructor <;> (repeat' split) <;>
    simp [foldl_fst_pending (planSlice st) (planSlice_pending st), foldl_fst_fuses (planSlice st) (planSlice_fuses st)]

@[simp] theorem state_fetchSlice_kept (s : State) (st num : Nat) :
    (State.fetchSlice s st num).pending = s.pending ∧ (State.fetchSlice s st num).fuses = s.fuses := by
  unfold State.fetchSlice
  constructor <;> (repeat' split) <;> first | rfl | simp [apply_ite State.pending, apply_ite State.fuses, foldl_pending, foldl_fuses]

@[simp] theorem state_retryFetches_kept (s : State) :
    (State.retryFetches s).pending = s.pending ∧ (State.retryFetches s).fuses = s.fuses := by
  unfold State.retryFetches
  simp [apply_ite State.pending, apply_ite State.fuses, foldl_pending, foldl_fuses]

@[simp] theorem state_deliverCopy_kept (s : State) (core num : Nat) (copy : List Byte) :
    (State.deliverCopy s core num copy).pending = s.pending ∧ (State.deliverCopy s core num copy).fuses = s.fuses := ⟨rfl, rfl⟩

@[simp] theorem state_forwardRead_kept (core st : Nat) (s : State) (num : Nat) :
    (State.forwardRead core st s num).pending = s.pending ∧ (State.forwardRead core st s num).fuses = s.fuses := by
  unfold State.forwardRead
  dsimp only
  constructor <;> (repeat' split) <;> first | rfl | simp [apply_ite State.pending, apply_ite State.fuses, foldl_pending, foldl_fuses]

@[simp] theorem state_routineReads_kept (s : State) (core entry arg st : Nat) :
    (State.routineReads s core entry arg st).pending = s.pending ∧ (State.routineReads s core entry arg st).fuses = s.fuses := by
  unfold State.routineReads
  simp [apply_ite State.pending, apply_ite State.fuses, foldl_pending, foldl_fuses]

@[simp] theorem state_missCopy_kept (s : State) (st num mask : Nat) (sums : Nat → List Word) (factor : Nat → Word) :
    (State.missCopy s st num mask sums factor).pending = s.pending ∧ (State.missCopy s st num mask sums factor).fuses = s.fuses := ⟨rfl, rfl⟩

@[simp] theorem state_fold_kept (s : State) (st num mask : Nat) (sums : Nat → List Word) (factor : Nat → Word) (gs : Word) :
    (State.fold s st num mask sums factor gs).pending = s.pending ∧ (State.fold s st num mask sums factor gs).fuses = s.fuses := ⟨rfl, rfl⟩

@[simp] theorem state_sltReleased_kept (s : State) (num st : Nat) (updated : Bool) :
    (State.sltReleased s num st updated).pending = s.pending ∧ (State.sltReleased s num st updated).fuses = s.fuses := ⟨rfl, rfl⟩

@[simp] theorem state_sltWritten_kept (s : State) (num st : Nat) :
    (State.sltWritten s num st).pending = s.pending ∧ (State.sltWritten s num st).fuses = s.fuses := by
  unfold State.sltWritten
  dsimp only
  constructor <;> (repeat' split) <;> first | rfl | simp [apply_ite State.pending, apply_ite State.fuses, foldl_pending, foldl_fuses]

end Sys2Proof.Machine
end

