-- ==== Sys2Proof/Laws/KeptSeam.lean ====
section
/-! SUPPORT. The operations of Machine/Seam.lean keep the queue and the fuses. -/

set_option linter.unusedSimpArgs false

namespace Sys2Proof.Machine

@[simp] theorem state_setLink_kept (s : State) (n : Nat) (l : SLink) :
    (State.setLink s n l).pending = s.pending ∧ (State.setLink s n l).fuses = s.fuses := ⟨rfl, rfl⟩

@[simp] theorem state_putLinkState_kept (s : State) (n v : Nat) :
    (State.putLinkState s n v).pending = s.pending ∧ (State.putLinkState s n v).fuses = s.fuses := ⟨rfl, rfl⟩

@[simp] theorem state_write48_kept (s : State) (a : Nat) (bs : List Byte) :
    (State.write48 s a bs).pending = s.pending ∧ (State.write48 s a bs).fuses = s.fuses := by
  unfold State.write48
  simp [apply_ite State.pending, apply_ite State.fuses, foldl_pending, foldl_fuses]

@[simp] theorem state_latchTables_kept (s : State) :
    (State.latchTables s).pending = s.pending ∧ (State.latchTables s).fuses = s.fuses := ⟨rfl, rfl⟩

@[simp] theorem state_sendFrames_kept (s : State) (n prio vc dest readyAt : Nat) (cmd : Bool) (ty : Nat) (payloads : List (List Byte)) :
    (State.sendFrames s n prio vc dest readyAt cmd ty payloads).pending = s.pending ∧ (State.sendFrames s n prio vc dest readyAt cmd ty payloads).fuses = s.fuses := ⟨rfl, rfl⟩

@[simp] theorem state_sendSmall_kept (s : State) (n dest : Nat) (cmd : Bool) (m : SeamMsg) :
    (State.sendSmall s n dest cmd m).pending = s.pending ∧ (State.sendSmall s n dest cmd m).fuses = s.fuses := ⟨rfl, rfl⟩

@[simp] theorem state_sendCtrl_kept (s : State) (dest : Nat) (data : List Byte) :
    (State.sendCtrl s dest data).pending = s.pending ∧ (State.sendCtrl s dest data).fuses = s.fuses := by
  unfold State.sendCtrl
  simp [apply_ite State.pending, apply_ite State.fuses, foldl_pending, foldl_fuses]

@[simp] theorem state_sendCtrlAll_kept (s : State) (devs : List Nat) (data : List Byte) :
    (State.sendCtrlAll s devs data).pending = s.pending ∧ (State.sendCtrlAll s devs data).fuses = s.fuses := by
  unfold State.sendCtrlAll
  simp [apply_ite State.pending, apply_ite State.fuses, foldl_pending, foldl_fuses]

@[simp] theorem state_shortCommand_kept (s : State) (n : Nat) :
    (State.shortCommand s n).pending = s.pending ∧ (State.shortCommand s n).fuses = s.fuses := ⟨rfl, rfl⟩

@[simp] theorem seamIssue_kept (op : SeamOp) (c : Cmd) (s : State) :
    (seamIssue op c s).pending = s.pending ∧ (seamIssue op c s).fuses = s.fuses := by
  unfold seamIssue
  constructor <;> (repeat' split) <;> first | rfl | simp [apply_ite State.pending, apply_ite State.fuses, foldl_pending, foldl_fuses]

@[simp] theorem state_sendSequenced_kept (s : State) (n t w : Nat) (f : EFrame) :
    (State.sendSequenced s n t w f).pending = s.pending ∧ (State.sendSequenced s n t w f).fuses = s.fuses := by
  unfold State.sendSequenced
  constructor <;> (repeat' split) <;> first | rfl | simp [apply_ite State.pending, apply_ite State.fuses, foldl_pending, foldl_fuses]

@[simp] theorem egressSlotEffect_kept (n : Nat) (s : State) :
    (egressSlotEffect n s).pending = s.pending ∧ (egressSlotEffect n s).fuses = s.fuses := by
  unfold egressSlotEffect
  dsimp only
  constructor <;> (repeat' split) <;> first | rfl | simp [apply_ite State.pending, apply_ite State.fuses, foldl_pending, foldl_fuses]

@[simp] theorem state_linkDown_kept (s : State) (n : Nat) :
    (State.linkDown s n).pending = s.pending ∧ (State.linkDown s n).fuses = s.fuses := by
  unfold State.linkDown
  simp [apply_ite State.pending, apply_ite State.fuses, foldl_pending, foldl_fuses]

@[simp] theorem state_startReplay_kept (s : State) (n e counter : Nat) :
    (State.startReplay s n e counter).pending = s.pending ∧ (State.startReplay s n e counter).fuses = s.fuses := by
  unfold State.startReplay
  simp [apply_ite State.pending, apply_ite State.fuses, foldl_pending, foldl_fuses]

@[simp] theorem nakEffect_kept (n seq : Nat) (s : State) :
    (nakEffect n seq s).pending = s.pending ∧ (nakEffect n seq s).fuses = s.fuses := by
  unfold nakEffect
  simp [apply_ite State.pending, apply_ite State.fuses, foldl_pending, foldl_fuses]

@[simp] theorem retryTimeoutEffect_kept (n : Nat) (s : State) :
    (retryTimeoutEffect n s).pending = s.pending ∧ (retryTimeoutEffect n s).fuses = s.fuses := by
  unfold retryTimeoutEffect
  dsimp only
  constructor <;> (repeat' split) <;> first | rfl | simp [apply_ite State.pending, apply_ite State.fuses, foldl_pending, foldl_fuses]

@[simp] theorem state_acknowledge_kept (s : State) (n ackl : Nat) :
    (State.acknowledge s n ackl).pending = s.pending ∧ (State.acknowledge s n ackl).fuses = s.fuses := by
  unfold State.acknowledge
  dsimp only
  constructor <;> (repeat' split) <;> first | rfl | simp [apply_ite State.pending, apply_ite State.fuses, foldl_pending, foldl_fuses]

@[simp] theorem state_nakOnce_kept (s : State) (n : Nat) :
    (State.nakOnce s n).pending = s.pending ∧ (State.nakOnce s n).fuses = s.fuses := by
  unfold State.nakOnce
  simp [apply_ite State.pending, apply_ite State.fuses, foldl_pending, foldl_fuses]

@[simp] theorem state_freeRx_kept (s : State) (n vc : Nat) :
    (State.freeRx s n vc).pending = s.pending ∧ (State.freeRx s n vc).fuses = s.fuses := ⟨rfl, rfl⟩

@[simp] theorem state_forward_kept (s : State) (n : Nat) (links : List Nat) (f : SFrame) (key : Nat) (last multicast : Bool) :
    (State.forward s n links f key last multicast).pending = s.pending ∧ (State.forward s n links f key last multicast).fuses = s.fuses := by
  unfold State.forward
  simp [apply_ite State.pending, apply_ite State.fuses, foldl_pending, foldl_fuses]

@[simp] theorem state_crossBeat_kept (s : State) (link : Option Nat) (b : Beat) :
    (State.crossBeat s link b).pending = s.pending ∧ (State.crossBeat s link b).fuses = s.fuses := by
  unfold State.crossBeat
  constructor <;> (repeat' split) <;> first | rfl | simp [apply_ite State.pending, apply_ite State.fuses, foldl_pending, foldl_fuses]

@[simp] theorem state_beginMessage_kept (s : State) (n : Nat) (f : SFrame) :
    (State.beginMessage s n f).pending = s.pending ∧ (State.beginMessage s n f).fuses = s.fuses := by
  unfold State.beginMessage
  simp [apply_ite State.pending, apply_ite State.fuses, foldl_pending, foldl_fuses]

@[simp] theorem state_dataFrame_kept (s : State) (n : Nat) (f : SFrame) :
    (State.dataFrame s n f).pending = s.pending ∧ (State.dataFrame s n f).fuses = s.fuses := by
  unfold State.dataFrame
  dsimp only
  constructor <;> (repeat' split) <;> first | rfl | simp [apply_ite State.pending, apply_ite State.fuses, foldl_pending, foldl_fuses]

@[simp] theorem state_endMessage_kept (s : State) (n vc : Nat) :
    (State.endMessage s n vc).pending = s.pending ∧ (State.endMessage s n vc).fuses = s.fuses := by
  unfold State.endMessage
  dsimp only
  constructor <;> (repeat' split) <;> first | rfl | simp [apply_ite State.pending, apply_ite State.fuses, foldl_pending, foldl_fuses]

@[simp] theorem state_acceptFrame_kept (s : State) (n : Nat) (f : SFrame) :
    (State.acceptFrame s n f).pending = s.pending ∧ (State.acceptFrame s n f).fuses = s.fuses := by
  unfold State.acceptFrame
  simp [apply_ite State.pending, apply_ite State.fuses, foldl_pending, foldl_fuses]

@[simp] theorem state_elastic_kept (s : State) (n : Nat) :
    (State.elastic s n).pending = s.pending ∧ (State.elastic s n).fuses = s.fuses := by
  unfold State.elastic
  simp [apply_ite State.pending, apply_ite State.fuses, foldl_pending, foldl_fuses]

@[simp] theorem frameReceiveEffect_kept (n : Nat) (header : BitVec 80) (payload : List Byte) (uncorrectable corrected : Nat) (s : State) :
    (frameReceiveEffect n header payload uncorrectable corrected s).pending = s.pending ∧ (frameReceiveEffect n header payload uncorrectable corrected s).fuses = s.fuses := by
  unfold frameReceiveEffect
  simp [apply_ite State.pending, apply_ite State.fuses, foldl_pending, foldl_fuses]

@[simp] theorem state_takeInbox_kept (s : State) (m : SeamMsg) :
    (State.takeInbox s m).1.pending = s.pending ∧ (State.takeInbox s m).1.fuses = s.fuses := by
  unfold State.takeInbox
  constructor <;> (repeat' split) <;> first | rfl | simp [apply_ite State.pending, apply_ite State.fuses, foldl_pending, foldl_fuses]

@[simp] theorem state_deliver_kept (s : State) (a : Nat) (m : SeamMsg) (done : State → Nat → State)
    (h : ∀ s t, (done s t).pending = s.pending ∧ (done s t).fuses = s.fuses) :
    (s.deliver a m done).pending = s.pending ∧ (s.deliver a m done).fuses = s.fuses := by
  unfold State.deliver
  dsimp only
  split
  · simp
  · split <;> simp [h]

@[simp] theorem qdataMessageEffect_kept (m : SeamMsg) (s : State) :
    (qdataMessageEffect m s).pending = s.pending ∧ (qdataMessageEffect m s).fuses = s.fuses := by
  unfold qdataMessageEffect
  simp [apply_ite State.pending, apply_ite State.fuses, foldl_pending, foldl_fuses]

@[simp] theorem qcredMessageEffect_kept (m : SeamMsg) (s : State) :
    (qcredMessageEffect m s).pending = s.pending ∧ (qcredMessageEffect m s).fuses = s.fuses := by
  unfold qcredMessageEffect
  simp [apply_ite State.pending, apply_ite State.fuses, foldl_pending, foldl_fuses]

@[simp] theorem cueMessageEffect_kept (m : SeamMsg) (s : State) :
    (cueMessageEffect m s).pending = s.pending ∧ (cueMessageEffect m s).fuses = s.fuses := by
  unfold cueMessageEffect
  simp [apply_ite State.pending, apply_ite State.fuses, foldl_pending, foldl_fuses]

@[simp] theorem writeMessageEffect_kept (m : SeamMsg) (s : State) :
    (writeMessageEffect m s).pending = s.pending ∧ (writeMessageEffect m s).fuses = s.fuses := by
  unfold writeMessageEffect
  simp [apply_ite State.pending, apply_ite State.fuses, foldl_pending, foldl_fuses]

@[simp] theorem mcastMessageEffect_kept (link : Nat) (m : SeamMsg) (s : State) :
    (mcastMessageEffect link m s).pending = s.pending ∧ (mcastMessageEffect link m s).fuses = s.fuses := by
  unfold mcastMessageEffect
  simp [apply_ite State.pending, apply_ite State.fuses, foldl_pending, foldl_fuses]

@[simp] theorem ctrlMessageEffect_kept (m : SeamMsg) (s : State) :
    (ctrlMessageEffect m s).pending = s.pending ∧ (ctrlMessageEffect m s).fuses = s.fuses := by
  unfold ctrlMessageEffect
  simp [apply_ite State.pending, apply_ite State.fuses, foldl_pending, foldl_fuses]

@[simp] theorem atomicBurstEffect_kept (link : Nat) (beats : List Beat) (s : State) :
    (atomicBurstEffect link beats s).pending = s.pending ∧ (atomicBurstEffect link beats s).fuses = s.fuses := by
  unfold atomicBurstEffect
  simp [apply_ite State.pending, apply_ite State.fuses, foldl_pending, foldl_fuses]

@[simp] theorem burstCloseEffect_kept (n : Nat) (s : State) :
    (burstCloseEffect n s).pending = s.pending ∧ (burstCloseEffect n s).fuses = s.fuses := by
  unfold burstCloseEffect
  dsimp only
  constructor <;> (repeat' split) <;> first | rfl | simp [apply_ite State.pending, apply_ite State.fuses, foldl_pending, foldl_fuses]

@[simp] theorem discoveryIdentityEffect_kept (n dev plink : Nat) (s : State) :
    (discoveryIdentityEffect n dev plink s).pending = s.pending ∧ (discoveryIdentityEffect n dev plink s).fuses = s.fuses := by
  unfold discoveryIdentityEffect
  simp [apply_ite State.pending, apply_ite State.fuses, foldl_pending, foldl_fuses]

@[simp] theorem latencyProbeEffect_kept (n oneWay : Nat) (s : State) :
    (latencyProbeEffect n oneWay s).pending = s.pending ∧ (latencyProbeEffect n oneWay s).fuses = s.fuses := by
  unfold latencyProbeEffect
  simp [apply_ite State.pending, apply_ite State.fuses, foldl_pending, foldl_fuses]

@[simp] theorem state_resetElastic_kept (s : State) (n : Nat) :
    (State.resetElastic s n).pending = s.pending ∧ (State.resetElastic s n).fuses = s.fuses := ⟨rfl, rfl⟩

@[simp] theorem laneFailEffect_kept (n lane : Nat) (s : State) :
    (laneFailEffect n lane s).pending = s.pending ∧ (laneFailEffect n lane s).fuses = s.fuses := by
  unfold laneFailEffect
  simp [apply_ite State.pending, apply_ite State.fuses, foldl_pending, foldl_fuses]

@[simp] theorem laneChangeEffect_kept (n pair : Nat) (s : State) :
    (laneChangeEffect n pair s).pending = s.pending ∧ (laneChangeEffect n pair s).fuses = s.fuses := by
  unfold laneChangeEffect
  simp [apply_ite State.pending, apply_ite State.fuses, foldl_pending, foldl_fuses]

@[simp] theorem retrainCompleteEffect_kept (n : Nat) (ok : Bool) (oneWay : Nat) (s : State) :
    (retrainCompleteEffect n ok oneWay s).pending = s.pending ∧ (retrainCompleteEffect n ok oneWay s).fuses = s.fuses := by
  unfold retrainCompleteEffect
  simp [apply_ite State.pending, apply_ite State.fuses, foldl_pending, foldl_fuses]

end Sys2Proof.Machine
end

