-- ==== Sys2Proof/Laws/KeptPorts.lean ====
section
/-! SUPPORT. The operations of Machine/Ports.lean keep the queue and the fuses. -/

set_option linter.unusedSimpArgs false

namespace Sys2Proof.Machine

@[simp] theorem state_putUnitBeats_kept (s : State) (u : Nat) (b : List OutBeat) :
    (State.putUnitBeats s u b).pending = s.pending ∧ (State.putUnitBeats s u b).fuses = s.fuses := by
  unfold State.putUnitBeats
  simp [apply_ite State.pending, apply_ite State.fuses, foldl_pending, foldl_fuses]

@[simp] theorem state_sendBeat_kept (s : State) (c u t : Nat) (b : OutBeat) :
    (State.sendBeat s c u t b).pending = s.pending ∧ (State.sendBeat s c u t b).fuses = s.fuses := by
  unfold State.sendBeat
  dsimp only
  constructor <;> (repeat' split) <;> first | rfl | simp [apply_ite State.pending, apply_ite State.fuses, foldl_pending, foldl_fuses]

@[simp] theorem state_givePlace_kept (s : State) (c u t : Nat) :
    (State.givePlace s c u t).pending = s.pending ∧ (State.givePlace s c u t).fuses = s.fuses := by
  unfold State.givePlace
  constructor <;> (repeat' split) <;> first | rfl | simp [apply_ite State.pending, apply_ite State.fuses, foldl_pending, foldl_fuses]

@[simp] theorem slotBeatSendEffect_kept (c : Nat) (s : State) :
    (slotBeatSendEffect c s).pending = s.pending ∧ (slotBeatSendEffect c s).fuses = s.fuses := by
  unfold slotBeatSendEffect
  dsimp only
  constructor <;> (repeat' split) <;> first | rfl | simp [apply_ite State.pending, apply_ite State.fuses, foldl_pending, foldl_fuses]

end Sys2Proof.Machine
end

