-- ==== Sys2Proof/Laws/KeptSequencer.lean ====
section
/-! SUPPORT. The operations of Machine/Sequencer.lean keep the queue and the fuses. -/

set_option linter.unusedSimpArgs false

namespace Sys2Proof.Machine

@[simp] theorem state_setStream_kept (s : State) (n : Nat) (x : Stream) :
    (State.setStream s n x).pending = s.pending ∧ (State.setStream s n x).fuses = s.fuses := ⟨rfl, rfl⟩

@[simp] theorem state_loseEngine_kept (s : State) (n : Nat) :
    (State.loseEngine s n).pending = s.pending ∧ (State.loseEngine s n).fuses = s.fuses := ⟨rfl, rfl⟩

@[simp] theorem state_loseRow_kept (s : State) (n : Nat) :
    (State.loseRow s n).pending = s.pending ∧ (State.loseRow s n).fuses = s.fuses := ⟨rfl, rfl⟩

@[simp] theorem state_loseState_kept (s : State) (k level : Nat) :
    (State.loseState s k level).pending = s.pending ∧ (State.loseState s k level).fuses = s.fuses := by
  unfold State.loseState
  simp [apply_ite State.pending, apply_ite State.fuses, foldl_pending, foldl_fuses]

@[simp] theorem state_setGate_kept (s : State) (k : Nat) (g : Gate) :
    (State.setGate s k g).pending = s.pending ∧ (State.setGate s k g).fuses = s.fuses := ⟨rfl, rfl⟩

@[simp] theorem state_dropGate_kept (s : State) (k : Nat) :
    (State.dropGate s k).pending = s.pending ∧ (State.dropGate s k).fuses = s.fuses := ⟨rfl, rfl⟩

@[simp] theorem unitGateEffect_kept (k : Nat) (s : State) :
    (unitGateEffect k s).pending = s.pending ∧ (unitGateEffect k s).fuses = s.fuses := by
  unfold unitGateEffect
  constructor <;> (repeat' split) <;> first | rfl | simp [apply_ite State.pending, apply_ite State.fuses, foldl_pending, foldl_fuses]

@[simp] theorem wakeStartEffect_kept (k : Nat) (s : State) :
    (wakeStartEffect k s).pending = s.pending ∧ (wakeStartEffect k s).fuses = s.fuses := by
  unfold wakeStartEffect
  constructor <;> (repeat' split) <;> first | rfl | simp [apply_ite State.pending, apply_ite State.fuses, foldl_pending, foldl_fuses]

@[simp] theorem wakeCompleteEffect_kept (k : Nat) (s : State) :
    (wakeCompleteEffect k s).pending = s.pending ∧ (wakeCompleteEffect k s).fuses = s.fuses := by
  unfold wakeCompleteEffect
  constructor <;> (repeat' split) <;> first | rfl | simp [apply_ite State.pending, apply_ite State.fuses, foldl_pending, foldl_fuses]

@[simp] theorem state_callUnit_kept (s : State) (u : Nat) :
    (State.callUnit s u).pending = s.pending ∧ (State.callUnit s u).fuses = s.fuses := by
  unfold State.callUnit
  dsimp only
  constructor <;> (repeat' split) <;> first | rfl | simp [apply_ite State.pending, apply_ite State.fuses, foldl_pending, foldl_fuses]

@[simp] theorem state_seqResv_kept (s : State) (c : Cmd) :
    (State.seqResv s c).pending = s.pending ∧ (State.seqResv s c).fuses = s.fuses := ⟨rfl, rfl⟩

@[simp] theorem nopEffect_kept (c : Cmd) (s : State) :
    (nopEffect c s).pending = s.pending ∧ (nopEffect c s).fuses = s.fuses := ⟨rfl, rfl⟩

@[simp] theorem advanceEffect_kept (n : Nat) (c : Cmd) (s : State) :
    (advanceEffect n c s).pending = s.pending ∧ (advanceEffect n c s).fuses = s.fuses := by
  unfold advanceEffect
  simp [apply_ite State.pending, apply_ite State.fuses, foldl_pending, foldl_fuses]

@[simp] theorem slackEffect_kept (n : Nat) (c : Cmd) (s : State) :
    (slackEffect n c s).pending = s.pending ∧ (slackEffect n c s).fuses = s.fuses := by
  unfold slackEffect
  simp [apply_ite State.pending, apply_ite State.fuses, foldl_pending, foldl_fuses]

@[simp] theorem waitcueEffect_kept (n : Nat) (c : Cmd) (s : State) :
    (waitcueEffect n c s).pending = s.pending ∧ (waitcueEffect n c s).fuses = s.fuses := by
  unfold waitcueEffect
  simp [apply_ite State.pending, apply_ite State.fuses, foldl_pending, foldl_fuses]

@[simp] theorem postcueEffect_kept (c : Cmd) (s : State) :
    (postcueEffect c s).pending = s.pending ∧ (postcueEffect c s).fuses = s.fuses := by
  unfold postcueEffect
  simp [apply_ite State.pending, apply_ite State.fuses, foldl_pending, foldl_fuses]

@[simp] theorem state_sleep_kept (s : State) (k level : Nat) (wake : Option Nat) :
    (State.sleep s k level wake).pending = s.pending ∧ (State.sleep s k level wake).fuses = s.fuses := by
  unfold State.sleep
  dsimp only
  constructor <;> (repeat' split) <;> first | rfl | simp [apply_ite State.pending, apply_ite State.fuses, foldl_pending, foldl_fuses]

@[simp] theorem sleepEffect_kept (c : Cmd) (s : State) :
    (sleepEffect c s).pending = s.pending ∧ (sleepEffect c s).fuses = s.fuses := by
  unfold sleepEffect
  simp [apply_ite State.pending, apply_ite State.fuses, foldl_pending, foldl_fuses]

@[simp] theorem qboundEffect_kept (n : Nat) (c : Cmd) (s : State) :
    (qboundEffect n c s).pending = s.pending ∧ (qboundEffect n c s).fuses = s.fuses := by
  unfold qboundEffect
  simp [apply_ite State.pending, apply_ite State.fuses, foldl_pending, foldl_fuses]

@[simp] theorem qwaitEffect_kept (n : Nat) (c : Cmd) (s : State) :
    (qwaitEffect n c s).pending = s.pending ∧ (qwaitEffect n c s).fuses = s.fuses := by
  unfold qwaitEffect
  simp [apply_ite State.pending, apply_ite State.fuses, foldl_pending, foldl_fuses]

@[simp] theorem qfreeEffect_kept (c : Cmd) (s : State) :
    (qfreeEffect c s).pending = s.pending ∧ (qfreeEffect c s).fuses = s.fuses := by
  unfold qfreeEffect
  simp [apply_ite State.pending, apply_ite State.fuses, foldl_pending, foldl_fuses]

@[simp] theorem bgslotEffect_kept (n : Nat) (c : Cmd) (s : State) :
    (bgslotEffect n c s).pending = s.pending ∧ (bgslotEffect n c s).fuses = s.fuses := by
  unfold bgslotEffect
  simp [apply_ite State.pending, apply_ite State.fuses, foldl_pending, foldl_fuses]

@[simp] theorem bgslotCloseEffect_kept (s : State) :
    (bgslotCloseEffect s).pending = s.pending ∧ (bgslotCloseEffect s).fuses = s.fuses := by
  unfold bgslotCloseEffect
  constructor <;> (repeat' split) <;> first | rfl | simp [apply_ite State.pending, apply_ite State.fuses, foldl_pending, foldl_fuses]

@[simp] theorem expandEffect_kept (n : Nat) (c : Cmd) (s : State) :
    (expandEffect n c s).pending = s.pending ∧ (expandEffect n c s).fuses = s.fuses := by
  unfold expandEffect
  simp [apply_ite State.pending, apply_ite State.fuses, foldl_pending, foldl_fuses]

@[simp] theorem stependEffect_kept (n : Nat) (c : Cmd) (s : State) :
    (stependEffect n c s).pending = s.pending ∧ (stependEffect n c s).fuses = s.fuses := by
  unfold stependEffect
  simp [apply_ite State.pending, apply_ite State.fuses, foldl_pending, foldl_fuses]

@[simp] theorem startEffect_kept (c : Cmd) (step : Nat) (s : State) :
    (startEffect c step s).pending = s.pending ∧ (startEffect c step s).fuses = s.fuses := by
  unfold startEffect
  simp [apply_ite State.pending, apply_ite State.fuses, foldl_pending, foldl_fuses]

@[simp] theorem seqCommand_kept (n : Nat) (c : Cmd) (s : State) :
    (seqCommand n c s).pending = s.pending ∧ (seqCommand n c s).fuses = s.fuses := by
  unfold seqCommand
  simp [apply_ite State.pending, apply_ite State.fuses, foldl_pending, foldl_fuses]

@[simp] theorem deliverCommand_kept (n : Nat) (c : Cmd) (step : Nat) (s : State) :
    (deliverCommand n c step s).pending = s.pending ∧ (deliverCommand n c step s).fuses = s.fuses := by
  unfold deliverCommand
  dsimp only
  constructor <;> (repeat' split) <;> first | rfl | simp [apply_ite State.pending, apply_ite State.fuses, foldl_pending, foldl_fuses]

@[simp] theorem state_setExpand_kept (s : State) (n : Nat) (e : Option Expansion) :
    (State.setExpand s n e).pending = s.pending ∧ (State.setExpand s n e).fuses = s.fuses := ⟨rfl, rfl⟩

@[simp] theorem state_countRecomp_kept (s : State) (step stage b : Nat) :
    (State.countRecomp s step stage b).pending = s.pending ∧ (State.countRecomp s step stage b).fuses = s.fuses := by
  unfold State.countRecomp
  simp [apply_ite State.pending, apply_ite State.fuses, foldl_pending, foldl_fuses]

@[simp] theorem state_turnBack_kept (s : State) (n : Nat) (e : Expansion) (b : Nat) :
    (State.turnBack s n e b).pending = s.pending ∧ (State.turnBack s n e b).fuses = s.fuses := by
  unfold State.turnBack
  simp [apply_ite State.pending, apply_ite State.fuses, foldl_pending, foldl_fuses]

@[simp] theorem expandNext_kept (fuel n : Nat) (s : State) :
    (expandNext fuel n s).1.pending = s.pending ∧ (expandNext fuel n s).1.fuses = s.fuses := by
  induction fuel generalizing s with
  | zero => exact ⟨rfl, rfl⟩
  | succ fuel ih =>
    unfold expandNext
    dsimp only
    repeat' split
    all_goals simp [ih]

@[simp] theorem state_expandIssued_kept (s : State) (n : Nat) (c : Cmd) :
    (State.expandIssued s n c).pending = s.pending ∧ (State.expandIssued s n c).fuses = s.fuses := by
  unfold State.expandIssued
  constructor <;> (repeat' split) <;> first | rfl | simp [apply_ite State.pending, apply_ite State.fuses, foldl_pending, foldl_fuses]

@[simp] theorem state_nextItem_kept (s : State) (n : Nat) :
    (State.nextItem s n).1.pending = s.pending ∧ (State.nextItem s n).1.fuses = s.fuses := by
  unfold State.nextItem
  dsimp only
  constructor <;> (repeat' split) <;> first | rfl | simp [apply_ite State.pending, apply_ite State.fuses, foldl_pending, foldl_fuses]

@[simp] theorem state_growLag_kept (s : State) (n d : Nat) :
    (State.growLag s n d).pending = s.pending ∧ (State.growLag s n d).fuses = s.fuses := by
  unfold State.growLag
  simp [apply_ite State.pending, apply_ite State.fuses, foldl_pending, foldl_fuses]

@[simp] theorem state_stretch_kept (s : State) (n head : Nat) :
    (State.stretch s n head).pending = s.pending ∧ (State.stretch s n head).fuses = s.fuses := by
  unfold State.stretch
  simp [apply_ite State.pending, apply_ite State.fuses, foldl_pending, foldl_fuses]

@[simp] theorem state_lateEvent_kept (s : State) (c : Cmd) (code : Nat) :
    (State.lateEvent s c code).pending = s.pending ∧ (State.lateEvent s c code).fuses = s.fuses := by
  unfold State.lateEvent
  dsimp only
  constructor <;> (repeat' split) <;> first | rfl | simp [apply_ite State.pending, apply_ite State.fuses, foldl_pending, foldl_fuses]

@[simp] theorem state_issue_kept (s : State) (n : Nat) (c : Cmd) (inserted : Bool) (due off : Nat) :
    (s.issue n c inserted due off).pending = s.pending ∧ (s.issue n c inserted due off).fuses = s.fuses := by
  unfold State.issue
  dsimp only
  constructor <;> cases causeCounter (s.fld (Reg.seqSStatus n) 0 4) <;> simp [apply_ite State.pending, apply_ite State.fuses, foldl_pending, foldl_fuses]

@[simp] theorem commandIssueEffect_kept (n : Nat) (s : State) :
    (commandIssueEffect n s).pending = s.pending ∧ (commandIssueEffect n s).fuses = s.fuses := by
  unfold commandIssueEffect
  dsimp only
  constructor <;> (repeat' split) <;> first | rfl | simp [apply_ite State.pending, apply_ite State.fuses, foldl_pending, foldl_fuses]

end Sys2Proof.Machine
end

