-- ==== Sys2Proof/Laws/KeptCores.lean ====
section
/-! SUPPORT. The operations of Machine/Cores.lean keep the queue and the fuses. -/

set_option linter.unusedSimpArgs false

namespace Sys2Proof.Machine

@[simp] theorem state_setCore_kept (s : State) (k : Nat) (c : Core) :
    (State.setCore s k c).pending = s.pending ∧ (State.setCore s k c).fuses = s.fuses := ⟨rfl, rfl⟩

@[simp] theorem zcRun_kept (k : Nat) (insn : Word) (f3 : Nat) (f : ZcInsn → State → State) (s : State)
    (h : ∀ i s, (f i s).pending = s.pending ∧ (f i s).fuses = s.fuses) :
    (zcRun k insn f3 f s).pending = s.pending ∧ (zcRun k insn f3 f s).fuses = s.fuses := by
  unfold zcRun
  dsimp only
  repeat' split
  all_goals simp [h]

@[simp] theorem zcIssueEffect_kept (k : Nat) (insn : Word) (s : State) :
    (zcIssueEffect k insn s).pending = s.pending ∧ (zcIssueEffect k insn s).fuses = s.fuses := by
  unfold zcIssueEffect
  simp [apply_ite State.pending, apply_ite State.fuses, foldl_pending, foldl_fuses]

@[simp] theorem zcWaitEffect_kept (k : Nat) (insn : Word) (s : State) :
    (zcWaitEffect k insn s).pending = s.pending ∧ (zcWaitEffect k insn s).fuses = s.fuses := by
  unfold zcWaitEffect
  simp [apply_ite State.pending, apply_ite State.fuses, foldl_pending, foldl_fuses]

@[simp] theorem zcTimeEffect_kept (k : Nat) (insn : Word) (s : State) :
    (zcTimeEffect k insn s).pending = s.pending ∧ (zcTimeEffect k insn s).fuses = s.fuses := by
  unfold zcTimeEffect
  simp [apply_ite State.pending, apply_ite State.fuses, foldl_pending, foldl_fuses]

@[simp] theorem zcCueEffect_kept (k : Nat) (insn : Word) (s : State) :
    (zcCueEffect k insn s).pending = s.pending ∧ (zcCueEffect k insn s).fuses = s.fuses := by
  unfold zcCueEffect
  simp [apply_ite State.pending, apply_ite State.fuses, foldl_pending, foldl_fuses]

@[simp] theorem zcCuewaitEffect_kept (k : Nat) (insn : Word) (s : State) :
    (zcCuewaitEffect k insn s).pending = s.pending ∧ (zcCuewaitEffect k insn s).fuses = s.fuses := by
  unfold zcCuewaitEffect
  simp [apply_ite State.pending, apply_ite State.fuses, foldl_pending, foldl_fuses]

@[simp] theorem zcBeatEffect_kept (k : Nat) (insn : Word) (s : State) :
    (zcBeatEffect k insn s).pending = s.pending ∧ (zcBeatEffect k insn s).fuses = s.fuses := by
  unfold zcBeatEffect
  simp [apply_ite State.pending, apply_ite State.fuses, foldl_pending, foldl_fuses]

@[simp] theorem zcDoneEffect_kept (k : Nat) (insn : Word) (s : State) :
    (zcDoneEffect k insn s).pending = s.pending ∧ (zcDoneEffect k insn s).fuses = s.fuses := by
  unfold zcDoneEffect
  simp [apply_ite State.pending, apply_ite State.fuses, foldl_pending, foldl_fuses]

@[simp] theorem zcWaitResumeEffect_kept (k : Nat) (s : State) :
    (zcWaitResumeEffect k s).pending = s.pending ∧ (zcWaitResumeEffect k s).fuses = s.fuses := by
  unfold zcWaitResumeEffect
  dsimp only
  constructor <;> (repeat' split) <;> first | rfl | simp [apply_ite State.pending, apply_ite State.fuses, foldl_pending, foldl_fuses]

end Sys2Proof.Machine
end

