-- ==== Sys2Proof/Laws/KeptRoce.lean ====
section
/-! SUPPORT. The operations of Machine/Roce.lean keep the queue and the fuses. -/

set_option linter.unusedSimpArgs false

namespace Sys2Proof.Machine

@[simp] theorem state_setQp_kept (s : State) (q : Nat) (x : QueuePair) :
    (State.setQp s q x).pending = s.pending ∧ (State.setQp s q x).fuses = s.fuses := ⟨rfl, rfl⟩

@[simp] theorem state_roceRead_kept (s : State) (w : RoceWhat) (a n : Nat) :
    (State.roceRead s w a n).pending = s.pending ∧ (State.roceRead s w a n).fuses = s.fuses := by
  unfold State.roceRead
  dsimp only
  constructor <;> (repeat' split) <;> simp [apply_ite State.pending, apply_ite State.fuses, foldl_pending, foldl_fuses] <;> (first | rw [foldl_pending] | rw [foldl_fuses]) <;>
    (try intros) <;> (repeat' split) <;> simp [apply_ite State.pending, apply_ite State.fuses, foldl_pending, foldl_fuses]

@[simp] theorem state_dropReads_kept (s : State) :
    (State.dropReads s).pending = s.pending ∧ (State.dropReads s).fuses = s.fuses := ⟨rfl, rfl⟩

@[simp] theorem state_readImage'_kept (s : State) :
    (State.readImage' s).pending = s.pending ∧ (State.readImage' s).fuses = s.fuses := by
  unfold State.readImage'
  simp [apply_ite State.pending, apply_ite State.fuses, foldl_pending, foldl_fuses]

@[simp] theorem state_readImage__kept (s : State) :
    (State.readImage' s).pending = s.pending ∧ (State.readImage' s).fuses = s.fuses := by
  unfold State.readImage'
  dsimp only
  constructor <;> (repeat' split) <;> simp [apply_ite State.pending, apply_ite State.fuses, foldl_pending, foldl_fuses] <;> (first | rw [foldl_pending] | rw [foldl_fuses]) <;>
    (try intros) <;> (repeat' split) <;> simp [apply_ite State.pending, apply_ite State.fuses, foldl_pending, foldl_fuses]

@[simp] theorem state_nextImage_kept (s : State) (replace : Bool) :
    (State.nextImage s replace).pending = s.pending ∧ (State.nextImage s replace).fuses = s.fuses := by
  unfold State.nextImage
  simp [apply_ite State.pending, apply_ite State.fuses, foldl_pending, foldl_fuses]

end Sys2Proof.Machine
end

