-- ==== Sys2Proof/Laws/KeptVisor.lean ====
section
/-! SUPPORT. The operations of Machine/Visor.lean keep the queue and the fuses. -/

set_option linter.unusedSimpArgs false

namespace Sys2Proof.Machine

@[simp] theorem state_stage_kept (s : State) (tail : List Byte) :
    (State.stage s tail).pending = s.pending ∧ (State.stage s tail).fuses = s.fuses := by
  unfold State.stage
  simp [apply_ite State.pending, apply_ite State.fuses, foldl_pending, foldl_fuses]

@[simp] theorem state_goEntry_kept (s : State) (tail : List Byte) :
    (State.goEntry s tail).pending = s.pending ∧ (State.goEntry s tail).fuses = s.fuses := by
  unfold State.goEntry
  simp [apply_ite State.pending, apply_ite State.fuses, foldl_pending, foldl_fuses]

@[simp] theorem state_flushLog_kept (s : State) :
    (State.flushLog s).pending = s.pending ∧ (State.flushLog s).fuses = s.fuses := by
  unfold State.flushLog
  simp [apply_ite State.pending, apply_ite State.fuses, foldl_pending, foldl_fuses]

@[simp] theorem state_makeRoom_kept (s : State) :
    (State.makeRoom s).pending = s.pending ∧ (State.makeRoom s).fuses = s.fuses := by
  unfold State.makeRoom
  simp [apply_ite State.pending, apply_ite State.fuses, foldl_pending, foldl_fuses]

@[simp] theorem state_logDecision_kept (s : State) (kind : Nat) (body : List Byte) :
    (State.logDecision s kind body).pending = s.pending ∧ (State.logDecision s kind body).fuses = s.fuses := by
  unfold State.logDecision
  simp [apply_ite State.pending, apply_ite State.fuses, foldl_pending, foldl_fuses]

@[simp] theorem telemetryPeriodEffect_kept (s : State) :
    (telemetryPeriodEffect s).pending = s.pending ∧ (telemetryPeriodEffect s).fuses = s.fuses := by
  unfold telemetryPeriodEffect
  simp [apply_ite State.pending, apply_ite State.fuses, foldl_pending, foldl_fuses]

@[simp] theorem state_collect_kept (s : State) (e : Nat) (h : HistEntry) :
    (State.collect s e h).pending = s.pending ∧ (State.collect s e h).fuses = s.fuses := by
  unfold State.collect
  simp [apply_ite State.pending, apply_ite State.fuses, foldl_pending, foldl_fuses]

@[simp] theorem state_collectAll_kept (s : State) :
    (State.collectAll s).pending = s.pending ∧ (State.collectAll s).fuses = s.fuses := by
  unfold State.collectAll
  simp [apply_ite State.pending, apply_ite State.fuses, foldl_pending, foldl_fuses]

@[simp] theorem state_noisePair_kept (s : State) (n : Nat) :
    (State.noisePair s n).pending = s.pending ∧ (State.noisePair s n).fuses = s.fuses := by
  unfold State.noisePair
  simp [apply_ite State.pending, apply_ite State.fuses, foldl_pending, foldl_fuses]

@[simp] theorem state_noteNoise_kept (s : State) (dev n : Nat) (sd qd : Word) (full : Bool) :
    (State.noteNoise s dev n sd qd full).pending = s.pending ∧ (State.noteNoise s dev n sd qd full).fuses = s.fuses := by
  unfold State.noteNoise
  simp [apply_ite State.pending, apply_ite State.fuses, foldl_pending, foldl_fuses]

@[simp] theorem noiseMessageEffect_kept (dev n : Nat) (sd qd : Word) (full : Bool) (s : State) :
    (noiseMessageEffect dev n sd qd full s).pending = s.pending ∧ (noiseMessageEffect dev n sd qd full s).fuses = s.fuses := by
  unfold noiseMessageEffect
  simp [apply_ite State.pending, apply_ite State.fuses, foldl_pending, foldl_fuses]

@[simp] theorem state_stepNoise_kept (s : State) (n : Nat) :
    (State.stepNoise s n).pending = s.pending ∧ (State.stepNoise s n).fuses = s.fuses := by
  unfold State.stepNoise
  simp [apply_ite State.pending, apply_ite State.fuses, foldl_pending, foldl_fuses]

end Sys2Proof.Machine
end

