-- ==== Sys2Proof/Laws/KeptBrim.lean ====
section
/-! SUPPORT. The operations of Machine/Brim.lean keep the queue and the fuses. -/

set_option linter.unusedSimpArgs false

namespace Sys2Proof.Machine

@[simp] theorem state_setShard_kept (s : State) (x : Nat) (v : Shard) :
    (State.setShard s x v).pending = s.pending ∧ (State.setShard s x v).fuses = s.fuses := ⟨rfl, rfl⟩

@[simp] theorem state_setPport_kept (s : State) (p : Nat) (v : PPort) :
    (State.setPport s p v).pending = s.pending ∧ (State.setPport s p v).fuses = s.fuses := ⟨rfl, rfl⟩

@[simp] theorem state_showUnacked_kept (s : State) (p : Nat) :
    (State.showUnacked s p).pending = s.pending ∧ (State.showUnacked s p).fuses = s.fuses := ⟨rfl, rfl⟩

@[simp] theorem state_queueC_kept (s : State) (p : Nat) (bytes : List Byte) :
    (State.queueC s p bytes).pending = s.pending ∧ (State.queueC s p bytes).fuses = s.fuses := by
  unfold State.queueC
  simp [apply_ite State.pending, apply_ite State.fuses, foldl_pending, foldl_fuses]

@[simp] theorem state_queueD_kept (s : State) (p : Nat) (bytes : List Byte) (background : Bool) :
    (State.queueD s p bytes background).pending = s.pending ∧ (State.queueD s p bytes background).fuses = s.fuses := ⟨rfl, rfl⟩

@[simp] theorem state_sendOut_kept (s : State) (site : Nat) (m : Outgoing) :
    (State.sendOut s site m).pending = s.pending ∧ (State.sendOut s site m).fuses = s.fuses := by
  unfold State.sendOut
  constructor <;> (repeat' split) <;> first | rfl | simp [apply_ite State.pending, apply_ite State.fuses, foldl_pending, foldl_fuses]

@[simp] theorem state_sendSites_kept (s : State) (sites : List Nat) (m : Outgoing) :
    (State.sendSites s sites m).pending = s.pending ∧ (State.sendSites s sites m).fuses = s.fuses := by
  unfold State.sendSites
  simp [apply_ite State.pending, apply_ite State.fuses, foldl_pending, foldl_fuses]

@[simp] theorem state_handOver_kept (s : State) (e : SliceEntry) (g : Group) (step : Nat) (r : Rec) :
    (State.handOver s e g step r).1.pending = s.pending ∧ (State.handOver s e g step r).1.fuses = s.fuses := by
  unfold State.handOver
  constructor <;> (repeat' split) <;> first | rfl | simp [apply_ite State.pending, apply_ite State.fuses, foldl_pending, foldl_fuses]

@[simp] theorem roundSendEffect_kept (x : Nat) (s : State) :
    (roundSendEffect x s).pending = s.pending ∧ (roundSendEffect x s).fuses = s.fuses := by
  unfold roundSendEffect
  simp [apply_ite State.pending, apply_ite State.fuses, foldl_pending, foldl_fuses]

@[simp] theorem state_touched_kept (s : State) (x : Nat) :
    (State.touched s x).pending = s.pending ∧ (State.touched s x).fuses = s.fuses := ⟨rfl, rfl⟩

@[simp] theorem state_takeC_kept (s : State) (m : ClassC) :
    (State.takeC s m).pending = s.pending ∧ (State.takeC s m).fuses = s.fuses := by
  unfold State.takeC
  constructor <;> (repeat' split) <;> first | rfl | simp [apply_ite State.pending, apply_ite State.fuses, foldl_pending, foldl_fuses]

@[simp] theorem state_hear_kept (s : State) (m : ClassC) (f : State → State)
    (h : ∀ s, (f s).pending = s.pending ∧ (f s).fuses = s.fuses) :
    (s.hear m f).pending = s.pending ∧ (s.hear m f).fuses = s.fuses := by
  unfold State.hear
  dsimp only
  constructor <;> (repeat' split) <;> simp [h]

@[simp] theorem state_relayC_kept (s : State) (m : ClassC) :
    (State.relayC s m).pending = s.pending ∧ (State.relayC s m).fuses = s.fuses := ⟨rfl, rfl⟩

@[simp] theorem state_settleWait_kept (s : State) (x : Nat) :
    (State.settleWait s x).pending = s.pending ∧ (State.settleWait s x).fuses = s.fuses := by
  unfold State.settleWait
  simp [apply_ite State.pending, apply_ite State.fuses, foldl_pending, foldl_fuses]

@[simp] theorem state_sendJoin_kept (s : State) (x : Nat) :
    (State.sendJoin s x).pending = s.pending ∧ (State.sendJoin s x).fuses = s.fuses := by
  unfold State.sendJoin
  simp [apply_ite State.pending, apply_ite State.fuses, foldl_pending, foldl_fuses]

@[simp] theorem state_noteRound_kept (s : State) (x : Nat) (m : ClassC) :
    (State.noteRound s x m).pending = s.pending ∧ (State.noteRound s x m).fuses = s.fuses := by
  unfold State.noteRound
  simp [apply_ite State.pending, apply_ite State.fuses, foldl_pending, foldl_fuses]

@[simp] theorem roundEffect_kept (m : ClassC) (s : State) :
    (roundEffect m s).pending = s.pending ∧ (roundEffect m s).fuses = s.fuses := by
  unfold roundEffect
  dsimp only
  constructor <;> (repeat' split) <;> simp [apply_ite State.pending, apply_ite State.fuses, foldl_pending, foldl_fuses] <;> (first | rw [foldl_pending] | rw [foldl_fuses]) <;>
    (try intros) <;> (repeat' split) <;> simp [apply_ite State.pending, apply_ite State.fuses, foldl_pending, foldl_fuses]

@[simp] theorem state_retain_kept (s : State) (x : Nat) :
    (State.retain s x).pending = s.pending ∧ (State.retain s x).fuses = s.fuses := ⟨rfl, rfl⟩

@[simp] theorem state_askMissing_kept (s : State) (x : Nat) (m : ClassC) :
    (State.askMissing s x m).pending = s.pending ∧ (State.askMissing s x m).fuses = s.fuses := by
  unfold State.askMissing
  dsimp only
  constructor <;> (repeat' split) <;> simp [apply_ite State.pending, apply_ite State.fuses, foldl_pending, foldl_fuses] <;> (first | rw [foldl_pending] | rw [foldl_fuses]) <;>
    (try intros) <;> (repeat' split) <;> simp [apply_ite State.pending, apply_ite State.fuses, foldl_pending, foldl_fuses]

@[simp] theorem state_sendFetch_kept (s : State) (x i n : Nat) :
    (State.sendFetch s x i n).pending = s.pending ∧ (State.sendFetch s x i n).fuses = s.fuses := by
  unfold State.sendFetch
  dsimp only
  constructor <;> (repeat' split) <;> first | rfl | simp [apply_ite State.pending, apply_ite State.fuses, foldl_pending, foldl_fuses]

@[simp] theorem state_ownWeight_kept (s : State) (x : Nat) (m : ClassC) :
    (State.ownWeight s x m).pending = s.pending ∧ (State.ownWeight s x m).fuses = s.fuses := by
  unfold State.ownWeight
  simp [apply_ite State.pending, apply_ite State.fuses, foldl_pending, foldl_fuses]

@[simp] theorem state_acceptCommit_kept (s : State) (x : Nat) (m : ClassC) :
    (State.acceptCommit s x m).pending = s.pending ∧ (State.acceptCommit s x m).fuses = s.fuses := by
  unfold State.acceptCommit
  dsimp only
  constructor <;> (repeat' split) <;> simp [apply_ite State.pending, apply_ite State.fuses, foldl_pending, foldl_fuses] <;> (first | rw [foldl_pending] | rw [foldl_fuses]) <;>
    (try intros) <;> (repeat' split) <;> simp [apply_ite State.pending, apply_ite State.fuses, foldl_pending, foldl_fuses]

@[simp] theorem commitEffect_kept (m : ClassC) (s : State) :
    (commitEffect m s).pending = s.pending ∧ (commitEffect m s).fuses = s.fuses := by
  unfold commitEffect
  dsimp only
  constructor <;> (repeat' split) <;> simp [apply_ite State.pending, apply_ite State.fuses, foldl_pending, foldl_fuses] <;> (first | rw [foldl_pending] | rw [foldl_fuses]) <;>
    (try intros) <;> (repeat' split) <;> simp [apply_ite State.pending, apply_ite State.fuses, foldl_pending, foldl_fuses]

@[simp] theorem state_tryCommit_kept (s : State) (x : Nat) :
    (State.tryCommit s x).pending = s.pending ∧ (State.tryCommit s x).fuses = s.fuses := by
  unfold State.tryCommit
  dsimp only
  constructor <;> (repeat' split) <;> simp [apply_ite State.pending, apply_ite State.fuses, foldl_pending, foldl_fuses] <;> (first | rw [foldl_pending] | rw [foldl_fuses]) <;>
    (try intros) <;> (repeat' split) <;> simp [apply_ite State.pending, apply_ite State.fuses, foldl_pending, foldl_fuses]

@[simp] theorem leaderCommitEffect_kept (x : Nat) (s : State) :
    (leaderCommitEffect x s).pending = s.pending ∧ (leaderCommitEffect x s).fuses = s.fuses := by
  unfold leaderCommitEffect
  simp [apply_ite State.pending, apply_ite State.fuses, foldl_pending, foldl_fuses]

@[simp] theorem commitDeadlineEffect_kept (x : Nat) (s : State) :
    (commitDeadlineEffect x s).pending = s.pending ∧ (commitDeadlineEffect x s).fuses = s.fuses := by
  unfold commitDeadlineEffect
  dsimp only
  constructor <;> (repeat' split) <;> simp [apply_ite State.pending, apply_ite State.fuses, foldl_pending, foldl_fuses] <;> (first | rw [foldl_pending] | rw [foldl_fuses]) <;>
    (try intros) <;> (repeat' split) <;> simp [apply_ite State.pending, apply_ite State.fuses, foldl_pending, foldl_fuses]

@[simp] theorem siteSilentEffect_kept (site : Nat) (s : State) :
    (siteSilentEffect site s).pending = s.pending ∧ (siteSilentEffect site s).fuses = s.fuses := by
  unfold siteSilentEffect
  simp [apply_ite State.pending, apply_ite State.fuses, foldl_pending, foldl_fuses]

@[simp] theorem memberRemovalEffect_kept (x site : Nat) (s : State) :
    (memberRemovalEffect x site s).pending = s.pending ∧ (memberRemovalEffect x site s).fuses = s.fuses := by
  unfold memberRemovalEffect
  dsimp only
  constructor <;> (repeat' split) <;> first | rfl | simp [apply_ite State.pending, apply_ite State.fuses, foldl_pending, foldl_fuses]

@[simp] theorem joinEffect_kept (m : ClassC) (s : State) :
    (joinEffect m s).pending = s.pending ∧ (joinEffect m s).fuses = s.fuses := by
  unfold joinEffect
  dsimp only
  constructor <;> (repeat' split) <;> simp [apply_ite State.pending, apply_ite State.fuses, foldl_pending, foldl_fuses] <;> (first | rw [foldl_pending] | rw [foldl_fuses]) <;>
    (try intros) <;> (repeat' split) <;> simp [apply_ite State.pending, apply_ite State.fuses, foldl_pending, foldl_fuses]

@[simp] theorem state_storeRecord_kept (s : State) (e : MapEntry) (body : List Byte) :
    (State.storeRecord s e body).pending = s.pending ∧ (State.storeRecord s e body).fuses = s.fuses := by
  unfold State.storeRecord
  constructor <;> (repeat' split) <;> first | rfl | simp [apply_ite State.pending, apply_ite State.fuses, foldl_pending, foldl_fuses]

@[simp] theorem fetchEffect_kept (m : ClassC) (s : State) :
    (fetchEffect m s).pending = s.pending ∧ (fetchEffect m s).fuses = s.fuses := by
  unfold fetchEffect
  dsimp only
  constructor <;> (repeat' split) <;> simp [apply_ite State.pending, apply_ite State.fuses, foldl_pending, foldl_fuses] <;> (first | rw [foldl_pending] | rw [foldl_fuses]) <;>
    (try intros) <;> (repeat' split) <;> simp [apply_ite State.pending, apply_ite State.fuses, foldl_pending, foldl_fuses]

@[simp] theorem state_serveWaiting_kept (s : State) :
    (State.serveWaiting s).pending = s.pending ∧ (State.serveWaiting s).fuses = s.fuses := by
  unfold State.serveWaiting
  simp [apply_ite State.pending, apply_ite State.fuses, foldl_pending, foldl_fuses]

@[simp] theorem state_markCatchup_kept (s : State) (x : Nat) (is : List (Nat × Bool)) :
    (State.markCatchup s x is).pending = s.pending ∧ (State.markCatchup s x is).fuses = s.fuses := by
  unfold State.markCatchup
  simp [apply_ite State.pending, apply_ite State.fuses, foldl_pending, foldl_fuses]

@[simp] theorem state_renewDigest_kept (s : State) (e : MapEntry) (omuZero : Bool) :
    (State.renewDigest s e omuZero).pending = s.pending ∧ (State.renewDigest s e omuZero).fuses = s.fuses := ⟨rfl, rfl⟩

@[simp] theorem state_install_kept (s : State) (x i : Nat) (e : MapEntry) (around : Nat) (anchor mom : List Nat) (census : Bool) :
    (s.install x i e around anchor mom census).pending = s.pending ∧
      (s.install x i e around anchor mom census).fuses = s.fuses := by
  unfold State.install
  dsimp only
  constructor <;> simp only [↓state_putFld_kept, ↓state_renewDigest_kept, ↓state_storeRecord_kept, ↓state_count_kept,
    ↓state_setShard_kept]

@[simp] theorem state_takeServed_kept (s : State) (x i around : Nat) (digest : List Byte) (anchor mom : List Nat) :
    (State.takeServed s x i around digest anchor mom).pending = s.pending ∧ (State.takeServed s x i around digest anchor mom).fuses = s.fuses := by
  unfold State.takeServed
  constructor <;> (repeat' split) <;> first | rfl | simp [apply_ite State.pending, apply_ite State.fuses, foldl_pending, foldl_fuses]

@[simp] theorem state_takeSlices_kept (n : Nat) (s : State) (x : Nat) (bs : List Byte) :
    (s.takeSlices n x bs).pending = s.pending ∧ (s.takeSlices n x bs).fuses = s.fuses := by
  induction n generalizing s bs with
  | zero => exact ⟨rfl, rfl⟩
  | succ n ih =>
    unfold State.takeSlices
    simp [ih]

@[simp] theorem state_takeD_kept (s : State) (p : Nat) (o : DObject) :
    (State.takeD s p o).pending = s.pending ∧ (State.takeD s p o).fuses = s.fuses := ⟨rfl, rfl⟩

@[simp] theorem anchorObjectEffect_kept (p : Nat) (o : DObject) (s : State) :
    (anchorObjectEffect p o s).pending = s.pending ∧ (anchorObjectEffect p o s).fuses = s.fuses := by
  unfold anchorObjectEffect
  dsimp only
  constructor <;> (repeat' split) <;> simp [apply_ite State.pending, apply_ite State.fuses, foldl_pending, foldl_fuses] <;> (first | rw [foldl_pending] | rw [foldl_fuses]) <;>
    (try intros) <;> (repeat' split) <;> simp [apply_ite State.pending, apply_ite State.fuses, foldl_pending, foldl_fuses]

@[simp] theorem state_noteHeld_kept (s : State) :
    (State.noteHeld s).pending = s.pending ∧ (State.noteHeld s).fuses = s.fuses := by
  unfold State.noteHeld
  simp [apply_ite State.pending, apply_ite State.fuses, foldl_pending, foldl_fuses]

@[simp] theorem deltaObjectEffect_kept (p : Nat) (o : DObject) (s : State) :
    (deltaObjectEffect p o s).pending = s.pending ∧ (deltaObjectEffect p o s).fuses = s.fuses := by
  unfold deltaObjectEffect
  simp [apply_ite State.pending, apply_ite State.fuses, foldl_pending, foldl_fuses]

@[simp] theorem state_adopt_kept (s : State) (src x : Nat) (l : List MapEntry) :
    (State.adopt s src x l).pending = s.pending ∧ (State.adopt s src x l).fuses = s.fuses := ⟨rfl, rfl⟩

@[simp] theorem state_adoptLost_kept (s : State) (x : Nat) :
    (State.adoptLost s x).pending = s.pending ∧ (State.adoptLost s x).fuses = s.fuses := ⟨rfl, rfl⟩

@[simp] theorem state_dropShards_kept (s : State) :
    (State.dropShards s).pending = s.pending ∧ (State.dropShards s).fuses = s.fuses := ⟨rfl, rfl⟩

@[simp] theorem state_announceMoved_kept (s : State) (x : Nat) :
    (State.announceMoved s x).pending = s.pending ∧ (State.announceMoved s x).fuses = s.fuses := by
  unfold State.announceMoved
  simp [apply_ite State.pending, apply_ite State.fuses, foldl_pending, foldl_fuses]

@[simp] theorem state_reportRefused_kept (s : State) (tensor first r : Nat) :
    (State.reportRefused s tensor first r).pending = s.pending ∧ (State.reportRefused s tensor first r).fuses = s.fuses := by
  unfold State.reportRefused
  dsimp only
  constructor <;> (repeat' split) <;> first | rfl | simp [apply_ite State.pending, apply_ite State.fuses, foldl_pending, foldl_fuses]

@[simp] theorem state_applyPoint_kept (s : State) (x : Nat) :
    (State.applyPoint s x).pending = s.pending ∧ (State.applyPoint s x).fuses = s.fuses := by
  unfold State.applyPoint
  dsimp only
  constructor <;> (repeat' split) <;> simp [apply_ite State.pending, apply_ite State.fuses, foldl_pending, foldl_fuses] <;> (first | rw [foldl_pending] | rw [foldl_fuses]) <;>
    (try intros) <;> (repeat' split) <;> simp [apply_ite State.pending, apply_ite State.fuses, foldl_pending, foldl_fuses]

@[simp] theorem state_endCut_kept (s : State) (step : Nat) :
    (State.endCut s step).pending = s.pending ∧ (State.endCut s step).fuses = s.fuses := by
  unfold State.endCut
  simp [apply_ite State.pending, apply_ite State.fuses, foldl_pending, foldl_fuses]

@[simp] theorem state_startCut_kept (s : State) (n : Nat) :
    (State.startCut s n).pending = s.pending ∧ (State.startCut s n).fuses = s.fuses := by
  unfold State.startCut
  simp [apply_ite State.pending, apply_ite State.fuses, foldl_pending, foldl_fuses]

@[simp] theorem state_roundApplied_kept (s : State) :
    (State.roundApplied s).pending = s.pending ∧ (State.roundApplied s).fuses = s.fuses := by
  unfold State.roundApplied
  simp [apply_ite State.pending, apply_ite State.fuses, foldl_pending, foldl_fuses]

@[simp] theorem state_brimBoundary_kept (s : State) (n : Nat) :
    (State.brimBoundary s n).pending = s.pending ∧ (State.brimBoundary s n).fuses = s.fuses := by
  unfold State.brimBoundary
  dsimp only
  constructor <;> (repeat' split) <;> simp [apply_ite State.pending, apply_ite State.fuses, foldl_pending, foldl_fuses] <;> (first | rw [foldl_pending] | rw [foldl_fuses]) <;>
    (try intros) <;> (repeat' split) <;> simp [apply_ite State.pending, apply_ite State.fuses, foldl_pending, foldl_fuses]

@[simp] theorem state_brimFirst_kept (s : State) :
    (State.brimFirst s).pending = s.pending ∧ (State.brimFirst s).fuses = s.fuses := by
  unfold State.brimFirst
  simp [apply_ite State.pending, apply_ite State.fuses, foldl_pending, foldl_fuses]

@[simp] theorem state_brimResume_kept (s : State) :
    (State.brimResume s).pending = s.pending ∧ (State.brimResume s).fuses = s.fuses := ⟨rfl, rfl⟩

@[simp] theorem state_brimStart_kept (s : State) :
    (State.brimStart s).pending = s.pending ∧ (State.brimStart s).fuses = s.fuses := by
  unfold State.brimStart
  simp [apply_ite State.pending, apply_ite State.fuses, foldl_pending, foldl_fuses]

end Sys2Proof.Machine
end

