-- ==== Sys2Proof/Laws/KeptPartner.lean ====
section
/-! SUPPORT. The operations of Machine/Partner.lean keep the queue and the fuses. -/

set_option linter.unusedSimpArgs false

namespace Sys2Proof.Machine

@[simp] theorem state_setAssoc_kept (s : State) (a : Nat) (x : Assoc) :
    (State.setAssoc s a x).pending = s.pending ∧ (State.setAssoc s a x).fuses = s.fuses := ⟨rfl, rfl⟩

@[simp] theorem state_emitControl_kept (s : State) (h : Nat) (c : Control) :
    (State.emitControl s h c).pending = s.pending ∧ (State.emitControl s h c).fuses = s.fuses := by
  unfold State.emitControl
  simp [apply_ite State.pending, apply_ite State.fuses, foldl_pending, foldl_fuses]

@[simp] theorem state_sendControl_kept (s : State) (h kind : Nat) (body : List Byte) :
    (State.sendControl s h kind body).pending = s.pending ∧ (State.sendControl s h kind body).fuses = s.fuses := by
  unfold State.sendControl
  simp [apply_ite State.pending, apply_ite State.fuses, foldl_pending, foldl_fuses]

@[simp] theorem state_sendKeyMessage_kept (s : State) (a kind : Nat) (body : List Byte) :
    (State.sendKeyMessage s a kind body).pending = s.pending ∧ (State.sendKeyMessage s a kind body).fuses = s.fuses := by
  unfold State.sendKeyMessage
  simp [apply_ite State.pending, apply_ite State.fuses, foldl_pending, foldl_fuses]

@[simp] theorem state_startHandshake_kept (s : State) (a : Nat) :
    (State.startHandshake s a).pending = s.pending ∧ (State.startHandshake s a).fuses = s.fuses := by
  unfold State.startHandshake
  simp [apply_ite State.pending, apply_ite State.fuses, foldl_pending, foldl_fuses]

@[simp] theorem state_moveKey_kept (s : State) (a seq : Nat) :
    (State.moveKey s a seq).pending = s.pending ∧ (State.moveKey s a seq).fuses = s.fuses := by
  unfold State.moveKey
  simp [apply_ite State.pending, apply_ite State.fuses, foldl_pending, foldl_fuses]

@[simp] theorem state_countRecord_kept (s : State) (a len : Nat) :
    (State.countRecord s a len).pending = s.pending ∧ (State.countRecord s a len).fuses = s.fuses := by
  unfold State.countRecord
  simp [apply_ite State.pending, apply_ite State.fuses, foldl_pending, foldl_fuses]

@[simp] theorem state_atNs_kept (s : State) (t : Nat) :
    (State.atNs s t).pending = s.pending ∧ (State.atNs s t).fuses = s.fuses := by
  unfold State.atNs
  simp [apply_ite State.pending, apply_ite State.fuses, foldl_pending, foldl_fuses]

@[simp] theorem state_showRoute_kept (s : State) (p q : Nat) :
    (State.showRoute s p q).pending = s.pending ∧ (State.showRoute s p q).fuses = s.fuses := ⟨rfl, rfl⟩

@[simp] theorem state_windowDue_kept (s : State) (p obj win : Nat) :
    (State.windowDue s p obj win).pending = s.pending ∧ (State.windowDue s p obj win).fuses = s.fuses := by
  unfold State.windowDue
  dsimp only
  constructor <;> (repeat' split) <;> first | rfl | simp [apply_ite State.pending, apply_ite State.fuses, foldl_pending, foldl_fuses]

@[simp] theorem state_dueWindows_kept (s : State) (p q : Nat) (f : DWindow → Bool) :
    (State.dueWindows s p q f).pending = s.pending ∧ (State.dueWindows s p q f).fuses = s.fuses := by
  unfold State.dueWindows
  simp [apply_ite State.pending, apply_ite State.fuses, foldl_pending, foldl_fuses]

@[simp] theorem state_accepted_kept (s : State) (p : Nat) (k : Packet) :
    (State.accepted s p k).pending = s.pending ∧ (State.accepted s p k).fuses = s.fuses := by
  unfold State.accepted
  simp [apply_ite State.pending, apply_ite State.fuses, foldl_pending, foldl_fuses]

@[simp] theorem state_noteGeneration_kept (s : State) (a g : Nat) :
    (State.noteGeneration s a g).pending = s.pending ∧ (State.noteGeneration s a g).fuses = s.fuses := by
  unfold State.noteGeneration
  simp [apply_ite State.pending, apply_ite State.fuses, foldl_pending, foldl_fuses]

@[simp] theorem state_receive_kept (s : State) (p : Nat) (k : Packet) (f : State → List Byte → State)
    (h : ∀ s b, (f s b).pending = s.pending ∧ (f s b).fuses = s.fuses) :
    (s.receive p k f).pending = s.pending ∧ (s.receive p k f).fuses = s.fuses := by
  unfold State.receive
  dsimp only
  constructor <;> (repeat' split) <;> simp [h]

@[simp] theorem state_showUp_kept (s : State) (p q v : Nat) :
    (State.showUp s p q v).pending = s.pending ∧ (State.showUp s p q v).fuses = s.fuses := ⟨rfl, rfl⟩

@[simp] theorem probeEffect_kept (p : Nat) (k : Packet) (s : State) :
    (probeEffect p k s).pending = s.pending ∧ (probeEffect p k s).fuses = s.fuses := by
  unfold probeEffect
  dsimp only
  constructor <;> (repeat' split) <;> simp [apply_ite State.pending, apply_ite State.fuses, foldl_pending, foldl_fuses] <;> (first | rw [foldl_pending] | rw [foldl_fuses]) <;>
    (try intros) <;> (repeat' split) <;> simp [apply_ite State.pending, apply_ite State.fuses, foldl_pending, foldl_fuses]

@[simp] theorem routeDownEffect_kept (p q : Nat) (s : State) :
    (routeDownEffect p q s).pending = s.pending ∧ (routeDownEffect p q s).fuses = s.fuses := by
  unfold routeDownEffect
  simp [apply_ite State.pending, apply_ite State.fuses, foldl_pending, foldl_fuses]

@[simp] theorem state_atTimer_kept (s : State) (last : Option Nat) (us : Nat) :
    (State.atTimer s last us).pending = s.pending ∧ (State.atTimer s last us).fuses = s.fuses := by
  unfold State.atTimer
  constructor <;> (repeat' split) <;> first | rfl | simp [apply_ite State.pending, apply_ite State.fuses, foldl_pending, foldl_fuses]

@[simp] theorem probeTimerEffect_kept (p : Nat) (s : State) :
    (probeTimerEffect p s).pending = s.pending ∧ (probeTimerEffect p s).fuses = s.fuses := by
  unfold probeTimerEffect
  simp [apply_ite State.pending, apply_ite State.fuses, foldl_pending, foldl_fuses]

@[simp] theorem feedbackTimerEffect_kept (p : Nat) (s : State) :
    (feedbackTimerEffect p s).pending = s.pending ∧ (feedbackTimerEffect p s).fuses = s.fuses := by
  unfold feedbackTimerEffect
  simp [apply_ite State.pending, apply_ite State.fuses, foldl_pending, foldl_fuses]

@[simp] theorem state_takeFragment_kept (s : State) (p : Nat) (k : Packet) (plain : List Byte) :
    (State.takeFragment s p k plain).pending = s.pending ∧ (State.takeFragment s p k plain).fuses = s.fuses := by
  unfold State.takeFragment
  simp [apply_ite State.pending, apply_ite State.fuses, foldl_pending, foldl_fuses]

@[simp] theorem classCFragmentEffect_kept (p : Nat) (k : Packet) (s : State) :
    (classCFragmentEffect p k s).pending = s.pending ∧ (classCFragmentEffect p k s).fuses = s.fuses := by
  unfold classCFragmentEffect
  dsimp only
  constructor <;> (repeat' split) <;> first | rfl | simp [apply_ite State.pending, apply_ite State.fuses, foldl_pending, foldl_fuses]

@[simp] theorem classCReleaseEffect_kept (p mid : Nat) (s : State) :
    (classCReleaseEffect p mid s).pending = s.pending ∧ (classCReleaseEffect p mid s).fuses = s.fuses := by
  unfold classCReleaseEffect
  dsimp only
  constructor <;> (repeat' split) <;> first | rfl | simp [apply_ite State.pending, apply_ite State.fuses, foldl_pending, foldl_fuses]

@[simp] theorem classCResendEffect_kept (p mid : Nat) (s : State) :
    (classCResendEffect p mid s).pending = s.pending ∧ (classCResendEffect p mid s).fuses = s.fuses := by
  unfold classCResendEffect
  dsimp only
  constructor <;> (repeat' split) <;> first | rfl | simp [apply_ite State.pending, apply_ite State.fuses, foldl_pending, foldl_fuses]

@[simp] theorem state_windowComplete_kept (s : State) (p obj win : Nat) (data : List Byte) :
    (State.windowComplete s p obj win data).pending = s.pending ∧ (State.windowComplete s p obj win data).fuses = s.fuses := by
  unfold State.windowComplete
  dsimp only
  constructor <;> (repeat' split) <;> first | rfl | simp [apply_ite State.pending, apply_ite State.fuses, foldl_pending, foldl_fuses]

@[simp] theorem state_takeFrame_kept (s : State) (p : Nat) (k : Packet) (plain : List Byte) :
    (State.takeFrame s p k plain).pending = s.pending ∧ (State.takeFrame s p k plain).fuses = s.fuses := by
  unfold State.takeFrame
  simp [apply_ite State.pending, apply_ite State.fuses, foldl_pending, foldl_fuses]

@[simp] theorem classDFrameEffect_kept (p : Nat) (k : Packet) (s : State) :
    (classDFrameEffect p k s).pending = s.pending ∧ (classDFrameEffect p k s).fuses = s.fuses := by
  unfold classDFrameEffect
  simp [apply_ite State.pending, apply_ite State.fuses, foldl_pending, foldl_fuses]

@[simp] theorem state_adapt_kept (s : State) (p : Nat) (newR : Bool) :
    (State.adapt s p newR).pending = s.pending ∧ (State.adapt s p newR).fuses = s.fuses := by
  unfold State.adapt
  simp [apply_ite State.pending, apply_ite State.fuses, foldl_pending, foldl_fuses]

@[simp] theorem state_takeRouteReport_kept (s : State) (p q : Nat) (t : Nat × Nat × Nat × Nat × Bool × Nat) :
    (State.takeRouteReport s p q t).pending = s.pending ∧ (State.takeRouteReport s p q t).fuses = s.fuses := by
  unfold State.takeRouteReport
  simp [apply_ite State.pending, apply_ite State.fuses, foldl_pending, foldl_fuses]

@[simp] theorem state_takeResend_kept (s : State) (p : Nat) (e : Nat × Nat × Nat) :
    (State.takeResend s p e).pending = s.pending ∧ (State.takeResend s p e).fuses = s.fuses := by
  unfold State.takeResend
  simp [apply_ite State.pending, apply_ite State.fuses, foldl_pending, foldl_fuses]

@[simp] theorem state_takeOreq_kept (s : State) (p : Nat) (e : Nat × Nat × Nat × Nat) :
    (State.takeOreq s p e).pending = s.pending ∧ (State.takeOreq s p e).fuses = s.fuses := by
  unfold State.takeOreq
  dsimp only
  constructor <;> (repeat' split) <;> first | rfl | simp [apply_ite State.pending, apply_ite State.fuses, foldl_pending, foldl_fuses]

@[simp] theorem state_takeAcks_kept (s : State) (p cack cmap : Nat) :
    (State.takeAcks s p cack cmap).pending = s.pending ∧ (State.takeAcks s p cack cmap).fuses = s.fuses := by
  unfold State.takeAcks
  simp [apply_ite State.pending, apply_ite State.fuses, foldl_pending, foldl_fuses]

@[simp] theorem feedbackReportEffect_kept (p : Nat) (k : Packet) (f : Feedback) (s : State) :
    (feedbackReportEffect p k f s).pending = s.pending ∧ (feedbackReportEffect p k f s).fuses = s.fuses := by
  unfold feedbackReportEffect
  dsimp only
  constructor <;> (repeat' split) <;> simp [apply_ite State.pending, apply_ite State.fuses, foldl_pending, foldl_fuses] <;> (first | rw [foldl_pending] | rw [foldl_fuses]) <;>
    (try intros) <;> (repeat' split) <;> simp [apply_ite State.pending, apply_ite State.fuses, foldl_pending, foldl_fuses]

@[simp] theorem state_solicit_kept (s : State) (p : Nat) :
    (State.solicit s p).pending = s.pending ∧ (State.solicit s p).fuses = s.fuses := by
  unfold State.solicit
  simp [apply_ite State.pending, apply_ite State.fuses, foldl_pending, foldl_fuses]

@[simp] theorem state_afterShaper_kept (s : State) (p cost : Nat) :
    (State.afterShaper s p cost).pending = s.pending ∧ (State.afterShaper s p cost).fuses = s.fuses := by
  unfold State.afterShaper
  simp [apply_ite State.pending, apply_ite State.fuses, foldl_pending, foldl_fuses]

@[simp] theorem state_transmit_kept (s : State) (p : Nat) (n : PPort × Next) :
    (State.transmit s p n).pending = s.pending ∧ (State.transmit s p n).fuses = s.fuses := by
  unfold State.transmit
  simp [apply_ite State.pending, apply_ite State.fuses, foldl_pending, foldl_fuses]

@[simp] theorem state_beforePacket_kept (s : State) (p : Nat) :
    (State.beforePacket s p).pending = s.pending ∧ (State.beforePacket s p).fuses = s.fuses := by
  unfold State.beforePacket
  simp [apply_ite State.pending, apply_ite State.fuses, foldl_pending, foldl_fuses]

@[simp] theorem packetTransmitEffect_kept (p : Nat) (s : State) :
    (packetTransmitEffect p s).pending = s.pending ∧ (packetTransmitEffect p s).fuses = s.fuses := by
  unfold packetTransmitEffect
  dsimp only
  constructor <;> (repeat' split) <;> simp [apply_ite State.pending, apply_ite State.fuses, foldl_pending, foldl_fuses] <;> (first | rw [foldl_pending] | rw [foldl_fuses]) <;>
    (try intros) <;> (repeat' split) <;> simp [apply_ite State.pending, apply_ite State.fuses, foldl_pending, foldl_fuses]

@[simp] theorem neighborSolicitationEffect_kept (p : Nat) (target : BitVec 128) (s : State) :
    (neighborSolicitationEffect p target s).pending = s.pending ∧ (neighborSolicitationEffect p target s).fuses = s.fuses := by
  unfold neighborSolicitationEffect
  simp [apply_ite State.pending, apply_ite State.fuses, foldl_pending, foldl_fuses]

@[simp] theorem echoRequestEffect_kept (p : Nat) (source : BitVec 128) (data : List Byte) (s : State) :
    (echoRequestEffect p source data s).pending = s.pending ∧ (echoRequestEffect p source data s).fuses = s.fuses := by
  unfold echoRequestEffect
  simp [apply_ite State.pending, apply_ite State.fuses, foldl_pending, foldl_fuses]

@[simp] theorem neighborAdvertisementEffect_kept (p : Nat) (target : BitVec 128) (mac : BitVec 48) (s : State) :
    (neighborAdvertisementEffect p target mac s).pending = s.pending ∧ (neighborAdvertisementEffect p target mac s).fuses = s.fuses := by
  unfold neighborAdvertisementEffect
  simp [apply_ite State.pending, apply_ite State.fuses, foldl_pending, foldl_fuses]

@[simp] theorem macPauseEffect_kept (p : Nat) (s : State) :
    (macPauseEffect p s).pending = s.pending ∧ (macPauseEffect p s).fuses = s.fuses := by
  unfold macPauseEffect
  simp [apply_ite State.pending, apply_ite State.fuses, foldl_pending, foldl_fuses]

@[simp] theorem partnerLinkDownEffect_kept (p : Nat) (s : State) :
    (partnerLinkDownEffect p s).pending = s.pending ∧ (partnerLinkDownEffect p s).fuses = s.fuses := by
  unfold partnerLinkDownEffect
  simp [apply_ite State.pending, apply_ite State.fuses, foldl_pending, foldl_fuses]

@[simp] theorem portLinkUpEffect_kept (unit : Nat) (s : State) :
    (portLinkUpEffect unit s).pending = s.pending ∧ (portLinkUpEffect unit s).fuses = s.fuses := by
  unfold portLinkUpEffect
  simp [apply_ite State.pending, apply_ite State.fuses, foldl_pending, foldl_fuses]

end Sys2Proof.Machine
end

