-- ==== Sys2Proof/Laws/KeptCuffFlow.lean ====
section
/-! SUPPORT. The operations of Machine/CuffFlow.lean keep the queue and the fuses. -/

set_option linter.unusedSimpArgs false

namespace Sys2Proof.Machine

@[simp] theorem state_leaveSlot_kept (s : State) (p k from' to' : Nat) :
    (State.leaveSlot s p k from' to').pending = s.pending ∧ (State.leaveSlot s p k from' to').fuses = s.fuses := ⟨rfl, rfl⟩

@[simp] theorem state_endedOne_kept (s : State) (p step : Nat) :
    (State.endedOne s p step).pending = s.pending ∧ (State.endedOne s p step).fuses = s.fuses := ⟨rfl, rfl⟩

@[simp] theorem state_queueInner_kept (s : State) (p k : Nat) (e : SliceEntry) (step : Nat) :
    (State.queueInner s p k e step).pending = s.pending ∧ (State.queueInner s p k e step).fuses = s.fuses := ⟨rfl, rfl⟩

@[simp] theorem state_triggered_kept (s : State) (p step : Nat) :
    (State.triggered s p step).pending = s.pending ∧ (State.triggered s p step).fuses = s.fuses := by
  unfold State.triggered
  simp [apply_ite State.pending, apply_ite State.fuses, foldl_pending, foldl_fuses]

@[simp] theorem state_triggerSlow_kept (s : State) (p k : Nat) (x : Slot) (g : Group) (step : Nat) :
    (State.triggerSlow s p k x g step).pending = s.pending ∧ (State.triggerSlow s p k x g step).fuses = s.fuses := by
  unfold State.triggerSlow
  dsimp only
  constructor <;> (repeat' split) <;> simp [apply_ite State.pending, apply_ite State.fuses, foldl_pending, foldl_fuses] <;> (first | rw [foldl_pending] | rw [foldl_fuses]) <;>
    (try intros) <;> (repeat' split) <;> simp [apply_ite State.pending, apply_ite State.fuses, foldl_pending, foldl_fuses]

@[simp] theorem state_queueUntouched1_kept (n : Nat) (s : State) (x : Nat × SltSlice) :
    (State.queueUntouched1 n s x).pending = s.pending ∧ (State.queueUntouched1 n s x).fuses = s.fuses := by
  unfold State.queueUntouched1
  dsimp only
  constructor <;> (repeat' split) <;> first | rfl | simp [apply_ite State.pending, apply_ite State.fuses, foldl_pending, foldl_fuses]

@[simp] theorem state_queueUntouched_kept (s : State) :
    (State.queueUntouched s).pending = s.pending ∧ (State.queueUntouched s).fuses = s.fuses := by
  unfold State.queueUntouched
  simp [apply_ite State.pending, apply_ite State.fuses, foldl_pending, foldl_fuses]

@[simp] theorem state_slotTrigger_kept (s : State) (p k : Nat) :
    (State.slotTrigger s p k).pending = s.pending ∧ (State.slotTrigger s p k).fuses = s.fuses := by
  unfold State.slotTrigger
  simp [apply_ite State.pending, apply_ite State.fuses, foldl_pending, foldl_fuses]

@[simp] theorem state_startEntry_kept (s : State) (p : Nat) (e : CuffEntry) (base : Nat) :
    (State.startEntry s p e base).pending = s.pending ∧ (State.startEntry s p e base).fuses = s.fuses := by
  unfold State.startEntry
  simp [apply_ite State.pending, apply_ite State.fuses, foldl_pending, foldl_fuses]

@[simp] theorem cuffEntryStartEffect_kept (p : Nat) (s : State) :
    (cuffEntryStartEffect p s).pending = s.pending ∧ (cuffEntryStartEffect p s).fuses = s.fuses := by
  unfold cuffEntryStartEffect
  dsimp only
  constructor <;> (repeat' split) <;> first | rfl | simp [apply_ite State.pending, apply_ite State.fuses, foldl_pending, foldl_fuses]

@[simp] theorem state_runWrites_kept (s : State) (p : Nat) (run : CuffRun) (ws : List (Nat × Nat × List Byte)) (extra : Nat) :
    (State.runWrites s p run ws extra).pending = s.pending ∧ (State.runWrites s p run ws extra).fuses = s.fuses := ⟨rfl, rfl⟩

@[simp] theorem state_returnInner_kept (s : State) (p : Nat) (run : CuffRun) :
    (State.returnInner s p run).pending = s.pending ∧ (State.returnInner s p run).fuses = s.fuses := by
  unfold State.returnInner
  simp [apply_ite State.pending, apply_ite State.fuses, foldl_pending, foldl_fuses]

@[simp] theorem state_cuffBusy_kept (s : State) (p start stop : Nat) :
    (State.cuffBusy s p start stop).pending = s.pending ∧ (State.cuffBusy s p start stop).fuses = s.fuses := ⟨rfl, rfl⟩

@[simp] theorem state_settlePartition_kept (s : State) (p : Nat) :
    (State.settlePartition s p).pending = s.pending ∧ (State.settlePartition s p).fuses = s.fuses := ⟨rfl, rfl⟩

@[simp] theorem state_leavePipe_kept (s : State) (p : Nat) (run : CuffRun) (t : Nat) :
    (State.leavePipe s p run t).pending = s.pending ∧ (State.leavePipe s p run t).fuses = s.fuses := by
  unfold State.leavePipe
  simp [apply_ite State.pending, apply_ite State.fuses, foldl_pending, foldl_fuses]

@[simp] theorem state_returnOuter_kept (s : State) (p q : Nat) (run : CuffRun) :
    (State.returnOuter s p q run).pending = s.pending ∧ (State.returnOuter s p q run).fuses = s.fuses := by
  unfold State.returnOuter
  simp [apply_ite State.pending, apply_ite State.fuses, foldl_pending, foldl_fuses]

@[simp] theorem state_returnSkip_kept (s : State) (p : Nat) (run : CuffRun) :
    (State.returnSkip s p run).pending = s.pending ∧ (State.returnSkip s p run).fuses = s.fuses := ⟨rfl, rfl⟩

@[simp] theorem state_cuffReturn_kept (s : State) (p : Nat) :
    (State.cuffReturn s p).pending = s.pending ∧ (State.cuffReturn s p).fuses = s.fuses := by
  unfold State.cuffReturn
  constructor <;> (repeat' split) <;> first | rfl | simp [apply_ite State.pending, apply_ite State.fuses, foldl_pending, foldl_fuses]

@[simp] theorem state_prefetched_kept (s : State) (n count : Nat) :
    (State.prefetched s n count).pending = s.pending ∧ (State.prefetched s n count).fuses = s.fuses := ⟨rfl, rfl⟩

@[simp] theorem hbmReadReturnEffect_kept (what : ReadFor) (s : State) :
    (hbmReadReturnEffect what s).pending = s.pending ∧ (hbmReadReturnEffect what s).fuses = s.fuses := by
  unfold hbmReadReturnEffect
  constructor <;> (repeat' split) <;> first | rfl | simp [apply_ite State.pending, apply_ite State.fuses, foldl_pending, foldl_fuses]

@[simp] theorem state_cutAfter_kept (s : State) (p : Nat) (run : CuffRun) :
    (State.cutAfter s p run).pending = s.pending ∧ (State.cutAfter s p run).fuses = s.fuses := by
  unfold State.cutAfter
  simp [apply_ite State.pending, apply_ite State.fuses, foldl_pending, foldl_fuses]

@[simp] theorem state_digestAfter_kept (s : State) (p : Nat) (run : CuffRun) :
    (State.digestAfter s p run).pending = s.pending ∧ (State.digestAfter s p run).fuses = s.fuses := ⟨rfl, rfl⟩

@[simp] theorem state_noteUpdated_kept (s : State) (p : Nat) (run : CuffRun) :
    (State.noteUpdated s p run).pending = s.pending ∧ (State.noteUpdated s p run).fuses = s.fuses := by
  unfold State.noteUpdated
  simp [apply_ite State.pending, apply_ite State.fuses, foldl_pending, foldl_fuses]

@[simp] theorem state_ackRun_kept (s : State) (p : Nat) (run : CuffRun) :
    (State.ackRun s p run).pending = s.pending ∧ (State.ackRun s p run).fuses = s.fuses := by
  unfold State.ackRun
  simp [apply_ite State.pending, apply_ite State.fuses, foldl_pending, foldl_fuses]

end Sys2Proof.Machine
end

