-- ==== Sys2Proof/Laws/KeptCensus.lean ====
section
/-! SUPPORT. The operations of Machine/Census.lean keep the queue and the fuses. -/

set_option linter.unusedSimpArgs false

namespace Sys2Proof.Machine

@[simp] theorem state_censusCatchup_kept (s : State) (c : CensusOf) :
    (State.censusCatchup s c).pending = s.pending ∧ (State.censusCatchup s c).fuses = s.fuses := by
  unfold State.censusCatchup
  constructor <;> (repeat' split) <;> first | rfl | simp [apply_ite State.pending, apply_ite State.fuses, foldl_pending, foldl_fuses]

@[simp] theorem state_censusSkip_kept (s : State) (c : CensusOf) (r : Rec) :
    (State.censusSkip s c r).pending = s.pending ∧ (State.censusSkip s c r).fuses = s.fuses := by
  unfold State.censusSkip
  simp [apply_ite State.pending, apply_ite State.fuses, foldl_pending, foldl_fuses]

@[simp] theorem state_repair_kept (s : State) (c : CensusOf) (r : Rec) :
    (s.repair c r).pending = s.pending ∧ (s.repair c r).fuses = s.fuses := by
  unfold State.repair
  dsimp only
  constructor <;> (repeat' split) <;> simp only [↓state_storeRecord_kept, ↓state_count_kept, ↓state_countN_kept,
    ↓state_censusCatchup_kept, ↓state_censusSkip_kept]

@[simp] theorem state_outerRoll_kept (s : State) (c : CensusOf) (r : Rec) :
    (State.outerRoll s c r).pending = s.pending ∧ (State.outerRoll s c r).fuses = s.fuses := by
  unfold State.outerRoll
  simp [apply_ite State.pending, apply_ite State.fuses, foldl_pending, foldl_fuses]

@[simp] theorem state_rollSlice_kept (s : State) (c : CensusOf) (r : Rec) :
    (State.rollSlice s c r).pending = s.pending ∧ (State.rollSlice s c r).fuses = s.fuses := by
  unfold State.rollSlice
  simp [apply_ite State.pending, apply_ite State.fuses, foldl_pending, foldl_fuses]

theorem state_reapply_pending (c : CensusOf) (a : State × Rec) (q : Nat) : (State.reapply c a q).1.pending = a.1.pending := by
  unfold State.reapply
  dsimp only
  split <;> simp

theorem state_reapply_fuses (c : CensusOf) (a : State × Rec) (q : Nat) : (State.reapply c a q).1.fuses = a.1.fuses := by
  unfold State.reapply
  dsimp only
  split <;> simp

@[simp] theorem state_outerRepair_kept (s : State) (c : CensusOf) :
    (State.outerRepair s c).pending = s.pending ∧ (State.outerRepair s c).fuses = s.fuses := by
  unfold State.outerRepair
  dsimp only
  constructor <;> (repeat' split) <;>
    simp [foldl_fst_pending (State.reapply c) (state_reapply_pending c), foldl_fst_fuses (State.reapply c) (state_reapply_fuses c)]

@[simp] theorem state_censusOne_kept (s : State) (c : CensusOf) (lost : Bool) :
    (State.censusOne s c lost).pending = s.pending ∧ (State.censusOne s c lost).fuses = s.fuses := by
  unfold State.censusOne
  simp [apply_ite State.pending, apply_ite State.fuses, foldl_pending, foldl_fuses]

@[simp] theorem state_censusEntry_kept (s : State) (step : Nat) (lost : Bool) (e : MapEntry) :
    (State.censusEntry s step lost e).pending = s.pending ∧ (State.censusEntry s step lost e).fuses = s.fuses := by
  unfold State.censusEntry
  constructor <;> (repeat' split) <;> first | rfl | simp [apply_ite State.pending, apply_ite State.fuses, foldl_pending, foldl_fuses]

@[simp] theorem state_sliceCensus_kept (s : State) (step : Nat) (lost : Bool) :
    (State.sliceCensus s step lost).pending = s.pending ∧ (State.sliceCensus s step lost).fuses = s.fuses := by
  unfold State.sliceCensus
  simp [apply_ite State.pending, apply_ite State.fuses, foldl_pending, foldl_fuses]

@[simp] theorem state_repairNum_kept (s : State) (num : Nat) :
    (State.repairNum s num).pending = s.pending ∧ (State.repairNum s num).fuses = s.fuses := by
  unfold State.repairNum
  constructor <;> (repeat' split) <;> first | rfl | simp [apply_ite State.pending, apply_ite State.fuses, foldl_pending, foldl_fuses]

end Sys2Proof.Machine
end

