-- ==== Sys2Proof/Laws/KeptMapping.lean ====
section
/-! SUPPORT. The operations of Machine/Mapping.lean keep the queue and the fuses. -/

set_option linter.unusedSimpArgs false

namespace Sys2Proof.Machine

@[simp] theorem state_writeConstants_kept (s : State) (step : Nat) :
    (State.writeConstants s step).pending = s.pending ∧ (State.writeConstants s step).fuses = s.fuses := ⟨rfl, rfl⟩

@[simp] theorem state_scalePlans_kept (s : State) (b0 b : Nat) :
    (State.scalePlans s b0 b).pending = s.pending ∧ (State.scalePlans s b0 b).fuses = s.fuses := ⟨rfl, rfl⟩

@[simp] theorem state_feedNoise_kept (s : State) (n : Nat) :
    (State.feedNoise s n).pending = s.pending ∧ (State.feedNoise s n).fuses = s.fuses := by
  unfold State.feedNoise
  simp [apply_ite State.pending, apply_ite State.fuses, foldl_pending, foldl_fuses]

@[simp] theorem state_steer_kept (s : State) (n : Nat) :
    (State.steer s n).pending = s.pending ∧ (State.steer s n).fuses = s.fuses := by
  unfold State.steer
  dsimp only
  constructor <;> (repeat' split) <;> first | rfl | simp [apply_ite State.pending, apply_ite State.fuses, foldl_pending, foldl_fuses]

@[simp] theorem state_putEpochs_kept (s : State) (lo w v : Nat) :
    (State.putEpochs s lo w v).pending = s.pending ∧ (State.putEpochs s lo w v).fuses = s.fuses := by
  unfold State.putEpochs
  simp [apply_ite State.pending, apply_ite State.fuses, foldl_pending, foldl_fuses]

@[simp] theorem state_checkpointMap_kept (s : State) :
    (State.checkpointMap s).pending = s.pending ∧ (State.checkpointMap s).fuses = s.fuses := ⟨rfl, rfl⟩

@[simp] theorem state_openBoundary_kept (s : State) :
    (State.openBoundary s).pending = s.pending ∧ (State.openBoundary s).fuses = s.fuses := by
  unfold State.openBoundary
  simp [apply_ite State.pending, apply_ite State.fuses, foldl_pending, foldl_fuses]

@[simp] theorem state_setBatch_kept (s : State) (b : Nat) :
    (State.setBatch s b).pending = s.pending ∧ (State.setBatch s b).fuses = s.fuses := ⟨rfl, rfl⟩

@[simp] theorem state_boundarySequencer_kept (s : State) :
    (State.boundarySequencer s).pending = s.pending ∧ (State.boundarySequencer s).fuses = s.fuses := by
  unfold State.boundarySequencer
  simp [apply_ite State.pending, apply_ite State.fuses, foldl_pending, foldl_fuses]

@[simp] theorem state_sendReady_kept (s : State) :
    (State.sendReady s).pending = s.pending ∧ (State.sendReady s).fuses = s.fuses := by
  unfold State.sendReady
  simp [apply_ite State.pending, apply_ite State.fuses, foldl_pending, foldl_fuses]

@[simp] theorem state_clearLags_kept (s : State) :
    (State.clearLags s).pending = s.pending ∧ (State.clearLags s).fuses = s.fuses := by
  unfold State.clearLags
  simp [apply_ite State.pending, apply_ite State.fuses, foldl_pending, foldl_fuses]

@[simp] theorem state_restartStreams_kept (s : State) (n : Nat) :
    (State.restartStreams s n).pending = s.pending ∧ (State.restartStreams s n).fuses = s.fuses := by
  unfold State.restartStreams
  simp [apply_ite State.pending, apply_ite State.fuses, foldl_pending, foldl_fuses]

@[simp] theorem state_closeBoundary_kept (s : State) :
    (State.closeBoundary s).pending = s.pending ∧ (State.closeBoundary s).fuses = s.fuses := by
  unfold State.closeBoundary
  constructor <;> (repeat' split) <;> first | rfl | simp [apply_ite State.pending, apply_ite State.fuses, foldl_pending, foldl_fuses]

@[simp] theorem state_boundaryRegisters_kept (s : State) :
    (State.boundaryRegisters s).pending = s.pending ∧ (State.boundaryRegisters s).fuses = s.fuses := by
  unfold State.boundaryRegisters
  dsimp only
  constructor <;> (repeat' split) <;> first | rfl | simp [apply_ite State.pending, apply_ite State.fuses, foldl_pending, foldl_fuses]

@[simp] theorem readyCycleMessageEffect_kept (dev cycle : Nat) (s : State) :
    (readyCycleMessageEffect dev cycle s).pending = s.pending ∧ (readyCycleMessageEffect dev cycle s).fuses = s.fuses := by
  unfold readyCycleMessageEffect
  simp [apply_ite State.pending, apply_ite State.fuses, foldl_pending, foldl_fuses]

@[simp] theorem state_passEmptySlots_kept (s : State) (n : Nat) :
    (State.passEmptySlots s n).pending = s.pending ∧ (State.passEmptySlots s n).fuses = s.fuses := by
  unfold State.passEmptySlots
  simp [apply_ite State.pending, apply_ite State.fuses, foldl_pending, foldl_fuses]

@[simp] theorem state_stopJob_kept (s : State) (replace : Bool) :
    (State.stopJob s replace).pending = s.pending ∧ (State.stopJob s replace).fuses = s.fuses := by
  unfold State.stopJob
  simp [apply_ite State.pending, apply_ite State.fuses, foldl_pending, foldl_fuses]

@[simp] theorem state_honourStop_kept (s : State) :
    (State.honourStop s).pending = s.pending ∧ (State.honourStop s).fuses = s.fuses := by
  unfold State.honourStop
  constructor <;> (repeat' split) <;> first | rfl | simp [apply_ite State.pending, apply_ite State.fuses, foldl_pending, foldl_fuses]

@[simp] theorem state_endStep_kept (s : State) (n : Nat) :
    (State.endStep s n).pending = s.pending ∧ (State.endStep s n).fuses = s.fuses := by
  unfold State.endStep
  simp [apply_ite State.pending, apply_ite State.fuses, foldl_pending, foldl_fuses]

@[simp] theorem state_endSteps_kept (n : Nat) (s : State) :
    (s.endSteps n).pending = s.pending ∧ (s.endSteps n).fuses = s.fuses := by
  induction n generalizing s with
  | zero => exact ⟨rfl, rfl⟩
  | succ n ih =>
    unfold State.endSteps
    split
    · simp [ih]
    · exact ⟨rfl, rfl⟩

@[simp] theorem slotTriggerEffect_kept (p k : Nat) (s : State) :
    (slotTriggerEffect p k s).pending = s.pending ∧ (slotTriggerEffect p k s).fuses = s.fuses := by
  unfold slotTriggerEffect
  simp [apply_ite State.pending, apply_ite State.fuses, foldl_pending, foldl_fuses]

@[simp] theorem touchListPostEffect_kept (st : Nat) (s : State) :
    (touchListPostEffect st s).pending = s.pending ∧ (touchListPostEffect st s).fuses = s.fuses := by
  unfold touchListPostEffect
  simp [apply_ite State.pending, apply_ite State.fuses, foldl_pending, foldl_fuses]

@[simp] theorem streamIssueEffect_kept (n : Nat) (s : State) :
    (streamIssueEffect n s).pending = s.pending ∧ (streamIssueEffect n s).fuses = s.fuses := by
  unfold streamIssueEffect
  simp [apply_ite State.pending, apply_ite State.fuses, foldl_pending, foldl_fuses]

@[simp] theorem streamEndEffect_kept (n : Nat) (c : Cmd) (s : State) :
    (streamEndEffect n c s).pending = s.pending ∧ (streamEndEffect n c s).fuses = s.fuses := by
  unfold streamEndEffect
  simp [apply_ite State.pending, apply_ite State.fuses, foldl_pending, foldl_fuses]

@[simp] theorem state_abortPartition_kept (s : State) (p : Nat) :
    (State.abortPartition s p).pending = s.pending ∧ (State.abortPartition s p).fuses = s.fuses := by
  unfold State.abortPartition
  simp [apply_ite State.pending, apply_ite State.fuses, foldl_pending, foldl_fuses]

@[simp] theorem state_showCensus_kept (s : State) (v : Nat) :
    (State.showCensus s v).pending = s.pending ∧ (State.showCensus s v).fuses = s.fuses := by
  unfold State.showCensus
  simp [apply_ite State.pending, apply_ite State.fuses, foldl_pending, foldl_fuses]

@[simp] theorem state_startCensus_kept (s : State) :
    (State.startCensus s).pending = s.pending ∧ (State.startCensus s).fuses = s.fuses := by
  unfold State.startCensus
  constructor <;> (repeat' split) <;> first | rfl | simp [apply_ite State.pending, apply_ite State.fuses, foldl_pending, foldl_fuses]

@[simp] theorem state_abortStep_kept (s : State) :
    (State.abortStep s).pending = s.pending ∧ (State.abortStep s).fuses = s.fuses := by
  unfold State.abortStep
  simp [apply_ite State.pending, apply_ite State.fuses, foldl_pending, foldl_fuses]

@[simp] theorem abortMessageEffect_kept (link dev step : Nat) (s : State) :
    (abortMessageEffect link dev step s).pending = s.pending ∧ (abortMessageEffect link dev step s).fuses = s.fuses := by
  unfold abortMessageEffect
  simp [apply_ite State.pending, apply_ite State.fuses, foldl_pending, foldl_fuses]

@[simp] theorem state_holdTraining_kept (s : State) :
    (State.holdTraining s).pending = s.pending ∧ (State.holdTraining s).fuses = s.fuses := ⟨rfl, rfl⟩

@[simp] theorem state_restartSlots_kept (s : State) (n : Nat) :
    (State.restartSlots s n).pending = s.pending ∧ (State.restartSlots s n).fuses = s.fuses := by
  unfold State.restartSlots
  simp [apply_ite State.pending, apply_ite State.fuses, foldl_pending, foldl_fuses]

@[simp] theorem state_recover_kept (s : State) (c : Census) (members : List Nat) :
    (State.recover s c members).pending = s.pending ∧ (State.recover s c members).fuses = s.fuses := by
  unfold State.recover
  dsimp only
  constructor <;> (repeat' split) <;> first | rfl | simp [apply_ite State.pending, apply_ite State.fuses, foldl_pending, foldl_fuses]

@[simp] theorem state_concludeCensus_kept (s : State) (c : Census) :
    (State.concludeCensus s c).pending = s.pending ∧ (State.concludeCensus s c).fuses = s.fuses := by
  unfold State.concludeCensus
  simp [apply_ite State.pending, apply_ite State.fuses, foldl_pending, foldl_fuses]

@[simp] theorem state_secondRound_kept (s : State) (c : Census) :
    (State.secondRound s c).pending = s.pending ∧ (State.secondRound s c).fuses = s.fuses := by
  unfold State.secondRound
  simp [apply_ite State.pending, apply_ite State.fuses, foldl_pending, foldl_fuses]

@[simp] theorem state_advanceCensus_kept (s : State) :
    (State.advanceCensus s).pending = s.pending ∧ (State.advanceCensus s).fuses = s.fuses := by
  unfold State.advanceCensus
  constructor <;> (repeat' split) <;> first | rfl | simp [apply_ite State.pending, apply_ite State.fuses, foldl_pending, foldl_fuses]

@[simp] theorem hbmWriteAckEffect_kept (p : Nat) (s : State) :
    (hbmWriteAckEffect p s).pending = s.pending ∧ (hbmWriteAckEffect p s).fuses = s.fuses := by
  unfold hbmWriteAckEffect
  constructor <;> (repeat' split) <;> first | rfl | simp [apply_ite State.pending, apply_ite State.fuses, foldl_pending, foldl_fuses]

@[simp] theorem censusRecordEffect_kept (dev engines halfLinks lastStep epoch : Nat) (s : State) :
    (censusRecordEffect dev engines halfLinks lastStep epoch s).pending = s.pending ∧ (censusRecordEffect dev engines halfLinks lastStep epoch s).fuses = s.fuses := by
  unfold censusRecordEffect
  dsimp only
  constructor <;> (repeat' split) <;> first | rfl | simp [apply_ite State.pending, apply_ite State.fuses, foldl_pending, foldl_fuses]

@[simp] theorem censusSetEffect_kept (dev : Nat) (heard : List Nat) (s : State) :
    (censusSetEffect dev heard s).pending = s.pending ∧ (censusSetEffect dev heard s).fuses = s.fuses := by
  unfold censusSetEffect
  constructor <;> (repeat' split) <;> first | rfl | simp [apply_ite State.pending, apply_ite State.fuses, foldl_pending, foldl_fuses]

@[simp] theorem censusTimeoutEffect_kept (s : State) :
    (censusTimeoutEffect s).pending = s.pending ∧ (censusTimeoutEffect s).fuses = s.fuses := by
  unfold censusTimeoutEffect
  constructor <;> (repeat' split) <;> first | rfl | simp [apply_ite State.pending, apply_ite State.fuses, foldl_pending, foldl_fuses]

@[simp] theorem state_putMigrated_kept (s : State) (e : MapEntry) (b : List Byte) :
    (State.putMigrated s e b).pending = s.pending ∧ (State.putMigrated s e b).fuses = s.fuses := by
  unfold State.putMigrated
  dsimp only
  constructor <;> (repeat' split) <;> first | rfl | simp [apply_ite State.pending, apply_ite State.fuses, foldl_pending, foldl_fuses]

@[simp] theorem state_migrateOne_kept (s : State) (old : List MapEntry) (step : Nat) (e : MapEntry) :
    (State.migrateOne s old step e).pending = s.pending ∧ (State.migrateOne s old step e).fuses = s.fuses := by
  unfold State.migrateOne
  dsimp only
  constructor <;> (repeat' split) <;> first | rfl | simp [apply_ite State.pending, apply_ite State.fuses, foldl_pending, foldl_fuses]

@[simp] theorem state_migrate_kept (s : State) (step : Nat) :
    (State.migrate s step).pending = s.pending ∧ (State.migrate s step).fuses = s.fuses := by
  unfold State.migrate
  constructor <;> (repeat' split) <;> first | rfl | simp [apply_ite State.pending, apply_ite State.fuses, foldl_pending, foldl_fuses]

@[simp] theorem state_routeHeld_kept (s : State) (p : Nat) :
    (State.routeHeld s p).pending = s.pending ∧ (State.routeHeld s p).fuses = s.fuses := by
  unfold State.routeHeld
  simp [apply_ite State.pending, apply_ite State.fuses, foldl_pending, foldl_fuses]

@[simp] theorem migrationCompleteEffect_kept (s : State) :
    (migrationCompleteEffect s).pending = s.pending ∧ (migrationCompleteEffect s).fuses = s.fuses := by
  unfold migrationCompleteEffect
  simp [apply_ite State.pending, apply_ite State.fuses, foldl_pending, foldl_fuses]

@[simp] theorem dataDescriptorReadEffect_kept (step : Nat) (bytes : List Byte) (s : State) :
    (dataDescriptorReadEffect step bytes s).pending = s.pending ∧ (dataDescriptorReadEffect step bytes s).fuses = s.fuses := by
  unfold dataDescriptorReadEffect
  dsimp only
  constructor <;> (repeat' split) <;> simp [apply_ite State.pending, apply_ite State.fuses, foldl_pending, foldl_fuses] <;> (first | rw [foldl_pending] | rw [foldl_fuses]) <;>
    (try intros) <;> (repeat' split) <;> simp [apply_ite State.pending, apply_ite State.fuses, foldl_pending, foldl_fuses]

end Sys2Proof.Machine
end

