-- ==== Sys2Proof/Laws/KeptFlash.lean ====
section
/-! SUPPORT. The operations of Machine/Flash.lean keep the queue and the fuses. -/

set_option linter.unusedSimpArgs false

namespace Sys2Proof.Machine

@[simp] theorem state_eraseBlock_kept (s : State) (b : Nat) :
    (State.eraseBlock s b).pending = s.pending ∧ (State.eraseBlock s b).fuses = s.fuses := ⟨rfl, rfl⟩

@[simp] theorem state_retireBlock_kept (s : State) (b : Nat) :
    (State.retireBlock s b).pending = s.pending ∧ (State.retireBlock s b).fuses = s.fuses := ⟨rfl, rfl⟩

@[simp] theorem state_rewriteImage_kept (s : State) (num : Nat) (above : Option Nat) :
    (State.rewriteImage s num above).pending = s.pending ∧ (State.rewriteImage s num above).fuses = s.fuses := by
  unfold State.rewriteImage
  constructor <;> (repeat' split) <;> first | rfl | simp [apply_ite State.pending, apply_ite State.fuses, foldl_pending, foldl_fuses]

@[simp] theorem state_emptyBlock_kept (s : State) (key : Nat) (above : Option Nat) :
    (State.emptyBlock s key above).pending = s.pending ∧ (State.emptyBlock s key above).fuses = s.fuses := by
  unfold State.emptyBlock
  simp [apply_ite State.pending, apply_ite State.fuses, foldl_pending, foldl_fuses]

@[simp] theorem state_collectBlock_kept (s : State) (key : Nat) :
    (State.collectBlock s key).pending = s.pending ∧ (State.collectBlock s key).fuses = s.fuses := by
  unfold State.collectBlock
  simp [apply_ite State.pending, apply_ite State.fuses, foldl_pending, foldl_fuses]

@[simp] theorem state_collectGarbage_kept (s : State) (g : Nat) :
    (State.collectGarbage s g).pending = s.pending ∧ (State.collectGarbage s g).fuses = s.fuses := by
  unfold State.collectGarbage
  constructor <;> (repeat' split) <;> first | rfl | simp [apply_ite State.pending, apply_ite State.fuses, foldl_pending, foldl_fuses]

@[simp] theorem state_levelWear_kept (s : State) (g : Nat) :
    (State.levelWear s g).pending = s.pending ∧ (State.levelWear s g).fuses = s.fuses := by
  unfold State.levelWear
  dsimp only
  constructor <;> (repeat' split) <;> first | rfl | simp [apply_ite State.pending, apply_ite State.fuses, foldl_pending, foldl_fuses]

@[simp] theorem state_slowQuantum_kept (s : State) :
    (State.slowQuantum s).pending = s.pending ∧ (State.slowQuantum s).fuses = s.fuses := by
  unfold State.slowQuantum
  dsimp only
  constructor <;> (repeat' split) <;> simp [apply_ite State.pending, apply_ite State.fuses, foldl_pending, foldl_fuses] <;> (first | rw [foldl_pending] | rw [foldl_fuses]) <;>
    (try intros) <;> (repeat' split) <;> simp [apply_ite State.pending, apply_ite State.fuses, foldl_pending, foldl_fuses]

@[simp] theorem state_nandBusy_kept (s : State) (t : Nat) :
    (State.nandBusy s t).pending = s.pending ∧ (State.nandBusy s t).fuses = s.fuses := by
  unfold State.nandBusy
  dsimp only
  constructor <;> (repeat' split) <;> first | rfl | simp [apply_ite State.pending, apply_ite State.fuses, foldl_pending, foldl_fuses]

@[simp] theorem state_issueFetches_kept (s : State) :
    (State.issueFetches s).pending = s.pending ∧ (State.issueFetches s).fuses = s.fuses := ⟨rfl, rfl⟩

@[simp] theorem state_writeMap_kept (s : State) (num : Nat) :
    (State.writeMap s num).pending = s.pending ∧ (State.writeMap s num).fuses = s.fuses := ⟨rfl, rfl⟩

@[simp] theorem state_programmed_kept (s : State) (g : SltProgram) (block : Nat) :
    (State.programmed s g block).pending = s.pending ∧ (State.programmed s g block).fuses = s.fuses := by
  unfold State.programmed
  simp [apply_ite State.pending, apply_ite State.fuses, foldl_pending, foldl_fuses]

@[simp] theorem flashProgramCompleteEffect_kept (num block : Nat) (ok : Bool) (s : State) :
    (flashProgramCompleteEffect num block ok s).pending = s.pending ∧ (flashProgramCompleteEffect num block ok s).fuses = s.fuses := by
  unfold flashProgramCompleteEffect
  constructor <;> (repeat' split) <;> first | rfl | simp [apply_ite State.pending, apply_ite State.fuses, foldl_pending, foldl_fuses]

@[simp] theorem state_fetchCounts_kept (s : State) (r : FlashResult) (alone : Bool) :
    (State.fetchCounts s r alone).pending = s.pending ∧ (State.fetchCounts s r alone).fuses = s.fuses := by
  unfold State.fetchCounts
  simp [apply_ite State.pending, apply_ite State.fuses, foldl_pending, foldl_fuses]

@[simp] theorem state_serveReads_kept (s : State) (num l : Nat) :
    (State.serveReads s num l).pending = s.pending ∧ (State.serveReads s num l).fuses = s.fuses := by
  unfold State.serveReads
  simp [apply_ite State.pending, apply_ite State.fuses, foldl_pending, foldl_fuses]

@[simp] theorem state_landRead_kept (s : State) (f : SltFetch) (core since : Nat) (img : Option FlashImage) :
    (State.landRead s f core since img).pending = s.pending ∧ (State.landRead s f core since img).fuses = s.fuses := by
  unfold State.landRead
  dsimp only
  constructor <;> (repeat' split) <;> simp [apply_ite State.pending, apply_ite State.fuses, foldl_pending, foldl_fuses] <;> (first | rw [foldl_pending] | rw [foldl_fuses]) <;>
    (try intros) <;> (repeat' split) <;> simp [apply_ite State.pending, apply_ite State.fuses, foldl_pending, foldl_fuses]

@[simp] theorem state_landLine_kept (s : State) (f : SltFetch) (img : Option FlashImage) :
    (State.landLine s f img).pending = s.pending ∧ (State.landLine s f img).fuses = s.fuses := by
  unfold State.landLine
  dsimp only
  constructor <;> (repeat' split) <;> simp [apply_ite State.pending, apply_ite State.fuses, foldl_pending, foldl_fuses] <;> (first | rw [foldl_pending] | rw [foldl_fuses]) <;>
    (try intros) <;> (repeat' split) <;> simp [apply_ite State.pending, apply_ite State.fuses, foldl_pending, foldl_fuses]

@[simp] theorem state_landFetch_kept (s : State) (f : SltFetch) (r : FlashResult) :
    (State.landFetch s f r).pending = s.pending ∧ (State.landFetch s f r).fuses = s.fuses := by
  unfold State.landFetch
  dsimp only
  constructor <;> (repeat' split) <;> first | rfl | simp [apply_ite State.pending, apply_ite State.fuses, foldl_pending, foldl_fuses]

@[simp] theorem state_scrubRead_kept (s : State) (num : Nat) (r : FlashResult) :
    (State.scrubRead s num r).pending = s.pending ∧ (State.scrubRead s num r).fuses = s.fuses := by
  unfold State.scrubRead
  dsimp only
  constructor <;> (repeat' split) <;> simp [apply_ite State.pending, apply_ite State.fuses, foldl_pending, foldl_fuses] <;> (first | rw [foldl_pending] | rw [foldl_fuses]) <;>
    (try intros) <;> (repeat' split) <;> simp [apply_ite State.pending, apply_ite State.fuses, foldl_pending, foldl_fuses]

@[simp] theorem flashFetchCompleteEffect_kept (num : Nat) (r : FlashResult) (s : State) :
    (flashFetchCompleteEffect num r s).pending = s.pending ∧ (flashFetchCompleteEffect num r s).fuses = s.fuses := by
  unfold flashFetchCompleteEffect
  constructor <;> (repeat' split) <;> first | rfl | simp [apply_ite State.pending, apply_ite State.fuses, foldl_pending, foldl_fuses]

end Sys2Proof.Machine
end

