-- ==== Sys2Proof/Laws/KeptBackground.lean ====
section
/-! SUPPORT. The operations of Machine/Background.lean keep the queue and the fuses. -/

set_option linter.unusedSimpArgs false

namespace Sys2Proof.Machine

@[simp] theorem refreshWindowEffect_kept (g : Nat) (s : State) :
    (refreshWindowEffect g s).pending = s.pending ∧ (refreshWindowEffect g s).fuses = s.fuses := by
  unfold refreshWindowEffect
  simp [apply_ite State.pending, apply_ite State.fuses, foldl_pending, foldl_fuses]

@[simp] theorem state_settleEngines_kept (s : State) :
    (State.settleEngines s).pending = s.pending ∧ (State.settleEngines s).fuses = s.fuses := by
  unfold State.settleEngines
  simp [apply_ite State.pending, apply_ite State.fuses, foldl_pending, foldl_fuses]

@[simp] theorem state_settlePartitions_kept (s : State) :
    (State.settlePartitions s).pending = s.pending ∧ (State.settlePartitions s).fuses = s.fuses := by
  unfold State.settlePartitions
  simp [apply_ite State.pending, apply_ite State.fuses, foldl_pending, foldl_fuses]

@[simp] theorem state_writeRecord_kept (s : State) :
    (State.writeRecord s).pending = s.pending ∧ (State.writeRecord s).fuses = s.fuses := by
  unfold State.writeRecord
  dsimp only
  constructor <;> (repeat' split) <;> simp [apply_ite State.pending, apply_ite State.fuses, foldl_pending, foldl_fuses] <;> (first | rw [foldl_pending] | rw [foldl_fuses]) <;>
    (try intros) <;> (repeat' split) <;> simp [apply_ite State.pending, apply_ite State.fuses, foldl_pending, foldl_fuses]

@[simp] theorem state_visorQuantum_kept (s : State) :
    (State.visorQuantum s).pending = s.pending ∧ (State.visorQuantum s).fuses = s.fuses := by
  unfold State.visorQuantum
  simp [apply_ite State.pending, apply_ite State.fuses, foldl_pending, foldl_fuses]

@[simp] theorem state_readMonitor_kept (s : State) (m : Nat) :
    (State.readMonitor s m).pending = s.pending ∧ (State.readMonitor s m).fuses = s.fuses := by
  unfold State.readMonitor
  simp [apply_ite State.pending, apply_ite State.fuses, foldl_pending, foldl_fuses]

@[simp] theorem state_completeSweep_kept (s : State) :
    (State.completeSweep s).pending = s.pending ∧ (State.completeSweep s).fuses = s.fuses := by
  unfold State.completeSweep
  simp [apply_ite State.pending, apply_ite State.fuses, foldl_pending, foldl_fuses]

@[simp] theorem state_monitorQuantum_kept (s : State) :
    (State.monitorQuantum s).pending = s.pending ∧ (State.monitorQuantum s).fuses = s.fuses := by
  unfold State.monitorQuantum
  simp [apply_ite State.pending, apply_ite State.fuses, foldl_pending, foldl_fuses]

@[simp] theorem state_recalQuantum_kept (s : State) :
    (State.recalQuantum s).pending = s.pending ∧ (State.recalQuantum s).fuses = s.fuses := by
  unfold State.recalQuantum
  simp [apply_ite State.pending, apply_ite State.fuses, foldl_pending, foldl_fuses]

@[simp] theorem state_quantumWork_kept (s : State) (cls : Nat) :
    (State.quantumWork s cls).pending = s.pending ∧ (State.quantumWork s cls).fuses = s.fuses := by
  unfold State.quantumWork
  simp [apply_ite State.pending, apply_ite State.fuses, foldl_pending, foldl_fuses]

@[simp] theorem state_serve_kept (s : State) (cls t : Nat) :
    (State.serve s cls t).pending = s.pending ∧ (State.serve s cls t).fuses = s.fuses := by
  unfold State.serve
  dsimp only
  constructor <;> (repeat' split) <;> simp [apply_ite State.pending, apply_ite State.fuses, foldl_pending, foldl_fuses] <;> (first | rw [foldl_pending] | rw [foldl_fuses]) <;>
    (try intros) <;> (repeat' split) <;> simp [apply_ite State.pending, apply_ite State.fuses, foldl_pending, foldl_fuses]

@[simp] theorem backgroundQuantumEffect_kept (cls : Nat) (s : State) :
    (backgroundQuantumEffect cls s).pending = s.pending ∧ (backgroundQuantumEffect cls s).fuses = s.fuses := by
  unfold backgroundQuantumEffect
  dsimp only
  constructor <;> (repeat' split) <;> simp [apply_ite State.pending, apply_ite State.fuses, foldl_pending, foldl_fuses] <;> (first | rw [foldl_pending] | rw [foldl_fuses]) <;>
    (try intros) <;> (repeat' split) <;> simp [apply_ite State.pending, apply_ite State.fuses, foldl_pending, foldl_fuses]

theorem state_atDeadline_kept (s : State) (cls : Nat) (t : State) (h : s.atDeadline cls = some t) :
    t.pending = s.pending ∧ t.fuses = s.fuses := by
  unfold State.atDeadline at h
  split at h
  · cases h; simp
  · split at h
    · cases h; exact ⟨rfl, rfl⟩
    · obtain ⟨a, -, rfl⟩ := Option.map_eq_some_iff.1 h
      simp

@[simp] theorem state_forceSlot_kept (s : State) (cls : Nat) :
    (State.forceSlot s cls).pending = s.pending ∧ (State.forceSlot s cls).fuses = s.fuses := by
  unfold State.forceSlot
  dsimp only
  constructor <;> (repeat' split) <;> simp [apply_ite State.pending, apply_ite State.fuses, foldl_pending, foldl_fuses] <;> (first | rw [foldl_pending] | rw [foldl_fuses]) <;>
    (try intros) <;> (repeat' split) <;> simp [apply_ite State.pending, apply_ite State.fuses, foldl_pending, foldl_fuses]

@[simp] theorem forcedSlotEffect_kept (cls : Nat) (s : State) :
    (forcedSlotEffect cls s).pending = s.pending ∧ (forcedSlotEffect cls s).fuses = s.fuses := by
  unfold forcedSlotEffect
  split
  · exact ⟨rfl, rfl⟩
  · split
    · exact ⟨rfl, rfl⟩
    · rename_i h
      have := state_atDeadline_kept _ _ _ h
      split <;> simp [this]

end Sys2Proof.Machine
end

