-- ==== Sys2Proof/Laws/KeptCipher.lean ====
section
/-! SUPPORT. The operations of Machine/Cipher.lean keep the queue and the fuses. -/

set_option linter.unusedSimpArgs false

namespace Sys2Proof.Machine

@[simp] theorem state_setPipe_kept (s : State) (q : Nat) (l : Tbl LaneRec) (v w : List LaneRec) :
    (State.setPipe s q l v w).pending = s.pending ∧ (State.setPipe s q l v w).fuses = s.fuses := ⟨rfl, rfl⟩

@[simp] theorem state_placeLane_kept (s : State) (q : Nat) (r : LaneRec) :
    (State.placeLane s q r).pending = s.pending ∧ (State.placeLane s q r).fuses = s.fuses := by
  unfold State.placeLane
  dsimp only
  constructor <;> (repeat' split) <;> first | rfl | simp [apply_ite State.pending, apply_ite State.fuses, foldl_pending, foldl_fuses]

@[simp] theorem recordStartEffect_kept (decrypt : Bool) (a prio len : Nat) (s : State) :
    (recordStartEffect decrypt a prio len s).pending = s.pending ∧ (recordStartEffect decrypt a prio len s).fuses = s.fuses := by
  unfold recordStartEffect
  simp [apply_ite State.pending, apply_ite State.fuses, foldl_pending, foldl_fuses]

@[simp] theorem state_refillLane_kept (s : State) (q i : Nat) :
    (State.refillLane s q i).pending = s.pending ∧ (State.refillLane s q i).fuses = s.fuses := by
  unfold State.refillLane
  dsimp only
  constructor <;> (repeat' split) <;> first | rfl | simp [apply_ite State.pending, apply_ite State.fuses, foldl_pending, foldl_fuses]

@[simp] theorem state_sealed_kept (s : State) (r : LaneRec) (seq : Nat) (aad body : List Byte) :
    (State.sealed s r seq aad body).pending = s.pending ∧ (State.sealed s r seq aad body).fuses = s.fuses := by
  unfold State.sealed
  simp [apply_ite State.pending, apply_ite State.fuses, foldl_pending, foldl_fuses]

@[simp] theorem state_opened_kept (s : State) (r : LaneRec) (seq kid : Nat) (aad body tag : List Byte) :
    (State.opened s r seq kid aad body tag).pending = s.pending ∧ (State.opened s r seq kid aad body tag).fuses = s.fuses := by
  unfold State.opened
  dsimp only
  constructor <;> (repeat' split) <;> first | rfl | simp [apply_ite State.pending, apply_ite State.fuses, foldl_pending, foldl_fuses]

@[simp] theorem recordCompleteEffect_kept (decrypt : Bool) (lane seq kid : Nat) (aad body tag : List Byte) (s : State) :
    (recordCompleteEffect decrypt lane seq kid aad body tag s).pending = s.pending ∧ (recordCompleteEffect decrypt lane seq kid aad body tag s).fuses = s.fuses := by
  unfold recordCompleteEffect
  dsimp only
  constructor <;> (repeat' split) <;> first | rfl | simp [apply_ite State.pending, apply_ite State.fuses, foldl_pending, foldl_fuses]

@[simp] theorem state_handshakeFailed_kept (s : State) (a : Nat) :
    (State.handshakeFailed s a).pending = s.pending ∧ (State.handshakeFailed s a).fuses = s.fuses := ⟨rfl, rfl⟩

@[simp] theorem state_sendFinish_kept (s : State) (a : Nat) :
    (State.sendFinish s a).pending = s.pending ∧ (State.sendFinish s a).fuses = s.fuses := by
  unfold State.sendFinish
  simp [apply_ite State.pending, apply_ite State.fuses, foldl_pending, foldl_fuses]

@[simp] theorem helloEffect_kept (a : Nat) (h : List Byte) (s : State) :
    (helloEffect a h s).pending = s.pending ∧ (helloEffect a h s).fuses = s.fuses := by
  unfold helloEffect
  simp [apply_ite State.pending, apply_ite State.fuses, foldl_pending, foldl_fuses]

@[simp] theorem state_establish_kept (s : State) (a : Nat) :
    (State.establish s a).pending = s.pending ∧ (State.establish s a).fuses = s.fuses := by
  unfold State.establish
  simp [apply_ite State.pending, apply_ite State.fuses, foldl_pending, foldl_fuses]

@[simp] theorem finishEffect_kept (a : Nat) (sig : List Byte) (s : State) :
    (finishEffect a sig s).pending = s.pending ∧ (finishEffect a sig s).fuses = s.fuses := by
  unfold finishEffect
  simp [apply_ite State.pending, apply_ite State.fuses, foldl_pending, foldl_fuses]

@[simp] theorem keyupdEffect_kept (a gen psn : Nat) (s : State) :
    (keyupdEffect a gen psn s).pending = s.pending ∧ (keyupdEffect a gen psn s).fuses = s.fuses := by
  unfold keyupdEffect
  simp [apply_ite State.pending, apply_ite State.fuses, foldl_pending, foldl_fuses]

@[simp] theorem keyackEffect_kept (a gen : Nat) (s : State) :
    (keyackEffect a gen s).pending = s.pending ∧ (keyackEffect a gen s).fuses = s.fuses := by
  unfold keyackEffect
  simp [apply_ite State.pending, apply_ite State.fuses, foldl_pending, foldl_fuses]

@[simp] theorem keySlotOverwriteEffect_kept (a : Nat) (s : State) :
    (keySlotOverwriteEffect a s).pending = s.pending ∧ (keySlotOverwriteEffect a s).fuses = s.fuses := by
  unfold keySlotOverwriteEffect
  dsimp only
  constructor <;> (repeat' split) <;> first | rfl | simp [apply_ite State.pending, apply_ite State.fuses, foldl_pending, foldl_fuses]

@[simp] theorem rekeyTimerEffect_kept (a : Nat) (s : State) :
    (rekeyTimerEffect a s).pending = s.pending ∧ (rekeyTimerEffect a s).fuses = s.fuses := by
  unfold rekeyTimerEffect
  constructor <;> (repeat' split) <;> first | rfl | simp [apply_ite State.pending, apply_ite State.fuses, foldl_pending, foldl_fuses]

@[simp] theorem handshakeTimeoutEffect_kept (h : Nat) (s : State) :
    (handshakeTimeoutEffect h s).pending = s.pending ∧ (handshakeTimeoutEffect h s).fuses = s.fuses := by
  unfold handshakeTimeoutEffect
  dsimp only
  constructor <;> (repeat' split) <;> first | rfl | simp [apply_ite State.pending, apply_ite State.fuses, foldl_pending, foldl_fuses]

@[simp] theorem handshakeRestartEffect_kept (a : Nat) (s : State) :
    (handshakeRestartEffect a s).pending = s.pending ∧ (handshakeRestartEffect a s).fuses = s.fuses := by
  unfold handshakeRestartEffect
  simp [apply_ite State.pending, apply_ite State.fuses, foldl_pending, foldl_fuses]

@[simp] theorem alarmEffect_kept (source : Nat) (s : State) :
    (alarmEffect source s).pending = s.pending ∧ (alarmEffect source s).fuses = s.fuses := by
  unfold alarmEffect
  simp [apply_ite State.pending, apply_ite State.fuses, foldl_pending, foldl_fuses]

@[simp] theorem knownAnswerTestEffect_kept (pass : Bool) (s : State) :
    (knownAnswerTestEffect pass s).pending = s.pending ∧ (knownAnswerTestEffect pass s).fuses = s.fuses := by
  unfold knownAnswerTestEffect
  simp [apply_ite State.pending, apply_ite State.fuses, foldl_pending, foldl_fuses]

@[simp] theorem state_startReport_kept (s : State) (nonce : List Byte) :
    (State.startReport s nonce).pending = s.pending ∧ (State.startReport s nonce).fuses = s.fuses := ⟨rfl, rfl⟩

@[simp] theorem reportSignedEffect_kept (s : State) :
    (reportSignedEffect s).pending = s.pending ∧ (reportSignedEffect s).fuses = s.fuses := by
  unfold reportSignedEffect
  constructor <;> (repeat' split) <;> first | rfl | simp [apply_ite State.pending, apply_ite State.fuses, foldl_pending, foldl_fuses]

end Sys2Proof.Machine
end

