-- ==== Sys2Proof/Laws/KeptContact.lean ====
section
/-! SUPPORT. The operations of Machine/Contact.lean keep the queue and the fuses. -/

set_option linter.unusedSimpArgs false

namespace Sys2Proof.Machine

@[simp] theorem state_setHport_kept (s : State) (h : Nat) (p : HPort) :
    (State.setHport s h p).pending = s.pending ∧ (State.setHport s h p).fuses = s.fuses := ⟨rfl, rfl⟩

@[simp] theorem state_openQps_kept (s : State) (h : Nat) :
    (State.openQps s h).pending = s.pending ∧ (State.openQps s h).fuses = s.fuses := by
  unfold State.openQps
  simp [apply_ite State.pending, apply_ite State.fuses, foldl_pending, foldl_fuses]

@[simp] theorem contactEffect_kept (h : Nat) (s : State) :
    (contactEffect h s).pending = s.pending ∧ (contactEffect h s).fuses = s.fuses := by
  unfold contactEffect
  simp [apply_ite State.pending, apply_ite State.fuses, foldl_pending, foldl_fuses]

@[simp] theorem contactRetryEffect_kept (s : State) :
    (contactRetryEffect s).pending = s.pending ∧ (contactRetryEffect s).fuses = s.fuses := by
  unfold contactRetryEffect
  constructor <;> (repeat' split) <;> first | rfl | simp [apply_ite State.pending, apply_ite State.fuses, foldl_pending, foldl_fuses]

@[simp] theorem controlResendEffect_kept (h : Nat) (s : State) :
    (controlResendEffect h s).pending = s.pending ∧ (controlResendEffect h s).fuses = s.fuses := by
  unfold controlResendEffect
  simp [apply_ite State.pending, apply_ite State.fuses, foldl_pending, foldl_fuses]

@[simp] theorem state_received_kept (s : State) (h n : Nat) :
    (State.received s h n).pending = s.pending ∧ (State.received s h n).fuses = s.fuses := ⟨rfl, rfl⟩

@[simp] theorem state_takeControl_kept (s : State) (h mid ack len : Nat) :
    (State.takeControl s h mid ack len).1.pending = s.pending ∧ (State.takeControl s h mid ack len).1.fuses = s.fuses := by
  unfold State.takeControl
  constructor <;> (repeat' split) <;> first | rfl | simp [apply_ite State.pending, apply_ite State.fuses, foldl_pending, foldl_fuses]

@[simp] theorem state_noteJob_kept (s : State) (b : List Byte) (o : Nat) :
    (State.noteJob s b o).pending = s.pending ∧ (State.noteJob s b o).fuses = s.fuses := ⟨rfl, rfl⟩

@[simp] theorem assignEffect_kept (h mid ack : Nat) (b : List Byte) (s : State) :
    (assignEffect h mid ack b s).pending = s.pending ∧ (assignEffect h mid ack b s).fuses = s.fuses := by
  unfold assignEffect
  simp [apply_ite State.pending, apply_ite State.fuses, foldl_pending, foldl_fuses]

@[simp] theorem state_instruct_kept (s : State) (replace : Bool) :
    (State.instruct s replace).pending = s.pending ∧ (State.instruct s replace).fuses = s.fuses := by
  unfold State.instruct
  simp [apply_ite State.pending, apply_ite State.fuses, foldl_pending, foldl_fuses]

@[simp] theorem stopEffect_kept (h mid ack : Nat) (s : State) :
    (stopEffect h mid ack s).pending = s.pending ∧ (stopEffect h mid ack s).fuses = s.fuses := by
  unfold stopEffect
  simp [apply_ite State.pending, apply_ite State.fuses, foldl_pending, foldl_fuses]

@[simp] theorem replaceEffect_kept (h mid ack : Nat) (b : List Byte) (s : State) :
    (replaceEffect h mid ack b s).pending = s.pending ∧ (replaceEffect h mid ack b s).fuses = s.fuses := by
  unfold replaceEffect
  simp [apply_ite State.pending, apply_ite State.fuses, foldl_pending, foldl_fuses]

@[simp] theorem roceAckTimeoutEffect_kept (q : Nat) (s : State) :
    (roceAckTimeoutEffect q s).pending = s.pending ∧ (roceAckTimeoutEffect q s).fuses = s.fuses := by
  unfold roceAckTimeoutEffect
  constructor <;> (repeat' split) <;> first | rfl | simp [apply_ite State.pending, apply_ite State.fuses, foldl_pending, foldl_fuses]

@[simp] theorem cnpEffect_kept (q : Nat) (s : State) :
    (cnpEffect q s).pending = s.pending ∧ (cnpEffect q s).fuses = s.fuses := by
  unfold cnpEffect
  constructor <;> (repeat' split) <;> first | rfl | simp [apply_ite State.pending, apply_ite State.fuses, foldl_pending, foldl_fuses]

@[simp] theorem roceRateRecoveryEffect_kept (q : Nat) (s : State) :
    (roceRateRecoveryEffect q s).pending = s.pending ∧ (roceRateRecoveryEffect q s).fuses = s.fuses := by
  unfold roceRateRecoveryEffect
  constructor <;> (repeat' split) <;> first | rfl | simp [apply_ite State.pending, apply_ite State.fuses, foldl_pending, foldl_fuses]

@[simp] theorem state_landed_kept (s : State) (w : RoceWhat) (n : Nat) :
    (State.landed s w n).pending = s.pending ∧ (State.landed s w n).fuses = s.fuses := by
  unfold State.landed
  constructor <;> (repeat' split) <;> first | rfl | simp [apply_ite State.pending, apply_ite State.fuses, foldl_pending, foldl_fuses]

@[simp] theorem roceResponseEffect_kept (q psn : Nat) (data : List Byte) (s : State) :
    (roceResponseEffect q psn data s).pending = s.pending ∧ (roceResponseEffect q psn data s).fuses = s.fuses := by
  unfold roceResponseEffect
  constructor <;> (repeat' split) <;> first | rfl | simp [apply_ite State.pending, apply_ite State.fuses, foldl_pending, foldl_fuses]

@[simp] theorem hostPortLinkDownEffect_kept (h : Nat) (s : State) :
    (hostPortLinkDownEffect h s).pending = s.pending ∧ (hostPortLinkDownEffect h s).fuses = s.fuses := by
  unfold hostPortLinkDownEffect
  simp [apply_ite State.pending, apply_ite State.fuses, foldl_pending, foldl_fuses]

end Sys2Proof.Machine
end

