-- ==== Sys2Proof/Laws/KeptMargin.lean ====
section
/-! SUPPORT. The operations of Machine/Margin.lean keep the queue and the fuses. -/

set_option linter.unusedSimpArgs false

namespace Sys2Proof.Machine

@[simp] theorem state_applyRail_kept (s : State) (rail : Nat) (trims : List Nat) :
    (State.applyRail s rail trims).pending = s.pending ∧ (State.applyRail s rail trims).fuses = s.fuses := by
  unfold State.applyRail
  simp [apply_ite State.pending, apply_ite State.fuses, foldl_pending, foldl_fuses]

@[simp] theorem state_sendProposal_kept (s : State) :
    (State.sendProposal s).pending = s.pending ∧ (State.sendProposal s).fuses = s.fuses := by
  unfold State.sendProposal
  simp [apply_ite State.pending, apply_ite State.fuses, foldl_pending, foldl_fuses]

@[simp] theorem state_replan_kept (s : State) :
    (State.replan s).pending = s.pending ∧ (State.replan s).fuses = s.fuses := by
  unfold State.replan
  simp [apply_ite State.pending, apply_ite State.fuses, foldl_pending, foldl_fuses]

@[simp] theorem state_planDue_kept (s : State) :
    (State.planDue s).pending = s.pending ∧ (State.planDue s).fuses = s.fuses := by
  unfold State.planDue
  simp [apply_ite State.pending, apply_ite State.fuses, foldl_pending, foldl_fuses]

@[simp] theorem marginEpochEndEffect_kept (s : State) :
    (marginEpochEndEffect s).pending = s.pending ∧ (marginEpochEndEffect s).fuses = s.fuses := by
  unfold marginEpochEndEffect
  simp [apply_ite State.pending, apply_ite State.fuses, foldl_pending, foldl_fuses]

@[simp] theorem replanHoldoverTimeoutEffect_kept (s : State) :
    (replanHoldoverTimeoutEffect s).pending = s.pending ∧ (replanHoldoverTimeoutEffect s).fuses = s.fuses := by
  unfold replanHoldoverTimeoutEffect
  constructor <;> (repeat' split) <;> first | rfl | simp [apply_ite State.pending, apply_ite State.fuses, foldl_pending, foldl_fuses]

@[simp] theorem state_agreeFrequency_kept (s : State) :
    (State.agreeFrequency s).pending = s.pending ∧ (State.agreeFrequency s).fuses = s.fuses := by
  unfold State.agreeFrequency
  constructor <;> (repeat' split) <;> first | rfl | simp [apply_ite State.pending, apply_ite State.fuses, foldl_pending, foldl_fuses]

@[simp] theorem frequencyProposalEffect_kept (dev prop step : Nat) (s : State) :
    (frequencyProposalEffect dev prop step s).pending = s.pending ∧ (frequencyProposalEffect dev prop step s).fuses = s.fuses := by
  unfold frequencyProposalEffect
  simp [apply_ite State.pending, apply_ite State.fuses, foldl_pending, foldl_fuses]

@[simp] theorem frequencyAgreementTimeoutEffect_kept (s : State) :
    (frequencyAgreementTimeoutEffect s).pending = s.pending ∧ (frequencyAgreementTimeoutEffect s).fuses = s.fuses := by
  unfold frequencyAgreementTimeoutEffect
  constructor <;> (repeat' split) <;> first | rfl | simp [apply_ite State.pending, apply_ite State.fuses, foldl_pending, foldl_fuses]

@[simp] theorem state_noteSwitch_kept (s : State) :
    (State.noteSwitch s).pending = s.pending ∧ (State.noteSwitch s).fuses = s.fuses := by
  unfold State.noteSwitch
  constructor <;> (repeat' split) <;> first | rfl | simp [apply_ite State.pending, apply_ite State.fuses, foldl_pending, foldl_fuses]

@[simp] theorem switchCycleMessageEffect_kept (dev cycle : Nat) (s : State) :
    (switchCycleMessageEffect dev cycle s).pending = s.pending ∧ (switchCycleMessageEffect dev cycle s).fuses = s.fuses := by
  unfold switchCycleMessageEffect
  simp [apply_ite State.pending, apply_ite State.fuses, foldl_pending, foldl_fuses]

@[simp] theorem frequencySwitchEffect_kept (s : State) :
    (frequencySwitchEffect s).pending = s.pending ∧ (frequencySwitchEffect s).fuses = s.fuses := by
  unfold frequencySwitchEffect
  constructor <;> (repeat' split) <;> first | rfl | simp [apply_ite State.pending, apply_ite State.fuses, foldl_pending, foldl_fuses]

@[simp] theorem clockRestartEffect_kept (s : State) :
    (clockRestartEffect s).pending = s.pending ∧ (clockRestartEffect s).fuses = s.fuses := by
  unfold clockRestartEffect
  constructor <;> (repeat' split) <;> first | rfl | simp [apply_ite State.pending, apply_ite State.fuses, foldl_pending, foldl_fuses]

@[simp] theorem state_showAlert_kept (s : State) :
    (State.showAlert s).pending = s.pending ∧ (State.showAlert s).fuses = s.fuses := ⟨rfl, rfl⟩

@[simp] theorem powerSampleEffect_kept (watts : Nat) (s : State) :
    (powerSampleEffect watts s).pending = s.pending ∧ (powerSampleEffect watts s).fuses = s.fuses := ⟨rfl, rfl⟩

@[simp] theorem temperatureSampleEffect_kept (t : Nat) (s : State) :
    (temperatureSampleEffect t s).pending = s.pending ∧ (temperatureSampleEffect t s).fuses = s.fuses := by
  unfold temperatureSampleEffect
  simp [apply_ite State.pending, apply_ite State.fuses, foldl_pending, foldl_fuses]

end Sys2Proof.Machine
end

