-- ==== Sys2Proof/Laws/KeptMitten.lean ====
section
/-! SUPPORT. The operations of Machine/Mitten.lean keep the queue and the fuses. -/

set_option linter.unusedSimpArgs false

namespace Sys2Proof.Machine

@[simp] theorem state_nonVolatile_kept (s : State) :
    (State.nonVolatile s).pending = s.pending ∧ (State.nonVolatile s).fuses = s.fuses := ⟨rfl, rfl⟩

@[simp] theorem state_porstReset_kept (s : State) (pin : Bool) :
    (State.porstReset s pin).pending = s.pending ∧ (State.porstReset s pin).fuses = s.fuses := ⟨rfl, rfl⟩

@[simp] theorem porstNAssertEffect_kept (s : State) :
    (porstNAssertEffect s).pending = s.pending ∧ (porstNAssertEffect s).fuses = s.fuses := ⟨rfl, rfl⟩

@[simp] theorem porstNReleaseEffect_kept (strap : BitVec 2) (s : State) :
    (porstNReleaseEffect strap s).pending = s.pending ∧ (porstNReleaseEffect strap s).fuses = s.fuses := by
  unfold porstNReleaseEffect
  simp [apply_ite State.pending, apply_ite State.fuses, foldl_pending, foldl_fuses]

@[simp] theorem pwrgoodFallEffect_kept (s : State) :
    (pwrgoodFallEffect s).pending = s.pending ∧ (pwrgoodFallEffect s).fuses = s.fuses := by
  unfold pwrgoodFallEffect
  simp [apply_ite State.pending, apply_ite State.fuses, foldl_pending, foldl_fuses]

@[simp] theorem state_startReset_kept (s : State) (cause : Nat) (noretain : Bool) :
    (State.startReset s cause noretain).pending = s.pending ∧ (State.startReset s cause noretain).fuses = s.fuses := by
  unfold State.startReset
  constructor <;> (repeat' split) <;> first | rfl | simp [apply_ite State.pending, apply_ite State.fuses, foldl_pending, foldl_fuses]

@[simp] theorem resetNAssertEffect_kept (s : State) :
    (resetNAssertEffect s).pending = s.pending ∧ (resetNAssertEffect s).fuses = s.fuses := by
  unfold resetNAssertEffect
  simp [apply_ite State.pending, apply_ite State.fuses, foldl_pending, foldl_fuses]

@[simp] theorem selfRefreshConfirmEffect_kept (ok : Bool) (s : State) :
    (selfRefreshConfirmEffect ok s).pending = s.pending ∧ (selfRefreshConfirmEffect ok s).fuses = s.fuses := by
  unfold selfRefreshConfirmEffect
  constructor <;> (repeat' split) <;> first | rfl | simp [apply_ite State.pending, apply_ite State.fuses, foldl_pending, foldl_fuses]

@[simp] theorem state_afterReset_kept (s : State) (r : ResetRun) :
    (State.afterReset s r).pending = s.pending ∧ (State.afterReset s r).fuses = s.fuses := ⟨rfl, rfl⟩

@[simp] theorem resetReleaseEffect_kept (s : State) :
    (resetReleaseEffect s).pending = s.pending ∧ (resetReleaseEffect s).fuses = s.fuses := by
  unfold resetReleaseEffect
  constructor <;> (repeat' split) <;> first | rfl | simp [apply_ite State.pending, apply_ite State.fuses, foldl_pending, foldl_fuses]

@[simp] theorem alarmResetEffect_kept (s : State) :
    (alarmResetEffect s).pending = s.pending ∧ (alarmResetEffect s).fuses = s.fuses := by
  unfold alarmResetEffect
  simp [apply_ite State.pending, apply_ite State.fuses, foldl_pending, foldl_fuses]

@[simp] theorem state_applyConfig_kept (s : State) (i : Image) (slot : Nat) :
    (State.applyConfig s i slot).pending = s.pending ∧ (State.applyConfig s i slot).fuses = s.fuses := ⟨rfl, rfl⟩

@[simp] theorem state_toStep_kept (s : State) (n : Nat) :
    (State.toStep s n).pending = s.pending ∧ (State.toStep s n).fuses = s.fuses := ⟨rfl, rfl⟩

@[simp] theorem state_bootFail_kept (s : State) (step cause stack : Nat) :
    (State.bootFail s step cause stack).pending = s.pending ∧ (State.bootFail s step cause stack).fuses = s.fuses := by
  unfold State.bootFail
  simp [apply_ite State.pending, apply_ite State.fuses, foldl_pending, foldl_fuses]

@[simp] theorem state_bootImage_kept (s : State) (slot : Nat) (bs : List Byte) :
    (State.bootImage s slot bs).pending = s.pending ∧ (State.bootImage s slot bs).fuses = s.fuses := by
  unfold State.bootImage
  constructor <;> (repeat' split) <;> first | rfl | simp [apply_ite State.pending, apply_ite State.fuses, foldl_pending, foldl_fuses]

@[simp] theorem state_bootKeys_kept (s : State) :
    (State.bootKeys s).pending = s.pending ∧ (State.bootKeys s).fuses = s.fuses := ⟨rfl, rfl⟩

@[simp] theorem state_bootKat_kept (s : State) :
    (State.bootKat s).pending = s.pending ∧ (State.bootKat s).fuses = s.fuses := by
  unfold State.bootKat
  simp [apply_ite State.pending, apply_ite State.fuses, foldl_pending, foldl_fuses]

@[simp] theorem state_bootHbm_kept (s : State) :
    (State.bootHbm s).pending = s.pending ∧ (State.bootHbm s).fuses = s.fuses := by
  unfold State.bootHbm
  simp [apply_ite State.pending, apply_ite State.fuses, foldl_pending, foldl_fuses]

@[simp] theorem state_setUpPorts_kept (s : State) :
    (State.setUpPorts s).pending = s.pending ∧ (State.setUpPorts s).fuses = s.fuses := ⟨rfl, rfl⟩

@[simp] theorem state_rebuildMap_kept (s : State) :
    (State.rebuildMap s).pending = s.pending ∧ (State.rebuildMap s).fuses = s.fuses := ⟨rfl, rfl⟩

@[simp] theorem state_trained_kept (s : State) (present failed : Nat) :
    (State.trained s present failed).pending = s.pending ∧ (State.trained s present failed).fuses = s.fuses := by
  unfold State.trained
  simp [apply_ite State.pending, apply_ite State.fuses, foldl_pending, foldl_fuses]

@[simp] theorem state_sendAlign_kept (s : State) :
    (State.sendAlign s).pending = s.pending ∧ (State.sendAlign s).fuses = s.fuses := by
  unfold State.sendAlign
  simp [apply_ite State.pending, apply_ite State.fuses, foldl_pending, foldl_fuses]

@[simp] theorem state_alignSelf_kept (s : State) :
    (State.alignSelf s).pending = s.pending ∧ (State.alignSelf s).fuses = s.fuses := by
  unfold State.alignSelf
  simp [apply_ite State.pending, apply_ite State.fuses, foldl_pending, foldl_fuses]

@[simp] theorem state_contactCoordinator_kept (s : State) :
    (State.contactCoordinator s).pending = s.pending ∧ (State.contactCoordinator s).fuses = s.fuses := by
  unfold State.contactCoordinator
  simp [apply_ite State.pending, apply_ite State.fuses, foldl_pending, foldl_fuses]

@[simp] theorem state_blowFuses_pending (s : State) : s.blowFuses.pending = s.pending := rfl

theorem FusesHold.of_eq {s t : State} (h : t.fuses = s.fuses) : FusesHold s t := by
  simp [FusesHold, State.fuseBits, h]

theorem state_blowFuses_hold (s : State) : FusesHold s s.blowFuses := by
  constructor
  · show s.fuseBits.2 ≤ (if s.host.arbAdvance then max s.fuseBits.2 s.host.cfgSvn else s.fuseBits.2)
    split <;> omega
  · show s.fuseBits.1 &&& (s.fuseBits.1 ||| _) = _
    apply Nat.eq_of_testBit_eq
    intro i
    simp only [Nat.testBit_and, Nat.testBit_or]
    cases s.fuseBits.1.testBit i <;> simp

@[simp] theorem state_fillGroupTables_kept (s : State) :
    (State.fillGroupTables s).pending = s.pending ∧ (State.fillGroupTables s).fuses = s.fuses := ⟨rfl, rfl⟩

@[simp] theorem state_ready_kept (s : State) :
    (State.ready s).pending = s.pending ∧ (State.ready s).fuses = s.fuses := by
  unfold State.ready
  simp [apply_ite State.pending, apply_ite State.fuses, foldl_pending, foldl_fuses]

@[simp] theorem state_rejoin_kept (s : State) :
    (State.rejoin s).pending = s.pending ∧ (State.rejoin s).fuses = s.fuses := by
  unfold State.rejoin
  simp [apply_ite State.pending, apply_ite State.fuses, foldl_pending, foldl_fuses]

@[simp] theorem state_bootDone_pending (s : State) : s.bootDone.pending = s.pending := by
  unfold State.bootDone
  split
  · simp
  · split <;> simp

theorem state_bootDone_hold (s : State) : FusesHold s s.bootDone := by
  unfold State.bootDone
  split
  · have h := state_blowFuses_hold (s.putFld Reg.aonState 0 3 2)
    simpa [FusesHold, State.fuseBits] using h
  · split <;> exact FusesHold.of_eq (by simp)

@[simp] theorem state_firstSweep_kept (s : State) :
    (State.firstSweep s).pending = s.pending ∧ (State.firstSweep s).fuses = s.fuses := by
  unfold State.firstSweep
  simp [apply_ite State.pending, apply_ite State.fuses, foldl_pending, foldl_fuses]

theorem ite_pending {c : Prop} [Decidable c] {a b s : State} (ha : a.pending = s.pending) (hb : b.pending = s.pending) :
    (if c then a else b).pending = s.pending := by
  split <;> assumption

theorem ite_hold {c : Prop} [Decidable c] {a b s : State} (ha : FusesHold s a) (hb : FusesHold s b) :
    FusesHold s (if c then a else b) := by
  split <;> assumption

@[simp] theorem state_bootOk_pending (s : State) : s.bootOk.pending = s.pending := by
  unfold State.bootOk
  dsimp only
  refine ite_pending ?_ (ite_pending ?_ (ite_pending ?_ (ite_pending ?_ (ite_pending ?_ (ite_pending ?_ (ite_pending ?_
    (ite_pending ?_ (ite_pending ?_ (ite_pending (ite_pending ?_ ?_) (ite_pending (ite_pending ?_ ?_) (ite_pending ?_
    ?_)))))))))))
  all_goals simp only [state_toStep_kept, state_bootKeys_kept, state_putFld_kept, state_setUpPorts_kept,
      state_bootHbm_kept, state_trained_kept, state_firstSweep_kept, state_startReport_kept, state_alignSelf_kept,
      state_contactCoordinator_kept, state_bootDone_pending]

theorem state_bootOk_hold (s : State) : FusesHold s s.bootOk := by
  unfold State.bootOk
  dsimp only
  refine ite_hold ?_ (ite_hold ?_ (ite_hold ?_ (ite_hold ?_ (ite_hold ?_ (ite_hold ?_ (ite_hold ?_ (ite_hold ?_ (ite_hold ?_
    (ite_hold (ite_hold ?_ ?_) (ite_hold (ite_hold ?_ ?_) (ite_hold ?_ ?_)))))))))))
  case refine_14 => exact state_bootDone_hold s
  all_goals exact FusesHold.of_eq (by simp only [state_toStep_kept, state_bootKeys_kept, state_putFld_kept, state_setUpPorts_kept,
      state_bootHbm_kept, state_trained_kept, state_firstSweep_kept, state_startReport_kept, state_alignSelf_kept,
      state_contactCoordinator_kept])

@[simp] theorem bootStepCompleteEffect_pending (r : BootResult) (s : State) :
    (bootStepCompleteEffect r s).pending = s.pending := by
  unfold bootStepCompleteEffect
  dsimp only
  (repeat' split) <;> simp

theorem bootStepCompleteEffect_hold (r : BootResult) (s : State) : FusesHold s (bootStepCompleteEffect r s) := by
  unfold bootStepCompleteEffect
  dsimp only
  (repeat' split) <;> first | exact state_bootOk_hold s | exact FusesHold.of_eq (by simp)

@[simp] theorem alignmentFrameEffect_kept (n cycle refDev : Nat) (s : State) :
    (alignmentFrameEffect n cycle refDev s).pending = s.pending ∧ (alignmentFrameEffect n cycle refDev s).fuses = s.fuses := by
  unfold alignmentFrameEffect
  simp [apply_ite State.pending, apply_ite State.fuses, foldl_pending, foldl_fuses]

@[simp] theorem state_showLock_kept (s : State) (v : Nat) :
    (State.showLock s v).pending = s.pending ∧ (State.showLock s v).fuses = s.fuses := ⟨rfl, rfl⟩

@[simp] theorem state_loseLock_kept (s : State) :
    (State.loseLock s).pending = s.pending ∧ (State.loseLock s).fuses = s.fuses := by
  unfold State.loseLock
  simp [apply_ite State.pending, apply_ite State.fuses, foldl_pending, foldl_fuses]

@[simp] theorem state_gainLock_kept (s : State) :
    (State.gainLock s).pending = s.pending ∧ (State.gainLock s).fuses = s.fuses := by
  unfold State.gainLock
  simp [apply_ite State.pending, apply_ite State.fuses, foldl_pending, foldl_fuses]

@[simp] theorem ptpSyncEffect_kept (h : Nat) (offset : Int) (sec ns : Nat) (s : State) :
    (ptpSyncEffect h offset sec ns s).pending = s.pending ∧ (ptpSyncEffect h offset sec ns s).fuses = s.fuses := by
  unfold ptpSyncEffect
  simp [apply_ite State.pending, apply_ite State.fuses, foldl_pending, foldl_fuses]

@[simp] theorem hostLinkDown_kept (h : Nat) (s : State) :
    (hostLinkDown h s).pending = s.pending ∧ (hostLinkDown h s).fuses = s.fuses := by
  unfold hostLinkDown
  simp [apply_ite State.pending, apply_ite State.fuses, foldl_pending, foldl_fuses]

end Sys2Proof.Machine
end

