-- ==== Sys2Proof/Laws/KeptGauntlet.lean ====
section
/-! SUPPORT. The operations of Machine/Gauntlet.lean keep the queue and the fuses. -/

set_option linter.unusedSimpArgs false

namespace Sys2Proof.Machine

@[simp] theorem state_poisonRow_kept (s : State) (unit cause row : Nat) :
    (State.poisonRow s unit cause row).pending = s.pending ∧ (State.poisonRow s unit cause row).fuses = s.fuses := by
  unfold State.poisonRow
  simp [apply_ite State.pending, apply_ite State.fuses, foldl_pending, foldl_fuses]

@[simp] theorem faultReportEffect_kept (unit cause access addr detail : Nat) (s : State) :
    (faultReportEffect unit cause access addr detail s).pending = s.pending ∧ (faultReportEffect unit cause access addr detail s).fuses = s.fuses := by
  unfold faultReportEffect
  simp [apply_ite State.pending, apply_ite State.fuses, foldl_pending, foldl_fuses]

@[simp] theorem state_isolate_kept (s : State) (unit : Nat) :
    (State.isolate s unit).pending = s.pending ∧ (State.isolate s unit).fuses = s.fuses := by
  unfold State.isolate
  simp [apply_ite State.pending, apply_ite State.fuses, foldl_pending, foldl_fuses]

@[simp] theorem state_setRecord_kept (s : State) (e stage : Nat) (open' : Bool) :
    (State.setRecord s e stage open').pending = s.pending ∧ (State.setRecord s e stage open').fuses = s.fuses := ⟨rfl, rfl⟩

@[simp] theorem state_dispose_kept (s : State) (r : FaultRec) (d : Nat) :
    (State.dispose s r d).pending = s.pending ∧ (State.dispose s r d).fuses = s.fuses := by
  unfold State.dispose
  simp [apply_ite State.pending, apply_ite State.fuses, foldl_pending, foldl_fuses]

@[simp] theorem state_handle_kept (s : State) (e : Nat) (r : FaultRec) (d : Nat) :
    (State.handle s e r d).pending = s.pending ∧ (State.handle s e r d).fuses = s.fuses := by
  unfold State.handle
  simp [apply_ite State.pending, apply_ite State.fuses, foldl_pending, foldl_fuses]

@[simp] theorem state_ack_kept (s : State) (e d : Nat) :
    (State.ack s e d).pending = s.pending ∧ (State.ack s e d).fuses = s.fuses := by
  unfold State.ack
  constructor <;> (repeat' split) <;> first | rfl | simp [apply_ite State.pending, apply_ite State.fuses, foldl_pending, foldl_fuses]

@[simp] theorem state_dismissBits_kept (s : State) (first v : Nat) :
    (s.dismissBits first v).pending = s.pending ∧ (s.dismissBits first v).fuses = s.fuses := by
  unfold State.dismissBits
  constructor
  · rw [foldl_pending]
    intro s b
    repeat' split
    all_goals simp
  · rw [foldl_fuses]
    intro s b
    repeat' split
    all_goals simp

@[simp] theorem state_postStage_kept (s : State) (e unit stage : Nat) :
    (State.postStage s e unit stage).pending = s.pending ∧ (State.postStage s e unit stage).fuses = s.fuses := by
  unfold State.postStage
  simp [apply_ite State.pending, apply_ite State.fuses, foldl_pending, foldl_fuses]

@[simp] theorem escalationNotifyEffect_kept (e : Nat) (s : State) :
    (escalationNotifyEffect e s).pending = s.pending ∧ (escalationNotifyEffect e s).fuses = s.fuses := by
  unfold escalationNotifyEffect
  constructor <;> (repeat' split) <;> first | rfl | simp [apply_ite State.pending, apply_ite State.fuses, foldl_pending, foldl_fuses]

@[simp] theorem escalationIsolateEffect_kept (e : Nat) (s : State) :
    (escalationIsolateEffect e s).pending = s.pending ∧ (escalationIsolateEffect e s).fuses = s.fuses := by
  unfold escalationIsolateEffect
  constructor <;> (repeat' split) <;> first | rfl | simp [apply_ite State.pending, apply_ite State.fuses, foldl_pending, foldl_fuses]

@[simp] theorem escalationSafeEffect_kept (e : Nat) (s : State) :
    (escalationSafeEffect e s).pending = s.pending ∧ (escalationSafeEffect e s).fuses = s.fuses := by
  unfold escalationSafeEffect
  constructor <;> (repeat' split) <;> first | rfl | simp [apply_ite State.pending, apply_ite State.fuses, foldl_pending, foldl_fuses]

@[simp] theorem state_restartWatchdog_kept (s : State) (core : Nat) :
    (State.restartWatchdog s core).pending = s.pending ∧ (State.restartWatchdog s core).fuses = s.fuses := ⟨rfl, rfl⟩

@[simp] theorem watchdogExpiryEffect_kept (core : Nat) (s : State) :
    (watchdogExpiryEffect core s).pending = s.pending ∧ (watchdogExpiryEffect core s).fuses = s.fuses := by
  unfold watchdogExpiryEffect
  simp [apply_ite State.pending, apply_ite State.fuses, foldl_pending, foldl_fuses]

@[simp] theorem state_unfreeze_kept (s : State) :
    (State.unfreeze s).pending = s.pending ∧ (State.unfreeze s).fuses = s.fuses := ⟨rfl, rfl⟩

@[simp] theorem state_parityFault_kept (s : State) (off : Nat) :
    (State.parityFault s off).pending = s.pending ∧ (State.parityFault s off).fuses = s.fuses := by
  unfold State.parityFault
  simp [apply_ite State.pending, apply_ite State.fuses, foldl_pending, foldl_fuses]

@[simp] theorem paritySweepEffect_kept (found : Option Nat) (s : State) :
    (paritySweepEffect found s).pending = s.pending ∧ (paritySweepEffect found s).fuses = s.fuses := by
  unfold paritySweepEffect
  dsimp only
  constructor <;> (repeat' split) <;> first | rfl | simp [apply_ite State.pending, apply_ite State.fuses, foldl_pending, foldl_fuses]

end Sys2Proof.Machine
end

