-- ==== Sys2Proof/Laws/KeptJobStart.lean ====
section
/-! SUPPORT. The operations of Machine/JobStart.lean keep the queue and the fuses. -/

set_option linter.unusedSimpArgs false

namespace Sys2Proof.Machine

@[simp] theorem state_refuseJob_kept (s : State) (b : Bad) :
    (State.refuseJob s b).pending = s.pending ∧ (State.refuseJob s b).fuses = s.fuses := by
  unfold State.refuseJob
  simp [apply_ite State.pending, apply_ite State.fuses, foldl_pending, foldl_fuses]

@[simp] theorem state_jobRegisters_kept (s : State) :
    (State.jobRegisters s).pending = s.pending ∧ (State.jobRegisters s).fuses = s.fuses := by
  unfold State.jobRegisters
  simp [apply_ite State.pending, apply_ite State.fuses, foldl_pending, foldl_fuses]

@[simp] theorem state_openJob_kept (s : State) (i : Image) :
    (State.openJob s i).pending = s.pending ∧ (State.openJob s i).fuses = s.fuses := by
  unfold State.openJob
  simp [apply_ite State.pending, apply_ite State.fuses, foldl_pending, foldl_fuses]

@[simp] theorem state_acceptJob_kept (s : State) (i : Image) :
    (State.acceptJob s i).pending = s.pending ∧ (State.acceptJob s i).fuses = s.fuses := by
  unfold State.acceptJob
  simp [apply_ite State.pending, apply_ite State.fuses, foldl_pending, foldl_fuses]

@[simp] theorem jobImageReadCompleteEffect_kept (s : State) :
    (jobImageReadCompleteEffect s).pending = s.pending ∧ (jobImageReadCompleteEffect s).fuses = s.fuses := by
  unfold jobImageReadCompleteEffect
  dsimp only
  constructor <;> (repeat' split) <;> first | rfl | simp [apply_ite State.pending, apply_ite State.fuses, foldl_pending, foldl_fuses]

end Sys2Proof.Machine
end

