-- ==== Sys2Proof/Laws/KeptWindow.lean ====
section
/-! SUPPORT. The operations of Machine/Window.lean keep the queue and the fuses. -/

set_option linter.unusedSimpArgs false

namespace Sys2Proof.Machine

@[simp] theorem state_violAt_kept (s : State) (b : Option (Block × Nat × Nat)) :
    (State.violAt s b).pending = s.pending ∧ (State.violAt s b).fuses = s.fuses := by
  unfold State.violAt
  constructor <;> (repeat' split) <;> first | rfl | simp [apply_ite State.pending, apply_ite State.fuses, foldl_pending, foldl_fuses]

@[simp] theorem state_enableLink_kept (s : State) (n v : Nat) :
    (State.enableLink s n v).pending = s.pending ∧ (State.enableLink s n v).fuses = s.fuses := by
  unfold State.enableLink
  simp [apply_ite State.pending, apply_ite State.fuses, foldl_pending, foldl_fuses]

@[simp] theorem state_actOn_kept (s : State) (m : Master) (b : Block) (n off v : Nat) :
    (State.actOn s m b n off v).pending = s.pending ∧ (State.actOn s m b n off v).fuses = s.fuses := by
  unfold State.actOn
  dsimp only
  constructor <;> (repeat' split) <;> simp [apply_ite State.pending, apply_ite State.fuses, foldl_pending, foldl_fuses] <;> (first | rw [foldl_pending] | rw [foldl_fuses]) <;>
    (try intros) <;> (repeat' split) <;> simp [apply_ite State.pending, apply_ite State.fuses, foldl_pending, foldl_fuses]

@[simp] theorem state_storeWord_kept (s : State) (b : Block) (n off v : Nat) :
    (State.storeWord s b n off v).pending = s.pending ∧ (State.storeWord s b n off v).fuses = s.fuses := by
  unfold State.storeWord
  simp [apply_ite State.pending, apply_ite State.fuses, foldl_pending, foldl_fuses]

@[simp] theorem state_settleFor_kept (s : State) (b : Block) (n off : Nat) :
    (State.settleFor s b n off).pending = s.pending ∧ (State.settleFor s b n off).fuses = s.fuses := by
  unfold State.settleFor
  simp [apply_ite State.pending, apply_ite State.fuses, foldl_pending, foldl_fuses]

@[simp] theorem state_writeFields_kept (s : State) (m : Master) (b : Block) (n off : Nat) (r : RegRow) (v : Nat) :
    (State.writeFields s m b n off r v).pending = s.pending ∧ (State.writeFields s m b n off r v).fuses = s.fuses := by
  unfold State.writeFields
  simp [apply_ite State.pending, apply_ite State.fuses, foldl_pending, foldl_fuses]

@[simp] theorem state_refuseRemote_kept (s : State) :
    (State.refuseRemote s).pending = s.pending ∧ (State.refuseRemote s).fuses = s.fuses := ⟨rfl, rfl⟩

@[simp] theorem state_writeWord_kept (s : State) (m : Master) (a v : Nat) :
    (State.writeWord s m a v).pending = s.pending ∧ (State.writeWord s m a v).fuses = s.fuses := by
  unfold State.writeWord
  constructor <;> (repeat' split) <;> first | rfl | simp [apply_ite State.pending, apply_ite State.fuses, foldl_pending, foldl_fuses]

@[simp] theorem state_writeAlias_kept (s : State) (m : Master) (o : AliasOp) (a v : Nat) :
    (State.writeAlias s m o a v).pending = s.pending ∧ (State.writeAlias s m o a v).fuses = s.fuses := by
  unfold State.writeAlias
  constructor <;> (repeat' split) <;> first | rfl | simp [apply_ite State.pending, apply_ite State.fuses, foldl_pending, foldl_fuses]

@[simp] theorem state_writeBit_kept (s : State) (m : Master) (x v : Nat) :
    (State.writeBit s m x v).pending = s.pending ∧ (State.writeBit s m x v).fuses = s.fuses := by
  unfold State.writeBit
  dsimp only
  constructor <;> (repeat' split) <;> first | rfl | simp [apply_ite State.pending, apply_ite State.fuses, foldl_pending, foldl_fuses]

@[simp] theorem state_writeAt_kept (s : State) (m : Master) (a v : Nat) :
    (State.writeAt s m a v).pending = s.pending ∧ (State.writeAt s m a v).fuses = s.fuses := by
  unfold State.writeAt
  constructor <;> (repeat' split) <;> first | rfl | simp [apply_ite State.pending, apply_ite State.fuses, foldl_pending, foldl_fuses]

@[simp] theorem state_latch_kept (s : State) (m : Master) (b : Block) (n off : Nat) :
    (State.latch s m b n off).pending = s.pending ∧ (State.latch s m b n off).fuses = s.fuses := by
  unfold State.latch
  simp [apply_ite State.pending, apply_ite State.fuses, foldl_pending, foldl_fuses]

@[simp] theorem state_taccCount_kept (s : State) (refused : Bool) (n : Nat) :
    (State.taccCount s refused n).pending = s.pending ∧ (State.taccCount s refused n).fuses = s.fuses := ⟨rfl, rfl⟩

@[simp] theorem state_checkParity_kept (s : State) (t : Target) :
    (State.checkParity s t).pending = s.pending ∧ (State.checkParity s t).fuses = s.fuses := by
  unfold State.checkParity
  constructor <;> (repeat' split) <;> first | rfl | simp [apply_ite State.pending, apply_ite State.fuses, foldl_pending, foldl_fuses]

@[simp] theorem state_readWord_kept (s : State) (m : Master) (t : Target) :
    (State.readWord s m t).1.pending = s.pending ∧ (State.readWord s m t).1.fuses = s.fuses := by
  unfold State.readWord
  constructor <;> (repeat' split) <;> first | rfl | simp [apply_ite State.pending, apply_ite State.fuses, foldl_pending, foldl_fuses]

@[simp] theorem state_readPair_kept (s : State) (m : Master) (a : Nat) :
    (State.readPair s m a).1.pending = s.pending ∧ (State.readPair s m a).1.fuses = s.fuses := by
  unfold State.readPair
  constructor <;> (repeat' split) <;> first | rfl | simp [apply_ite State.pending, apply_ite State.fuses, foldl_pending, foldl_fuses]

@[simp] theorem state_readSized_kept (s : State) (m : Master) (a size : Nat) :
    (State.readSized s m a size).1.pending = s.pending ∧ (State.readSized s m a size).1.fuses = s.fuses := by
  unfold State.readSized
  constructor <;> (repeat' split) <;> first | rfl | simp [apply_ite State.pending, apply_ite State.fuses, foldl_pending, foldl_fuses]

@[simp] theorem state_writeSized_kept (s : State) (m : Master) (a size v : Nat) :
    (State.writeSized s m a size v).pending = s.pending ∧ (State.writeSized s m a size v).fuses = s.fuses := by
  unfold State.writeSized
  simp [apply_ite State.pending, apply_ite State.fuses, foldl_pending, foldl_fuses]

@[simp] theorem state_accessTime_kept (s : State) (m : Master) (t : Target) :
    (State.accessTime s m t).pending = s.pending ∧ (State.accessTime s m t).fuses = s.fuses := by
  unfold State.accessTime
  constructor <;> (repeat' split) <;> first | rfl | simp [apply_ite State.pending, apply_ite State.fuses, foldl_pending, foldl_fuses]

@[simp] theorem state_readAccess_kept (s : State) (m : Master) (a size : Nat) :
    (State.readAccess s m a size).pending = s.pending ∧ (State.readAccess s m a size).fuses = s.fuses := by
  unfold State.readAccess
  simp [apply_ite State.pending, apply_ite State.fuses, foldl_pending, foldl_fuses]

@[simp] theorem state_writeAccess_kept (s : State) (m : Master) (a size v : Nat) :
    (State.writeAccess s m a size v).pending = s.pending ∧ (State.writeAccess s m a size v).fuses = s.fuses := by
  unfold State.writeAccess
  simp [apply_ite State.pending, apply_ite State.fuses, foldl_pending, foldl_fuses]

@[simp] theorem jtagEffect_kept (i : JtagInsn) (s : State) :
    (jtagEffect i s).pending = s.pending ∧ (jtagEffect i s).fuses = s.fuses := by
  unfold jtagEffect
  simp [apply_ite State.pending, apply_ite State.fuses, foldl_pending, foldl_fuses]

end Sys2Proof.Machine
end

