-- ==== Sys2Proof/Laws/KeptRemote.lean ====
section
/-! SUPPORT. The operations of Machine/Remote.lean keep the queue and the fuses. -/

set_option linter.unusedSimpArgs false

namespace Sys2Proof.Machine

@[simp] theorem state_packet_kept (s : State) (h hseq ext n : Nat) (f : State → State)
    (hf : ∀ s, (f s).pending = s.pending ∧ (f s).fuses = s.fuses) :
    (s.packet h hseq ext n f).pending = s.pending ∧ (s.packet h hseq ext n f).fuses = s.fuses := by
  unfold State.packet
  dsimp only
  constructor <;> (repeat' split) <;> simp [hf]

@[simp] theorem state_respond_kept (s : State) (h ext n : Nat) :
    (State.respond s h ext n).pending = s.pending ∧ (State.respond s h ext n).fuses = s.fuses := ⟨rfl, rfl⟩

@[simp] theorem state_respondRead_kept (s : State) (h n : Nat) :
    (State.respondRead s h n).pending = s.pending ∧ (State.respondRead s h n).fuses = s.fuses := by
  unfold State.respondRead
  simp [apply_ite State.pending, apply_ite State.fuses, foldl_pending, foldl_fuses]

@[simp] theorem state_invalid_kept (s : State) (h : Nat) :
    (State.invalid s h).pending = s.pending ∧ (State.invalid s h).fuses = s.fuses := ⟨rfl, rfl⟩

@[simp] theorem state_readNext_kept (s : State) (a size : Nat) :
    (State.readNext s a size).pending = s.pending ∧ (State.readNext s a size).fuses = s.fuses := by
  unfold State.readNext
  simp [apply_ite State.pending, apply_ite State.fuses, foldl_pending, foldl_fuses]

@[simp] theorem state_readPairs_kept (s : State) (n a : Nat) :
    (s.readPairs n a).pending = s.pending ∧ (s.readPairs n a).fuses = s.fuses := by
  induction n generalizing s a with
  | zero => exact ⟨rfl, rfl⟩
  | succ n ih =>
    unfold State.readPairs
    simp [ih]

@[simp] theorem state_readMr0_kept (s : State) (a n : Nat) :
    (State.readMr0 s a n).pending = s.pending ∧ (State.readMr0 s a n).fuses = s.fuses := by
  unfold State.readMr0
  simp [apply_ite State.pending, apply_ite State.fuses, foldl_pending, foldl_fuses]

@[simp] theorem state_writeWords_kept (s : State) (n a : Nat) (d : List Byte) :
    (s.writeWords n a d).pending = s.pending ∧ (s.writeWords n a d).fuses = s.fuses := by
  induction n generalizing s a d with
  | zero => exact ⟨rfl, rfl⟩
  | succ n ih =>
    unfold State.writeWords
    simp [ih]

@[simp] theorem state_writeMr0_kept (s : State) (a : Nat) (d : List Byte) :
    (State.writeMr0 s a d).pending = s.pending ∧ (State.writeMr0 s a d).fuses = s.fuses := by
  unfold State.writeMr0
  simp [apply_ite State.pending, apply_ite State.fuses, foldl_pending, foldl_fuses]

@[simp] theorem rdmaReadEffect_kept (h hseq region a n : Nat) (s : State) :
    (rdmaReadEffect h hseq region a n s).pending = s.pending ∧ (rdmaReadEffect h hseq region a n s).fuses = s.fuses := by
  unfold rdmaReadEffect
  simp [apply_ite State.pending, apply_ite State.fuses, foldl_pending, foldl_fuses]

@[simp] theorem rdmaWriteEffect_kept (h hseq a : Nat) (d : List Byte) (s : State) :
    (rdmaWriteEffect h hseq a d s).pending = s.pending ∧ (rdmaWriteEffect h hseq a d s).fuses = s.fuses := by
  unfold rdmaWriteEffect
  simp [apply_ite State.pending, apply_ite State.fuses, foldl_pending, foldl_fuses]

@[simp] theorem rdmaSendEffect_kept (h hseq qpn : Nat) (d : List Byte) (s : State) :
    (rdmaSendEffect h hseq qpn d s).pending = s.pending ∧ (rdmaSendEffect h hseq qpn d s).fuses = s.fuses := by
  unfold rdmaSendEffect
  apply state_packet_kept
  intro s
  split
  · split <;> simp
  · simp

@[simp] theorem unsupportedRequestEffect_kept (h hseq : Nat) (s : State) :
    (unsupportedRequestEffect h hseq s).pending = s.pending ∧ (unsupportedRequestEffect h hseq s).fuses = s.fuses := by
  unfold unsupportedRequestEffect
  simp [apply_ite State.pending, apply_ite State.fuses, foldl_pending, foldl_fuses]

end Sys2Proof.Machine
end

