-- ==== Sys2Proof/Laws/KeptCommands.lean ====
section
/-! SUPPORT. The operations of Machine/Commands.lean keep the queue and the fuses. -/

set_option linter.unusedSimpArgs false

namespace Sys2Proof.Machine

@[simp] theorem state_inCore_kept (s : State) (i : Instr) (f : State → State)
    (h : ∀ s, (f s).pending = s.pending ∧ (f s).fuses = s.fuses) :
    (s.inCore i f).pending = s.pending ∧ (s.inCore i f).fuses = s.fuses := by
  unfold State.inCore
  split
  · simp [h]
  · exact ⟨rfl, rfl⟩

@[simp] theorem state_inAlwaysOn_kept (s : State) (i : Instr) (f : State → State)
    (h : ∀ s, (f s).pending = s.pending ∧ (f s).fuses = s.fuses) :
    (s.inAlwaysOn i f).pending = s.pending ∧ (s.inAlwaysOn i f).fuses = s.fuses := by
  unfold State.inAlwaysOn
  split
  · simp [h]
  · exact ⟨rfl, rfl⟩

@[simp] theorem state_inWindow_kept (s : State) (i : Instr) (f : State → State)
    (h : ∀ s, (f s).pending = s.pending ∧ (f s).fuses = s.fuses) :
    (s.inWindow i f).pending = s.pending ∧ (s.inWindow i f).fuses = s.fuses := by
  unfold State.inWindow
  split
  · exact h s
  · exact ⟨rfl, rfl⟩

end Sys2Proof.Machine
end

