-- ==== Sys2Proof/Laws/Store.lean ====
section
/-! SUPPORT. Tables, byte memory, bit fields and registers: reads after writes, and the canonical form kept. -/

namespace Sys2Proof.Machine

/-! ### Tables -/

/-- A filter on keys hides nothing from a search for a key that passes it. -/
theorem Tbl.find?_filter {α : Type} (t : Tbl α) (p : Nat → Bool) (k : Nat) :
    (t.filter fun x => p x.1).find? (·.1 == k) = if p k then t.find? (·.1 == k) else none := by
  induction t with
  | nil => simp
  | cons x t ih =>
    by_cases hp : p x.1
    · by_cases hk : x.1 = k
      · subst hk; simp [hp]
      · simp [hp, hk, ih]
    · have hp : p x.1 = false := by simpa using hp
      by_cases hk : x.1 = k
      · subst hk
        simp only [hp, Bool.false_eq_true, if_false] at ih
        simp [hp, ih]
      · simp [hp, hk, ih]

theorem Tbl.find?_set_self {α : Type} (t : Tbl α) (k : Nat) (v : α) : (t.set k v).find? (·.1 == k) = some (k, v) := by
  have h := Tbl.find?_filter t (fun j => decide (j < k)) k
  simp only [Nat.lt_irrefl, decide_false, Bool.false_eq_true, if_false] at h
  simp only [Tbl.set, List.find?_append, h]
  simp

theorem Tbl.find?_set_ne {α : Type} (t : Tbl α) (k j : Nat) (v : α) (h : j ≠ k) :
    (t.set k v).find? (·.1 == j) = t.find? (·.1 == j) := by
  have h1 := Tbl.find?_filter t (fun i => decide (i < k)) j
  have h2 := Tbl.find?_filter t (fun i => decide (k < i)) j
  have hk : (k == j) = false := by simp; omega
  simp only [Tbl.set, List.find?_append, List.find?_cons, h1, h2, hk]
  by_cases hj : j < k
  · have : ¬ k < j := by omega
    simp [hj, this]
  · have : k < j := by omega
    simp [hj, this]

@[simp] theorem Tbl.get?_set_self {α : Type} (t : Tbl α) (k : Nat) (v : α) : Tbl.get? (t.set k v) k = some v := by
  simp [Tbl.get?, Tbl.find?_set_self]

theorem Tbl.get?_set_ne {α : Type} (t : Tbl α) (k j : Nat) (v : α) (h : j ≠ k) : Tbl.get? (t.set k v) j = Tbl.get? t j := by
  simp [Tbl.get?, Tbl.find?_set_ne t k j v h]

@[simp] theorem Tbl.get_set_self {α : Type} (d : α) (t : Tbl α) (k : Nat) (v : α) : Tbl.get d (t.set k v) k = v := by
  simp [Tbl.get, Tbl.find?_set_self]

theorem Tbl.get_set_ne {α : Type} (d : α) (t : Tbl α) (k j : Nat) (v : α) (h : j ≠ k) :
    Tbl.get d (t.set k v) j = Tbl.get d t j := by
  simp [Tbl.get, Tbl.find?_set_ne t k j v h]

/-- Writing keeps the keys strictly rising. -/
theorem Tbl.wf_set {α : Type} (t : Tbl α) (k : Nat) (v : α) (h : t.wf = true) : (t.set k v).wf = true := by
  simp only [Tbl.wf, decide_eq_true_eq] at *
  simp only [Tbl.set, List.pairwise_append, List.pairwise_cons]
  refine ⟨h.filter _, ⟨?_, h.filter _⟩, ?_⟩
  · intro x hx; simpa using (List.mem_filter.1 hx).2
  · intro x hx y hy
    have hx := (List.mem_filter.1 hx).2
    simp only [decide_eq_true_eq] at hx
    rcases List.mem_cons.1 hy with rfl | hy
    · exact hx
    · have hy := (List.mem_filter.1 hy).2
      simp only [decide_eq_true_eq] at hy
      omega

/-- Removing a key keeps the others strictly rising. -/
theorem Tbl.wf_erase {α : Type} (t : Tbl α) (k : Nat) (h : t.wf = true) : (t.erase k).wf = true := by
  simp only [Tbl.wf, decide_eq_true_eq] at *
  exact h.filter _

/-! ### Byte memory -/

theorem Memory.mem_cells {a : Nat} {bs : List Byte} {x : Host.Cell} (h : x ∈ Memory.cells a bs) :
    a ≤ x.1 ∧ x.1 < a + bs.length ∧ x.2 ≠ 0 := by
  induction bs generalizing a with
  | nil => simp [Memory.cells] at h
  | cons b bs ih =>
    simp only [Memory.cells] at h
    split at h
    · obtain ⟨h1, h2, h3⟩ := ih h
      exact ⟨by omega, by simp only [List.length_cons]; omega, h3⟩
    · rename_i hb
      rcases List.mem_cons.1 h with rfl | h
      · exact ⟨Nat.le_refl _, by simp, hb⟩
      · obtain ⟨h1, h2, h3⟩ := ih h
        exact ⟨by omega, by simp only [List.length_cons]; omega, h3⟩

theorem Memory.cells_pairwise (a : Nat) (bs : List Byte) : (Memory.cells a bs).Pairwise fun x y => x.1 < y.1 := by
  induction bs generalizing a with
  | nil => simp [Memory.cells]
  | cons b bs ih =>
    simp only [Memory.cells]
    split
    · exact ih _
    · refine List.pairwise_cons.2 ⟨?_, ih _⟩
      intro x hx
      have := Memory.mem_cells hx
      simp; omega

/-- A byte of the listed cells. -/
theorem Memory.get_cells (a : Nat) (bs : List Byte) (i : Nat) (h : i < bs.length) :
    Memory.get (Memory.cells a bs) (a + i) = bs[i] := by
  induction bs generalizing a i with
  | nil => simp at h
  | cons b bs ih =>
    have out : ∀ j, j ≤ a → Memory.get (Memory.cells (a + 1) bs) j = 0 := by
      intro j hj
      simp only [Memory.get, Tbl.get]
      have : (Memory.cells (a + 1) bs).find? (·.1 == j) = none := by
        simp only [List.find?_eq_none]
        intro x hx
        have := Memory.mem_cells hx
        simp; omega
      rw [this]
    cases i with
    | zero =>
      simp only [Memory.cells]
      split
      · rename_i hb
        have := out a (by omega)
        simp only [Nat.add_zero, List.getElem_cons_zero, hb]
        exact this
      · simp [Memory.get, Tbl.get]
    | succ i =>
      have h' : i < bs.length := by simpa using h
      have := ih (a + 1) i h'
      simp only [Memory.cells]
      split
      · rw [show a + (i + 1) = a + 1 + i by omega]; simpa using this
      · rw [show a + (i + 1) = a + 1 + i by omega]
        simp only [Memory.get, Tbl.get, List.find?_cons]
        have hne : (a == a + 1 + i) = false := by simp; omega
        simp only [hne]
        simpa [Memory.get, Tbl.get] using this

/-- A byte inside a write reads as written. -/
theorem Memory.get_write_in (m : Memory) (a : Nat) (bs : List Byte) (i : Nat) (h : i < bs.length) :
    (m.write a bs).get (a + i) = bs[i] := by
  have h1 := Tbl.find?_filter m (fun j => decide (j < a)) (a + i)
  have h2 := Tbl.find?_filter m (fun j => decide (a + bs.length ≤ j)) (a + i)
  have n1 : ¬ (a + i < a) := by omega
  have n2 : ¬ (a + bs.length ≤ a + i) := by omega
  simp only [n1, n2, decide_false, Bool.false_eq_true, if_false] at h1 h2
  have hc := Memory.get_cells a bs i h
  simp only [Memory.get, Tbl.get] at hc
  simp only [Memory.get, Tbl.get, Memory.write, List.find?_append, h1, h2, Option.none_or, Option.or_none]
  exact hc

/-- A byte outside a write reads as before. -/
theorem Memory.get_write_out (m : Memory) (a : Nat) (bs : List Byte) (j : Nat) (h : j < a ∨ a + bs.length ≤ j) :
    (m.write a bs).get j = m.get j := by
  have h1 := Tbl.find?_filter m (fun i => decide (i < a)) j
  have h2 := Tbl.find?_filter m (fun i => decide (a + bs.length ≤ i)) j
  have hc : (Memory.cells a bs).find? (·.1 == j) = none := by
    simp only [List.find?_eq_none]
    intro x hx
    have := Memory.mem_cells hx
    simp; omega
  simp only [Memory.get, Tbl.get, Memory.write, List.find?_append, h1, h2, hc]
  rcases h with h | h
  · have : ¬ (a + bs.length ≤ j) := by omega
    simp [h, this]
  · have : ¬ (j < a) := by omega
    simp [h, this]

/-- What was written is read back. -/
theorem Memory.read_write (m : Memory) (a : Nat) (bs : List Byte) : (m.write a bs).read a bs.length = bs := by
  apply List.ext_getElem
  · simp [Memory.read]
  · intro i h1 h2
    simp [Memory.read, Memory.get_write_in m a bs i h2]

/-- A write keeps the canonical form. -/
theorem Memory.wf_write (m : Memory) (a : Nat) (bs : List Byte) (h : m.wf = true) : (m.write a bs).wf = true := by
  simp only [Memory.wf, Tbl.wf, Bool.and_eq_true, decide_eq_true_eq, List.all_eq_true, bne_iff_ne, ne_eq] at *
  obtain ⟨hp, hz⟩ := h
  constructor
  · simp only [Memory.write, List.pairwise_append, List.mem_append]
    refine ⟨⟨hp.filter _, Memory.cells_pairwise a bs, ?_⟩, hp.filter _, ?_⟩
    · intro x hx y hy
      have := (List.mem_filter.1 hx).2
      have := Memory.mem_cells hy
      simp at *; omega
    · intro x hx y hy
      have hy := (List.mem_filter.1 hy).2
      rcases hx with hx | hx
      · have := (List.mem_filter.1 hx).2
        simp at *; omega
      · have := Memory.mem_cells hx
        simp at *; omega
  · intro x hx
    simp only [Memory.write, List.mem_append] at hx
    rcases hx with (hx | hx) | hx
    · exact hz x (List.mem_filter.1 hx).1
    · exact (Memory.mem_cells hx).2.2
    · exact hz x (List.mem_filter.1 hx).1

@[simp] theorem Memory.wf_nil : Memory.wf [] = true := rfl

/-! ### Bit fields and registers -/

/-- A bit of a number with a field replaced: the field's from the new value, the others as they were. -/
theorem testBit_putBits (v lo w x i : Nat) :
    (putBits v lo w x).testBit i = if lo ≤ i ∧ i < lo + w then x.testBit (i - lo) else v.testBit i := by
  have hv : v = 2 ^ lo * (2 ^ w * (v / 2 ^ lo / 2 ^ w) + v / 2 ^ lo % 2 ^ w) + v % 2 ^ lo := by
    rw [Nat.div_add_mod, Nat.div_add_mod]
  have hp : putBits v lo w x = 2 ^ lo * (2 ^ w * (v / 2 ^ lo / 2 ^ w) + x % 2 ^ w) + v % 2 ^ lo := by
    unfold putBits bits
    generalize hA : v / 2 ^ lo / 2 ^ w = A at *
    generalize hB : v / 2 ^ lo % 2 ^ w = B at *
    generalize hC : v % 2 ^ lo = C at *
    have e1 : 2 ^ lo * (2 ^ w * A + B) = 2 ^ lo * (2 ^ w * A) + B * 2 ^ lo := by rw [Nat.mul_add, Nat.mul_comm (2 ^ lo) B]
    have e2 : 2 ^ lo * (2 ^ w * A + x % 2 ^ w) = 2 ^ lo * (2 ^ w * A) + x % 2 ^ w * 2 ^ lo := by
      rw [Nat.mul_add, Nat.mul_comm (2 ^ lo) (x % 2 ^ w)]
    rw [e2]
    rw [e1] at hv
    omega
  have b1 : v % 2 ^ lo < 2 ^ lo := Nat.mod_lt _ (Nat.two_pow_pos lo)
  have b2 : x % 2 ^ w < 2 ^ w := Nat.mod_lt _ (Nat.two_pow_pos w)
  have b3 : v / 2 ^ lo % 2 ^ w < 2 ^ w := Nat.mod_lt _ (Nat.two_pow_pos w)
  rw [hp]
  conv => rhs; rw [hv]
  rw [Nat.testBit_two_pow_mul_add _ b1, Nat.testBit_two_pow_mul_add _ b1, Nat.testBit_two_pow_mul_add _ b2,
    Nat.testBit_two_pow_mul_add _ b3]
  by_cases h1 : i < lo
  · have : ¬ (lo ≤ i ∧ i < lo + w) := by omega
    simp [h1, this]
  · by_cases h2 : i < lo + w
    · have h3 : i - lo < w := by omega
      have : lo ≤ i ∧ i < lo + w := by omega
      simp [h1, h3, this, Nat.testBit_mod_two_pow]
    · have h3 : ¬ i - lo < w := by omega
      have : ¬ (lo ≤ i ∧ i < lo + w) := by omega
      simp [h1, h3, this]

theorem testBit_bits (v lo w i : Nat) : (bits v lo w).testBit i = (decide (i < w) && v.testBit (lo + i)) := by
  simp [bits, Nat.testBit_mod_two_pow, Nat.testBit_div_two_pow, Nat.add_comm]

/-- A field reads as written. -/
@[simp] theorem bits_putBits (v lo w x : Nat) : bits (putBits v lo w x) lo w = x % 2 ^ w := by
  apply Nat.eq_of_testBit_eq
  intro i
  rw [testBit_bits, testBit_putBits, Nat.testBit_mod_two_pow]
  by_cases h : i < w
  · have : lo ≤ lo + i ∧ lo + i < lo + w := by omega
    simp [h, this]
  · simp [h]

/-- A field apart from the one written reads as before. -/
theorem bits_putBits_ne (v lo w x lo' w' : Nat) (h : lo' + w' ≤ lo ∨ lo + w ≤ lo') :
    bits (putBits v lo w x) lo' w' = bits v lo' w' := by
  apply Nat.eq_of_testBit_eq
  intro i
  rw [testBit_bits, testBit_bits, testBit_putBits]
  by_cases hi : i < w'
  · have : ¬ (lo ≤ lo' + i ∧ lo' + i < lo + w) := by omega
    simp [hi, this]
  · simp [hi]

@[simp] theorem Regs.get_put_self (r : Tbl Word) (a v : Nat) : Regs.get (Regs.put r a v) a = BitVec.ofNat 32 v := by
  simp [Regs.get, Regs.put]

theorem Regs.get_put_ne (r : Tbl Word) (a b v : Nat) (h : b ≠ a) : Regs.get (Regs.put r a v) b = Regs.get r b := by
  simp [Regs.get, Regs.put, Tbl.get?_set_ne _ _ _ _ h]

@[simp] theorem Regs.nat_put_self (r : Tbl Word) (a v : Nat) : Regs.nat (Regs.put r a v) a = v % 2 ^ 32 := by
  simp [Regs.nat]

theorem Regs.nat_put_ne (r : Tbl Word) (a b v : Nat) (h : b ≠ a) : Regs.nat (Regs.put r a v) b = Regs.nat r b := by
  simp [Regs.nat, Regs.get_put_ne r a b v h]

end Sys2Proof.Machine
end

