-- ==== Sys2Proof/Laws/State.lean ====
section
/-! SUPPORT. What the operations of Machine/Ops.lean leave unchanged, one law per operation, and what they set. -/

namespace Sys2Proof.Machine

@[simp] theorem state_put_frame (s : State) (a v : Nat) :
    (s.put a v).pending = s.pending ∧ (s.put a v).free = s.free ∧ (s.put a v).clk = s.clk ∧ (s.put a v).pins =
    s.pins ∧ (s.put a v).fuses = s.fuses ∧ (s.put a v).shadows = s.shadows ∧ (s.put a v).bus = s.bus ∧ (s.put a
    v).hbm = s.hbm ∧ (s.put a v).tile = s.tile ∧ (s.put a v).tileDue = s.tileDue ∧ (s.put a v).tileWas = s.tileWas ∧
    (s.put a v).gnt = s.gnt ∧ (s.put a v).eng = s.eng ∧ (s.put a v).row = s.row ∧ (s.put a v).lnr = s.lnr ∧ (s.put a
    v).part = s.part ∧ (s.put a v).slt = s.slt ∧ (s.put a v).job = s.job ∧ (s.put a v).vsr = s.vsr ∧ (s.put a v).seq
    = s.seq ∧ (s.put a v).ports = s.ports ∧ (s.put a v).seam = s.seam ∧ (s.put a v).brim = s.brim ∧ (s.put a
    v).pports = s.pports ∧ (s.put a v).cph = s.cph ∧ (s.put a v).host = s.host ∧ (s.put a v).aon = s.aon := by
  refine ⟨rfl, rfl, rfl, rfl, rfl, rfl, rfl, rfl, rfl, rfl, rfl, rfl, rfl, rfl, rfl, rfl, rfl, rfl, rfl, rfl,
    rfl, rfl, rfl, rfl, rfl, rfl, rfl⟩

@[simp] theorem state_putFld_frame (s : State) (a lo w v : Nat) :
    (s.putFld a lo w v).pending = s.pending ∧ (s.putFld a lo w v).free = s.free ∧ (s.putFld a lo w v).clk = s.clk ∧
    (s.putFld a lo w v).pins = s.pins ∧ (s.putFld a lo w v).fuses = s.fuses ∧ (s.putFld a lo w v).shadows =
    s.shadows ∧ (s.putFld a lo w v).bus = s.bus ∧ (s.putFld a lo w v).hbm = s.hbm ∧ (s.putFld a lo w v).tile =
    s.tile ∧ (s.putFld a lo w v).tileDue = s.tileDue ∧ (s.putFld a lo w v).tileWas = s.tileWas ∧ (s.putFld a lo w
    v).gnt = s.gnt ∧ (s.putFld a lo w v).eng = s.eng ∧ (s.putFld a lo w v).row = s.row ∧ (s.putFld a lo w v).lnr =
    s.lnr ∧ (s.putFld a lo w v).part = s.part ∧ (s.putFld a lo w v).slt = s.slt ∧ (s.putFld a lo w v).job = s.job ∧
    (s.putFld a lo w v).vsr = s.vsr ∧ (s.putFld a lo w v).seq = s.seq ∧ (s.putFld a lo w v).ports = s.ports ∧
    (s.putFld a lo w v).seam = s.seam ∧ (s.putFld a lo w v).brim = s.brim ∧ (s.putFld a lo w v).pports = s.pports ∧
    (s.putFld a lo w v).cph = s.cph ∧ (s.putFld a lo w v).host = s.host ∧ (s.putFld a lo w v).aon = s.aon := by
  refine ⟨rfl, rfl, rfl, rfl, rfl, rfl, rfl, rfl, rfl, rfl, rfl, rfl, rfl, rfl, rfl, rfl, rfl, rfl, rfl, rfl,
    rfl, rfl, rfl, rfl, rfl, rfl, rfl⟩

@[simp] theorem state_countN_frame (s : State) (a n : Nat) :
    (s.countN a n).pending = s.pending ∧ (s.countN a n).free = s.free ∧ (s.countN a n).clk = s.clk ∧ (s.countN a
    n).pins = s.pins ∧ (s.countN a n).fuses = s.fuses ∧ (s.countN a n).shadows = s.shadows ∧ (s.countN a n).bus =
    s.bus ∧ (s.countN a n).hbm = s.hbm ∧ (s.countN a n).tile = s.tile ∧ (s.countN a n).tileDue = s.tileDue ∧
    (s.countN a n).tileWas = s.tileWas ∧ (s.countN a n).gnt = s.gnt ∧ (s.countN a n).eng = s.eng ∧ (s.countN a
    n).row = s.row ∧ (s.countN a n).lnr = s.lnr ∧ (s.countN a n).part = s.part ∧ (s.countN a n).slt = s.slt ∧
    (s.countN a n).job = s.job ∧ (s.countN a n).vsr = s.vsr ∧ (s.countN a n).seq = s.seq ∧ (s.countN a n).ports =
    s.ports ∧ (s.countN a n).seam = s.seam ∧ (s.countN a n).brim = s.brim ∧ (s.countN a n).pports = s.pports ∧
    (s.countN a n).cph = s.cph ∧ (s.countN a n).host = s.host ∧ (s.countN a n).aon = s.aon := by
  refine ⟨rfl, rfl, rfl, rfl, rfl, rfl, rfl, rfl, rfl, rfl, rfl, rfl, rfl, rfl, rfl, rfl, rfl, rfl, rfl, rfl,
    rfl, rfl, rfl, rfl, rfl, rfl, rfl⟩

@[simp] theorem state_count_frame (s : State) (a : Nat) :
    (s.count a).pending = s.pending ∧ (s.count a).free = s.free ∧ (s.count a).clk = s.clk ∧ (s.count a).pins =
    s.pins ∧ (s.count a).fuses = s.fuses ∧ (s.count a).shadows = s.shadows ∧ (s.count a).bus = s.bus ∧ (s.count
    a).hbm = s.hbm ∧ (s.count a).tile = s.tile ∧ (s.count a).tileDue = s.tileDue ∧ (s.count a).tileWas = s.tileWas ∧
    (s.count a).gnt = s.gnt ∧ (s.count a).eng = s.eng ∧ (s.count a).row = s.row ∧ (s.count a).lnr = s.lnr ∧ (s.count
    a).part = s.part ∧ (s.count a).slt = s.slt ∧ (s.count a).job = s.job ∧ (s.count a).vsr = s.vsr ∧ (s.count a).seq
    = s.seq ∧ (s.count a).ports = s.ports ∧ (s.count a).seam = s.seam ∧ (s.count a).brim = s.brim ∧ (s.count
    a).pports = s.pports ∧ (s.count a).cph = s.cph ∧ (s.count a).host = s.host ∧ (s.count a).aon = s.aon := by
  refine ⟨rfl, rfl, rfl, rfl, rfl, rfl, rfl, rfl, rfl, rfl, rfl, rfl, rfl, rfl, rfl, rfl, rfl, rfl, rfl, rfl,
    rfl, rfl, rfl, rfl, rfl, rfl, rfl⟩

@[simp] theorem state_tookFree_frame (s : State) :
    (s.tookFree).pending = s.pending ∧ (s.tookFree).clk = s.clk ∧ (s.tookFree).pins = s.pins ∧ (s.tookFree).fuses =
    s.fuses ∧ (s.tookFree).regs = s.regs ∧ (s.tookFree).shadows = s.shadows ∧ (s.tookFree).bus = s.bus ∧
    (s.tookFree).hbm = s.hbm ∧ (s.tookFree).tile = s.tile ∧ (s.tookFree).tileDue = s.tileDue ∧ (s.tookFree).tileWas
    = s.tileWas ∧ (s.tookFree).gnt = s.gnt ∧ (s.tookFree).eng = s.eng ∧ (s.tookFree).row = s.row ∧ (s.tookFree).lnr
    = s.lnr ∧ (s.tookFree).part = s.part ∧ (s.tookFree).slt = s.slt ∧ (s.tookFree).job = s.job ∧ (s.tookFree).vsr =
    s.vsr ∧ (s.tookFree).seq = s.seq ∧ (s.tookFree).ports = s.ports ∧ (s.tookFree).seam = s.seam ∧ (s.tookFree).brim
    = s.brim ∧ (s.tookFree).pports = s.pports ∧ (s.tookFree).cph = s.cph ∧ (s.tookFree).host = s.host ∧
    (s.tookFree).aon = s.aon := by
  refine ⟨rfl, rfl, rfl, rfl, rfl, rfl, rfl, rfl, rfl, rfl, rfl, rfl, rfl, rfl, rfl, rfl, rfl, rfl, rfl, rfl,
    rfl, rfl, rfl, rfl, rfl, rfl, rfl⟩

@[simp] theorem state_atCycle_frame (s : State) (t : Nat) :
    (s.atCycle t).pending = s.pending ∧ (s.atCycle t).free = s.free ∧ (s.atCycle t).pins = s.pins ∧ (s.atCycle
    t).fuses = s.fuses ∧ (s.atCycle t).regs = s.regs ∧ (s.atCycle t).shadows = s.shadows ∧ (s.atCycle t).bus = s.bus
    ∧ (s.atCycle t).hbm = s.hbm ∧ (s.atCycle t).tile = s.tile ∧ (s.atCycle t).tileDue = s.tileDue ∧ (s.atCycle
    t).tileWas = s.tileWas ∧ (s.atCycle t).gnt = s.gnt ∧ (s.atCycle t).eng = s.eng ∧ (s.atCycle t).row = s.row ∧
    (s.atCycle t).lnr = s.lnr ∧ (s.atCycle t).part = s.part ∧ (s.atCycle t).slt = s.slt ∧ (s.atCycle t).job = s.job
    ∧ (s.atCycle t).vsr = s.vsr ∧ (s.atCycle t).seq = s.seq ∧ (s.atCycle t).ports = s.ports ∧ (s.atCycle t).seam =
    s.seam ∧ (s.atCycle t).brim = s.brim ∧ (s.atCycle t).pports = s.pports ∧ (s.atCycle t).cph = s.cph ∧ (s.atCycle
    t).host = s.host ∧ (s.atCycle t).aon = s.aon := by
  unfold State.atCycle
  repeat' split
  all_goals refine ⟨rfl, rfl, rfl, rfl, rfl, rfl, rfl, rfl, rfl, rfl, rfl, rfl, rfl, rfl, rfl, rfl, rfl, rfl, rfl, rfl,
    rfl, rfl, rfl, rfl, rfl, rfl, rfl⟩

@[simp] theorem state_atAc_frame (s : State) (t : Nat) :
    (s.atAc t).pending = s.pending ∧ (s.atAc t).free = s.free ∧ (s.atAc t).pins = s.pins ∧ (s.atAc t).fuses =
    s.fuses ∧ (s.atAc t).regs = s.regs ∧ (s.atAc t).shadows = s.shadows ∧ (s.atAc t).bus = s.bus ∧ (s.atAc t).hbm =
    s.hbm ∧ (s.atAc t).tile = s.tile ∧ (s.atAc t).tileDue = s.tileDue ∧ (s.atAc t).tileWas = s.tileWas ∧ (s.atAc
    t).gnt = s.gnt ∧ (s.atAc t).eng = s.eng ∧ (s.atAc t).row = s.row ∧ (s.atAc t).lnr = s.lnr ∧ (s.atAc t).part =
    s.part ∧ (s.atAc t).slt = s.slt ∧ (s.atAc t).job = s.job ∧ (s.atAc t).vsr = s.vsr ∧ (s.atAc t).seq = s.seq ∧
    (s.atAc t).ports = s.ports ∧ (s.atAc t).seam = s.seam ∧ (s.atAc t).brim = s.brim ∧ (s.atAc t).pports = s.pports
    ∧ (s.atAc t).cph = s.cph ∧ (s.atAc t).host = s.host ∧ (s.atAc t).aon = s.aon := by
  unfold State.atAc
  repeat' split
  all_goals refine ⟨rfl, rfl, rfl, rfl, rfl, rfl, rfl, rfl, rfl, rfl, rfl, rfl, rfl, rfl, rfl, rfl, rfl, rfl, rfl, rfl,
    rfl, rfl, rfl, rfl, rfl, rfl, rfl⟩

@[simp] theorem state_put_regs (s : State) (a v : Nat) : (s.put a v).regs = Regs.put s.regs a v := rfl
@[simp] theorem state_putFld_regs (s : State) (a lo w v : Nat) : (s.putFld a lo w v).regs = Regs.putFld s.regs a lo w v := rfl
@[simp] theorem state_tookFree_free (s : State) : s.tookFree.free = s.free + 1 := rfl

/-- What a write of the tile stores changes: the stores, what is due into them, and what they were. -/
@[simp] theorem state_setTile_frame (s : State) (m : Memory) :
    (s.setTile m).pending = s.pending ∧ (s.setTile m).free = s.free ∧ (s.setTile m).clk = s.clk ∧
    (s.setTile m).pins = s.pins ∧ (s.setTile m).fuses = s.fuses ∧ (s.setTile m).regs = s.regs ∧
    (s.setTile m).shadows = s.shadows ∧ (s.setTile m).bus = s.bus ∧ (s.setTile m).hbm = s.hbm ∧
    (s.setTile m).gnt = s.gnt ∧ (s.setTile m).eng = s.eng ∧ (s.setTile m).row = s.row ∧ (s.setTile m).lnr = s.lnr ∧
    (s.setTile m).part = s.part ∧ (s.setTile m).slt = s.slt ∧ (s.setTile m).job = s.job ∧ (s.setTile m).vsr = s.vsr ∧
    (s.setTile m).seq = s.seq ∧ (s.setTile m).ports = s.ports ∧ (s.setTile m).seam = s.seam ∧
    (s.setTile m).brim = s.brim ∧ (s.setTile m).pports = s.pports ∧ (s.setTile m).cph = s.cph ∧
    (s.setTile m).host = s.host ∧ (s.setTile m).aon = s.aon ∧ (s.setTile m).tile = m := by
  refine ⟨rfl, rfl, rfl, rfl, rfl, rfl, rfl, rfl, rfl, rfl, rfl, rfl, rfl, rfl, rfl, rfl, rfl, rfl, rfl, rfl, rfl,
    rfl, rfl, rfl, rfl, rfl⟩

/-- Writes that land keep the canonical form (R97). -/
theorem landed_wf (m : Memory) (due : List (Nat × Nat × List Byte)) (t : Nat) (h : m.wf = true) :
    (landed m due t).wf = true := by
  unfold landed
  induction due.filter (fun w => decide (w.1 < t)) generalizing m with
  | nil => exact h
  | cons w l ih => exact ih _ (Memory.wf_write _ _ _ h)

/-- The tile stores as they stand are in canonical form. -/
theorem state_tileNow_wf (s : State) (h : s.tile.wf = true) : s.tileNow.wf = true := landed_wf _ _ _ h

/-- With nothing on its way, the tile stores stand as written. -/
@[simp] theorem landed_nil (m : Memory) (t : Nat) : landed m [] t = m := rfl

/-- A register reads as written. -/
@[simp] theorem state_put_reg (s : State) (a v : Nat) : (s.put a v).reg a = v % 2 ^ 32 := by
  simp [State.reg, State.put]

/-- Another register reads as before. -/
theorem state_put_reg_ne (s : State) (a b v : Nat) (h : b ≠ a) : (s.put a v).reg b = s.reg b := by
  simp [State.reg, State.put, Regs.nat_put_ne _ _ _ _ h]

/-- Another register reads as before a field was written. -/
theorem state_putFld_reg_ne (s : State) (a b lo w v : Nat) (h : b ≠ a) : (s.putFld a lo w v).reg b = s.reg b := by
  simp [State.reg, State.putFld, Regs.putFld, Regs.nat_put_ne _ _ _ _ h]

/-- A register is a word. -/
theorem regs_nat_lt (r : Tbl Word) (a : Nat) : Regs.nat r a < 2 ^ 32 := (Regs.get r a).isLt

/-- A field inside a word reads as written. -/
theorem state_putFld_fld (s : State) (a lo w v : Nat) (h : lo + w ≤ 32) : (s.putFld a lo w v).fld a lo w = v % 2 ^ w := by
  have hb : putBits (Regs.nat s.regs a) lo w v < 2 ^ 32 := by
    apply Nat.lt_pow_two_of_testBit
    intro i hi
    rw [testBit_putBits]
    have : ¬ (lo ≤ i ∧ i < lo + w) := by omega
    rw [if_neg this]
    exact Nat.testBit_lt_two_pow (Nat.lt_of_lt_of_le (regs_nat_lt _ _) (Nat.pow_le_pow_right (by omega) hi))
  show bits (Regs.nat (Regs.put s.regs a (putBits (Regs.nat s.regs a) lo w v)) a) lo w = _
  rw [Regs.nat_put_self, Nat.mod_eq_of_lt hb, bits_putBits]

/-- A field apart from the one written, of the same register, reads as before. -/
theorem state_putFld_fld_ne (s : State) (a lo w v lo' w' : Nat) (h : lo + w ≤ 32) (hd : lo' + w' ≤ lo ∨ lo + w ≤ lo') :
    (s.putFld a lo w v).fld a lo' w' = s.fld a lo' w' := by
  have hb : putBits (Regs.nat s.regs a) lo w v < 2 ^ 32 := by
    apply Nat.lt_pow_two_of_testBit
    intro i hi
    rw [testBit_putBits]
    have : ¬ (lo ≤ i ∧ i < lo + w) := by omega
    rw [if_neg this]
    exact Nat.testBit_lt_two_pow (Nat.lt_of_lt_of_le (regs_nat_lt _ _) (Nat.pow_le_pow_right (by omega) hi))
  show bits (Regs.nat (Regs.put s.regs a (putBits (Regs.nat s.regs a) lo w v)) a) lo' w' = _
  rw [Regs.nat_put_self, Nat.mod_eq_of_lt hb, bits_putBits_ne _ _ _ _ _ _ hd]
  rfl

/-- A field of another register reads as before. -/
theorem state_putFld_fld_other (s : State) (a b lo w v lo' w' : Nat) (h : b ≠ a) :
    (s.putFld a lo w v).fld b lo' w' = s.fld b lo' w' := by
  simp [State.fld, Regs.fld, State.putFld, Regs.putFld, Regs.nat_put_ne _ _ _ _ h]

/-- The cycle counter moves to a later cycle and never back (R454). -/
theorem state_atCycle_now (s : State) (t : Nat) (h : t < 2 ^ 64) : (s.atCycle t).now = max s.now t := by
  unfold State.atCycle State.now at *
  split
  · omega
  · simp only [Clk.cycles]
    rw [Nat.mod_eq_of_lt (by omega)]
    omega

/-- A command of the core domain acts while the core runs. -/
@[simp] theorem state_core_running (s : State) (f : State → State) (h : s.coreStopped = false ∧ s.clk.held = false) :
    s.core f = f s := by
  simp [State.core, h]

end Sys2Proof.Machine
end

