-- ==== Sys2Proof/Laws/Shared.lean ====
section
/-! SUPPORT. What the shared operations can do, said once: which components of the state each may change. -/

namespace Sys2Proof.Machine

/-- Moving to a core cycle changes the clocks alone. -/
theorem atCycle_clk (s : State) (t : Nat) : ∃ c, s.atCycle t = { s with clk := c } := by
  unfold State.atCycle; split
  · exact ⟨s.clk, rfl⟩
  · exact ⟨_, rfl⟩

/-- Moving to an always-on cycle changes the clocks alone. -/
theorem atAc_clk (s : State) (t : Nat) : ∃ c, s.atAc t = { s with clk := c } := by
  unfold State.atAc; repeat' split
  · exact ⟨s.clk, rfl⟩
  · exact ⟨_, rfl⟩
  · exact ⟨_, rfl⟩

/-- A well-formed command of the core domain has its effect while the core runs. -/
theorem inCore_run {s : State} (h : s.coreRunning) (i : Instr) (hw : wellFormed i = true) (f : State → State) :
    s.inCore i f = f s := by
  simp only [State.inCore, hw, if_true, state_core_running s f h]

/-- A well-formed command of the always-on domain has its effect while PORST_N is not asserted. -/
theorem inAlwaysOn_run {s : State} (h : s.pins.porst = false) (i : Instr) (hw : wellFormed i = true) (f : State → State) :
    s.inAlwaysOn i f = f s := by
  simp [State.inAlwaysOn, hw, State.always, h]

/-- While the core runs PORST_N is not asserted. -/
theorem coreRunning_porst {s : State} (h : s.coreRunning) : s.pins.porst = false := by
  have := h.1
  simp only [State.coreStopped, Bool.or_eq_false_iff] at this
  exact this.2

/-- A count changes registers alone. -/
theorem countN_regs (s : State) (a n : Nat) : s.countN a n = { s with regs := Regs.count s.regs a n } := rfl

/-- An event posted changes the host ports and registers alone (R439). -/
theorem post_host (s : State) (k u : Nat) (b : List Byte) : ∃ h r, s.post k u b = { s with host := h, regs := r } := by
  unfold State.post
  dsimp only
  split
  · exact ⟨_, _, rfl⟩
  · split
    · exact ⟨_, s.regs, rfl⟩
    · exact ⟨_, _, rfl⟩

/-- Committing accepted writes changes HBM alone (R181). -/
theorem commitAccepted_hbm (s : State) : ∃ m, s.commitAccepted = { s with hbm := m } := ⟨_, rfl⟩

/-- Erasing the keys changes the cipher and registers alone (R413). -/
theorem eraseKeys_parts (s : State) : ∃ c r, s.eraseKeys = { s with cph := c, regs := r } :=
  ⟨s.eraseKeys.cph, s.eraseKeys.regs, rfl⟩

/-- Entering the safe state changes HBM, the cipher, pins and registers alone (R491). -/
theorem enterSafe_parts (s : State) (u n : Nat) :
    ∃ m c p r, s.enterSafe u n = { s with hbm := m, cph := c, pins := p, regs := r } := by
  unfold State.enterSafe
  split
  · exact ⟨s.hbm, s.cph, s.pins, s.regs, rfl⟩
  · obtain ⟨m, e⟩ := commitAccepted_hbm s
    obtain ⟨c, r, e'⟩ := eraseKeys_parts { s with hbm := m }
    dsimp only
    rw [e, e']
    exact ⟨m, c, { s.pins with safe := true }, faultRoot (Regs.putFld r Reg.aonState 0 3 3) u n, rfl⟩

/-- A fault captured changes Gauntlet, free values, the host ports, registers and what the safe state changes (R481 to R491). -/
theorem fault_parts (s : State) (u c a ad d : Nat) (x : Bool) :
    ∃ g f h m k p r, s.fault u c a ad d x =
      { s with gnt := g, free := f, host := h, hbm := m, cph := k, pins := p, regs := r } := by
  unfold State.fault
  split
  · obtain ⟨m, k, p, r, e⟩ := enterSafe_parts s u 3
    exact ⟨s.gnt, s.free, s.host, m, k, p, r, by rw [e]⟩
  · split
    · exact ⟨_, s.free, s.host, s.hbm, s.cph, s.pins, _, rfl⟩
    · split
      · obtain ⟨m, k, p, r, e⟩ := enterSafe_parts (s.count Reg.gntEvcLogfull) u 3
        exact ⟨s.gnt, s.free, s.host, m, k, p, r, by rw [e]; rfl⟩
      · dsimp only
        have hp : ∀ v : FaultRec, ∃ g r, s.placeRecord v = { s with gnt := g, regs := r } := by
          intro v; unfold State.placeRecord; split <;> exact ⟨_, _, rfl⟩
        obtain ⟨g, r, e⟩ := hp (s.record u c a ad d (entryStage c) (s.captureEdges x))
        rw [e]
        split
        · obtain ⟨h, r', e'⟩ := post_host ({ s with gnt := g, regs := r } : State).tookFree.tookFree 5 u (leBytes 4 s.nextEntry ++ leBytes 4 3)
          unfold State.postFault
          rw [e']
          obtain ⟨m, k, p, r'', e''⟩ := enterSafe_parts { ({ s with gnt := g, regs := r } : State).tookFree.tookFree with host := h, regs := r' }
            u (if c = 0x0F then 15 else 3)
          rw [e'']
          exact ⟨g, _, h, m, k, p, r'', rfl⟩
        · exact ⟨g, _, s.host, s.hbm, s.cph, s.pins, r, rfl⟩

/-- With no bad word in Gauntlet no access finds a parity error (R492). -/
theorem checkParity_quiet (s : State) (t : Target) (h : s.gnt.bad = []) : s.checkParity t = s := by
  unfold State.checkParity
  split
  · simp [h]
  · rfl

end Sys2Proof.Machine
end

