-- ==== Sys2Proof/Tests/Slice0.lean ====
section
/-! SUPPORT. The model's own tests: ill-formed terms that each check refuses, one command's effect on small states with
results from the spec's rules, and for every statement states and operands that meet its hypotheses, clause by clause. Where a
hypothesis asks an opaque function of Config (a signature, a seal, a free value), the witness meets the others and takes
the answer as its own hypothesis. -/

namespace Sys2Proof.Tests

open Sys2Proof.Machine

-- One theorem at a time: the witnesses' kernel evaluations side by side need more memory than the check grants.
set_option Elab.async false

/-- The state after a command. -/
def after (i : Instr) (s : State) : State :=
  match exec i s with
  | .next t => t
  | _ => s

/-- The state with register fields set: address, low bit, width, value. -/
def flds (s : State) (l : List (Nat × Nat × Nat × Nat)) : State := l.foldl (fun s f => s.putFld f.1 f.2.1 f.2.2.1 f.2.2.2) s

/-- A part in the run state (R460). -/
def running : State := State.reset.put Reg.aonState 0x2

/-- A part in the safe state (R491). -/
def safe : State := State.reset.put Reg.aonState 0x3

/-- A part held by PORST_N (R474). -/
def porst : State := { State.reset with pins := { porst := true } }

/-- A descriptor of R231 from its opcode, its unit, and the words above bit 31. -/
def cmd (op unit rest : Nat) : Cmd := BitVec.ofNat 256 (op + 2 ^ 8 * unit + 2 ^ 32 * rest)

/-! ### The queue, the clock domains, the invariants -/

theorem witness_StepRunsFrontCommand : ({ running with pending := [.bgslotClose, .censusTimeout] } : State).pending =
    .bgslotClose :: [.censusTimeout] := rfl

theorem witness_EmptyQueueTicks : running.pending = [] ∧ running.coreStopped = false ∧ porst.pins.porst = true ∧
    porst.pending = [] ∧ safe.pending = [] ∧ safe.pins.porst = false ∧ safe.coreStopped = true := by decide

theorem witness_EveryCommandGoesOn : wellFormed (.egressSlot 36) = false := by decide

theorem witness_ExecKeepsQueue : ∃ t, exec .bgslotClose running = .next t := ⟨_, rfl⟩

theorem witness_StoppedDomainsStand : (Instr.inCoreDomain .bgslotClose = true ∧ ¬ safe.coreRunning) ∧
    porst.pins.porst = true := by decide

/-- Fuses all blown. -/
def blown : State := { running with fuses := some (15, 64), pending := [.bgslotClose] }

theorem witness_StepKeepsFusesAboveTest : FusesAboveTest blown ∧ ∃ t, step blown = .next t := by
  refine ⟨⟨Nat.min_le_left _ _, ?_⟩, _, rfl⟩
  show Config.revokeFuse.toNat &&& 15 = Config.revokeFuse.toNat
  have h := Config.revokeFuse.isLt
  have e : (15 : Nat) = 2 ^ 4 - 1 := rfl
  rw [e, Nat.and_two_pow_sub_one_eq_mod]
  exact Nat.mod_eq_of_lt h

theorem witness_StepNeverUnblowsFuses : ∃ t, step blown = .next t := ⟨_, rfl⟩

theorem witness_StepKeepsStoresCanonical : blown.storesWf ∧ ∃ t, step blown = .next t := ⟨by decide, _, rfl⟩

/-! ### Matrix engines, row units, the Liner, the port, commands to the Seam -/

/-- PROD for engine 5 (R72): rows, columns, depth, ACC. -/
def prodOf (m n k acc : Nat) : Cmd := cmd 0x20 5 (2 ^ 16 * m + 2 ^ 24 * n + 2 ^ 32 * k + 2 ^ 52 * acc)
/-- DRAIN for engine 5 (R73) to a destination: rows and columns. -/
def drainTo (dest m n : Nat) : Cmd := cmd 0x21 5 (2 ^ 8 * dest + 2 ^ 16 * m + 2 ^ 24 * n)
/-- DRAIN for engine 5 whose set is dropped: rows and columns. -/
def drainOf (m n : Nat) : Cmd := drainTo 3 m n

theorem witness_EnginesAcceptCommands_prod :
    running.isolated 5 = false ∧ cmdUnit (prodOf 2 2 32 0) = 5 ∧ wellFormed (.prod (prodOf 2 2 32 0)) = true ∧
    (let d (c : Cmd) := engineDesc running 5 (ProdCmd.of c).aDesc
     prodInvalid (ProdCmd.of (prodOf 129 2 32 0)) (d (prodOf 129 2 32 0)) (d (prodOf 129 2 32 0)) = true ∧
     prodInvalid (ProdCmd.of (prodOf 128 1 32 0)) (d (prodOf 128 1 32 0)) (d (prodOf 128 1 32 0)) = false ∧
     (ProdCmd.of (prodOf 128 1 32 0)).m = 128 ∧ (ProdCmd.of (prodOf 128 1 32 0)).k = 32 ∧
     (ProdCmd.of (prodOf 2 2 0 0)).acc = false ∧
     prodInvalid (ProdCmd.of (prodOf 2 2 0 1)) (d (prodOf 2 2 0 1)) (d (prodOf 2 2 0 1)) = false ∧
     (ProdCmd.of (prodOf 2 2 0 1)).k = 0 ∧ (ProdCmd.of (prodOf 2 2 0 1)).acc = true) := by decide +kernel

theorem witness_EnginesAcceptCommands_drain :
    wellFormed (.drain (drainOf 2 2)) = true ∧ cmdUnit (drainOf 2 2) = 5 ∧
    (let o := engineDesc running 5 0
     drainInvalid (DrainCmd.of (drainOf 129 1)) o = true ∧ drainInvalid (DrainCmd.of (drainOf 128 128)) o = false ∧
     (DrainCmd.of (drainOf 128 128)).m = 128 ∧ (DrainCmd.of (drainOf 128 128)).dest = 3 ∧
     drainInvalid (DrainCmd.of (drainTo 1 128 128)) o = false ∧ (DrainCmd.of (drainTo 1 128 128)).dest ≠ 3 ∧ drainInvalid (DrainCmd.of (drainOf 0 1)) o = false ∧
     (DrainCmd.of (drainOf 0 1)).m = 0) := by decide +kernel

/-- Engine 5 with one PROD at its front, its first entry made or not. -/
def prodAt (acc : Nat) (first : Option Nat) : State :=
  { running with eng := [(5, { prods := [{ cmd := prodOf 2 2 32 acc, issue := 0, first := first }] })] }
/-- Engine 5 with one DRAIN at its front. -/
def drainAt (dest : Nat) : State :=
  { running with eng := [(5, { drains := [{ cmd := drainTo dest 2 2, issue := 0, step := 0, lepoch := 0 }] })] }
/-- The PROD in front of engine 5, and its first entry. -/
def front (s : State) : ProdRun := ((s.engine 5).prods.head?).getD { cmd := 0, issue := 0 }

theorem witness_TilesStartPromoteAndSwap_start :
    (prodAt 0 none).coreRunning ∧ (prodAt 0 none).isolated 5 = false ∧
    (prodAt 0 none).engine 5 = { (prodAt 0 none).engine 5 with prods := front (prodAt 0 none) :: [] } ∧
    (front (prodAt 0 none)).first = none ∧ (front (prodAt 0 none)).operands.p.acc = false ∧
    ((prodAt 0 none).engine 5).behindSwap (front (prodAt 0 none))
      (firstEntry ((prodAt 0 none).engine 5) (front (prodAt 0 none)) (front (prodAt 0 none)).operands.p 0).1 = false ∧
    (firstEntry ((prodAt 0 none).engine 5) (front (prodAt 0 none)) (front (prodAt 0 none)).operands.p 0).1 < 2 ^ 64 ∧
    (front (prodAt 0 none)).operands.p.k ≠ 0 ∧
    (front { running with eng := [(5, { prods := [{ cmd := prodOf 2 2 0 0, issue := 0 }] })] }).operands.p.k = 0 := by decide +kernel

theorem witness_TilesStartPromoteAndSwap_promote :
    (prodAt 0 (some 0)).engine 5 = { (prodAt 0 (some 0)).engine 5 with prods := front (prodAt 0 (some 0)) :: [] } ∧
    (front (prodAt 0 (some 0))).first = some 0 ∧
    ((prodAt 0 (some 0)).engine 5).act.failing (front (prodAt 0 (some 0))).operands.p.m = [] ∧
    (front (prodAt 0 (some 0))).half = false ∧ (front (prodAt 0 (some 0))).operands.a.scaled = false ∧
    (front (prodAt 0 (some 0))).operands.b.scaled = false ∧ 1 < (front (prodAt 0 (some 0))).operands.p.m ∧
    (front (prodAt 1 none)).first = none ∧ (front (prodAt 1 none)).operands.p.acc = true ∧
    (front (prodAt 1 none)).operands.p.k ≠ 0 ∧
    ((prodAt 1 none).engine 5).behindSwap (front (prodAt 1 none))
      ((prodAt 1 none).continuationEntry 5 (front (prodAt 1 none)) (front (prodAt 1 none)).operands).1 = false ∧
    ((prodAt 1 none).engine 5).act.failing (front (prodAt 1 none)).operands.p.m = [] := by decide +kernel

theorem witness_TilesStartPromoteAndSwap_swap : ∀ dest ∈ [0, 1, 2, 3], (drainAt dest).coreRunning ∧ (drainAt dest).isolated 5 = false ∧
    (((drainAt dest).engine 5).drains.head?.any fun dr =>
      !((drainAt dest).engine 5).swapBlocked dr ((drainAt dest).entryOfFront 5) &&
      (((drainAt dest).engine 5).act.failing (DrainCmd.of dr.cmd).m).isEmpty && (DrainCmd.of dr.cmd).dest == dest &&
      decide (((drainAt dest).engine 5).swapAt dr < 2 ^ 64)) = true := by decide +kernel

/-- A part with a unit isolated. -/
def isolating (u : Nat) : State := { running with gnt := { isolated := [u] } }

theorem witness_IsolatedUnitTakesNoCommand : (isolating 5).isolated (cmdUnit (prodOf 2 2 32 0)) = true ∧ (isolating 5).coreRunning ∧
    wellFormed (.prod (prodOf 2 2 32 0)) = true := by decide

/-- A row-unit command of the five for row unit 1 (R115, R122 to R125). -/
def rowCmd (op : Nat) : Cmd := cmd op 0x81 0
/-- Row unit 1 busy with an earlier command that holds another behind it. -/
def rowHeld : State :=
  { running with row := [(1, { held := [(.fn, { cmd := rowCmd 0x32, issue := 3, step := 0, lepoch := 0 })], busyTo := 9 })] }

theorem witness_RowCommandsRunInOrder :
    (∀ x ∈ [(0x30, RowOp.red), (0x31, .ew), (0x32, .fn), (0x33, .rblk), (0x34, .tblld)],
      cmdUnit (rowCmd x.1) - 0x80 = 1 ∧ cmdOpcode (rowCmd x.1) = x.1) ∧
    wellFormed (.rowred (rowCmd 0x30)) = true ∧ wellFormed (.rowew (rowCmd 0x31)) = true ∧
    wellFormed (.rowfn (rowCmd 0x32)) = true ∧ wellFormed (.rblk (rowCmd 0x33)) = true ∧
    wellFormed (.tblld (rowCmd 0x34)) = true ∧ running.isolated 0x81 = false ∧
    ((rowHeld.rowUnit 1).held ≠ [] ∧ rowHeld.now < (rowHeld.rowUnit 1).busyTo ∧ rowHeld.coreRunning) ∧
    ((running.rowUnit 1).held = [] ∧ (running.rowUnit 1).busyTo ≤ running.now) ∧
    (rowHeld.isolated (0x80 + 1) = false ∧ max (rowHeld.rowUnit 1).busyTo 3 < 2 ^ 64) := by decide +kernel

/-- A Liner command (R134). -/
def lnrCmd (op : Nat) : Cmd := cmd op 0x1A8 0
/-- Cluster 0's Liner streaming, with a command behind. -/
def lnrHeld : State :=
  { running with lnr := { queues := [(0, { streamTo := 9, held := [(.sreset, { cmd := lnrCmd 0x3A, issue := 3, step := 0, lepoch := 0 })] })] } }

theorem witness_LinerCommandsRunInOrder :
    wellFormed (.stash (lnrCmd 0x38)) = true ∧ wellFormed (.unstash (lnrCmd 0x39)) = true ∧
    wellFormed (.sreset (lnrCmd 0x3A)) = true ∧ (LnrCmd.of .stash (lnrCmd 0x38)).cluster = 0 ∧
    (LnrCmd.of .sreset (lnrCmd 0x3A)).cluster = 32 ∧ (Tbl.get {} running.lnr.queues 32 : LnrQueue).held = [] ∧
    (Tbl.get {} running.lnr.queues 32 : LnrQueue).streamTo ≤ running.now ∧
    ((Tbl.get {} lnrHeld.lnr.queues 0 : LnrQueue).held ≠ [] ∧ lnrHeld.now < (Tbl.get {} lnrHeld.lnr.queues 0 : LnrQueue).streamTo ∧
      lnrHeld.coreRunning) ∧
    ((Tbl.get {} running.lnr.queues 0 : LnrQueue).held = [] ∧ (Tbl.get {} running.lnr.queues 0 : LnrQueue).streamTo ≤ running.now) := by
  decide +kernel

/-- A gradient beat. -/
def beat0 : Beat :=
  { tensor := 1, index := 0, srcDev := 0, srcUnit := 5, lepoch := 0, abstain := false, boundOk := true, part := 2
    vals := List.replicate 64 0 }
/-- Engine 5 with a beat for partition 2. -/
def beatReady : State := { running with eng := [(5, { beats := [{ device := none, part := 2, beat := beat0, readyAt := 0 }] })] }

theorem witness_PortGivesTwoPlacesACycle : beatReady.coreRunning ∧
    ((portUnits 1).filterMap (beatReady.offered 1)).map (·.readyAt) = 0 :: [] ∧
    (beatReady.readyUnits 1 0).head? = some 5 ∧ (beatReady.offered 1 5).any (fun b => b.device.isNone) = true := by decide +kernel

/-- Link 0 up in a domain of 2, with a route to device 1 over it, a sending queue 0 to it, and a group 0 of links 0 and 1. -/
def seamUp : State :=
  flds { running with seam := { tables := Memory.write (Memory.write [] 0x1002 [0x40]) 0x2000 [3] } }
    [(Reg.seamStatus 0, 0, 3, 3), (Reg.seamDomCfg, 0, 1, 1), (Reg.seamDomDev, 10, 11, 2), (Reg.seamDomRouteBaseLo, 0, 32, 0x1000),
     (Reg.seamDomMcastBaseLo, 0, 32, 0x2000), (Reg.seqQCfg 0, 0, 1, 1), (Reg.seqQCfg 0, 6, 10, 1)]
/-- A Seam command of 64 bytes from 0x40 to 0x80, to device 1 (WRITE and POST), queue 0 (SEND) or group 0 (MCAST). -/
def seamCmd (op dest : Nat) : Cmd := cmd op 0x1B0 (dest + 2 ^ 32 * 0x40 + 2 ^ 80 * 0x80 + 2 ^ 128 * 64)

theorem witness_SeamCommandsQueueTheirFrames :
    seamUp.coreRunning ∧ seamUp.isolated (cmdUnit (seamCmd 0x40 0)) = false ∧
    wellFormed (.send (seamCmd 0x40 0)) = true ∧ seamInvalid seamUp .send (seamCmd 0x40 0) = false ∧
    (SeamCmd.of (seamCmd 0x40 0)).len ≠ 0 ∧
    wellFormed (.write (seamCmd 0x41 1)) = true ∧ seamInvalid seamUp .write (seamCmd 0x41 1) = false ∧
    (SeamCmd.of (seamCmd 0x41 1)).len ≠ 0 ∧
    wellFormed (.mcast (seamCmd 0x42 0)) = true ∧ seamInvalid seamUp .mcast (seamCmd 0x42 0) = false ∧
    (SeamCmd.of (seamCmd 0x42 0)).len ≠ 0 ∧
    wellFormed (.post (seamCmd 0x43 1)) = true ∧ seamInvalid seamUp .post (seamCmd 0x43 1) = false ∧
    seamInvalid seamUp .write (seamCmd 0x41 2) = true ∧ seamInvalid running .send (seamCmd 0x40 0) = true ∧
    (let c := cmd 0x40 0x1B0 (2 ^ 16 + 2 ^ 32 * 0x40 + 2 ^ 80 * 0x80)
     wellFormed (.send c) = true ∧ seamInvalid seamUp .send c = false ∧ (SeamCmd.of c).len = 0 ∧ (SeamCmd.of c).last = true) := by
  decide +kernel

/-- Engine 5 with a beat for device 1, over link 0. -/
def beatAway : State := { seamUp with eng := [(5, { beats := [{ device := some 1, part := 2, beat := beat0, readyAt := 0 }] })] }

theorem witness_PortGivesTwoPlacesACycle_remote : beatAway.coreRunning ∧
    ((portUnits 1).filterMap (beatAway.offered 1)).map (·.readyAt) = 0 :: [] ∧ (beatAway.readyUnits 1 0).head? = some 5 ∧
    (beatAway.offered 1 5).any (fun b => b.device == some 1 && beatAway.beatLink 1 b.beat.srcUnit == some 0) = true := by
  decide +kernel

/-! ### The sequencer and the service cores -/

/-- A command of the sequencer (R231). -/
def seqCmd (op rest : Nat) : Cmd := cmd op 0x1F8 rest

theorem witness_StreamCommandsMoveTheirStream :
    wellFormed (.nop 39 (seqCmd 0 1)) = true ∧ (seqCmd 0 0).toNat / 2 ^ 32 = 0 ∧ wellFormed (.nop 39 (seqCmd 0 0)) = true ∧
    wellFormed (.advance 39 (seqCmd 1 7)) = true ∧ cmdFld (seqCmd 1 7) 32 32 ≠ 0 ∧
    wellFormed (.slack 0 (seqCmd 2 7)) = true ∧ cmdFld (seqCmd 2 7) 32 32 ≠ 0 ∧ cmdFld (seqCmd 1 0) 32 32 = 0 ∧
    seqReserved 1 (seqCmd 1 0) = false ∧ wellFormed (.advance 0 (seqCmd 1 0)) = true ∧ cmdFld (seqCmd 2 0) 32 32 = 0 ∧
    seqReserved 1 (seqCmd 2 0) = false ∧ wellFormed (.slack 0 (seqCmd 2 0)) = true := by decide +kernel

/-- Cue 3 at 2^31, where a WAITCUE for 0 waits and one for 1 passes. -/
def cueAt : State := flds running [(Reg.seqCue 3, 0, 32, 2 ^ 31)]

theorem witness_CuesCompareAndAdd :
    wellFormed (.waitcue 0 (seqCmd 3 3)) = true ∧ cueAt.coreRunning ∧
    ¬ (cueAt.cueSeen 3 cueAt.now + 2 ^ 32 - 0) % 2 ^ 32 < 2 ^ 31 ∧ (cueAt.cueSeen 3 cueAt.now + 2 ^ 32 - 1) % 2 ^ 32 < 2 ^ 31 ∧
    cmdFld (seqCmd 3 (3 + 2 ^ 8)) 40 32 = 1 ∧
    wellFormed (.postcue 0 (seqCmd 4 223)) = true ∧ seqReserved 4 (seqCmd 4 223) = false ∧ cmdFld (seqCmd 4 223) 32 8 = 223 ∧
    wellFormed (.postcue 0 (seqCmd 4 224)) = true ∧ cmdFld (seqCmd 4 224) 32 8 = 224 := by decide +kernel

/-- Queue 0 sends to device 1 with one credit; queue 1 receives from it, with one message that has come. -/
def queues : State :=
  flds seamUp [(Reg.seqQCred 0, 0, 5, 1), (Reg.seqQCfg 1, 0, 2, 3), (Reg.seqQCfg 1, 6, 10, 1), (Reg.seqQArr 1, 0, 32, 1)]

theorem witness_QueueCommandsMoveCredits :
    queues.coreRunning ∧ cmdFld (seqCmd 6 0) 38 218 = 0 ∧ cmdFld (seqCmd 7 1) 38 218 = 0 ∧
    wellFormed (.qbound 0 (seqCmd 6 0)) = true ∧ queues.queueOk 0 false = true ∧ queues.fld (Reg.seqQCred 0) 0 5 ≠ 0 ∧
    queues.denied 0 = false ∧ (queues.putFld (Reg.seqQCred 0) 0 5 0).fld (Reg.seqQCred 0) 0 5 = 0 ∧
    wellFormed (.qwait 0 (seqCmd 7 1)) = true ∧ wellFormed (.qfree 0 (seqCmd 8 1)) = true ∧ queues.queueOk 1 true = true ∧
    queues.reg (Reg.seqQArr 1) ≠ queues.reg (Reg.seqQCons 1) ∧
    (queues.put (Reg.seqQCons 1) 1).reg (Reg.seqQArr 1) = (queues.put (Reg.seqQCons 1) 1).reg (Reg.seqQCons 1) := by
  decide +kernel

/-- A background slot is open. -/
def slotOpened : State := { running with seq := { running.seq with slots := [{ classes := 0xE, closes := 100000 }] } }

theorem witness_SlotsExpansionsAndSteps :
    wellFormed (.bgslot 0 (seqCmd 9 (5 + 2 ^ 32 * 2))) = true ∧ seqReserved 9 (seqCmd 9 (5 + 2 ^ 32 * 2)) = false ∧
    cmdFld (seqCmd 9 (5 + 2 ^ 32 * 2)) 32 32 ≠ 0 ∧ cmdFld (seqCmd 9 (5 + 2 ^ 32 * 2)) 64 4 ≠ 0 ∧
    running.fld Reg.seqCfg 2 6 = 0 ∧ running.fld Reg.seqCfg 2 6 ≠ 1 ∧ wellFormed (.bgslot 1 (seqCmd 9 (5 + 2 ^ 32 * 2))) = true ∧
    slotOpened.seq.slots ≠ [] ∧ (∀ b ∈ slotOpened.seq.slots, b.closes < 2 ^ 64) ∧ slotOpened.coreRunning ∧
    wellFormed (.expand 0 (seqCmd 0x0A 0)) = true ∧ running.fld Reg.seqCfg 1 1 = 0 ∧
    (running.putFld Reg.seqCfg 1 1 1).fld Reg.seqCfg 1 1 = 1 ∧ wellFormed (.stepend 0 (seqCmd 0x0B 0)) = true ∧
    (let t := stependEffect 0 (seqCmd 0x0B 0) running
     t.stepOver (t.reg Reg.seqStep) = false) := by decide +kernel

/-- SLEEP of a unit to a level with the next command after a time (R250). -/
def sleepCmd (unit level next : Nat) : Cmd := seqCmd 5 (unit + 2 ^ 12 * level + 2 ^ 32 * next)
/-- Every unit awake. -/
def awake (s : State) : State := { running with clk := s.clk, seq := { running.seq with gates := [] } }
/-- Engine 5 with a gate planned, begun or left. -/
def gateAt (phase : Nat) (wake : Option Nat) : State :=
  { running with seq := { running.seq with gates := [(5, ⟨1, wake, phase, 3, none⟩)] } }

theorem witness_UnitsSleepAndWake :
    wellFormed (.sleep 0 (sleepCmd 5 1 400)) = true ∧ seqReserved 5 (sleepCmd 5 1 400) = false ∧
    cmdFld (sleepCmd 0x9F 3 0xFFFFFFFF) 32 12 = 0x9F ∧ seqReserved 5 (sleepCmd 0x9F 3 0xFFFFFFFF) = false ∧
    cmdFld (sleepCmd 5 1 400) 44 2 ≠ 0 ∧ cmdFld (sleepCmd 0xA0 1 0) 32 12 = 0xA0 ∧ cmdFld (sleepCmd 5 0 0) 44 2 = 0 ∧
    gateTarget 5 = true ∧ (gateAt 0 (some 1)).coreRunning ∧
    gateKey 5 1 = 5 ∧ Tbl.get? (awake {}).seq.gates 5 = none ∧
    Tbl.get? (gateAt 0 (some 1)).seq.gates 5 = some ⟨1, some 1, 0, 3, none⟩ ∧ (gateAt 0 (some 1)).targetIdle 5 = true ∧
    (gateAt 0 (some 1)).now + (gateTimes 1).1 ≤ 1 ∧ 0 < (gateAt 0 (some 0)).now + (gateTimes 1).1 ∧
    Tbl.get? (gateAt 1 (some 7)).seq.gates 5 = some ⟨1, some 7, 1, 3, none⟩ ∧
    Tbl.get? (gateAt 2 (some 7)).seq.gates 5 = some ⟨1, some 7, 2, 3, none⟩ ∧
    (let g : Gate := ⟨1, some 7, 2, 3, some (2, none)⟩
     Tbl.get? ({ running with seq := { running.seq with gates := [(5, g)] } } : State).seq.gates 5 = some g ∧ g.phase = 2 ∧
     g.at' < 2 ^ 64 ∧ g.next = some (2, none)) := by decide +kernel

/-- Stream 0 runs with one NOP fetched. -/
def streamAt : State :=
  flds { running with seq := { running.seq with streams := [(0, { fetched := 1 })] }, hbm := Memory.write [] 0x4001 [0xF8, 0x01] }
    [(Reg.seqCfg, 0, 1, 1), (Reg.seqSCfg 0, 0, 1, 1), (Reg.seqSLen 0, 0, 32, 1), (Reg.seqSBaseLo 0, 0, 32, 0x4000)]

theorem witness_CommandIssuesWhenDue_off : running.streamRuns 0 = false := by decide +kernel

theorem witness_CommandIssuesWhenDue : streamAt.nextItem 0 = (streamAt, .cmd (seqCmd 0 0) false) ∧
    cmdUnit (seqCmd 0 0) = 0x1F8 ∧ cmdOpcode (seqCmd 0 0) = 0 ∧ cmdFld (seqCmd 0 0) 32 224 = 0 ∧
    (streamAt.stream 0).from' (streamAt.dueAt 0 (seqCmd 0 0) false).1 < 2 ^ 64 ∧
    (streamAt.atCycle ((streamAt.stream 0).from' (streamAt.dueAt 0 (seqCmd 0 0) false).1)).holds 0 (seqCmd 0 0) = 0 ∧
    streamAt.coreRunning ∧ streamAt.streamRuns 0 = true ∧ streamAt.fld Reg.seqCfg 1 1 = 0 ∧
    (streamAt.stream 0).expand = none ∧ (streamAt.stream 0).ronly = none := by decide +kernel

/-- Core 0 awake and running a routine. -/
def coreUp (c : Core) : State := { running with seq := { running.seq with gates := [], cores := [(0, { c with busy := true })] } }
/-- A custom-0 word (R265): funct7, rs2, rs1, funct3, rd. -/
def zcWord (f7 rs2 rs1 f3 rd : Nat) : Word := BitVec.ofNat 32 (0x0B + 2 ^ 7 * rd + 2 ^ 12 * f3 + 2 ^ 15 * rs1 + 2 ^ 20 * rs2 + 2 ^ 25 * f7)

/-- A compatibility ring of one entry in stream 0. -/
def ringUp : State := flds (coreUp {}) [(Reg.seqCfg, 1, 1, 1), (Reg.seqSCfg 0, 0, 1, 1), (Reg.seqSLen 0, 0, 32, 1)]

theorem witness_ServiceCoreInstructions :
    (coreUp {}).coreRunning ∧ (coreUp {}).coreRuns 0 = true ∧
    (∀ f ∈ [0, 1, 2, 3, 4, 5, 7], (ZcInsn.of (zcWord 0 2 1 f 3)).opcode = 0x0B ∧ (ZcInsn.of (zcWord 0 2 1 f 3)).funct7 = 0 ∧
      (ZcInsn.of (zcWord 0 2 1 f 3)).funct3 = f) ∧
    ((coreUp {}).serviceCore 0).x 1 ≤ (coreUp {}).now ∧
    (coreUp { regs := [(1, 5)] }).now < ((coreUp { regs := [(1, 5)] }).serviceCore 0).x 1 ∧
    ((coreUp { regs := [(1, 223)] }).serviceCore 0).x 1 % 256 < 224 ∧
    (coreUp {}).ringOk 0 = false ∧ ringUp.ringOk 0 = true ∧
    (ringUp.reg (Reg.seqSTail 0) + 2 ^ 32 - ringUp.reg (Reg.seqSHead 0)) % 2 ^ 32 < ringUp.reg (Reg.seqSLen 0) ∧
    (let t := ringUp.put (Reg.seqSTail 0) 1
     t.reg (Reg.seqSLen 0) ≤ (t.reg (Reg.seqSTail 0) + 2 ^ 32 - t.reg (Reg.seqSHead 0)) % 2 ^ 32) := by decide +kernel

theorem witness_RoutinesStartAndResume :
    wellFormed (.start (cmd 0x50 0xA0 0)) = true ∧ running.isolated (cmdUnit (cmd 0x50 0xA0 0)) = false ∧
    (running.serviceCore 0).busy = false ∧ ((coreUp {}).serviceCore 0).busy = true ∧
    (ZcInsn.of (zcWord 1 0 0 2 0)).funct7 ≠ 0 ∧ (ZcInsn.of (zcWord 0 0 0 6 0)).funct3 = 6 ∧
    ((coreUp { waitUntil := some 9 }).serviceCore 0).waitUntil = some 9 ∧
    ((coreUp { waitCue := some (3, 1) }).serviceCore 0).waitCue = some (3, 1) ∧
    ((coreUp { waitCue := some (3, 1) }).serviceCore 0).waitUntil = none := by decide +kernel

/-! ### Partitions and the Cuff -/

/-- Partition 2 enabled, with what is given. -/
def cuff (x : Partition) : State := flds { running with part := [(2, x)] } [(Reg.cufCfg 2, 0, 1, 1)]
/-- A slice of one piece of tensor 1 whose one contribution comes from engine 5 of device 0 (R153, R157). -/
def slice1 : SliceEntry := { tensor := 1, pieces := 1, mask := 1, e := 1 }
/-- Slot 0 open for it, with its plan. -/
def slotOf (runs : List (Nat × Nat × Nat)) : Slot := { state := 1, slice := slice1, runs := runs }
/-- A beat at ingress 1. -/
def arriving (w : Option IngressWait) (b : Beat) : Tbl Ingress := [(1, { queue := [(0, b)], wait := w })]
/-- The beat ready for slot 0, rank 0 of piece 0. -/
def ready0 : RankBeat := ⟨0, 0, beat0⟩
/-- A waiting ingress. -/
def waits (reported : Bool) : IngressWait := { since := 0, window := true, slot := 0, reported := reported }

theorem witness_BeatsAreRoutedAndAdded_arrival :
    (cuff {}).coreRunning ∧ (((cuff { ingress := arriving none beat0 }).partition 2).ingressAt 1).queue = (0, beat0) :: [] ∧
    (((cuff { ingress := arriving none beat0 }).partition 2).ingressAt 1).wait = none ∧
    routeBeat ((cuff { ingress := arriving none beat0 }).atCycle 0) 2 beat0 = .discard (Reg.cufEvcViol 2) ∧
    routeBeat ((cuff {}).atCycle 7) 2 { beat0 with lepoch := 1 } = .pend (Reg.cufEvcEpochhold 2) ∧
    ((cuff {}).partition 2).pendCount < 256 ∧
    256 ≤ ((cuff { pend := List.replicate 255 beat0, slots := [(1, { taking := [beat0] })] }).partition 2).pendCount ∧
    routeBeat ((cuff { pend := List.replicate 255 beat0, slots := [(1, { taking := [beat0] })] }).atCycle 7) 2
      { beat0 with lepoch := 1 } = .pend (Reg.cufEvcEpochhold 2) ∧
    (let s := cuff { ingress := arriving none beat0, slots := [(0, slotOf [(0, 5, 1)])] }
     routeBeat (s.atCycle 0) 2 beat0 = .slot 0 ∧ (s.slot 2 0).taking = [] ∧ (s.slot 2 0).rank beat0 = .turn ready0) := by decide +kernel

theorem witness_BeatsAreRoutedAndAdded_window :
    (let s := cuff { ingress := arriving (some (waits false)) beat0, slots := [(0, slotOf [(0, 4, 1), (0, 5, 1)])] }
     s.coreRunning ∧ ((s.partition 2).ingressAt 1).wait = some (waits false) ∧ routeBeat s 2 beat0 = .slot 0 ∧
     (s.slot 2 0).taking = [] ∧ (s.slot 2 0).rank beat0 = .ahead ⟨0, 1, beat0⟩ ∧ (s.slot 2 0).window.length < 8 ∧
     (waits false).reported = false ∧ (waits true).reported = true) ∧
    (let s := cuff { slots := [(0, { slotOf [(0, 5, 1)] with ready := [ready0] })] }
     (s.slot 2 0).ready.find? (fun r => r.piece == 0) = some ready0 ∧ (s.slot 2 0).window = [] ∧ (s.slot 2 0).taking = [] ∧
     ((s.slot 2 0).piece 0).skip = []) := by decide +kernel

/-- Slot 0 collecting, its one piece complete or not. -/
def collected (ptr : Nat) : State := cuff { slots := [(0, { slotOf [(0, 5, 1)] with state := 2, pieces := [(0, { ptr := ptr })] })] }
/-- Partition 2 with slot 0's program of one entry at 0x9000, enabled or not. -/
def program (on : Nat) : State :=
  flds { running with hbm := Memory.write (Memory.write [] 0x8001 [0x90, 0, 0, 0, 1]) 0x9000 (leBytes 32 (1 + 2 ^ 152)) }
    [(Reg.cufCfg 2, 0, 1, on), (Reg.cufSprogBaseLo 2, 0, 32, 0x8000)]
/-- A Cuff entry for slot 0. -/
def entry0 : CuffEntry := { outer := none, slot := 0, slice := slice1, step := 0, entered := 0, waited := false }

theorem witness_SlotsTriggerOpenAndStart_trigger :
    (let x := (collected 1).slot 2 0
     (collected 1).coreRunning ∧ x.state = 2 ∧ x.complete = true ∧ x.ready = [] ∧ x.window = [] ∧ x.slice.slt = false ∧
     (collected 1).passStep x = 0 ∧
     ((collected 1).slotTrigger 2 0).stepOver (((collected 1).slotTrigger 2 0).reg Reg.seqStep) = false) ∧
    (let s := cuff { slots := [(0, { slotOf [(0, 5, 1)] with state := 2, pass := 4, pieces := [(0, { ptr := 1 })] })], flagStep := some 3 }
     (s.partition 2).flagStep = some 3 ∧ s.passStep (s.slot 2 0) = 4 ∧ (s.slot 2 0).complete = true) ∧
    ((collected 0).slot 2 0).complete = false := by decide +kernel

theorem witness_SlotsTriggerOpenAndStart_start :
    (let s := cuff { queue := [entry0] }
     s.fld (Reg.cufCfg 2) 0 1 = 1 ∧ (s.partition 2).pipe.length < 16 ∧ running.fld (Reg.cufCfg 2) 0 1 = 0 ∧
     s.nextEntry' (s.partition 2) [] (s.partition 2).queue = some entry0 ∧ entry0.outer = none ∧ s.constsReady 0 = false ∧
     ({ s with job := { const0 := some 0 } } : State).constsReady 0 = true ∧
     ({ s with job := { const0 := some 0 } } : State).nextEntry' (s.partition 2) [] (s.partition 2).queue = some entry0) := by
  decide +kernel

theorem witness_SlotsTriggerOpenAndStart_open :
    (∃ e, programEntry (program 1) 2 0 ((program 1).slotAfter 2 0).entry = some e ∧ e.slt = false ∧
      e.lepoch = (program 1).fld (Reg.cufEpoch 2) 0 16 ∧ ∀ b ∈ ((program 1).partition 2).pend, e.holds b = false) ∧
    (program 1).fld (Reg.cufCfg 2) 0 1 = 1 ∧ ((program 1).slotAfter 2 0).mayOpen = true ∧ (program 1).passHeld 0 = false ∧
    ((program 1).partition 2).aborting = false ∧ (program 1).job.census = none ∧
    (let s : State := { program 1 with part := [(2, { slots := [(0, { state := 4, slice := { last := true }, readAt := 478, freeAt := some 542 })] })] }
     (s.slotAfter 2 0).mayOpen = true ∧ (s.slotAfter 2 0).entry = 0 ∧ (s.slotAfter 2 0).freeAt = some 542) ∧
    (∃ e, programEntry (program 0) 2 0 ((program 0).slotAfter 2 0).entry = some e) ∧ (program 0).fld (Reg.cufCfg 2) 0 1 = 0 := by
  refine ⟨⟨_, rfl, by decide +kernel, by decide +kernel, by decide +kernel⟩, by decide +kernel, by decide +kernel,
    by decide +kernel, by decide +kernel, by decide +kernel, by decide +kernel, ⟨_, rfl⟩, by decide +kernel⟩

/-- A skip in the pipeline, its reads issued or returned. -/
def skipRun (returned : Bool) : CuffRun := { entry := entry0, anchor := 0, base := 0x10000, skip := true, dataAt := 448, returned := returned }

theorem witness_UpdatesReadAndWrite :
    (cuff { pipe := [skipRun false] }).coreRunning ∧
    ((cuff { pipe := [skipRun false] }).partition 2).pipe.find? (fun r => !r.returned) = some (skipRun false) ∧
    firstAck ((cuff { pipe := [skipRun true] }).partition 2).pipe = some (skipRun true) ∧ (skipRun true).skip = true ∧
    entry0.outer = none ∧ entry0.slice.slt = false ∧
    Tbl.get? (Tbl.get [] running.vsr.noise 7) 1023 = none ∧
    (let s : State := { running with vsr := { noise := [(7, [(1023, (0, 0, false))])] } }
     Tbl.get? (Tbl.get [] s.vsr.noise 7) 1023 ≠ none) := by decide +kernel

/-! ### The slow tier, background work, boundaries -/

/-- The slow tier on, an empty touch list at address 0. -/
def tier : State := flds running [(Reg.sltCfg, 0, 1, 1)]
/-- A fetch of slice 3 to a read-through line, with its image in flash. -/
def fetching : State :=
  { running with slt := { fetches := [{ num := 3, line := 5 }], flash := [(3, { key := [], gen := 0, block := 1, bytes := [1, 2] })] } }
/-- Block 1 of group 3 written, with no image left in it. -/
def stale : State := { running with slt := { blocks := [(blockKey 3 1, { written := true })] } }
/-- A fetch of slice 3 to a read-through line for a forward read of core 2. -/
def reading : State := { fetching with slt := { fetching.slt with fetches := [{ num := 3, line := 5, reader := some (2, 0) }] } }
/-- Slice 3's image on its way to block 1, with flash of 256 blocks a group and 64 images a block. -/
def programming (g : SltProgram) : State :=
  flds { running with slt := { programs := [g] } } [(Reg.sltGeom, 4, 12, 1), (Reg.sltGeom, 16, 8, 4)]

theorem witness_SlowTierPlansAndFetches :
    (Master.policy 3).exists' = true ∧ tier.mayIssue (.policy 3) = true ∧ tier.quiet = false ∧ tier.fld Reg.sltCfg 0 1 = 1 ∧
    tier.reg Reg.seqStep = 0 ∧ (1 : Nat) = (tier.reg Reg.seqStep + 1) % 2 ^ 32 ∧
    ascending ((touchList tier.hbm (Regs.pair tier.regs Reg.sltTlistLo)).map (·.1)) = true ∧
    (touchList tier.hbm (Regs.pair tier.regs Reg.sltTlistLo)).any (fun e => e.2.1 == 0) = false ∧
    running.fld Reg.sltCfg 0 1 ≠ 1 ∧ running.mayIssue (.policy 3) = true ∧
    fetching.coreRunning ∧ fetching.slt.fetches.find? (fun f => f.num == 3 && f.issued) = some { num := 3, line := 5 } ∧
    fetching.cacheLines ≤ 5 ∧ (flds fetching [(Reg.sltCacheLines, 0, 32, 64)]).cacheLines = 64 ∧
    (reading.slt.fetches.find? (fun f => f.num == 3 && f.issued)).map (·.reader) = some (some (2, 0)) ∧
    running.slt.fetches.find? (fun f => f.num == 3 && f.issued) = none ∧ running.fld Reg.sltCfg 1 1 = 0 ∧
    (let g : SltProgram := { num := 3, line := 5, gen := 1, bytes := [7] }
     (programming g).slt.programs.find? (fun g => g.num == 3) = some g ∧ (programming g).blockTakes g 1 = true) ∧
    stale.slt.programs.find? (fun g => g.num == 3) = none ∧
    (Tbl.get {} stale.slt.blocks (blockKey 3 1) : FlashBlock).written = true ∧
    (Tbl.get {} stale.slt.blocks (blockKey 3 1) : FlashBlock).retired = false ∧
    (imagesIn stale.slt (blockKey 3 1)).isEmpty = true := by decide +kernel

theorem witness_RefreshAndBackgroundWork :
    running.now + 5850 < 2 ^ 64 ∧ running.seq.slots = [] ∧ bit 0xE 0 = false ∧ bit 0xE 3 = true ∧ bit 0xE 1 = true ∧
    slotOpened.seq.slots = [{ classes := 0xE, closes := 100000 }] ∧
    max slotOpened.now slotOpened.seq.quantumTo + 2 * (1024 * 2 ^ 3) ≤ 100000 ∧
    (let s1 (s : State) (c : Nat) := s.atCycle (s.deadline c)
     (∀ c ∈ [1, 2, 3], (s1 { slotOpened with seq := { slotOpened.seq with slots := [{ classes := 0xE, closes := 2 ^ 60 }] } } c).slotNames c = true) ∧
     (∀ c ∈ [1, 2, 3], (s1 running c).slotNames c = false) ∧ (s1 running 1).lowerFirst 1 = false ∧
     (s1 { running with seq := { running.seq with served := [(3, 1)] } } 3).lowerFirst 3 = false) := by decide +kernel

/-- A job of a domain of 2 devices, with a census under way or none. -/
def inJob (c : Option Census) : State :=
  { flds running [(Reg.seamDomDev, 10, 11, 2)] with job := { active := true, members := [0, 1], census := c } }

theorem witness_AbortsAndCensus :
    running.reg Reg.seqStep = 0 ∧ (1 : Nat) ≠ running.reg Reg.seqStep ∧ running.gnt.aborted ≠ some 0 ∧
    ({ running with gnt := { aborted := some 0 } } : State).gnt.aborted = some 0 ∧
    wellFormed (.censusRecord 1 128 (2 ^ 36 - 1) 7 3) = true ∧ running.job.active = false ∧
    (inJob (some { since := 0 })).coreRunning ∧ (inJob (some { since := 0 })).job.active = true ∧
    (1 : Nat) < (inJob none).domainSize ∧
    (((inJob (some { since := 0 })).devices.all fun d =>
      (Tbl.get? (Tbl.set ([] : Tbl CensusRecord) 1 ⟨128, 0, 7, 3⟩) d).isSome) = false) ∧
    wellFormed (.censusSet 1 [0, 1]) = true ∧ running.job.census = none ∧
    (let c : Census := { second := true, since := 0, records := [(0, ⟨128, 0, 7, 3⟩), (1, ⟨128, 0, 7, 3⟩)] }
     (inJob (some c)).job.census = some c ∧
     (c.heard.all fun x => (Tbl.get? (Tbl.set c.sets 1 [0, 1]) x).isSome) = false) ∧
    (inJob (some { since := 0 })).job.held = false := by decide +kernel

/-- A boundary at step 5 in a phase, with a domain of one device. -/
def boundary (phase : Nat) : State :=
  { flds running [(Reg.seamDomDev, 10, 11, 1)] with job := { active := true, boundary := some 5, phase := phase } }

theorem witness_EpochsBeginAgreed_ready :
    wellFormed (.readyCycleMessage 1 77) = true ∧ running.job.boundary = none ∧ (boundary 5).job.boundary = some 5 ∧
    (boundary 5).job.phase = 5 ∧
    ({ boundary 5 with job := { (boundary 5).job with readyAt := [(1, 77)] } } : State).agreed [(1, 77)] = none ∧
    ({ boundary 5 with job := { (boundary 5).job with readyAt := [(0, 77)] } } : State).agreed [(0, 77)] = some 77 := by
  decide +kernel

theorem witness_EpochsBeginAgreed_migration :
    running.job.phase ≠ 2 ∧ (boundary 2).job.phase = 2 ∧ (boundary 2).mayMigrate = true ∧
    ((boundary 2).migrate 4).job.held = false ∧
    (({ boundary 2 with job := { (boundary 2).job with held := true } } : State).migrate 4).job.held = true ∧
    ((boundary 2).migrate 4).job.stopping = none ∧
    (let s1 := ({ boundary 2 with job := { phase := 2 } } : State).migrate 0
     (((s1.putEpochs 0 16 1).putEpochs 16 1 0).putFld Reg.seqEpoch 0 16 1).boundaryRegisters.job.stopping = none) := by
  decide +kernel

/-- A job whose index blocks have 4 `t` bytes, with a data ring and one queue pair that can carry a request. -/
def withData (t : Nat) : State :=
  { flds running [(Reg.vsrNoiseT, 0, 32, t), (Reg.hptHStatus 0, 0, 1, 1)] with
    job := { active := true }, host := { dataEntries := 4, qps := [(7, { port := 0 })] }, cph := { assocs := [(8, { tx := [(0, (1, []))] })] } }
/-- A descriptor of a step, valid, of an index length and no samples. -/
def descriptor (n len : Nat) : List Byte := leBytes 4 n ++ leBytes 4 1 ++ leBytes 16 0 ++ leBytes 4 len ++ leBytes 36 0
/-- The host ports' part of an image read: HSTATE 5, the image in HBM. -/
def imageRead : State := { flds running [(Reg.hptStatus, 0, 3, 5)] with host := { jobLen := 64 } }

theorem witness_DescriptorAndJobImage :
    wellFormed (.dataDescriptorRead 3 (List.replicate 64 0)) = true ∧ running.job.active = false ∧
    (let s : State := { running with job := { active := true }, host := { dataEntries := 4 } }
     s.job.active = true ∧ s.host.dataEntries ≠ 0 ∧ fieldAt (List.replicate 64 0) 0 4 ≠ 3) ∧
    (∀ t ∈ [0, 3], let b := descriptor 3 ((withData t).indexLength 3)
     wellFormed (.dataDescriptorRead 3 b) = true ∧ fieldAt b 0 4 = 3 ∧ bit (fieldAt b 4 4) 0 = true ∧
     fieldAt b 24 4 = (withData t).indexLength 3 ∧ ((withData t).indexLength 3 = 0 ↔ t = 0) ∧ (withData t).stageZero = false ∧
     fieldAt (descriptor 3 1) 24 4 ≠ (withData t).indexLength 3 ∧ (withData t).usableQps.head? = some 7 ∧
     (withData t).host.dataEntries ≠ 0 ∧ (withData t).job.active = true) ∧
    running.fld Reg.hptStatus 0 3 ≠ 5 ∧ imageRead.coreRunning ∧ imageRead.fld Reg.hptStatus 0 3 = 5 ∧ imageRead.host.jobLeft = 0 ∧
    imageRead.host.jobLen ≠ 0 := by decide +kernel

/-- The fetch with an image of its slice. -/
def withImage (f : FlashImage) : State := { fetching with slt := { fetching.slt with flash := [(3, f)] } }

theorem witness_SlowTierPlansAndFetches_image (f : FlashImage) (h : readable f [] 3 = true) :
    (withImage f).readImage 3 ⟨0, false⟩ = some f := by
  have e : (withImage f).groupWorks (3 % 8) = true := by
    show fetching.groupWorks (3 % 8) = true
    decide +kernel
  show (if (withImage f).groupWorks (3 % 8) && readable f [] 3 then some f else none) = some f
  rw [e, h]
  rfl

/-! ### Seam links -/

/-- Link 0 up (R308). -/
def linkUp0 (l : SLink) : State := flds { running with seam := { links := [(0, l)] } } [(Reg.seamStatus 0, 0, 3, 3)]
/-- The first 64 bits of a frame's header: number and type (R300). -/
def head64 (seq ty : Nat) : Nat := seq + 2 ^ 24 * ty
/-- A frame's header with a CRC (R300, R301). -/
def header (seq ty crc : Nat) : BitVec 80 := BitVec.ofNat 80 (head64 seq ty + 2 ^ 64 * crc)
/-- The CRC of a frame with no payload (R301). -/
def crcOf (seq ty : Nat) : Nat := crc16 (leBytes 8 (head64 seq ty) ++ pad256 [])
/-- The receiver expects `e`. -/
def expects (e : Nat) : State := (linkUp0 {}).put (Reg.seamRxseq 0) e

theorem header_fields (seq ty crc : Nat) (h : seq < 2 ^ 24) (ht : ty < 16) (hc : crc < 2 ^ 16) :
    (header seq ty crc).toNat % 2 ^ 64 = head64 seq ty ∧ bits (header seq ty crc).toNat 64 16 = crc ∧
      bits (header seq ty crc).toNat 0 24 = seq ∧ bits (header seq ty crc).toNat 24 4 = ty := by
  have e : (header seq ty crc).toNat = head64 seq ty + 2 ^ 64 * crc := by
    simp only [header, BitVec.toNat_ofNat, head64]
    omega
  rw [e]
  simp only [bits, head64]
  omega

theorem crc16_lt (bs : List Byte) : crc16 bs < 2 ^ 16 := by
  unfold crc16
  exact BitVec.isLt _

theorem crcOf_lt (seq ty : Nat) : crcOf seq ty < 2 ^ 16 := by
  unfold crcOf
  exact crc16_lt _

/-- A frame with the right CRC meets the hypotheses of an undamaged one. -/
theorem undamaged (seq ty : Nat) (h : seq < 2 ^ 24) (ht : ty < 16) :
    crc16 (leBytes 8 ((header seq ty (crcOf seq ty)).toNat % 2 ^ 64) ++ pad256 []) = bits (header seq ty (crcOf seq ty)).toNat 64 16 := by
  rw [(header_fields seq ty _ h ht (crcOf_lt seq ty)).1, (header_fields seq ty _ h ht (crcOf_lt seq ty)).2.1]
  rfl

theorem witness_SequenceNumbersDecideAcceptance :
    (∀ h, wellFormed (.frameReceive 0 h [] 0 0) = true) ∧
    (expects (2 ^ 24 - 1)).coreRunning ∧ (expects (2 ^ 24 - 1)).reg (Reg.seamRxseq 0) < 2 ^ 24 ∧ (expects 0).linkUp 0 = true ∧
    (expects 0).isolated (linkUnit 0) = false ∧ (expects 0).reg (Reg.seamTxseq 0) < 2 ^ 24 ∧
    (∀ x ∈ [(2 ^ 24 - 1, 5), (0, 2), (2 ^ 23 - 1, 3), (2 ^ 23, 4)],
      crc16 (leBytes 8 ((header x.1 x.2 (crcOf x.1 x.2)).toNat % 2 ^ 64) ++ pad256 []) =
        bits (header x.1 x.2 (crcOf x.1 x.2)).toNat 64 16 ∧ bits (header x.1 x.2 (crcOf x.1 x.2)).toNat 0 24 = x.1 ∧
        bits (header x.1 x.2 (crcOf x.1 x.2)).toNat 24 4 = x.2) ∧
    ((2 ^ 24 - 1) + 2 ^ 24 - (expects (2 ^ 24 - 1)).reg (Reg.seamRxseq 0)) % 2 ^ 24 = 0 ∧
    (0 + 2 ^ 24 - (expects (2 ^ 24 - 1)).reg (Reg.seamRxseq 0)) % 2 ^ 24 = 1 ∧
    ((2 ^ 23 - 1) + 2 ^ 24 - (expects 0).reg (Reg.seamRxseq 0)) % 2 ^ 24 = 2 ^ 23 - 1 ∧
    (2 ^ 23 + 2 ^ 24 - (expects 0).reg (Reg.seamRxseq 0)) % 2 ^ 24 = 2 ^ 23 := by
  refine ⟨fun _ => rfl, by decide, by decide, by decide, by decide, by decide, ?_, by decide, by decide, by decide, by decide⟩
  intro x hx
  have hb : x.1 < 2 ^ 24 ∧ x.2 < 16 := by
    revert x
    decide
  exact ⟨undamaged _ _ hb.1 hb.2, (header_fields _ _ _ hb.1 hb.2 (crcOf_lt _ _)).2.2.1,
    (header_fields _ _ _ hb.1 hb.2 (crcOf_lt _ _)).2.2.2⟩

/-- A CRC that is not the frame's. -/
def wrongCrc (seq ty : Nat) : Nat := (crcOf seq ty + 1) % 2 ^ 16

theorem succ_mod_ne (c : Nat) : c < 2 ^ 16 → ¬ c = (c + 1) % 2 ^ 16 := by omega

/-- A frame with that CRC meets the hypothesis of a damaged one. -/
theorem damaged (seq ty : Nat) (h : seq < 2 ^ 24) (ht : ty < 16) :
    ¬ crc16 (leBytes 8 ((header seq ty (wrongCrc seq ty)).toNat % 2 ^ 64) ++ pad256 []) =
      bits (header seq ty (wrongCrc seq ty)).toNat 64 16 := by
  have hw : wrongCrc seq ty < 2 ^ 16 := Nat.mod_lt _ (by decide)
  rw [(header_fields seq ty _ h ht hw).1, (header_fields seq ty _ h ht hw).2.1]
  exact succ_mod_ne _ (crcOf_lt seq ty)

theorem witness_DamagedFramesAreDiscarded :
    (∀ h, wellFormed (.frameReceive 0 h [] 1 0) = true) ∧ (expects 0).linkUp 0 = true ∧ (expects 0).coreRunning ∧
    (expects 0).isolated (linkUnit 0) = false ∧
    ¬ crc16 (leBytes 8 ((header 0 2 (wrongCrc 0 2)).toNat % 2 ^ 64) ++ pad256 []) = bits (header 0 2 (wrongCrc 0 2)).toNat 64 16 :=
  ⟨fun _ => rfl, by decide, by decide, by decide, damaged 0 2 (by decide) (by decide)⟩

/-- A frame. -/
def frame0 : SFrame := { ty := 2, vc := 1, dest := 1, payload := [1] }

theorem witness_EgressOrderAndReplays :
    running.linkUp 0 = false ∧ (linkUp0 {}).coreRunning ∧ (linkUp0 {}).linkUp 0 = true ∧ (linkUp0 {}).isolated (linkUnit 0) = false ∧
    ((linkUp0 { replay := [(4, frame0)] }).link 0).replay = (4, frame0) :: [] ∧
    ((linkUp0 { replay := [(4, frame0)] }).link 0).retraining = false ∧
    ((linkUp0 { replay := [(4, frame0)] }).link 0).recalTo ≤
      max (linkUp0 { replay := [(4, frame0)] }).now ((linkUp0 { replay := [(4, frame0)] }).link 0).slotFree ∧
    (let f : EFrame := { f := frame0, prio := 3, key := 0, last := true, cmd := false, readyAt := 9, from' := none }
     let l : SLink := { out := [f], cred := [0, 1, 0, 0], slotFree := 9 }
     ((linkUp0 l).link 0).out = [f] ∧ ((linkUp0 l).link 0).replay = [] ∧ ((linkUp0 l).link 0).linkOut = [] ∧ f.prio ∈ [3, 4, 5, 6] ∧
     f.readyAt ≤ max (linkUp0 l).now ((linkUp0 l).link 0).slotFree ∧ ((linkUp0 l).link 0).recalTo ≤ max (linkUp0 l).now ((linkUp0 l).link 0).slotFree ∧
     ((linkUp0 l).link 0).heldByOther f = false ∧ ((linkUp0 l).link 0).cred.getD f.f.vc 0 ≠ 0 ∧ ((linkUp0 l).link 0).retry.length < 512) ∧
    ((linkUp0 { linkOut := [.probe] }).link 0).linkOut = .probe :: [] ∧ ((linkUp0 { linkOut := [.probe] }).link 0).replay = [] ∧
    ((linkUp0 {}).link 0).out = [] ∧ ((linkUp0 {}).link 0).linkOut = [] ∧
    (((linkUp0 {}).link 0).retry.all fun f => f.1 != 4) = true ∧
    (((linkUp0 { retry := [(4, frame0)] }).link 0).retry.all fun f => f.1 != 4) = false ∧
    ¬ (((linkUp0 { retry := [(4, frame0)] }).link 0).replayFrom = some 4 ∧ ((linkUp0 { retry := [(4, frame0)] }).link 0).replays = 7) ∧
    (let l : SLink := { retry := [(4, frame0)], replayFrom := some 4, replays := 7 }
     ((linkUp0 l).link 0).replayFrom = some 4 ∧ ((linkUp0 l).link 0).replays = 7 ∧
     (((linkUp0 l).link 0).retry.all fun f => f.1 != 4) = false ∧ (linkUp0 l).linkUp 0 = true) ∧
    ((linkUp0 { retry := [(4, frame0)] }).link 0).retry = (4, frame0) :: [] ∧
    ((linkUp0 { retry := [(4, frame0)] }).link 0).ackAt + 2048 < 2 ^ 64 := by decide +kernel

/-- Link 0 in discovery, a planned latency of 120 and device 3's link 7 expected. -/
def discovering (l : SLink) : State :=
  flds { running with seam := { links := [(0, l)] } }
    [(Reg.seamStatus 0, 0, 3, 2), (Reg.seamLatPlan 0, 0, 12, 120), (Reg.seamPeerExp 0, 0, 17, 3 + 7 * 1024 + 65536)]
/-- The same with the peer known. -/
def known (l : SLink) : State := (discovering l).putFld (Reg.seamPeer 0) 16 1 1

theorem witness_LinksComeUpAligned :
    (discovering {}).coreRunning ∧ (discovering {}).linkState 0 = 2 ∧
    (discovering {}).reg (Reg.seamPeerExp 0) % 2 ^ 17 = 3 + 7 * 1024 + 65536 ∧
    (discovering {}).reg (Reg.seamPeerExp 0) % 2 ^ 17 ≠ 3 + 8 * 1024 + 65536 ∧ ((known {}).link 0).probes + 1 < 64 ∧
    63 ≤ ((known { probes := 63 }).link 0).probes ∧ max ((known { probes := 63 }).link 0).probed 112 < 4096 ∧
    max ((known { probes := 63 }).link 0).probed 112 + 8 ≤ (known { probes := 63 }).fld (Reg.seamLatPlan 0) 0 12 ∧
    (known { probes := 63 }).fld (Reg.seamLatPlan 0) 0 12 < max ((known { probes := 63 }).link 0).probed 113 + 8 ∧
    (discovering {}).fld (Reg.seamPeer 0) 16 1 = 0 ∧ (known {}).fld (Reg.seamPeer 0) 16 1 = 1 ∧
    (known {}).linkState 0 = 2 ∧ (known { probes := 63 }).fld (Reg.seamPeer 0) 16 1 = 1 ∧
    wellFormed (.alignmentFrame 0 (2 ^ 64 - 1) 9) = true ∧ (linkUp0 {}).fld Reg.aonTime 0 1 = 0 ∧
    ((linkUp0 {}).putFld Reg.aonTime 0 1 1).fld Reg.aonTime 0 1 = 1 ∧ ((linkUp0 {}).putFld Reg.aonTime 0 1 1).linkUp 0 = true ∧
    (linkUp0 {}).now = (2 ^ 64 - 4 - (linkUp0 {}).fld (Reg.seamLatPlan 0) 0 12 + (linkUp0 {}).fld (Reg.seamLatPlan 0) 0 12 + 4) % 2 ^ 64 ∧
    (linkUp0 {}).now ≠ (2 ^ 64 - 3 - (linkUp0 {}).fld (Reg.seamLatPlan 0) 0 12 + (linkUp0 {}).fld (Reg.seamLatPlan 0) 0 12 + 4) % 2 ^ 64 := by decide +kernel

theorem witness_LaneFailuresHalveOrDropTheLink :
    running.linkUp 0 = false ∧ (linkUp0 {}).linkUp 0 = true ∧ (linkUp0 {}).fld (Reg.seamLane 0) 4 4 = 0 ∧
    (linkUp0 {}).linkState 0 = 3 ∧ ((linkUp0 {}).putFld (Reg.seamStatus 0) 0 3 5).linkState 0 = 5 ∧
    ((linkUp0 {}).putFld (Reg.seamLane 0) 7 1 1).linkState 0 ≠ 5 ∧
    ((linkUp0 {}).putFld (Reg.seamLane 0) 7 1 1).fld (Reg.seamLane 0) 6 2 ≠ 0 ∧
    ((linkUp0 {}).putFld (Reg.seamLane 0) 7 1 1).linkUp 0 = true ∧ ((linkUp0 {}).link 0).retraining = false ∧
    (running.putFld (Reg.seamStatus 0) 0 3 1).linkState 0 = 1 ∧ (linkUp0 { retraining := true }).linkState 0 ≠ 1 ∧
    ((linkUp0 { retraining := true }).link 0).retraining = true := by decide +kernel

/-- One window over all of HBM, group 0 received at LBASE 0x400. -/
def windowed : State :=
  flds { running with seam := { tables := Memory.write (Memory.write [] 0x2004 [0x10, 0, 4]) 0x3006 [0, 0, 0, 0, 0, 1, 1] } }
    [(Reg.seamDomMcastBaseLo, 0, 32, 0x2000), (Reg.seamDomRxwinBaseLo, 0, 32, 0x3000)]
/-- A message of 64 bytes to an address. -/
def message (kind daddr : Nat) : SeamMsg := { emptyMsg kind 1 with daddr := daddr, len := 64, data := List.replicate 64 7 }

theorem witness_MessagesActOnce :
    windowed.coreRunning ∧ (message 0 0x40).fits = true ∧ (message 0 (2 ^ 48 - 64)).fits = true ∧ (message 0 0x40).len ≠ 0 ∧
    (windowed.takeInbox (message 0 0x40)).1.inWindows 0x40 64 = true ∧
    (windowed.takeInbox (message 0 (2 ^ 48 - 64))).1.inWindows (2 ^ 48 - 64) 64 = false ∧ (message 2 0).cue < 224 ∧
    (let m := message 4 0x40
     let s : State := { windowed with seam := { windowed.seam with inbox := [(0, 1, m)] } }
     m.fits = true ∧ m ∈ s.seam.inbox.map (·.2.2) ∧ (s.group 0).2.1 = true ∧ (s.group 1).2.1 = false ∧
     (s.group 0).2.2 = 0x400 ∧ (s.takeInbox m).1.inWindows (((s.group 0).2.2 + 0x40) % 2 ^ 48) 64 = true) := by decide +kernel

theorem witness_BurstsCarryBeats :
    (running.putFld Reg.seamDomCfg 0 1 1).fld Reg.seamDomCfg 0 1 = 1 ∧
    (running.putFld Reg.seamDomCfg 0 1 1).coreRunning ∧ running.fld Reg.seamDomCfg 0 1 = 0 ∧ ((linkUp0 {}).link 0).beats = [] ∧
    ((linkUp0 { beats := [(0, 1, beat0)] }).link 0).beats ≠ [] ∧ (linkUp0 { beats := [(0, 1, beat0)] }).coreRunning := by
  decide +kernel

/-! ### Outer sync -/

/-- This device owns shard 2, with its state; outer sync is on in round `r`. -/
def outer (v : Shard) (r : Nat) : State :=
  { flds running [(Reg.brmCfg, 0, 1, 1)] with
    job := { active := true, map := [⟨1, 0, 2, 0, 0⟩], positions := [0] }
    brim := { shards := [(2, v)], round := r } }
/-- A class C message from a site for one shard, of round 1. -/
def classC (kind site shard : Nat) (opd : List Byte) : ClassC := ⟨kind, site, 1, shard, 1, false, false, opd, []⟩
/-- Its site was heard (R351). -/
def heardOf (s : State) (m : ClassC) : State :=
  let s1 := s.takeC m
  { s1 with brim := { s1.brim with heard := s1.brim.heard.set m.site s1.clk.acnt, silent := s1.brim.silent.filter (· != m.site) } }

theorem takeC_eq (s : State) (m : ClassC) (h : s.portOfSite m.site = none) : s.takeC m = s := by
  unfold State.takeC
  rw [h]

theorem append_ne (l : List Byte) : l ++ [0] ≠ l := by simp

/-- The same operand digest, and another one. -/
theorem witness_opd (v : Shard) (r k site x : Nat) :
    (classC k site x (outer v r).opd).opd = ((outer v r).takeC (classC k site x (outer v r).opd)).opd ∧
    (classC k site x ((outer v r).opd ++ [0])).opd ≠ ((outer v r).takeC (classC k site x ((outer v r).opd ++ [0]))).opd := by
  have h (m : ClassC) : (outer v r).takeC m = outer v r := takeC_eq _ _ rfl
  rw [h, h]
  exact ⟨rfl, append_ne _⟩

/-- A COMMIT of the pending round was accepted before. -/
def committed1 : Shard := { commits := [(1, classC 2 0 2 [])] }

theorem witness_OuterRoundsCommit_messages :
    (outer {} 0).coreRunning ∧ wellFormed (.round (classC 1 0 2 (outer {} 0).opd)) = true ∧
    wellFormed (.fetch (classC 4 0 2 (outer {} 0).opd)) = true ∧
    running.fld Reg.brmCfg 0 1 = 0 ∧ (outer {} 0).fld Reg.brmCfg 0 1 = 1 ∧
    (heardOf (outer {} 0) (classC 1 0 9 [])).ownedShards.contains 9 = false ∧
    (classC 1 0 9 []).shards.filter (heardOf (outer {} 0) (classC 1 0 9 [])).ownedShards.contains = [] ∧
    (classC 1 0 2 []).shards.filter (heardOf (outer {} 0) (classC 1 0 2 [])).ownedShards.contains = [2] ∧
    (heardOf (outer committed1 0) (classC 2 0 2 [])).commitOk 2 (classC 2 0 2 []) = false ∧
    (heardOf (outer {} 0) (classC 2 0 2 [])).commitOk 2 (classC 2 0 2 []) = true ∧
    (heardOf (outer {} 0) (classC 4 3 2 [])).ownedShards.contains 2 = true ∧
    ((heardOf (outer {} 0) (classC 4 3 2 [])).weights 2 ((heardOf (outer {} 0) (classC 4 3 2 [])).pendingRound 2)).getD 3 0xFF = 0xFF ∧
    (outer {} 0).vsr.goWaits = [] ∧ (outer {} 0).vsr.staged.length < 64 ∧
    (let s := outer { weights := [(1, [8, 8])] } 0
     let m : ClassC := { classC 4 1 2 s.opd with body := leBytes 4 0 ++ leBytes 4 2 }
     wellFormed (.fetch m) = true ∧ ((heardOf s m).weights 2 ((heardOf s m).pendingRound 2)).getD 1 0xFF ≠ 0xFF ∧
     ((List.range (fieldAt m.body 4 4)).map (fieldAt m.body 0 4 + ·)).filter ((heardOf s m).mayServe 2) = [0] ∧
     ((List.range (fieldAt [] 4 4)).map (fieldAt [] 0 4 + ·)).filter ((heardOf s m).mayServe 2) = []) := by
  decide +kernel

/-- A nested item of an entry (R442). -/
def item (tag : Nat) (v : List Byte) : List Byte :=
  let b := leBytes 4 tag ++ leBytes 4 v.length ++ v
  b ++ List.replicate ((4 - b.length % 4) % 4) 0
/-- The deadline of round 1 has passed. -/
def expired1 : Shard := { t0 := some 5, expired := true }
/-- Site 1 is a member and silent. -/
def silent1 : State :=
  let s := outer { weights := [(1, [8, 8, 0xFF])] } 0
  { s with brim := { s.brim with silent := [1] } }

theorem witness_OuterRoundsCommit_rounds :
    running.job.active = false ∧ (outer {} 0).job.active = true ∧ (outer { changed := true } 0).fld Reg.brmCfg 0 1 = 1 ∧
    (outer { changed := true } 0).ownedShards.contains 2 = true ∧ ((outer { changed := true } 0).shard 2).changed = true ∧
    ((outer {} 0).shard 2).t0 = none ∧ (outer expired1 1).leaderOf 2 ((outer expired1 1).pendingRound 2) = (outer expired1 1).site ∧
    (outer expired1 1).pendingRound 2 ≤ (outer expired1 1).brim.round ∧ ((outer expired1 1).shard 2).t0.isSome = true ∧
    ((outer expired1 1).shard 2).expired = true ∧ ((outer expired1 1).shard 2).t0 = some 5 ∧
    Tbl.get? ((outer expired1 1).shard 2).commits ((outer expired1 1).pendingRound 2) = none ∧
    ((let s := outer {} 0
      { s with host := { s.host with config := [(0x0300, item 0x0301 [1])] } } : State)).partnerSites.contains 1 = true ∧
    (outer {} 0).brim.silent.contains 1 = false ∧ silent1.brim.silent.contains 1 = true ∧ silent1.brim.removed.contains 1 = false ∧
    (silent1.memberSites 2 (silent1.pendingRound 2)).contains 1 = true := by decide +kernel

/-- A DELTA object of site 1's round 1 for a shard. -/
def delta (x : Nat) : DObject := ⟨0, 1, 2, 0, false, x, 1, 0, 0, []⟩
/-- It is held. -/
def holding : State :=
  let s := outer {} 0
  { s with brim := { s.brim with objects := [(objKey 2 1 1, delta 2)] } }

theorem witness_ObjectsAreRetainedOnce :
    running.coreRunning ∧ running.fld Reg.brmCfg 0 1 = 0 ∧ holding.fld Reg.brmCfg 0 1 = 1 ∧
    (holding.takeD 7 (delta 2)).ownedShards.contains 2 = true ∧ (holding.takeD 7 (delta 2)).holds' 2 1 1 = true ∧
    ((outer {} 0).takeD 0 (delta 2)).holds' 2 1 1 = false ∧ ((outer {} 0).takeD 0 (delta 9)).ownedShards.contains 9 = false ∧
    (((outer {} 0).takeD 0 (delta 9)).job.map.any fun e => e.shard == 9) = false ∧
    (let s : State := { outer {} 0 with job := { active := true, map := [⟨1, 0, 2, 0, 0⟩, ⟨1, 64, 9, 1, 0⟩], positions := [0, 5] } }
     s.fld Reg.brmCfg 0 1 = 1 ∧ (s.takeD 0 (delta 9)).ownedShards.contains 9 = false ∧
     ((s.takeD 0 (delta 9)).job.map.any fun e => e.shard == 9) = true) := by
  decide +kernel

/-! ### Partner ports -/

/-- A route of 114 bytes whose addresses are `[0x1, …, 0x1]` for this side, with one segment or none (R445). -/
def route1 : List Byte := List.replicate 114 1
/-- A PARTNERS entry of site 1 at port 3 with routes. -/
def entry3 (rs : List (List Byte)) : List Byte :=
  item 0x0301 [1] ++ item 0x0302 [3] ++ rs.flatMap (item 0x030C)
/-- Port 3 runs, with its state. -/
def port3 (x : PPort) (rs : List (List Byte)) : State :=
  { flds running [(Reg.brmPCfg 3, 0, 1, 1), (Reg.brmPStatus 3, 0, 1, 1)] with
    pports := [(3, x)], host := { config := [(0x0300, entry3 rs)] } }
/-- A packet of a version from site 1 on route 0. -/
def packet (ver psn : Nat) : Packet := ⟨ver, 0, 1, 1, 0, 0, 0, psn, 0, List.replicate 16 0, false, [], List.replicate 16 0⟩
/-- A HELLO waits with its first fragment. -/
def helloWaits : PPort := { cun := [⟨1, [8, 0], [0], 0⟩] }
/-- Port 3 with a key for its packets, and 15 probes heard in a row on its route. -/
def keyed3 : State :=
  { port3 { routes := [(0, { run := 15 })] } [route1] with cph := { assocs := [(3, { rx := [(1, (1, []))] })] } }
/-- The port's shaper holds a packet's cost. -/
def filled (x : PPort) : State := flds (port3 { x with tokens := 1000000 } [route1]) [(Reg.brmPBurst 3, 0, 13, 8191)]

theorem witness_PartnerPacketsAreJudged (g : List Byte)
    (h : openRecord [] (packet 1 9).psn (packetHeader (packet 1 9)) (packet 1 9).body (packet 1 9).tag = some g) :
    (let s := port3 {} [route1]
     s.coreRunning ∧ (packet 1 9).fits = true ∧ running.portRuns 3 = false ∧ s.portRuns 3 = true ∧
     s.discards 3 (packet 2 9) ≠ 0 ∧ s.discards 3 (packet 1 9) = 0 ∧ s.openPacket 3 (packet 1 9) = none ∧
     (port3 { psns := [9] } [route1]).discards 3 (packet 1 9) = Reg.brmPEvcReplay 3) ∧
    keyed3.openPacket 3 (packet 1 9) = some g ∧ keyed3.discards 3 (packet 1 9) = 0 ∧ keyed3.portRuns 3 = true ∧
    15 ≤ ((keyed3.pport 3).route 0).run ∧
    (∀ e, keyed3.partner 3 = some e → keyed3.ns < ((keyed3.pport 3).route 0).probeNs + 2000 * entryNat e 0x0309 1000) := by
  refine ⟨by decide +kernel, ?_, by decide +kernel, by decide +kernel, by decide +kernel, ?_⟩
  · exact h
  · intro e he
    have all : ((keyed3.partner 3).all fun e => decide (keyed3.ns < ((keyed3.pport 3).route 0).probeNs +
      2000 * entryNat e 0x0309 1000)) = true := by decide +kernel
    rw [he] at all
    simpa using all

theorem witness_PacketsTakeTheNextPsn :
    (filled {}).coreRunning ∧ (filled {}).portRuns 3 = true ∧ ((filled {}).pport 3).sinceR < 1024 ∧
    ((filled {}).pport 3).sending.any (·.block.isEmpty) = false ∧
    ((List.range ((filled {}).routes 3).length).all fun q => (filled {}).resolved 3 q) = true ∧
    (let r := (route1.take 48) ++ List.replicate 6 (0 : Byte) ++ List.replicate 60 1
     (port3 { solicited := [0] } [r]).resolved 3 0 = false ∧ ((port3 { solicited := [0] } [r]).pport 3).solicited.contains 0 = true) ∧ (filled {}).nextPacket 3 = none ∧
    ((filled helloWaits).nextPacket 3).any (fun n => n.2.hello &&
      decide (8 * (frameBytes (((filled helloWaits).routes 3).getD n.2.route []) n.2.plain.length + 20) ≤
        (filled helloWaits).bucket 3)) = true ∧
    Regs.pair (filled helloWaits).regs (Reg.brmPTxpsnLo 3) + 1 < 2 ^ 64 := by decide +kernel

theorem witness_PartnerTimers :
    running.portRuns 3 = false ∧ (port3 {} [route1]).portRuns 3 = true ∧
    ({ port3 {} [route1] with cph := { assocs := [(3, { tx := [(0, (1, []))] })] } } : State).established 3 = true ∧
    ({ port3 { probeAt := some 9, feedbackAt := some 9 } [route1] with
      cph := { assocs := [(3, { tx := [(0, (1, []))] })] } } : State).established 3 = true ∧
    ((port3 {} [route1]).putFld (Reg.brmPRoute 3 2) 0 1 1).fld (Reg.brmPRoute 3 2) 0 1 = 1 ∧
    (((port3 {} [route1]).putFld (Reg.brmPRoute 3 2) 0 1 1).pport 3).arriving = [] ∧
    Tbl.get? ((port3 {} []).pport 3).crx 6 = none ∧
    Tbl.get? ((port3 { crx := [(6, ⟨32, [], 0⟩)] } []).pport 3).crx 6 = some ⟨32, [], 0⟩ ∧
    ((port3 { cun := [⟨6, [], [], 0⟩] } []).pport 3).cun.find? (·.mid == 6) = some ⟨6, [], [], 0⟩ := by decide +kernel

/-- Host port 0 is the time port. -/
def timed : State :=
  { flds running [(Reg.hptHStatus 0, 0, 1, 1)] with host := { config := [(0x0200, [0, 0, 1])] } }

theorem witness_NeighbourAndLinkEvents :
    ((port3 {} [route1]).routes 3).any (fun r => routeAddr r 0 == (BitVec.ofNat 128 (routeAddr route1 0)).toNat) = true ∧
    ((port3 {} [route1]).routes 3).any (fun r => routeAddr r 0 == (0#128).toNat) = false ∧ (port3 {} []).routes 3 = [] ∧
    (let r := (route1.take 48) ++ List.replicate 6 (0 : Byte) ++ List.replicate 60 1
     (port3 {} [r]).routes 3 = [r] ∧ fieldAt r 48 6 = 0 ∧
     routeAddr r (if fieldAt r 41 1 = 0 then 16 else 56) = (BitVec.ofNat 128 (routeAddr route1 0)).toNat) ∧
    (running.putFld (Reg.hptHStatus 3) 0 1 1).fld (Reg.hptHStatus 3) 0 1 = 1 ∧ running.fld (Reg.hptHStatus 3) 0 1 = 0 ∧
    timed.timePort ≠ none ∧ running.isolated 0x1E3 = false ∧ running.isolated 0x1EF = false ∧
    (running.putFld (Reg.brmPCfg 7) 0 1 1).fld (Reg.brmPCfg 7) 0 1 = 1 ∧ running.fld (Reg.brmPCfg 7) 0 1 = 0 := by
  decide +kernel

/-! ### The cipher engine -/

/-- The cipher engine ready, with lanes of the decryption pipeline. -/
def engine (l : Tbl LaneRec) (w : List LaneRec) : State :=
  { flds running [(Reg.cphStatus, 0, 1, 1)] with cph := { keyed := true, lanes := [(0, l), (1, l)], waiting := [(1, w)] } }
/-- Ten running records of one priority. -/
def tenLanes (prio : Nat) : Tbl LaneRec := (List.range 10).map fun i => (i, { assoc := 3, prio, len := 64, start := 0 })

theorem witness_LanesSealAndOpen :
    running.coreRunning ∧ running.fld Reg.cphStatus 0 1 = 0 ∧ (engine [] []).fld Reg.cphStatus 0 1 = 1 ∧
    (engine [] []).fifoBytes 11 ≤ 262144 ∧ freeLane ((engine [] []).lanes 1) = some 0 ∧
    freeLane ((engine (tenLanes 3) []).lanes 1) = none ∧
    worstLane ((engine (tenLanes 3) []).lanes 1) = some (0, { assoc := 3, prio := 3, len := 64, start := 0 }) ∧
    (engine (tenLanes 3) []).contexts < 32 ∧ (2 : Nat) < 3 ∧ ¬ ((3 : Nat) < 3 ∧ (0 : Nat) < 4 ∧ (engine (tenLanes 3) []).contexts < 32) ∧
    Tbl.get? ((engine [] []).lanes 1) 9 = none ∧
    Tbl.get? ((engine (tenLanes 3) []).lanes 0) 9 = some { assoc := 3, prio := 3, len := 64, start := 0 } ∧
    (Tbl.get? ((engine (tenLanes 3) []).assoc 3).rx 1 = none) := by decide +kernel

/-- A record opened by the key of its slot, where the engine's answer opens it. -/
theorem witness_LanesSealAndOpen_opened (p : List Byte) (h : openRecord [1] 7 [] [2] (List.replicate 16 0) = some p) :
    (let s : State := { engine (tenLanes 3) [] with cph := { lanes := [(1, tenLanes 3)], assocs := [(3, { rx := [(1, (4, [1]))] })] } }
     Tbl.get? (s.assoc 3).rx 1 = some (4, [1]) ∧ Tbl.get? (s.lanes 1) 0 = some { assoc := 3, prio := 3, len := 64, start := 0 }) ∧
    openRecord (4, [1]).2 7 [] [2] (List.replicate 16 0) = some p ∧ (4 : Nat) < 2 ^ 32 :=
  ⟨by decide +kernel, h, by decide⟩

/-- Association 8, of host port 0, in a state with its data. -/
def hostAssoc (st : Nat) (x : Assoc) : State :=
  { flds running [(Reg.cphAState 8, 0, 2, st), (Reg.cphLimits, 0, 8, 40), (Reg.cphLimits, 8, 8, 60)] with
    cph := { keyed := true, assocs := [(8, x)] } }

theorem witness_HandshakesEstablish :
    running.cph.keyed = false ∧ (hostAssoc 1 {}).cph.keyed = true ∧ (hostAssoc 1 {}).coreRunning ∧
    (hostAssoc 1 {}).credOk 8 [] = false ∧ (hostAssoc 1 {}).credOk 8 (List.replicate 88 1) = true ∧
    (hostAssoc 1 {}).fld (Reg.cphAState 8) 0 2 = 1 ∧ running.fld (Reg.cphAState 8) 0 2 ≠ 1 ∧
    ((hostAssoc 1 { finished := true }).assoc 8).finished = true ∧ ((hostAssoc 1 {}).assoc 8).finished = false ∧
    (hostAssoc 2 {}).established 8 = false ∧ (hostAssoc 2 { tx := [(0, (0, []))] }).established 8 = true ∧
    (1 : Nat) = (hostAssoc 2 {}).reg (Reg.cphARxgen 8) + 1 ∧ (2 : Nat) ≠ (hostAssoc 2 {}).reg (Reg.cphARxgen 8) + 1 ∧
    (hostAssoc 2 {}).reg (Reg.cphATxgen 8) + 1 < 2 ∧ 1 ≤ (hostAssoc 2 {}).reg (Reg.cphATxgen 8) + 1 ∧
    (hostAssoc 2 {}).keyAged 8 = false := by decide +kernel

/-- A signature is right or it is not: one of the two clauses of FINISH applies. -/
theorem witness_HandshakesEstablish_finish :
    (hostAssoc 1 { finished := true }).finishOk 8 [] = false ∨ (hostAssoc 1 { finished := true }).finishOk 8 [] = true := by
  cases (hostAssoc 1 { finished := true }).finishOk 8 [] <;> simp

theorem witness_KeyTimersAct :
    ((hostAssoc 2 {}).assoc 8).newGen = none ∧ ((hostAssoc 2 { newGen := some (3, 5) }).assoc 8).newGen = some (3, 5) ∧
    (hostAssoc 2 {}).established 8 = false ∧ (hostAssoc 2 { tx := [(0, (0, []))] }).established 8 = true ∧
    ((hostAssoc 2 {}).assoc 8).since = none ∧ ((hostAssoc 2 { tx := [(0, (0, []))], since := some 9 }).assoc 8).since = some 9 ∧
    (hostAssoc 2 { tx := [(0, (0, []))], since := some 9 }).established 8 = true ∧
    (port3 {} []).site ≤ (port3 {} []).peerSite 3 ∧
    ({ port3 {} [] with host := { config := [(0x0101, [2]), (0x0300, entry3 [])] } } : State).peerSite 3 <
      ({ port3 {} [] with host := { config := [(0x0101, [2]), (0x0300, entry3 [])] } } : State).site ∧
    (hostAssoc 2 {}).fld (Reg.cphAState 8) 0 2 ≠ 3 ∧ (hostAssoc 3 {}).fld (Reg.cphAState 8) 0 2 = 3 ∧
    (let s : State := { flds running [(Reg.cphAState 3, 0, 2, 3)] with cph := { assocs := [(3, { helloAt := some 9 })] } }
     s.fld (Reg.cphAState 3) 0 2 = 3 ∧ (s.assoc 3).helloAt = some 9) ∧
    ((hostAssoc 1 { helloAt := some 9 }).assoc 8).helloAt = some 9 ∧ (hostAssoc 1 {}).fld (Reg.cphAState 8) 0 2 = 1 ∧
    ((hostAssoc 1 {}).hport 0).failures < 2 ∧ (hostAssoc 2 {}).fld (Reg.cphAState 8) 0 2 ≠ 1 := by decide +kernel

theorem witness_AlarmsEraseAndReportsAppear :
    running.pins.porst = false ∧ running.power ≠ 3 ∧ running.coreRunning ∧ running.cph.signing = [] ∧
    ({ running with cph := { signing := [[1], [2]] } } : State).cph.signing = [1] :: [[2]] := by decide +kernel

/-! ### Host ports -/

/-- Host port 0: link up and an association, with its data. -/
def hostUp (p : HPort) : State :=
  { flds running [(Reg.hptHStatus 0, 0, 1, 1), (Reg.hptStatus, 0, 3, 4)] with
    cph := { keyed := true, assocs := [(8, { tx := [(0, (0, []))] })] }
    host := { ports := [(0, p)], config := [(0x0106, leBytes 8 0x1000 ++ leBytes 8 64), (0x0200, [0, 0, 1])] } }
/-- The body of ASSIGN for an image of a length (R435). -/
def assignBody (len : Nat) : List Byte := List.replicate 24 0 ++ leBytes 8 len ++ List.replicate 32 0
/-- The device reads its job image. -/
def readingImage : State := (hostUp {}).putFld Reg.hptStatus 0 3 5

theorem witness_CoordinatorAssignsAndStops :
    running.hostAssoc 0 = false ∧ (hostUp {}).hostAssoc 0 = true ∧ (hostUp {}).coreRunning ∧ running.host.waitJob = none ∧
    (let s : State := { running with host := { waitJob := some 7 } }
     s.host.waitJob = some 7 ∧ (∀ k, k < 4 → s.hostAssoc k = false) ∧ 0 < s.freqStep) ∧
    (let s : State := { hostUp {} with host := { (hostUp {}).host with waitJob := some 7 } }
     s.host.waitJob = some 7 ∧ s.hostAssoc 0 = true ∧ 0 < s.freqStep) ∧
    (assignBody 64).length = 64 ∧
    ((hostUp { rxSeen := [9] }).takeControl 0 9 0 64).2 = false ∧ ((hostUp {}).takeControl 0 9 0 64).2 = true ∧
    ((hostUp {}).takeControl 0 9 0 64).1.fld Reg.hptStatus 0 3 = 4 ∧ (readingImage.takeControl 0 9 0 64).1.fld Reg.hptStatus 0 3 ≠ 4 ∧
    (hostUp {}).host.evWait = [] ∧ (hostUp {}).host.evDropped = 0 ∧
    fieldAt (assignBody 0) 24 8 = 0 ∧ (hostUp {}).jobArea.2 < fieldAt (assignBody 65) 24 8 ∧
    fieldAt (assignBody 64) 24 8 ≠ 0 ∧ fieldAt (assignBody 64) 24 8 ≤ (hostUp {}).jobArea.2 ∧
    ((hostUp { rxSeen := [9] }).takeControl 0 9 0 0).2 = false ∧ ((hostUp {}).takeControl 0 9 0 0).2 = true ∧
    ({ hostUp {} with job := { active := true } } : State).job.active = true ∧
    (({ hostUp {} with job := { active := true } } : State).takeControl 0 9 0 0).2 = true ∧ (hostUp {}).job.active = false ∧
    (readingImage.takeControl 0 9 0 0).2 = true ∧ (readingImage.takeControl 0 9 0 0).1.fld Reg.hptStatus 0 3 = 5 ∧
    (List.replicate 24 (0 : Byte)).length = 24 ∧ ((hostUp { rxSeen := [9] }).takeControl 0 9 0 24).2 = false ∧
    (({ hostUp {} with job := { active := true } } : State).takeControl 0 9 0 24).2 = true := by decide +kernel

/-- Queue pair 0 of port 0. -/
def withQp (x : QueuePair) : State := { hostUp {} with host := { (hostUp {}).host with qps := [(0, x)] } }
/-- A request for 64 bytes of the job image. -/
def imageReq : RoceReq := { what := .image, psn := 5, addr := 0x1000, len := 64 }

theorem witness_RemoteRequestsAreServed :
    running.hostOpen 0 = false ∧ (hostUp {}).hostOpen 0 = true ∧ ((hostUp { hseqs := [3] }).hport 0).replayed 3 = true ∧
    ((hostUp {}).hport 0).replayed 3 = false ∧ (0xFFFFFC : Nat) + 4 ≤ 0x1000000 ∧ (0x1000000 : Nat) < 0xFFFFFD + 4 ∧
    (0 : Nat) + 128 ≤ ((hostUp {}).put Reg.vsrDlogSize 1).ringBytes ∧ (1 : Nat) < 2 ∧
    (withQp { port := 0 }).qp (0x10000 - 0x10000) = some { port := 0 } ∧ (0xFFFF : Nat) < 0x10000 := by decide +kernel

theorem witness_QueuePairsAndTimeFollow :
    (hostUp {}).qp 0 = none ∧ (withQp { port := 0 }).qp 0 = some { port := 0 } ∧
    (withQp { port := 0, reqs := [imageReq] }).qp 0 = some { port := 0, reqs := [imageReq] } ∧
    (withQp { port := 0, reqs := [imageReq], retries := 7 }).qp 0 = some { port := 0, reqs := [imageReq], retries := 7 } ∧
    imageReq.psn ≠ 6 ∧ imageReq.psn = 5 ∧ imageReq.what = .image ∧ (List.replicate 64 (1 : Byte)).length = imageReq.len ∧
    (withQp { port := 0, failed := true }).qp 0 = some { port := 0, failed := true } ∧
    running.timePort ≠ some 0 ∧ (hostUp {}).timePort = some 0 ∧ ((-101 : Int) < -100 ∨ (100 : Int) < -101) ∧
    ((-100 : Int) ≤ -100 ∧ (-100 : Int) ≤ 100) ∧ (hostUp {}).host.syncs < 15 ∧
    15 ≤ ({ hostUp {} with host := { (hostUp {}).host with syncs := 15 } } : State).host.syncs ∧ (hostUp {}).aon.deferred = none ∧
    (hostUp {}).fld Reg.aonTime 1 1 = 0 := by decide +kernel

/-! ### Mitten -/

/-- A part in a boot step. -/
def booting (n : Nat) : State := State.reset.putFld Reg.aonState 4 4 n
/-- A full reset under way, 2 its source. -/
def resetting : State :=
  { State.reset.put Reg.aonState 0x4 with aon := { reset := some { cause := 2, at' := 0, noretain := false } } }
/-- Alarm 3 in force with the stacks in self-refresh. -/
def alarmed : State := { safe with aon := { alarm := some 3, refreshed := true } }

theorem witness_PwrgoodFallActsAsPorst :
    ({ running with pins := { mainEn := true } } : State).pins.mainEn = true ∧
    ({ running with pins := { mainEn := true, porst := true } } : State).pins.mainEn = true ∧ State.reset.pins.mainEn = false ∧
    State.reset.aon.reset = none ∧ resetting.pins.mainEn = false ∧
    resetting.aon.reset = some { cause := 2, at' := 0, noretain := false } := by decide

theorem witness_ResetsAndBootRun :
    porst.pins.porst = true ∧ running.pins.porst = false ∧ running.aon.reset = none ∧ running.power = 2 ∧
    resetting.aon.reset = some { cause := 2, at' := 0, noretain := false } ∧ resetting.coreStopped = true ∧
    safe.power = 3 ∧ safe.aon.reset = none ∧ running.power ≠ 3 ∧ alarmed.power = 3 ∧ alarmed.aon.refreshed = true ∧
    alarmed.aon.alarm ≠ none ∧ alarmed.fld Reg.aonResetCause 12 2 ≠ 3 ∧ safe.aon.refreshed = false ∧
    alarmed.fld Reg.aonTemp 0 10 < 200 ∧ alarmed.aon.alarm ≠ some 6 ∧ alarmed.aon.reset = none ∧
    (let s : State := { (safe.putFld Reg.aonTemp 0 10 200) with aon := { alarm := some 3, refreshed := true } }
     ¬ (s.aon.alarm = some 6 ∨ s.fld Reg.aonTemp 0 10 < 200)) ∧
    (let s : State := { (safe.putFld Reg.aonTemp 0 10 200) with aon := { alarm := some 6, refreshed := true } }
     s.power = 3 ∧ s.aon.alarm = some 6 ∧ s.fld Reg.aonResetCause 12 2 ≠ 3 ∧ s.aon.reset = none) ∧
    (booting 8).bootStep = 8 ∧ (let s : State := { booting 8 with host := { config := [(0x0104, leBytes 8 4096)] } }
      s.bootStep = 8 ∧ s.power < 3 ∧ s.confNat 0x0104 0 ≠ 0) ∧
    (booting 2).pins.porst = false ∧ (booting 2).aon.reset = none ∧ (booting 2).power < 3 ∧ (booting 2).bootStep = 2 ∧
    (booting 4).bootStep = 4 ∧ (booting 5).bootStep = 5 ∧ (booting 6).bootStep = 6 ∧ (booting 7).bootStep = 7 ∧
    (booting 12).bootStep = 12 ∧ (booting 12).fld Reg.hptStatus 0 3 < 5 ∧ (booting 13).bootStep = 13 ∧
    (let s := (booting 14).putFld Reg.aonState 0 3 1
     s.bootStep = 14 ∧ s.power = 1 ∧ s.fld Reg.aonResetCause 0 1 = 1 ∧ s.job.resumed = false ∧ s.power < 3 ∧
     (after (.bootStepComplete .ok) s).power = 2) ∧
    (booting 13).job.active = false ∧ (booting 3).bootStep = 3 ∧ 0 = b2n (booting 3).aon.slotB ∧
    (booting 3).fld Reg.idStatus 16 4 ≠ 2 ∧ resetting.aon.reset.isSome = true ∧ 3 ≤ safe.power := by decide +kernel

/-- A job with members and a new frequency step. -/
def switching (f : Option Nat) (props : Tbl (Nat × Nat)) : State :=
  { flds running [(Reg.seamDomDev, 10, 11, 2)] with
    job := { active := true, members := [0, 1], propsSince := some 9, props := props, newK := some 40, fsw := f } }

theorem witness_FrequencyIsAgreedAndSwitched :
    State.reset.power ≠ 1 ∧ State.reset.power ≠ 2 ∧ State.reset.coreRunning ∧ running.power = 2 ∧
    (running.putFld Reg.aonTime 2 1 1).fld Reg.aonTime 2 1 = 1 ∧ running.aon.deferred = none ∧
    ({ running with aon := { deferred := some 4 } } : State).aon.deferred = some 4 ∧ running.job.propsSince = none ∧
    (switching none []).job.propsSince ≠ none ∧
    (((switching none []).device :: (switching none []).others).all fun e =>
      (Tbl.get? (Tbl.set (switching none []).job.props 1 (127, 6)) e).isSome) = false ∧
    (((switching none [(0, (40, 6))]).device :: (switching none [(0, (40, 6))]).others).all fun e =>
      (Tbl.get? (Tbl.set (switching none [(0, (40, 6))]).job.props 1 (127, 6)) e).isSome) = true ∧
    running.fld Reg.aonTime 2 1 = 0 ∧
    (switching none []).job.propsSince = some 9 ∧ (switching none []).job.start = false ∧
    ((switching none [(0, (40, 6))]).job.props.map (·.2.1)).foldl min 127 < (switching none []).fld Reg.aonFreq 0 7 ∧
    (switching none []).fld Reg.aonFreq 0 7 ≤ ((switching none [(0, (48, 6))]).job.props.map (·.2.1)).foldl min 127 ∧
    running.job.newK = none ∧ (switching none []).job.newK ≠ none ∧ (switching (some 0) []).job.fsw = some 0 ∧
    (switching (some (2 ^ 64 - 1)) []).job.fsw = some (2 ^ 64 - 1) ∧ (switching (some 0) []).job.newK = some 40 ∧
    running.aon.restartAt = none ∧ ({ running with aon := { restartAt := some 4 } } : State).aon.restartAt = some 4 := by
  decide +kernel

theorem witness_PowerAndTemperatureAlert :
    running.pins.porst = false ∧ running.fld Reg.aonPower 16 12 < 65535 ∧ (10 : Nat) ≤ 9 + 1 ∧
    (200 : Nat) ≤ 200 ∧ (220 : Nat) ≤ 220 ∧ running.aon.alarm ≠ some 5 ∧ (219 : Nat) < 220 := by decide +kernel

/-! ### Gauntlet -/

/-- An open record. -/
def rec1 (stage : Nat) : FaultRec :=
  { unit := 0x20, access := 0, cause := 1, stage, isOpen := true, detail := 0, rep := 255, addr := 0, fcyc := 0, todSec := 0
    todNs := 0, capAc := 0, grace := 5 }
/-- Entry 0 holds one; HEAD is 1. -/
def logged (stage : Nat) : State := { running with gnt := { recs := [(0, rec1 stage)] } }
/-- Entries 0 and 1 hold one. -/
def fullLog : State := { running.putFld Reg.gntHead 0 6 1 with gnt := { recs := [(0, rec1 0), (1, rec1 0)] } }

theorem witness_FaultsAreRecordedAndEscalate :
    unitExists 0x20 = true ∧ unitExists 0x204 = true ∧ ¬ safe.coreRunning ∧ (0x20 : Nat) < 0x200 ∧ running.coreRunning ∧
    openTwin (logged 0).gnt 0x20 1 0 = some (0, rec1 0) ∧ openTwin fullLog.gnt 0x20 2 0 = none ∧ fullLog.logFull = true ∧
    fullLog.power < 3 ∧ running.logFull = false ∧ (logged 0).logFull = false ∧ openTwin (logged 0).gnt 0x20 2 0 = none ∧
    entryStage 2 = 0 ∧ entryStage 0x0F = 3 ∧ openTwin running.gnt 0x200 0x0F 0 = none ∧ Tbl.get? running.gnt.recs 0 = none ∧
    Tbl.get? (logged 0).gnt.recs 0 ≠ none ∧ running.openRecord 0 = none ∧ (logged 0).openRecord 0 = some (rec1 0) ∧
    (0x20 : Nat) < 0x80 ∧ (1 : Nat) ≠ 0x0D ∧ (logged 1).openRecord 0 = some (rec1 1) ∧ (logged 2).openRecord 0 = some (rec1 2) ∧ (rec1 1).stage = 1 ∧ (rec1 2).stage = 2 ∧
    (logged 1).coreStopped = false ∧ State.reset.power ≠ 1 ∧ State.reset.power ≠ 2 ∧ running.gnt.bad = [] := by decide +kernel

theorem witness_FirmwareAnswersFaults :
    running.coreRunning ∧ running.power ≠ 0 ∧ running.gnt.bad = [] ∧ running.reg Reg.gntAck = 0 ∧ running.openRecord 63 = none ∧
    (logged 0).reg Reg.gntAck = 0 ∧ (logged 0).openRecord 0 = some (rec1 0) ∧ running.vsr.goWaits = [] ∧
    running.vsr.staged.length < 64 ∧
    64 ≤ ({ running with vsr := { staged := List.replicate 64 (0, []) } } : State).vsr.staged.length := by decide +kernel

/-! ### The register window -/

/-- Job start, when Brim's configuration is open (R392). -/
def jobStart : State := { running with job := { start := true } }

theorem witness_WindowWritesFollowAccessCodes :
    locate 0xC0008 = some (.brm, 0, 8) ∧ (Block.brm.regRow 0 8).isSome = true ∧ running.coreRunning ∧ running.power ≠ 0 ∧
    (jobStart.atCycle (jobStart.now + 40)).mayWrite (.policy 0) .brm 0 8 1 = true ∧
    (jobStart.atCycle (jobStart.now + 40)).mayWrite (.policy 0) .brm 0 8 0 = true ∧
    (running.atCycle (running.now + 40)).mayWrite (.policy 0) .brm 0 8 1 = false ∧ (targetOf 0xC0008).block.map (·.1) = some .brm ∧
    (Master.service 255).exists' = true ∧ running.mayIssue (.service 255) = true ∧ running.poweredOff .row 31 = false ∧
    jobStart.mayIssue (.policy 0) = true ∧ jobStart.poweredOff .brm 0 = false ∧ jobStart.mayWrite (.policy 0) .brm 0 8 1 = true ∧
    running.mayWrite (.policy 0) .brm 0 8 1 = false ∧ (Block.brm.regRow 0 8).any (fun r => r.mask .rw != 0) = true ∧
    jobStart.coreRunning ∧ jobStart.power ≠ 0 ∧ safe.mayIssue (.policy 0) = false ∧ running.quiet = false ∧
    (targetOf 0xC0008).alwaysOn = false ∧ (0xC0009 : Nat) % 4 ≠ 0 ∧ running.mayIssue .remote = true ∧
    (running.put Reg.aonMargin 1).fld Reg.aonMargin 0 8 ≠ 0 ∧ (running.put Reg.aonMargin 1).mayIssue .mitten = true ∧
    (running.put Reg.aonMargin 1).quiet = false := by decide +kernel

theorem witness_WindowReadsAndJtag :
    locate 0x40100 = some (.cph, 0, 0x100) ∧ (Block.cph.regRow 0 0x100).isSome = true ∧ Block.cph.isLow 0 0x100 = true ∧
    (Block.cph.regRow 0 0x104).isSome = true ∧ (0x40100 : Nat) % 8 = 0 ∧ Tbl.get? running.shadows (Block.cph.base 0) = none ∧
    (0x40100 + 1) % 2 ≠ 0 ∧ locate (0x40100 + 1) = some (.cph, 0, 0x101) ∧ running.mayIssue .remote = true ∧
    State.reset.power = 0 ∧ running.power ≠ 0 ∧ running.testPermit = false ∧
    ({ running with host := { config := [(0x0700, [])] } } : State).testPermit = true := by decide +kernel

theorem witness_WindowCommandsAct :
    running.gated (4096 + 127 / 4) = false ∧ (0 + 2 ^ 32 - running.reg (Reg.seqSHead 39)) % 2 ^ 32 ≤ running.reg (Reg.seqSLen 39) ∧
    running.reg (Reg.seqSLen 39) < (1 + 2 ^ 32 - running.reg (Reg.seqSHead 39)) % 2 ^ 32 ∧
    Regs.pair running.regs Reg.hptEvqProdLo < 1 + 2 ^ 32 * running.reg Reg.hptEvqConsHi ∧
    0 + 2 ^ 32 * running.reg Reg.hptEvqConsHi ≤ Regs.pair running.regs Reg.hptEvqProdLo ∧
    (running.putFld Reg.idStatus 14 1 1).fld Reg.idStatus 14 1 = 1 ∧ running.fld Reg.idStatus 14 1 = 0 ∧
    (Master.policy 0).isPolicy = true ∧ running.aon.reset = none ∧ running.power ≠ 3 ∧ (Master.service 3).isPolicy = false ∧
    running.fld (Reg.meCfg 127) 0 1 = 0 ∧ Tbl.get? running.shadows (Block.me.base 127) = none ∧
    (let s : State := { running.putFld (Reg.meCfg 127) 0 1 1 with host := { config := [(0x0700, [])] } }
     s.gated (4096 + 127 / 4) = false ∧ (s.atCycle (s.now + 40)).taccOpen 127 = true ∧
     Tbl.get? s.shadows (Block.me.base 127) = none) := by decide +kernel
/-! ### Well-formedness: one ill-formed term for each check, refused -/

theorem test_illformed_units : [Instr.commandIssue 40, .prod (cmd 0x20 0x80 0), .prod (cmd 0x21 5 0), .tileStart 128, .promotion 128,
    .drain (cmd 0x21 0x80 0), .accumulatorSwap 128, .slotBeatSend 32, .rowred (cmd 0x30 0x7F 0), .rowew (cmd 0x31 0xA0 0),
    .rowfn (cmd 0x31 0x80 0), .rblk (cmd 0x33 0xA0 0), .tblld (cmd 0x34 0x20 0), .rowCommandStart 32, .stash (cmd 0x38 0x1A9 0),
    .unstash (cmd 0x38 0x1A8 0), .sreset (cmd 0x3A 0x1A7 0), .linerCommandStart 32, .send (cmd 0x40 0x1AF 0),
    .write (cmd 0x41 0x1D4 0), .mcast (cmd 0x43 0x1B0 0), .post (cmd 0x43 0x1D4 0), .start (cmd 0x50 0x9F 0)].all
    (fun i => !wellFormed i) = true := by decide +kernel

theorem test_illformed_sequencer : [Instr.nop 40 (cmd 0 0x1F8 0), .advance 0 (cmd 0 0x1F8 0), .slack 0 (cmd 2 0x1F7 0),
    .waitcue 40 (cmd 3 0x1F8 0), .postcue 0 (cmd 3 0x1F8 0), .sleep 0 (cmd 5 0 0), .unitGate 0xA0, .wakeStart 4095, .wakeComplete 4128,
    .qbound 0 (cmd 7 0x1F8 0), .qwait 40 (cmd 7 0x1F8 0), .qfree 0 (cmd 8 0 0), .bgslot 40 (cmd 9 0x1F8 0),
    .expand 0 (cmd 0xB 0x1F8 0), .stepend 40 (cmd 0xB 0x1F8 0), .zcIssue 256 0, .zcWait 256 0, .zcTime 256 0, .zcCue 256 0,
    .zcCuewait 256 0, .zcBeat 256 0, .zcDone 256 0, .zcWaitResume 256].all (fun i => !wellFormed i) = true := by decide +kernel

theorem test_illformed_memory : [Instr.beatArrival 8 0, .beatAdd 0 2048 0, .windowEntry 0 33, .ingressStallLimit 8 0, .slotTrigger 0 2048,
    .slotOpen 8 0, .cuffEntryStart 8, .hbmReadReturn (.prefetch 40 0), .hbmReadReturn (.cuff 8), .hbmWriteAck 8,
    .noiseMessage 1024 0 0 0 false, .refreshWindow 8, .backgroundQuantum 4, .forcedSlot 0, .touchListPost (.policy 4) 0,
    .abortMessage 36 0 0, .censusRecord 0 129 0 0 0, .censusSet 0 [1024], .readyCycleMessage 0 (2 ^ 64)].all
    (fun i => !wellFormed i) = true := by decide +kernel

theorem test_illformed_links : [Instr.frameReceive 0 0 (List.replicate 257 0) 0 0, .egressSlot 36, .nak 0 (2 ^ 24), .retryTimeout 36,
    .latencyProbe 0 4096, .discoveryIdentity 0 0 36, .alignmentFrame 0 0 1024, .laneFail 0 4, .laneChange 0 2,
    .retrainComplete 36 true 0, .qdataMessage (emptyMsg 16 0), .qcredMessage (emptyMsg 0 1024), .cueMessage (emptyMsg 16 0),
    .writeMessage (emptyMsg 16 0), .mcastMessage 36 (emptyMsg 4 0), .ctrlMessage (emptyMsg 16 0), .atomicBurst 36 [], .burstClose 36].all
    (fun i => !wellFormed i) = true := by decide +kernel

theorem test_illformed_sites : [Instr.roundSend (2 ^ 32), .round (classC 1 16 0 []), .commit (classC 2 0 (2 ^ 32) []), .join (classC 3 16 0 []),
    .fetch (classC 4 16 0 []), .leaderCommit (2 ^ 32), .commitDeadline (2 ^ 32), .siteSilent 16, .memberRemoval 0 16,
    .deltaObject 8 (delta 0), .anchorObject 8 (delta 0), .classCFragment 8 (packet 1 0), .classCRelease 8 0,
    .classCResend 0 (2 ^ 32), .classDFrame 0 (packet 16 0), .probe 8 (packet 1 0), .feedbackReport 8 (packet 1 0) ⟨0, 0, [], [], []⟩,
    .probeTimer 8, .feedbackTimer 8, .routeDown 0 4, .packetTransmit 8, .neighborSolicitation 8 0, .echoRequest 8 0 [],
    .neighborAdvertisement 8 0 0, .macPause 12, .partnerLinkDown 8, .portLinkUp 0x1E4].all (fun i => !wellFormed i) = true := by
  decide +kernel

theorem test_illformed_cipher : [Instr.recordStart true 12 0 0, .recordComplete true 10 0 0 [] [] [], .hello 12 [], .finish 12 [],
    .keyupd 12 0 0, .keyack 0 (2 ^ 32), .keySlotOverwrite 12, .rekeyTimer 12, .handshakeTimeout 4, .handshakeRestart 12, .alarm 0,
    .alarm 7, .contact 4, .controlResend 4, .hostPortLinkDown 4, .assign 0 0 0 [], .stop 4 0 0, .replace 0 0 0 [],
    .rdmaRead 4 0 0 0 0, .rdmaWrite 0 0 (2 ^ 64) [], .rdmaSend 0 0 (2 ^ 24) [], .unsupportedRequest 4 0, .roceAckTimeout 65536,
    .cnp 65536, .roceRateRecovery 65536, .roceResponse 0 (2 ^ 24) [], .dataDescriptorRead 0 [], .ptpSync 0 0 0 1000000000].all
    (fun i => !wellFormed i) = true := by decide +kernel

theorem test_illformed_window : [Instr.frequencyProposal 0 128 0, .switchCycleMessage 1024 0, .powerSample 65536, .temperatureSample 1024,
    .faultReport 0x1A9 0 0 0 0, .faultReport 0 0 7 0 0, .escalationNotify 64, .escalationIsolate 64, .escalationSafe 64,
    .ackDismiss .mitten 64, .ackAbort (.policy 4) 0, .ackIsolate .mitten 64, .ackSafe .mitten 64, .openDismiss (.policy 4) false 0,
    .wdtKick (.service 256) 0, .unfreeze (.policy 4) 0, .dlogPost (.policy 4) 0, .attest (.policy 4) 0, .fullReset (.policy 4) 0,
    .evqConsWrite (.policy 4) true 0, .watchdogExpiry 4, .paritySweep (some 0x10000), .histogramClear .mitten 128 0,
    .ringTailWrite .mitten 40 0, .cueWrite .mitten 224 0, .testAccessRead .mitten 0x1000000 false, .lowWordRead (.policy 4) 0 false,
    .registerWrite .mitten 0 3 0, .setAliasWrite .mitten 0 16 0, .clearAliasWrite .mitten 0x1000000 4 0,
    .toggleAliasWrite (.policy 4) 0 4 0, .mittenBitAliasWrite .mitten 0 0 0, .registerRead .mitten 0 5].all
    (fun i => !wellFormed i) = true := by decide +kernel

/-- No word spells a command: the table gives no row any bits. -/
theorem test_no_word_decodes : decodeTableWord 64 0x20 = none ∧ running.withFetchWord 64 0x20 = running := by decide +kernel

/-! ### Number formats: the manual's own tables and examples (02_number_formats, 04_backward_pass) -/

/-- The magnitudes of R31 in halves. -/
theorem test_f4_table : (List.range 8).map (fun c => (Fmt.f4.decode c).eqv (.fin false ([0, 1, 2, 3, 4, 6, 8, 12].getD c 0) (-1))) =
    List.replicate 8 true := by decide +kernel

/-- Largest finite values of R29. -/
theorem test_largest_finite : (Fmt.f8v.decode 0x7E).eqv (.fin false 448 0) = true ∧ (Fmt.f8g.decode 0x7B).eqv (.fin false 57344 0) = true ∧
    (Fmt.f6v.decode 0x1F).eqv (.fin false 15 (-1)) = true ∧ (Fmt.f6g.decode 0x1F).eqv (.fin false 28 0) = true ∧
    (Fmt.fp16.decode 0x7BFF).eqv (.fin false 65504 0) = true ∧ Fmt.f8v.decode 0x7F = .nan ∧ Fmt.f8g.decode 0xFC = .inf true := by
  decide +kernel

/-- Canonical NaNs of R32. -/
theorem test_canonical_nans : [f8v, ⟨5, 2, 15, .ieee⟩, bf16, ⟨5, 10, 15, .ieee⟩, fp32, a20].map FloatFmt.nanCode =
    [0x7F, 0x7E, 0x7FC0, 0x7E00, 0x7FC00000, 0x7F000] := by decide +kernel

/-- The example of R50: 0.3 to F8V in four modes. -/
theorem test_rounding_modes : [Round.rne, .rtz, .sr 0x80000000, .sr 0x60000000].map
    (fun r => (f8v.convert r false false (Val.ofFp32 0x3E99999A)).code) = [0x2A, 0x29, 0x2A, 0x29] := by decide +kernel

/-- The first example of R41: 470 and 3.0 in an F8V block. -/
theorem test_block_code : (writeBlock .f8v false [(.fin false 470 0, .rne), (.fin false 3 0, .rne)]).sc = 0x80 ∧
    (writeBlock .f8v false [(.fin false 470 0, .rne), (.fin false 3 0, .rne)]).codes = [0x77, 0x3C] := by decide +kernel

/-- A line's block of 03_matrix_engines: 100.0 and -0.7, with the one underflow counted. -/
theorem test_block_line : (writeBlock .f8v false [(.fin false 100 0, .rne), (Val.ofFp32 0xBF333333, .rne), (Val.ofFp32 0x3951B717, .rne),
    (.fin false 0 0, .rne)]).codes = [0x7C, 0xC3, 0x00, 0x00] ∧
    (writeBlock .f8v false [(.fin false 100 0, .rne), (Val.ofFp32 0x3951B717, .rne)]).unf = 1 := by decide +kernel

/-- The example of R59: BF16 0x3FD7 in two pieces. -/
theorem test_split : splitBlock 2 [Fmt.bf16.decode 0x3FD7] = [(0x77, [0x7D]), (0x72, [0x7E])] := by decide +kernel

/-! ### One command's effect -/

/-- A PROD waits at its engine as accepted (R75). -/
theorem test_prod_waits : (((after (.prod (prodOf 2 2 32 0)) running).engine 5).prods.map (·.cmd)) = [prodOf 2 2 32 0] := by decide +kernel

/-- The SLEEP of 07_clockwork's example: at 42,310 with NEXT 9,690 the engine is gated at 42,342 and wakes from 50,464. -/
theorem test_sleep_plans : (let s := awake { clk := { running.clk with fcnt := 42310 } }
    let t := after (.sleep 0 (cmd 5 0x1F8 (5 + 2 ^ 12 * 2 + 2 ^ 32 * 9690))) s
    ((Tbl.get? t.seq.gates 5).map (·.wakeAt), (Tbl.get? (after (.unitGate 5) t).seq.gates 5).map (·.at'))) = (some (some 50464), some 42342) := by decide +kernel

/-- `ME_ID` of engine 5 reads 0x0005_0085 (R106). -/
theorem test_read_me_id : (after (.registerRead (.policy 0) 0x205000 4) running).bus = [0x85#8, 0x00#8, 0x05#8, 0x00#8] := by
  decide +kernel

/-- The alias of AON_FREQ's bit 7 clears EXHAUSTED and nothing else (14_mitten_power_ageing's example). -/
theorem test_bit_alias : (after (.mittenBitAliasWrite .mitten 0xE0031C 4 1) (running.putFld Reg.aonFreq 7 1 1)).reg Reg.aonFreq = 0x303030 := by
  decide +kernel

/-- Policy core 2 misses its watchdog: POLICY_WDT of unit 0x203 after 2,500,000 ac (R486). -/
theorem test_watchdog : ((after (.watchdogExpiry 2) running).gnt.recs.map fun r => r.2.unit) = [0x203] ∧
    (after (.watchdogExpiry 2) running).clk.acnt = 2500000 := by decide +kernel

/-- A fault is recorded in entry 0 of an empty log (R485). -/
theorem test_fault_entry : (after (.faultReport 0x20 1 2 0x1234 7) running).gnt.recs.map (fun r => (r.1, r.2.unit, r.2.cause, r.2.access,
    r.2.addr, r.2.detail)) = [(0, 0x20, 1, 2, 0x1234, 7)] := by decide +kernel

/-- A write of the last cue's register stores it (R245). -/
theorem test_cue_write : (after (.cueWrite (.policy 0) 223 9) running).reg (Reg.seqCue 223) = 9 := by decide +kernel

/-- A COMMIT covering 128 shards travels as six packets of 1,264 bytes (11_partner_ports). -/
theorem test_fragment_size : (List.range 6).map (fun f => (fragment (List.replicate 5024 1) f).length) = List.replicate 6 1264 := by
  decide +kernel

/-- PORST_N clears what is not flash or fuses (R474). -/
theorem test_porst : (after .porstNAssert (running.put Reg.aonTime 1)).regs = [] ∧ (after .porstNAssert running).pins.porst = true := by
  decide +kernel

/-- 120 degrees trip (R472): THERM_TRIP_N, and the temperature alarm's safe state. -/
theorem test_therm_trip : (after (.temperatureSample 240) running).pins.thermTrip = true ∧ (after (.temperatureSample 240) running).power = 3 ∧
    (after (.temperatureSample 239) running).pins.thermTrip = false := by decide +kernel

end Sys2Proof.Tests
end

section
/-! SUPPORT. Accesses to the control window (16_register_interface): what an access comes to once its master may issue
it, what a write through each kind of address does, and the blocks whose writes no unit follows at once. -/

namespace Sys2Proof.Machine

/-! ### Where an address leads (R520, R534) -/

/-- A block, its number and an offset, if any are found, lie at address `a` (R520). -/
def LeadsBack (a : Nat) (o : Option (Block × Nat × Nat)) : Prop := ∀ x ∈ o, x.1.base x.2.1 + x.2.2 = a

theorem locate_leadsBack (a : Nat) : LeadsBack a (locate a) := by
  unfold locate
  repeat' refine iteInduction (motive := LeadsBack a) (fun _ => ?_) (fun _ => ?_)
  all_goals rintro _ ⟨⟩
  all_goals
    simp only [Block.base]
    omega

theorem base_add_of_locate {a n off : Nat} {b : Block} (h : locate a = some (b, n, off)) : b.base n + off = a :=
  locate_leadsBack a _ h

/-- Registers lie in the first 4 MiB of the window (R520). -/
theorem lt_of_locate {a : Nat} {x : Block × Nat × Nat} (h : locate a = some x) : a < 0x400000 := by
  refine Nat.lt_of_not_le fun hge => ?_
  have hnone : locate a = none := by
    unfold locate
    iterate 18 rw [if_neg (by omega)]
  rw [hnone] at h
  cases h

theorem targetOf_direct {a : Nat} (h : a < 0x400000) : targetOf a = .direct a := if_pos h

theorem targetOf_set {a : Nat} (h : a < 0x400000) : targetOf (0x400000 + a) = .aliasOf .set a := by
  unfold targetOf
  rw [if_neg (by omega), if_pos (by omega), Nat.add_sub_cancel_left]

theorem targetOf_clear {a : Nat} (h : a < 0x400000) : targetOf (0x800000 + a) = .aliasOf .clear a := by
  unfold targetOf
  rw [if_neg (by omega), if_neg (by omega), if_pos (by omega), Nat.add_sub_cancel_left]

theorem targetOf_toggle {a : Nat} (h : a < 0x200000) : targetOf (0xC00000 + a) = .aliasOf .toggle a := by
  unfold targetOf
  rw [if_neg (by omega), if_neg (by omega), if_neg (by omega), if_pos (by omega), Nat.add_sub_cancel_left]

theorem targetOf_bit {x : Nat} (h : x < 0x20000) : targetOf (0xE00000 + x) = .bit x := by
  unfold targetOf
  rw [if_neg (by omega), if_neg (by omega), if_neg (by omega), if_neg (by omega), if_pos (by omega),
    Nat.add_sub_cancel_left]

/-- A target outside Mitten and Gauntlet, whose accesses take core cycles (R519, R523). -/
def Target.inCoreDomain (t : Target) : Prop := ∀ x, t.block ≠ some (.aon, x) ∧ t.block ≠ some (.gnt, x)

theorem Target.inCoreDomain_of_block {t : Target} {b : Block} {x : Nat × Nat} (h : t.block = some (b, x))
    (ha : b ≠ .aon) (hg : b ≠ .gnt) : t.inCoreDomain := by
  intro y
  rw [h]
  exact ⟨fun e => ha (congrArg Prod.fst (Option.some.inj e)), fun e => hg (congrArg Prod.fst (Option.some.inj e))⟩

/-! ### Issuing an access (R518, R523, R525) -/

/-- A part whose core runs past power state AON is in no quiet power state (R525). -/
theorem not_quiet_of_running {s : State} (h : s.coreRunning) (hp : s.power ≠ 0) : s.quiet = false := by
  obtain ⟨hs, -⟩ := h
  simp only [State.coreStopped, Bool.or_eq_false_iff] at hs
  obtain ⟨⟨h3, h4⟩, -⟩ := hs
  simp [State.quiet, h3, h4, hp]

/-- The state when an access outside Mitten and Gauntlet acts: 40 cc later, and 2 or 3 more from Mitten's controller
(R523). -/
def State.afterAccess (s : State) (m : Master) : State :=
  if m = .mitten then (s.atCycle (s.now + 42 + s.freeBelow 2)).tookFree else s.atCycle (s.now + 40)

theorem afterAccess_parts (s : State) (m : Master) : ∃ c f, s.afterAccess m = { s with clk := c, free := f } := by
  unfold State.afterAccess
  split
  · obtain ⟨c, e⟩ := atCycle_clk s (s.now + 42 + s.freeBelow 2)
    exact ⟨c, s.free + 1, by rw [e]; rfl⟩
  · obtain ⟨c, e⟩ := atCycle_clk s (s.now + 40)
    exact ⟨c, s.free, e⟩

/-- The registers stand while an access takes its time. -/
theorem afterAccess_reg (s : State) (m : Master) (a : Nat) : (s.afterAccess m).reg a = s.reg a := by
  obtain ⟨c, f, e⟩ := afterAccess_parts s m
  rw [e]
  rfl

/-- The time of an access moves the clocks and takes a free value, and changes nothing else. -/
theorem accessTime_parts (s : State) (m : Master) (t : Target) :
    ∃ c f, s.accessTime m t = { s with clk := c, free := f } := by
  have alwaysOn : ∃ c f, (if m = .mitten then s.atAc (s.clk.acnt + 8)
      else (s.atAc (s.clk.acnt + 9 + s.freeBelow 2)).tookFree) = { s with clk := c, free := f } := by
    split
    · obtain ⟨c, e⟩ := atAc_clk s (s.clk.acnt + 8)
      exact ⟨c, s.free, e⟩
    · obtain ⟨c, e⟩ := atAc_clk s (s.clk.acnt + 9 + s.freeBelow 2)
      exact ⟨c, s.free + 1, by rw [e]; rfl⟩
  unfold State.accessTime
  split
  · exact alwaysOn
  · exact alwaysOn
  · split
    · exact ⟨s.clk, s.free, rfl⟩
    · exact afterAccess_parts s m

/-- Outside Mitten and Gauntlet an access takes its core cycles while the core clock runs (R523). -/
theorem accessTime_inCoreDomain {s : State} {m : Master} {t : Target} (hq : s.quiet = false) (ht : t.inCoreDomain) :
    s.accessTime m t = s.afterAccess m := by
  unfold State.accessTime
  split
  case h_1 x e => exact absurd e (ht x).1
  case h_2 x e => exact absurd e (ht x).2
  case h_3 => rw [hq]; rfl

/-- Parity is checked in Gauntlet alone (R492). -/
theorem checkParity_of_not_gnt (s : State) {t : Target} (ht : ∀ x, t.block ≠ some (.gnt, x)) : s.checkParity t = s := by
  unfold State.checkParity
  split
  case h_1 n off e => exact absurd e (ht (n, off))
  case h_2 => rfl

/-- A master that cannot issue an access writes nothing (R518, R525). -/
theorem writeAccess_idle {s : State} {m : Master} (h : s.mayIssue m = false) (a z v : Nat) : s.writeAccess m a z v = s := by
  simp [State.writeAccess, h]

/-- A master that cannot issue an access reads nothing (R518, R525). -/
theorem readAccess_idle {s : State} {m : Master} (h : s.mayIssue m = false) (a z : Nat) : s.readAccess m a z = s := by
  simp [State.readAccess, h]

/-- A write that its master may issue, outside the quiet power states: it acts when its time has passed (R523). -/
theorem writeAccess_issued {s : State} {m : Master} (hi : s.mayIssue m = true) (hq : s.quiet = false) (a z v : Nat) :
    s.writeAccess m a z v =
      ((s.accessTime m (targetOf a)).checkParity (targetOf a)).writeSized m a z v := by
  simp [State.writeAccess, hi, hq]

theorem writeAccess_inCoreDomain {s : State} {m : Master} {a : Nat} (hi : s.mayIssue m = true) (hq : s.quiet = false)
    (ht : (targetOf a).inCoreDomain) (z v : Nat) : s.writeAccess m a z v = (s.afterAccess m).writeSized m a z v := by
  rw [writeAccess_issued hi hq, checkParity_of_not_gnt _ fun x => (ht x).2, accessTime_inCoreDomain hq ht]

/-! ### Sizes (R430, R531) -/

/-- An aligned 32-bit write is one word write. -/
theorem writeSized_word (s : State) (m : Master) {a : Nat} (ha : a % 4 = 0) (v : Nat) :
    s.writeSized m a 4 v = s.writeAt m a (v % 2 ^ 32) := by
  have hz : max 1 4 = 4 := rfl
  rw [State.writeSized, hz, if_neg (by omega), if_neg (by omega), if_neg (by omega)]

/-- A narrow or unaligned write is counted in the block addressed (R531). -/
theorem writeSized_misfit (s : State) {m : Master} {a z : Nat} (hm : m ≠ .remote) (hz : 0 < z) (h : z < 4 ∨ a % z ≠ 0)
    (v : Nat) : s.writeSized m a z v = s.violAt (targetOf a).block := by
  have h1 : max 1 z = z := by omega
  simp [State.writeSized, hm, h1, h]

/-- A narrow or unaligned remote write is refused (R430). -/
theorem writeSized_remote_misfit (s : State) {a z : Nat} (h : z < 4 ∨ a % 4 ≠ 0) (v : Nat) :
    s.writeSized .remote a z v = s.refuseRemote := by
  simp [State.writeSized, h]

/-! ### Blocks whose writes no unit follows at once -/

/-- The cipher, Brim, the partner ports, the Cuff, the Liner and the row units: what is written there is stored, and
nothing but the head of a Liner stage follows it at once. -/
def plainBlocks : List Block := [.cph, .cphA, .brm, .brmP, .cuf, .lnr, .row]

theorem plainBlocks_ne : ∀ b ∈ plainBlocks, b ≠ .aon ∧ b ≠ .gnt ∧ b ≠ .me ∧ b ≠ .seq := by decide

/-- Outside the Liner nothing follows a write of these blocks (R526). -/
theorem actOn_plain_of_ne_lnr {b : Block} (hb : b ∈ plainBlocks) (hl : b ≠ .lnr) (s : State) (m : Master) (n off v : Nat) :
    s.actOn m b n off v = s := by
  simp only [plainBlocks, List.mem_cons, List.not_mem_nil, or_false] at hb
  rcases hb with rfl | rfl | rfl | rfl | rfl | rfl | rfl <;> first | rfl | exact absurd rfl hl

theorem nat_putPair_ne (r : Tbl Word) {a k : Nat} (v : Nat) (h1 : k ≠ a) (h2 : k ≠ a + 4) :
    Regs.nat (Regs.putPair r a v) k = Regs.nat r k := by
  rw [Regs.putPair, Regs.nat_put_ne _ _ _ _ h2, Regs.nat_put_ne _ _ _ _ h1]

/-- Moving a stage's head changes its head and its highest head alone (R150). -/
theorem nat_setHead_ne (r : Tbl Word) (st v : Nat) {k : Nat} (h : k < Reg.lnrSHeadLo st ∨ Reg.lnrSHwmLo st + 8 ≤ k) :
    Regs.nat (setHead r st v) k = Regs.nat r k := by
  simp only [Reg.lnrSHeadLo, Reg.lnrSHwmLo] at h
  rw [setHead, nat_putPair_ne, nat_putPair_ne] <;> simp only [Reg.lnrSHeadLo, Reg.lnrSHwmLo] <;> omega

/-- The action of a write in one of these blocks changes registers alone, and not the one written. -/
theorem actOn_plain {b : Block} (hb : b ∈ plainBlocks) (s : State) (m : Master) (n off v : Nat) :
    ∃ g, s.actOn m b n off v = { s with regs := g } ∧ Regs.nat g (b.base n + off) = s.reg (b.base n + off) := by
  by_cases hl : b = .lnr
  · subst hl
    simp only [State.actOn]
    split
    · refine ⟨_, rfl, nat_setHead_ne _ _ _ (.inl ?_)⟩
      simp only [Block.base, Reg.lnrSHeadLo]
      omega
    · exact ⟨s.regs, rfl, rfl⟩
  · exact ⟨s.regs, actOn_plain_of_ne_lnr hb hl s m n off v, rfl⟩

/-- A word stored in one of these blocks, with the action that follows, stands in its register and changes registers
alone. -/
theorem storeWord_actOn_plain {b : Block} (hb : b ∈ plainBlocks) (s : State) (m : Master) (n off w x : Nat) :
    ∃ g, (s.storeWord b n off w).actOn m b n off x = { s with regs := g } ∧
      Regs.nat g (b.base n + off) = w % 2 ^ 32 := by
  obtain ⟨-, -, -, hseq⟩ := plainBlocks_ne b hb
  have hstore : s.storeWord b n off w = s.put (b.base n + off) w := by simp [State.storeWord, hseq]
  obtain ⟨g, e, hg⟩ := actOn_plain hb (s.put (b.base n + off) w) m n off x
  exact ⟨g, by rw [hstore, e]; rfl, by rw [hg, state_put_reg]⟩

/-! ### Direct writes (R526, R527, R533, R538) -/

/-- A write that no rule refuses leaves its fields in the register and changes registers alone. -/
theorem writeFields_plain {b : Block} (hb : b ∈ plainBlocks) (s : State) (m : Master) (n off : Nat) (r : RegRow) (v : Nat) :
    ∃ g, s.writeFields m b n off r v = { s with regs := g } ∧
      Regs.nat g (b.base n + off) = r.stored s.testPermit (s.reg (b.base n + off)) v % 2 ^ 32 := by
  obtain ⟨-, -, hme, -⟩ := plainBlocks_ne b hb
  have hsettle : s.settleFor b n off = s := by simp [State.settleFor, hme]
  simp only [State.writeFields, hsettle]
  split
  · exact storeWord_actOn_plain hb s m n off _ _
  · exact storeWord_actOn_plain hb (s.count (b.violAddr n)) m n off _ _

/-- A write at a register's own address by a master inside the part: its fields are written, or a rule of its chapter
refuses it and it is counted (R526, R538). -/
theorem writeWord_located {s : State} {m : Master} {b : Block} {n off a : Nat} {r : RegRow} (hl : locate a = some (b, n, off))
    (hr : b.regRow n off = some r) (hm : m ≠ .remote) (hp : s.poweredOff b n = false) (v : Nat) :
    s.writeWord m a v =
      if s.mayWrite m b n off v then s.writeFields m b n off r v else s.count (b.violAddr n) := by
  simp only [State.writeWord, hl, hr, hm, hp]
  cases s.mayWrite m b n off v <;> simp

/-! ### Writes through the aliases (R534, R535) -/

/-- A register's value after an aliased write: the RW bits as the operation leaves them, every other bit as it was
(R535). -/
def RegRow.aliased (r : RegRow) (o : AliasOp) (cur v : Nat) : Nat :=
  cur - (cur &&& r.mask .rw) + (o.apply cur v &&& r.mask .rw)

/-- An aliased write that no rule refuses, of a register with RW bits in one of these blocks, leaves its value in the
register. -/
theorem writeAlias_plain {s : State} {m : Master} {b : Block} {n off a : Nat} {r : RegRow} {o : AliasOp} {v : Nat}
    (hb : b ∈ plainBlocks) (hl : locate a = some (b, n, off)) (hr : b.regRow n off = some r) (hm : m ≠ .remote)
    (hp : s.poweredOff b n = false) (hrw : r.mask .rw ≠ 0)
    (hw : s.mayWrite m b n off (r.aliased o (s.reg a) v) = true) :
    (s.writeAlias m o a v).reg a = r.aliased o (s.reg a) v % 2 ^ 32 := by
  obtain ⟨haon, -, -, -⟩ := plainBlocks_ne b hb
  have hval : ∀ u : State, ((u.storeWord b n off (r.aliased o (s.reg a) v)).actOn m b n off
      (r.aliased o (s.reg a) v &&& r.mask .rw)).reg a = r.aliased o (s.reg a) v % 2 ^ 32 := by
    intro u
    obtain ⟨g, e, hg⟩ := storeWord_actOn_plain hb u m n off (r.aliased o (s.reg a) v) (r.aliased o (s.reg a) v &&& r.mask .rw)
    rw [base_add_of_locate hl] at hg
    rw [e]
    exact hg
  simp only [RegRow.aliased] at hw hval
  simp only [State.writeAlias, hm, hl, haon, hr, hp, hw, hrw, if_false, Bool.not_true, Bool.or_self, Bool.false_eq_true]
  exact hval _

/-! ### Mitten's bit aliases (R480) -/

/-- A register's value after one of its bits has been set or cleared through Mitten's bit aliases (R480). -/
def bitAliased (cur i : Nat) (on : Bool) : Nat := if on then cur ||| 2 ^ i else cur - (cur &&& 2 ^ i)

theorem bitAliased_lt {cur i : Nat} (hc : cur < 2 ^ 32) (hi : i < 32) (on : Bool) : bitAliased cur i on < 2 ^ 32 := by
  unfold bitAliased
  split
  · exact Nat.or_lt_two_pow hc (Nat.pow_lt_pow_right (by decide) hi)
  · exact Nat.lt_of_le_of_lt (Nat.sub_le _ _) hc

/-- The bits below the one written keep their values. -/
theorem bitAliased_mod {k i : Nat} (h : k ≤ i) (cur : Nat) (on : Bool) : bitAliased cur i on % 2 ^ k = cur % 2 ^ k := by
  have hone : 2 ^ i % 2 ^ k = 0 := Nat.mod_eq_zero_of_dvd (Nat.pow_dvd_pow 2 h)
  unfold bitAliased
  split
  · rw [Nat.or_mod_two_pow, hone, Nat.or_zero]
  · have hand : 2 ^ k ∣ cur &&& 2 ^ i :=
      Nat.dvd_of_mod_eq_zero (by rw [Nat.and_mod_two_pow, hone, Nat.and_zero])
    obtain ⟨q, hq⟩ := hand
    rw [hq]
    exact Nat.sub_mul_mod (hq ▸ Nat.and_le_left)

/-- Bit 0 of a word is its parity. -/
theorem bit_word_zero (v : Nat) : bit (v % 2 ^ 32) 0 = decide (v % 2 = 1) := by
  rw [bit, Nat.pow_zero, Nat.div_one, Nat.mod_mod_of_dvd _ (by decide)]
  rfl

/-- A write through the bit aliases writes an RW bit, where no rule refuses the value. -/
theorem writeBit_rw {s : State} {m : Master} {x v off i : Nat} {r : RegRow} (hm : m ≠ .remote) (hoff : 4 * (x / 128) = off)
    (hi : x % 128 / 4 = i) (hr : Block.aon.regRow 0 off = some r) (hbit : r.mask .rw &&& 2 ^ i ≠ 0)
    (hw : s.mayWrite m .aon 0 off (bitAliased (s.reg off) i (bit v 0)) = true) :
    s.writeBit m x v = s.put off (bitAliased (s.reg off) i (bit v 0)) := by
  unfold bitAliased at hw ⊢
  simp only [State.writeBit, hoff, hi, hm, hr, hbit, hw, if_false, if_true, ne_eq, not_false_eq_true]

/-- `AON_MARGIN` refuses a value of EPOCH_H of 0 alone (R478, R538). -/
theorem mayWrite_aonMargin (s : State) (m : Master) (n v : Nat) :
    s.mayWrite m .aon n Reg.aonMargin v = (v % 256 != 0) := rfl

/-- A write through the bit aliases of `AON_MARGIN`'s second RW byte writes its bit, while EPOCH_H is not 0. -/
theorem writeBit_aonMargin {s : State} {m : Master} {i v : Nat} (hm : m ≠ .remote) (hlo : 8 ≤ i) (hhi : i < 16)
    (hmar : s.fld Reg.aonMargin 0 8 ≠ 0) :
    (s.writeBit m (0x80 * 20 + 4 * i) v).reg Reg.aonMargin = bitAliased (s.reg Reg.aonMargin) i (bit v 0) := by
  have hoff : 4 * ((0x80 * 20 + 4 * i) / 128) = Reg.aonMargin := by simp only [Reg.aonMargin]; omega
  have hidx : (0x80 * 20 + 4 * i) % 128 / 4 = i := by omega
  obtain ⟨r, hr, hrw⟩ : ∃ r, Block.aon.regRow 0 Reg.aonMargin = some r ∧ r.mask .rw = 2 ^ 16 - 1 :=
    ⟨_, rfl, by decide⟩
  have hbit : r.mask .rw &&& 2 ^ i ≠ 0 := by
    rw [hrw, Nat.and_comm, Nat.and_two_pow_sub_one_eq_mod, Nat.mod_eq_of_lt (Nat.pow_lt_pow_right (by decide) hhi)]
    exact Nat.ne_of_gt (Nat.two_pow_pos i)
  have hlow : s.fld Reg.aonMargin 0 8 = s.reg Reg.aonMargin % 2 ^ 8 :=
    congrArg (· % 2 ^ 8) (Nat.div_one _)
  have hw : s.mayWrite m .aon 0 Reg.aonMargin (bitAliased (s.reg Reg.aonMargin) i (bit v 0)) = true := by
    rw [mayWrite_aonMargin, show (256 : Nat) = 2 ^ 8 from rfl, bitAliased_mod hlo, ← hlow]
    simpa using hmar
  rw [writeBit_rw hm hoff hidx hr hbit hw, state_put_reg,
    Nat.mod_eq_of_lt (bitAliased_lt (cur := s.reg _) (regs_nat_lt _ _) (by omega) _)]

/-! ### The commands of the window

A command whose access can be formed is that access by its master. -/

/-- A command whose effect leaves the state alone leaves it, well-formed or not. -/
theorem inWindow_idle {s : State} {i : Instr} {f : State → State} (h : f s = s) : s.inWindow i f = s := by
  unfold State.inWindow
  split
  · exact h
  · rfl

/-- An access of an existing master to the window, of a size it can have, can be formed (R520, R531). -/
theorem accessForm_of {m : Master} {a z : Nat} (hm : m.exists' = true) (ha : a < 0x1000000) (hz : z ∈ [1, 2, 4, 8]) :
    accessForm m a z = true := by
  simp only [List.mem_cons, List.not_mem_nil, or_false] at hz
  simp [accessForm, hm, ha, hz, or_assoc]

theorem exec_registerWrite {m : Master} {a z : Nat} (h : accessForm m a z = true) (v : BitVec 64) (s : State) :
    exec (.registerWrite m a z v) s = .next (s.writeAccess m a z v.toNat) := congrArg Host.Outcome.next (if_pos h)

theorem exec_setAliasWrite {m : Master} {a z : Nat} (h : accessForm m a z = true) (v : BitVec 64) (s : State) :
    exec (.setAliasWrite m a z v) s = .next (s.writeAccess m a z v.toNat) := congrArg Host.Outcome.next (if_pos h)

theorem exec_clearAliasWrite {m : Master} {a z : Nat} (h : accessForm m a z = true) (v : BitVec 64) (s : State) :
    exec (.clearAliasWrite m a z v) s = .next (s.writeAccess m a z v.toNat) := congrArg Host.Outcome.next (if_pos h)

theorem exec_toggleAliasWrite {m : Master} {a z : Nat} (h : accessForm m a z = true) (v : BitVec 64) (s : State) :
    exec (.toggleAliasWrite m a z v) s = .next (s.writeAccess m a z v.toNat) := congrArg Host.Outcome.next (if_pos h)

theorem exec_mittenBitAliasWrite {m : Master} {a z : Nat} (h : accessForm m a z = true) (v : BitVec 64) (s : State) :
    exec (.mittenBitAliasWrite m a z v) s = .next (s.writeAccess m a z v.toNat) :=
  congrArg Host.Outcome.next (if_pos h)

end Sys2Proof.Machine
end

section
/-! SUPPORT. Writes of the register window follow the access codes of their bits (R7, R480, R526, R527, R531, R535). -/

namespace Sys2Proof.Machine

/-- An access of a 32-bit word to register `r`, of number `n` of a block whose writes no unit follows at once, by a
master inside the part that may issue it while the part runs. -/
structure PlainAccess (s : State) (m : Master) (b : Block) (n off a : Nat) (r : RegRow) : Prop where
  plain : b ∈ plainBlocks
  located : locate a = some (b, n, off)
  aligned : a % 4 = 0
  row : b.regRow n off = some r
  inside : m ≠ .remote
  issued : s.mayIssue m = true
  notQuiet : s.quiet = false
  powered : s.poweredOff b n = false

section
variable {s : State} {m : Master} {b : Block} {n off a : Nat} {r : RegRow} {v : Nat}

/-- The block still has its power when the access acts. -/
theorem PlainAccess.powered_after (h : PlainAccess s m b n off a r) : (s.afterAccess m).poweredOff b n = false := by
  obtain ⟨c, f, e⟩ := afterAccess_parts s m
  rw [e]
  exact h.powered

/-- The access acts after its time, at whichever address leads to its block. -/
theorem PlainAccess.writeAccess {x : Nat} (h : PlainAccess s m b n off a r)
    (hx : (targetOf x).block = some (b, n, off)) (hal : x % 4 = 0) (hv : v < 2 ^ 32) :
    s.writeAccess m x 4 v = (s.afterAccess m).writeAt m x v := by
  obtain ⟨haon, hgnt, -, -⟩ := plainBlocks_ne b h.plain
  rw [writeAccess_inCoreDomain h.issued h.notQuiet (Target.inCoreDomain_of_block hx haon hgnt),
    writeSized_word _ _ hal, Nat.mod_eq_of_lt hv]

theorem PlainAccess.writeAccess_direct (h : PlainAccess s m b n off a r) (hv : v < 2 ^ 32) :
    s.writeAccess m a 4 v = (s.afterAccess m).writeWord m a v := by
  have ht := targetOf_direct (lt_of_locate h.located)
  rw [h.writeAccess (by rw [ht]; exact h.located) h.aligned hv, State.writeAt, ht]

/-- A direct write that no rule refuses stores what the access codes leave, and changes no memory. -/
theorem PlainAccess.direct_stores (h : PlainAccess s m b n off a r) (hv : v < 2 ^ 32)
    (hw : (s.afterAccess m).mayWrite m b n off v = true) :
    (s.writeAccess m a 4 v).reg a = r.stored s.testPermit (s.reg a) v % 2 ^ 32 ∧
      (s.writeAccess m a 4 v).hbm = s.hbm ∧ (s.writeAccess m a 4 v).tile = s.tile := by
  obtain ⟨g, e, hg⟩ := writeFields_plain h.plain (s.afterAccess m) m n off r v
  rw [base_add_of_locate h.located, afterAccess_reg] at hg
  rw [h.writeAccess_direct hv, writeWord_located h.located h.row h.inside h.powered_after, if_pos hw, e]
  obtain ⟨c, f, e'⟩ := afterAccess_parts s m
  rw [e'] at hg ⊢
  exact ⟨hg, rfl, rfl⟩

/-- A direct write that a rule of the chapter refuses is counted and changes nothing else. -/
theorem PlainAccess.direct_refused (h : PlainAccess s m b n off a r) (hv : v < 2 ^ 32)
    (hw : (s.afterAccess m).mayWrite m b n off v = false) :
    s.writeAccess m a 4 v = (s.afterAccess m).count (b.violAddr n) := by
  rw [h.writeAccess_direct hv, writeWord_located h.located h.row h.inside h.powered_after, if_neg (by simp [hw])]

/-- An aliased write that no rule refuses leaves the register's RW bits as the operation has them and its other bits as
they were. -/
theorem PlainAccess.alias_stores (h : PlainAccess s m b n off a r) {x : Nat} {o : AliasOp} (hx : targetOf x = .aliasOf o a)
    (hal : x % 4 = 0) (hlow : 0x10000 ≤ a) (hrw : r.mask .rw ≠ 0) (hv : v < 2 ^ 32)
    (hw : (s.afterAccess m).mayWrite m b n off (r.aliased o (s.reg a) v) = true) :
    (s.writeAccess m x 4 v).reg a = r.aliased o (s.reg a) v % 2 ^ 32 := by
  have hblock : (targetOf x).block = some (b, n, off) := by
    rw [hx, Target.block, if_neg (by omega)]
    exact h.located
  rw [← afterAccess_reg s m a] at hw ⊢
  rw [h.writeAccess hblock hal hv, State.writeAt, hx]
  exact writeAlias_plain h.plain h.located h.row h.inside h.powered_after hrw hw

end

/-- Any master inside the part that may issue it writes a bit of `AON_MARGIN`'s second RW byte through the bit aliases. -/
theorem writeAccess_aonMargin {s : State} {m : Master} {i : Nat} (hi : s.mayIssue m = true) (hq : s.quiet = false)
    (hm : m ≠ .remote) (hlo : 8 ≤ i) (hhi : i < 16) (hmar : s.fld Reg.aonMargin 0 8 ≠ 0) (v : Nat) :
    (s.writeAccess m (0xE00000 + 0x80 * 20 + 4 * i) 4 v).reg Reg.aonMargin =
      bitAliased (s.reg Reg.aonMargin) i (decide (v % 2 = 1)) := by
  have hx : targetOf (0xE00000 + 0x80 * 20 + 4 * i) = .bit (0x80 * 20 + 4 * i) := by
    rw [Nat.add_assoc]
    exact targetOf_bit (by omega)
  rw [← bit_word_zero, writeAccess_issued hi hq, checkParity_of_not_gnt, writeSized_word _ _ (by omega), State.writeAt, hx]
  · obtain ⟨c, f, e⟩ := accessTime_parts s m (.bit (0x80 * 20 + 4 * i))
    rw [e]
    exact writeBit_aonMargin hm hlo hhi hmar
  · intro x e
    rw [hx] at e
    cases e

end Sys2Proof.Machine

open Sys2Proof Sys2Proof.Machine

/-- Settles O58: it holds. A write that may be issued acts in the state after its time; there a direct write of a register
that no unit follows leaves what the access codes say, an aliased one the RW bits of its operation, a narrow or unaligned
one its count, and one through Mitten's bit aliases its bit. -/
theorem windowWritesFollowAccessCodes : Obligations.WindowWritesFollowAccessCodes := by
  unfold Obligations.WindowWritesFollowAccessCodes
  refine ⟨?direct, ?aliases, ?sizes⟩
  case direct =>
    intro m b n off a r v s hb hl ha hr hm hin hrun hp hi hpow hv
    have h : PlainAccess s m b n off a r := ⟨hb, hl, ha, hr, hin, hi, not_quiet_of_running hrun hp, hpow⟩
    have hlt := lt_of_locate hl
    rw [exec_registerWrite (accessForm_of hm (by omega) (by decide))]
    exact ⟨fun hw => ⟨_, rfl, h.direct_stores hv hw⟩, fun hw => congrArg _ (h.direct_refused hv hw)⟩
  case aliases =>
    intro m b n off a r v s hb hl ha hr hlow hrw hm hin hrun hp hi hpow hv
    have h : PlainAccess s m b n off a r := ⟨hb, hl, ha, hr, hin, hi, not_quiet_of_running hrun hp, hpow⟩
    have hlt := lt_of_locate hl
    refine ⟨fun hw => ⟨_, exec_setAliasWrite (accessForm_of hm (by omega) (by decide)) v s, ?_⟩,
      fun hw => ⟨_, exec_clearAliasWrite (accessForm_of hm (by omega) (by decide)) v s, ?_⟩,
      fun ha' hw => ⟨_, exec_toggleAliasWrite (accessForm_of hm (by omega) (by decide)) v s, ?_⟩⟩
    · exact h.alias_stores (targetOf_set hlt) (by omega) hlow hrw hv hw
    · exact h.alias_stores (targetOf_clear hlt) (by omega) hlow hrw hv hw
    · exact h.alias_stores (targetOf_toggle ha') (by omega) hlow hrw hv hw
  case sizes =>
    intro m a z v s hm ha hz
    have hform := accessForm_of hm ha hz
    refine ⟨fun hi => ?idle, fun hi hq ht => ⟨fun hin hz' => ?misfit, ?remote⟩, fun hi hq hin i hlo hhi hmar => ?bit⟩
    case idle =>
      have idle : ∀ {i : Instr} {f : State → State}, f s = s → (.next (s.inWindow i f) : Out) = .next s :=
        fun h => congrArg _ (inWindow_idle h)
      have hw := writeAccess_idle hi a z v.toNat
      have hr := readAccess_idle hi a
      exact ⟨idle hw, idle hw, idle hw, idle hw, idle hw, idle (hr z), fun w => ⟨idle (hr _), idle (hr _)⟩⟩
    case misfit =>
      have hpos : 0 < z := by
        rcases Nat.eq_zero_or_pos z with rfl | h
        · exact absurd hz (by decide)
        · exact h
      rw [exec_registerWrite hform, writeAccess_inCoreDomain hi hq ht, writeSized_misfit _ hin hpos hz']
      rfl
    case remote =>
      rintro rfl hz'
      rw [exec_registerWrite hform, writeAccess_inCoreDomain hi hq ht, writeSized_remote_misfit _ hz']
      rfl
    case bit =>
      refine ⟨_, exec_mittenBitAliasWrite (accessForm_of hm (by omega) (by decide)) v s, ?_⟩
      rw [writeAccess_aonMargin hi hq hin hlo hhi hmar]
      simp only [bitAliased, decide_eq_true_eq]
end

section
/-! SUPPORT. What leaves the tile stores and HBM as they are (`SameStores`), what leaves them in canonical form
(`State.storesWf`), and how folds carry either. -/

namespace Sys2Proof.Machine

/-- HBM and the tile stores of `t` are those of `s`. -/
abbrev SameStores (s t : State) : Prop := t.hbm = s.hbm ∧ t.tile = s.tile

theorem SameStores.storesWf {s t : State} (e : SameStores s t) (h : s.storesWf) : t.storesWf := by
  obtain ⟨hm, ht⟩ := e
  exact ⟨hm ▸ h.1, ht ▸ h.2⟩

theorem SameStores.trans {s t u : State} (h : SameStores s t) (g : SameStores t u) : SameStores s u :=
  ⟨g.1.trans h.1, g.2.trans h.2⟩

@[simp] theorem hbm_ite (c : Prop) [Decidable c] (s t : State) : (if c then s else t).hbm = if c then s.hbm else t.hbm :=
  apply_ite State.hbm c s t

@[simp] theorem tile_ite (c : Prop) [Decidable c] (s t : State) : (if c then s else t).tile = if c then s.tile else t.tile :=
  apply_ite State.tile c s t

@[simp] theorem Memory.wf_ite (c : Prop) [Decidable c] (m n : Memory) : (if c then m else n).wf = if c then m.wf else n.wf :=
  apply_ite Memory.wf c m n

@[simp] theorem Memory.wf_write_of_wf (m : Memory) (a : Nat) (bs : List Byte) (h : m.wf = true) : (m.write a bs).wf = true :=
  Memory.wf_write m a bs h

/-- Writes made one after another keep the canonical form. -/
theorem Memory.wf_foldl {α : Type} (g : Memory → α → Memory) (hg : ∀ m a, m.wf = true → (g m a).wf = true) (l : List α)
    {m : Memory} (h : m.wf = true) : (l.foldl g m).wf = true :=
  List.foldlRecOn l g h fun m h a _ => hg m a h

@[simp] theorem foldl_stores {α : Type} (g : State → α → State) (hg : ∀ s a, SameStores s (g s a)) (l : List α) (s : State) :
    SameStores s (l.foldl g s) :=
  List.foldlRecOn (motive := SameStores s) l g ⟨rfl, rfl⟩ fun t h a _ => h.trans (hg t a)

theorem foldl_fst_stores {α β : Type} (g : State × β → α → State × β) (hg : ∀ x a, SameStores x.1 (g x a).1) (l : List α)
    (x : State × β) : SameStores x.1 (l.foldl g x).1 :=
  List.foldlRecOn (motive := fun y => SameStores x.1 y.1) l g ⟨rfl, rfl⟩
    fun t h a _ => h.trans (hg t a)

@[simp] theorem foldl_storesWf {α : Type} (g : State → α → State) (hg : ∀ s a, s.storesWf → (g s a).storesWf) (l : List α)
    {s : State} (hs : s.storesWf) : (l.foldl g s).storesWf :=
  List.foldlRecOn l g hs fun s hs a _ => hg s a hs

theorem foldl_fst_storesWf {α β : Type} (g : State × β → α → State × β)
    (hg : ∀ x a, x.1.storesWf → (g x a).1.storesWf) (l : List α) {x : State × β} (hs : x.1.storesWf) :
    (l.foldl g x).1.storesWf :=
  List.foldlRecOn (motive := fun y => y.1.storesWf) l g hs fun y hy a _ => hg y a hy

end Sys2Proof.Machine
end

section
/-! SUPPORT. What the operations on the state, the fault capture, the engines, the row units, the Liner and the partitions'
ingresses do to the tile stores and HBM: most leave both as they are; row units, the Liner and the safe state write them. -/

namespace Sys2Proof.Machine

/-! ### Operations on the state -/

@[simp] theorem state_tick_stores (s : State) : SameStores s s.tick := by simp [SameStores, State.tick]

@[simp] theorem state_landedTiles_storesWf (s : State) (hs : s.storesWf) : s.landedTiles.storesWf :=
  ⟨hs.1, state_tileNow_wf s hs.2⟩

theorem state_setTile_storesWf {s : State} {m : Memory} (hs : s.storesWf) (hm : m.wf = true) : (s.setTile m).storesWf :=
  ⟨hs.1, hm⟩

/-! ### Events, faults and the safe state (R439, R481 to R491) -/

@[simp] theorem state_post_stores (s : State) (kind unit : Nat) (arg : List Byte) : SameStores s (s.post kind unit arg) := by
  simp [SameStores, State.post]

@[simp] theorem state_drainEvents_stores (n : Nat) (s : State) : SameStores s (s.drainEvents n) := by
  induction n generalizing s with
  | zero => exact ⟨rfl, rfl⟩
  | succ n ih =>
    unfold State.drainEvents
    repeat' split
    · exact ⟨rfl, rfl⟩
    · exact ih _
    · exact ⟨rfl, rfl⟩

@[simp] theorem state_pumpEvents_stores (s : State) : SameStores s s.pumpEvents := by simp [SameStores, State.pumpEvents]

@[simp] theorem state_eraseKeys_stores (s : State) : SameStores s s.eraseKeys := by simp [SameStores, State.eraseKeys]

theorem commitWrites_wf (m : Memory) (ws : List (Nat × Nat × List Byte)) (h : m.wf = true) : (commitWrites m ws).wf = true :=
  Memory.wf_foldl _ (fun m _ => Memory.wf_write m _ _) ws h

@[simp] theorem state_commitAccepted_storesWf (s : State) (hs : s.storesWf) : s.commitAccepted.storesWf :=
  ⟨commitWrites_wf _ _ hs.1, hs.2⟩

@[simp] theorem state_enterSafe_storesWf (s : State) (unit stage : Nat) (hs : s.storesWf) :
    (s.enterSafe unit stage).storesWf := by simp [State.storesWf, State.enterSafe, hs]

@[simp] theorem state_postFault_stores (s : State) (entry unit stage : Nat) :
    SameStores s (s.postFault entry unit stage) := by simp [SameStores, State.postFault]

@[simp] theorem state_placeRecord_stores (s : State) (r : FaultRec) : SameStores s (s.placeRecord r) := by
  simp [SameStores, State.placeRecord]

@[simp] theorem state_fault_storesWf (s : State) (unit cause access addr detail : Nat) (crossing : Bool) (hs : s.storesWf) :
    (s.fault unit cause access addr detail crossing).storesWf := by
  unfold State.fault
  repeat' split
  all_goals simp [State.storesWf, hs]

/-! ### Matrix engines (03_matrix_engines) -/

@[simp] theorem state_setEngine_stores (s : State) (n : Nat) (e : Engine) : SameStores s (s.setEngine n e) := ⟨rfl, rfl⟩

theorem state_toUnit_stores {s : State} {unit : Nat} {f : State → State} (hf : ∀ s, SameStores s (f s)) :
    SameStores s (s.toUnit unit f) := by
  unfold State.toUnit
  split
  · simp [SameStores]
  · exact hf s

theorem state_toUnit_storesWf {s : State} {unit : Nat} {f : State → State} (hs : s.storesWf) (hf : (f s).storesWf) :
    (s.toUnit unit f).storesWf := by
  unfold State.toUnit
  split
  · simp [State.storesWf, hs]
  · exact hf

@[simp] theorem prodEffect_stores (c : Cmd) (s : State) : SameStores s (prodEffect c s) :=
  state_toUnit_stores fun s => by simp [SameStores]

@[simp] theorem drainEffect_stores (c : Cmd) (step : Nat) (s : State) : SameStores s (drainEffect c step s) :=
  state_toUnit_stores fun s => by simp [SameStores]

@[simp] theorem engineUndefined_stores (c : Cmd) (s : State) : SameStores s (engineUndefined c s) :=
  state_toUnit_stores fun s => by simp [SameStores]

@[simp] theorem tileStartEffect_stores (n : Nat) (s : State) : SameStores s (tileStartEffect n s) := by
  unfold tileStartEffect
  dsimp only
  repeat' split
  all_goals simp [SameStores]

@[simp] theorem state_faultAt_storesWf (s : State) (c unit cause access addr detail : Nat) (hs : s.storesWf) :
    (s.faultAt c unit cause access addr detail).storesWf := by simp [State.storesWf, State.faultAt, hs]

@[simp] theorem state_parityFaults_storesWf (s : State) (n : Nat) (rows : List Nat) (hs : s.storesWf) :
    (s.parityFaults n rows).storesWf :=
  foldl_storesWf _ (fun s _ => state_fault_storesWf s _ _ _ _ _ _) rows hs

@[simp] theorem state_startContinuation_stores (s : State) (n : Nat) (r : ProdRun) (o : Operands) :
    SameStores s (s.startContinuation n r o) := ⟨rfl, rfl⟩

@[simp] theorem state_promoteFront_storesWf (s : State) (n : Nat) (r : ProdRun) (first : Nat) (o : Operands) (hs : s.storesWf) :
    (s.promoteFront n r first o).storesWf := by simp [State.storesWf, State.promoteFront, hs]

@[simp] theorem promotionEffect_storesWf (n : Nat) (s : State) (hs : s.storesWf) : (promotionEffect n s).storesWf := by
  unfold promotionEffect
  dsimp only
  repeat' split
  all_goals simp [State.storesWf, hs]

@[simp] theorem state_settleEngine_stores (s : State) (n : Nat) : SameStores s (s.settleEngine n) := ⟨rfl, rfl⟩

@[simp] theorem state_settleBank_stores (s : State) (bank t n : Nat) : SameStores s (s.settleBank bank t n) := ⟨rfl, rfl⟩

@[simp] theorem state_swapAndDrain_storesWf (s : State) (n : Nat) (dr : DrainRun) (hs : s.storesWf) :
    (s.swapAndDrain n dr).storesWf := by
  unfold State.swapAndDrain
  dsimp only
  split
  · simp [State.storesWf, hs]
  · split
    · exact foldl_storesWf _ (fun s _ => state_faultAt_storesWf s _ _ _ _ _ _) _ (by simp [State.storesWf, hs])
    · exact foldl_storesWf _ (fun s _ => state_faultAt_storesWf s _ _ _ _ _ _) _ (by simp [State.storesWf, hs])

@[simp] theorem swapEffect_storesWf (n : Nat) (s : State) (hs : s.storesWf) : (swapEffect n s).storesWf := by
  unfold swapEffect
  dsimp only
  repeat' split
  all_goals simp [State.storesWf, hs]

@[simp] theorem state_beatDone_stores (s : State) (n dest t : Nat) (beat : Nat × Nat × Nat) :
    SameStores s (s.beatDone n dest t beat) := by
  unfold State.beatDone
  dsimp only
  repeat' split
  all_goals simp [SameStores]

/-! ### Row units (04_backward_pass, R114 to R133) -/

theorem storeLines_wf (tile : Memory) (out : List LineOut) (h : tile.wf = true) : (storeLines tile out).wf = true :=
  Memory.wf_foldl _ (fun m _ => Memory.wf_write m _ _) _ h

@[simp] theorem RowRun.tile_ite (c : Prop) [Decidable c] (a b : RowRun) :
    (if c then a else b).tile = if c then a.tile else b.tile := apply_ite RowRun.tile c a b

@[simp] theorem rowInvalid_tile (s : State) (n : Nat) (resv : Bool) : (rowInvalid s n resv).tile = s.tile := rfl

@[simp] theorem rowEmpty_tile (s : State) (n : Nat) (resv : Bool) : (rowEmpty s n resv).tile = s.tile := rfl

@[simp] theorem runOutput_tile_wf (s : State) (n : Nat) (h : HeldCmd) (c : RowCmd) (o : Option RowDesc) (ctx : Context)
    (resv : Bool) (elem : Nat → Nat → Word × Nat) (ht : s.tile.wf = true) :
    (runOutput s n h c o ctx resv elem).tile.wf = true := storeLines_wf _ _ ht

@[simp] theorem runRedCols_tile_wf (s : State) (n : Nat) (h : HeldCmd) (c : RowCmd) (x y g o : Option RowDesc)
    (ctx : Context) (resv : Bool) (start : Nat) (ht : s.tile.wf = true) :
    (runRedCols s n h c x y g o ctx resv start).tile.wf = true := by
  simp [runRedCols, storeLines_wf, ht]

/-- A re-blocking stores its element lines and its code lines. -/
theorem runRblk_tile_wf (s : State) (n : Nat) (h : HeldCmd) (ht : s.tile.wf = true) : (runRblk s n h).tile.wf = true := by
  have two (a b : Nat → Nat) (x y : Nat → List Byte) (k l : List Nat) :
      (l.foldl (fun t j => t.write (b j) (y j)) (k.foldl (fun t i => t.write (a i) (x i)) s.tile)).wf = true :=
    Memory.wf_foldl _ (fun m _ => Memory.wf_write m _ _) _ (Memory.wf_foldl _ (fun m _ => Memory.wf_write m _ _) _ ht)
  simp only [runRblk, RowRun.tile_ite, Memory.wf_ite, rowInvalid_tile, rowEmpty_tile, two, ht, ite_self]

/-- What a row-unit command leaves in the tile stores is in canonical form. -/
theorem runRow_tile_wf (s : State) (n : Nat) (k : RowOp) (h : HeldCmd) (start : Nat) (ht : s.tile.wf = true) :
    (runRow s n k h start).tile.wf = true := by
  cases k with
  | red => simp [runRow, runRowred, runRedRows, ht]
  | ew => simp [runRow, runRowew, ht]
  | fn => simp [runRow, runRowfn, ht]
  | rblk => exact runRblk_tile_wf s n h ht
  | tblld => simp [runRow, runTblld, ht]
  | undef => exact ht

@[simp] theorem state_rowStart_storesWf (s : State) (n : Nat) (k : RowOp) (h : HeldCmd) (start : Nat) (hs : s.storesWf) :
    (s.rowStart n k h start).storesWf := by
  have ha : (s.atCycle start).storesWf := by simp [State.storesWf, hs]
  exact ⟨ha.1, runRow_tile_wf _ n k h start (state_landedTiles_storesWf _ ha).2⟩

@[simp] theorem rowIssue_storesWf (k : RowOp) (c : Cmd) (step : Nat) (s : State) (hs : s.storesWf) :
    (rowIssue k c step s).storesWf := by
  refine state_toUnit_storesWf hs ?_
  dsimp only
  split
  · exact state_rowStart_storesWf _ _ _ _ _ hs
  · exact hs

@[simp] theorem rowCommandStartEffect_storesWf (n : Nat) (s : State) (hs : s.storesWf) :
    (rowCommandStartEffect n s).storesWf := by
  unfold rowCommandStartEffect
  dsimp only
  repeat' split
  · exact hs
  · exact hs
  · exact state_rowStart_storesWf _ _ _ _ _ hs

/-! ### Cues (R243 to R245) -/

@[simp] theorem state_setCue_stores (s : State) (c v t : Nat) : SameStores s (s.setCue c v t) := ⟨rfl, rfl⟩

@[simp] theorem state_addCue_stores (s : State) (c n t : Nat) : SameStores s (s.addCue c n t) := ⟨rfl, rfl⟩

@[simp] theorem state_postCue_stores (s : State) (c n t : Nat) : SameStores s (s.postCue c n t) := by
  simp [SameStores, State.postCue]

/-! ### The Liner (04_backward_pass, R134 to R147) -/

/-- A Liner command leaves HBM and the tile stores in canonical form. -/
abbrev LnrRun.storesWf (r : LnrRun) : Prop := r.hbm.wf = true ∧ r.tile.wf = true

theorem LnrRun.ite_storesWf {c : Prop} [Decidable c] {a b : LnrRun} (ha : a.storesWf) (hb : b.storesWf) :
    (if c then a else b).storesWf := by
  split
  · exact ha
  · exact hb

theorem restoreLines_wf (hbm tile : Memory) (cl a base step lines len : Nat) (h : tile.wf = true) :
    (restoreLines hbm tile cl a base step lines len).wf = true :=
  Memory.wf_foldl _ (fun m _ => Memory.wf_write m _ _) _ h

theorem restoreEntry_wf (hbm tile : Memory) (cl : Nat) (x : RowDesc) (e : DirEntry) (h : tile.wf = true) :
    (restoreEntry hbm tile cl x e).wf = true := by
  unfold restoreEntry
  extract_lets len body t t'
  have ht' : t'.wf = true := restoreLines_wf _ _ _ _ _ _ _ _ (restoreLines_wf _ _ _ _ _ _ _ _ h)
  repeat' split
  · exact Memory.wf_foldl _ (fun m _ => Memory.wf_write m _ _) _ h
  · exact restoreLines_wf _ _ _ _ _ _ _ _ ht'
  · exact ht'

theorem stashDynamic_storesWf (s : State) (c : LnrCmd) (d : StashData) (regs : Tbl Word) (hs : s.storesWf) :
    (stashDynamic s c d regs).storesWf :=
  LnrRun.ite_storesWf hs (LnrRun.ite_storesWf hs (LnrRun.ite_storesWf hs ⟨Memory.wf_write _ _ _ hs.1, hs.2⟩))

theorem runStash_storesWf (s : State) (h : HeldCmd) (hs : s.storesWf) : (runStash s h).storesWf :=
  LnrRun.ite_storesWf hs <| LnrRun.ite_storesWf hs <|
    LnrRun.ite_storesWf ⟨Memory.wf_write _ _ _ hs.1, hs.2⟩ <|
      LnrRun.ite_storesWf ⟨Memory.wf_write _ _ _ hs.1, hs.2⟩ (stashDynamic_storesWf s _ _ _ hs)

theorem runUnstash_storesWf (s : State) (h : HeldCmd) (hs : s.storesWf) : (runUnstash s h).storesWf := by
  unfold runUnstash
  dsimp only
  generalize unstashEntry s _ = e
  cases e with
  | none => exact hs
  | some e => exact LnrRun.ite_storesWf hs (LnrRun.ite_storesWf hs ⟨hs.1, restoreEntry_wf _ _ _ _ _ hs.2⟩)

/-- What a Liner command leaves in HBM and in the tile stores is in canonical form. -/
theorem runLnr_storesWf (s : State) (k : LnrOp) (h : HeldCmd) (hs : s.storesWf) : (runLnr s k h).storesWf := by
  cases k with
  | stash => exact runStash_storesWf s h hs
  | unstash => exact runUnstash_storesWf s h hs
  | sreset => exact hs
  | undef => exact hs

@[simp] theorem state_lnrStart_storesWf (s : State) (cl : Nat) (k : LnrOp) (h : HeldCmd) (start : Nat) (hs : s.storesWf) :
    (s.lnrStart cl k h start).storesWf := by
  have ha : (s.atCycle start).storesWf := by simp [State.storesWf, hs]
  have hr := runLnr_storesWf _ k h (state_landedTiles_storesWf _ ha)
  unfold State.lnrStart
  dsimp only
  cases stashStage k h.cmd <;> exact hr

@[simp] theorem state_lnrWait_stores (s : State) (cl t lost : Nat) : SameStores s (s.lnrWait cl t lost) := by
  simp [SameStores, State.lnrWait]

@[simp] theorem lnrIssue_storesWf (k : LnrOp) (c : Cmd) (step : Nat) (s : State) (hs : s.storesWf) :
    (lnrIssue k c step s).storesWf := by
  unfold lnrIssue
  dsimp only
  split
  · exact state_lnrStart_storesWf _ _ _ _ _ hs
  · exact hs

@[simp] theorem linerCommandStartEffect_storesWf (cl : Nat) (s : State) (hs : s.storesWf) :
    (linerCommandStartEffect cl s).storesWf := by
  unfold linerCommandStartEffect
  dsimp only
  split
  · exact hs
  · exact state_lnrStart_storesWf _ _ _ _ _ hs

/-! ### Memory partitions (05_reduction_and_cuff, R152 to R168) -/

@[simp] theorem state_setPartition_stores (s : State) (p : Nat) (x : Partition) : SameStores s (s.setPartition p x) :=
  ⟨rfl, rfl⟩

@[simp] theorem state_setSlot_stores (s : State) (p k : Nat) (x : Slot) : SameStores s (s.setSlot p k x) := ⟨rfl, rfl⟩

@[simp] theorem state_setIngress_stores (s : State) (p i : Nat) (g : Ingress) : SameStores s (s.setIngress p i g) :=
  ⟨rfl, rfl⟩

@[simp] theorem state_beatAdded_stores (s : State) (p : Nat) (b : Beat) (t : Nat) : SameStores s (s.beatAdded p b t) := by
  simp [SameStores, State.beatAdded]

@[simp] theorem state_addBeat_stores (s : State) (p k : Nat) (r : RankBeat) (inTurn : Bool) (t : Nat) :
    SameStores s (s.addBeat p k r inTurn t) := by simp [SameStores, State.addBeat]

/-- A beat that its slot takes leaves the stores as they are. -/
theorem state_handBeat_stores {s t : State} {p k : Nat} {b : Beat} (h : s.handBeat p k b = .done t) : SameStores s t := by
  unfold State.handBeat at h
  dsimp only at h
  repeat' split at h
  all_goals cases h
  all_goals simp [SameStores]

@[simp] theorem state_takeBeats_stores (n : Nat) (s : State) (p k : Nat) : SameStores s (s.takeBeats n p k) := by
  induction n generalizing s with
  | zero => exact ⟨rfl, rfl⟩
  | succ n ih =>
    unfold State.takeBeats
    dsimp only
    split
    · exact ⟨rfl, rfl⟩
    · split
      case h_1 => simp [SameStores]
      case h_2 h =>
        have ht := state_handBeat_stores h
        simp [SameStores, ih, ht]

@[simp] theorem state_releaseSeam_stores (s : State) (p : Nat) : SameStores s (s.releaseSeam p) := by
  unfold State.releaseSeam
  split <;> simp [SameStores]

@[simp] theorem state_leaveIngress_stores (s : State) (p i : Nat) : SameStores s (s.leaveIngress p i) := by
  simp [SameStores, State.leaveIngress]

@[simp] theorem state_waitIngress_stores (s : State) (p i : Nat) (window : Bool) (slot : Nat) :
    SameStores s (s.waitIngress p i window slot) := by
  unfold State.waitIngress
  dsimp only
  repeat' split
  all_goals simp [SameStores]

@[simp] theorem state_routeFirst_stores (s : State) (p i : Nat) (b : Beat) : SameStores s (s.routeFirst p i b) := by
  unfold State.routeFirst
  dsimp only
  split
  · simp [SameStores]
  · simp [SameStores]
  · split
    · simp [SameStores]
    · split
      case h_1 h =>
        have ht := state_handBeat_stores h
        simpa [SameStores] using ht
      case h_2 => simp [SameStores]

@[simp] theorem beatArrivalEffect_stores (p i : Nat) (s : State) : SameStores s (beatArrivalEffect p i s) := by
  unfold beatArrivalEffect
  dsimp only
  repeat' split
  all_goals simp [SameStores]

@[simp] theorem windowEntryEffect_stores (p i : Nat) (s : State) : SameStores s (windowEntryEffect p i s) := by
  unfold windowEntryEffect
  dsimp only
  repeat' split
  all_goals simp [SameStores]

@[simp] theorem ingressStallLimitEffect_storesWf (p i : Nat) (s : State) (hs : s.storesWf) :
    (ingressStallLimitEffect p i s).storesWf := by
  unfold ingressStallLimitEffect
  dsimp only
  repeat' split
  all_goals simp [State.storesWf, hs]

@[simp] theorem state_addWaiting_stores (n : Nat) (s : State) (p k q : Nat) : SameStores s (s.addWaiting n p k q) := by
  induction n generalizing s with
  | zero => exact ⟨rfl, rfl⟩
  | succ n ih =>
    unfold State.addWaiting
    dsimp only
    repeat' split
    · exact ⟨rfl, rfl⟩
    · exact ⟨rfl, rfl⟩
    · simp [SameStores, ih]

@[simp] theorem beatAddEffect_stores (p k q : Nat) (s : State) : SameStores s (beatAddEffect p k q s) := by
  unfold beatAddEffect
  dsimp only
  repeat' split
  all_goals simp [SameStores]

@[simp] theorem slotOpenEffect_stores (p k : Nat) (s : State) : SameStores s (slotOpenEffect p k s) := by
  unfold slotOpenEffect
  dsimp only
  repeat' split
  all_goals simp [SameStores]

end Sys2Proof.Machine
end

section
/-! SUPPORT. What the slow tier, Seam, the sequencer, the service cores, the host port's requests and Visor do to the tile
stores and HBM. -/

namespace Sys2Proof.Machine

/-! ### The slow tier (06_slow_tier) -/

@[simp] theorem state_putLine_storesWf (s : State) (l : Nat) (c : CacheLine) (hs : s.storesWf) : (s.putLine l c).storesWf :=
  ⟨Memory.wf_write _ _ _ hs.1, hs.2⟩

@[simp] theorem state_startProgram_stores (s : State) (num line : Nat) (body : List Byte) (above : Option Nat) :
    SameStores s (s.startProgram num line body above) := ⟨rfl, rfl⟩

@[simp] theorem state_writeBack_stores (s : State) (l num : Nat) : SameStores s (s.writeBack l num) := ⟨rfl, rfl⟩

@[simp] theorem state_startFetch_stores (s : State) (num l : Nat) (reader : Option (Nat × Nat)) :
    SameStores s (s.startFetch num l reader) := ⟨rfl, rfl⟩

@[simp] theorem state_assignLine_storesWf (s : State) (l num st : Nat) (hs : s.storesWf) :
    (s.assignLine l num st).storesWf := by simp [State.storesWf, State.assignLine, hs]

@[simp] theorem state_unreadable_storesWf (s : State) (num : Nat) (hs : s.storesWf) : (s.unreadable num).storesWf := by
  simp [State.storesWf, State.unreadable, hs]

@[simp] theorem state_readThrough_stores (s : State) (num core l since : Nat) :
    SameStores s (s.readThrough num core l since) := ⟨rfl, rfl⟩

@[simp] theorem state_startReads_stores (s : State) : SameStores s s.startReads :=
  foldl_stores _ (fun s r => by split <;> simp [SameStores]) _ s

theorem planSlice_storesWf (st : Nat) (acc : State × List (Nat × Nat × Bool)) (x : Nat × Nat) (hs : acc.1.storesWf) :
    (planSlice st acc x).1.storesWf := by
  unfold planSlice
  dsimp only
  repeat' split
  all_goals simp [State.storesWf, hs]

@[simp] theorem state_planList_storesWf (s : State) (st : Nat) (hs : s.storesWf) : (s.planList st).storesWf := by
  have hp (l : List (Nat × Nat)) : (l.foldl (planSlice st) (s, [])).1.storesWf :=
    foldl_fst_storesWf _ (planSlice_storesWf st) l hs
  unfold State.planList
  dsimp only
  repeat' split
  all_goals simp [State.storesWf, hs, hp]

@[simp] theorem state_fetchSlice_storesWf (s : State) (st num : Nat) (hs : s.storesWf) : (s.fetchSlice st num).storesWf := by
  unfold State.fetchSlice
  repeat' split
  all_goals simp [State.storesWf, hs]

@[simp] theorem state_retryFetches_storesWf (s : State) (hs : s.storesWf) : s.retryFetches.storesWf :=
  foldl_storesWf _ (fun s e hs => by simp [State.storesWf, hs]) _ hs

@[simp] theorem state_deliverCopy_stores (s : State) (core num : Nat) (copy : List Byte) :
    SameStores s (s.deliverCopy core num copy) := ⟨rfl, rfl⟩

@[simp] theorem state_forwardRead_stores (core st : Nat) (s : State) (num : Nat) :
    SameStores s (State.forwardRead core st s num) := by
  unfold State.forwardRead
  repeat' split
  all_goals simp [SameStores]

@[simp] theorem state_routineReads_stores (s : State) (core entry arg st : Nat) :
    SameStores s (s.routineReads core entry arg st) := by simp [SameStores, State.routineReads]

@[simp] theorem state_missCopy_stores (s : State) (st num mask : Nat) (sums : Nat → List Word) (factor : Nat → Word) :
    SameStores s (s.missCopy st num mask sums factor) := ⟨rfl, rfl⟩

@[simp] theorem state_fold_stores (s : State) (st num mask : Nat) (sums : Nat → List Word) (factor : Nat → Word) (gs : Word) :
    SameStores s (s.fold st num mask sums factor gs) := ⟨rfl, rfl⟩

@[simp] theorem state_sltReleased_stores (s : State) (num st : Nat) (updated : Bool) :
    SameStores s (s.sltReleased num st updated) := ⟨rfl, rfl⟩

@[simp] theorem state_sltWritten_storesWf (s : State) (num st : Nat) (hs : s.storesWf) : (s.sltWritten num st).storesWf := by
  unfold State.sltWritten
  repeat' split
  all_goals simp [State.storesWf, hs]

/-! ### Seam (09_seam_links) -/

@[simp] theorem state_setLink_stores (s : State) (n : Nat) (l : SLink) : SameStores s (s.setLink n l) := ⟨rfl, rfl⟩

@[simp] theorem state_putLinkState_stores (s : State) (n v : Nat) : SameStores s (s.putLinkState n v) := ⟨rfl, rfl⟩

@[simp] theorem state_write48_storesWf (s : State) (a : Nat) (bs : List Byte) (hs : s.storesWf) : (s.write48 a bs).storesWf := by
  unfold State.write48
  split
  · exact state_setTile_storesWf hs (Memory.wf_write _ _ _ (state_tileNow_wf s hs.2))
  · exact ⟨Memory.wf_write _ _ _ hs.1, hs.2⟩

@[simp] theorem state_latchTables_stores (s : State) : SameStores s s.latchTables := ⟨rfl, rfl⟩

@[simp] theorem state_sendFrames_stores (s : State) (n prio vc dest readyAt : Nat) (cmd : Bool) (ty : Nat) (payloads : List (List Byte)) :
    SameStores s (s.sendFrames n prio vc dest readyAt cmd ty payloads) := ⟨rfl, rfl⟩

@[simp] theorem state_sendSmall_stores (s : State) (n dest : Nat) (cmd : Bool) (m : SeamMsg) :
    SameStores s (s.sendSmall n dest cmd m) := ⟨rfl, rfl⟩

@[simp] theorem state_sendCtrl_stores (s : State) (dest : Nat) (data : List Byte) : SameStores s (s.sendCtrl dest data) := by
  simp [SameStores, State.sendCtrl]

@[simp] theorem state_sendCtrlAll_stores (s : State) (devs : List Nat) (data : List Byte) :
    SameStores s (s.sendCtrlAll devs data) := by simp [SameStores, State.sendCtrlAll]

@[simp] theorem state_shortCommand_stores (s : State) (n : Nat) : SameStores s (s.shortCommand n) := ⟨rfl, rfl⟩

@[simp] theorem seamIssue_stores (op : SeamOp) (c : Cmd) (s : State) : SameStores s (seamIssue op c s) :=
  state_toUnit_stores fun s => by
    dsimp only
    repeat' split
    all_goals simp [SameStores]

@[simp] theorem state_sendSequenced_stores (s : State) (n t w : Nat) (f : EFrame) :
    SameStores s (s.sendSequenced n t w f) := by
  unfold State.sendSequenced
  repeat' split
  all_goals simp [SameStores]

@[simp] theorem egressSlotEffect_stores (n : Nat) (s : State) : SameStores s (egressSlotEffect n s) := by
  unfold egressSlotEffect
  dsimp only
  repeat' split
  all_goals simp [SameStores]

@[simp] theorem state_linkDown_storesWf (s : State) (n : Nat) (hs : s.storesWf) : (s.linkDown n).storesWf := by
  simp [State.storesWf, State.linkDown, hs]

@[simp] theorem state_startReplay_storesWf (s : State) (n e counter : Nat) (hs : s.storesWf) :
    (s.startReplay n e counter).storesWf := by simp [State.storesWf, State.startReplay, hs]

@[simp] theorem nakEffect_storesWf (n seq : Nat) (s : State) (hs : s.storesWf) : (nakEffect n seq s).storesWf := by
  simp [State.storesWf, nakEffect, hs]

@[simp] theorem retryTimeoutEffect_storesWf (n : Nat) (s : State) (hs : s.storesWf) : (retryTimeoutEffect n s).storesWf := by
  unfold retryTimeoutEffect
  dsimp only
  repeat' split
  all_goals simp [State.storesWf, hs]

@[simp] theorem state_acknowledge_stores (s : State) (n ackl : Nat) : SameStores s (s.acknowledge n ackl) := by
  unfold State.acknowledge
  dsimp only
  repeat' split
  all_goals simp [SameStores]

@[simp] theorem state_nakOnce_stores (s : State) (n : Nat) : SameStores s (s.nakOnce n) := by
  simp [SameStores, State.nakOnce]

@[simp] theorem state_freeRx_stores (s : State) (n vc : Nat) : SameStores s (s.freeRx n vc) := ⟨rfl, rfl⟩

@[simp] theorem state_forward_stores (s : State) (n : Nat) (links : List Nat) (f : SFrame) (key : Nat) (last multicast : Bool) :
    SameStores s (s.forward n links f key last multicast) := by simp [SameStores, State.forward]

@[simp] theorem state_crossBeat_stores (s : State) (link : Option Nat) (b : Beat) : SameStores s (s.crossBeat link b) := by
  unfold State.crossBeat
  split <;> simp [SameStores]

@[simp] theorem state_beginMessage_stores (s : State) (n : Nat) (f : SFrame) : SameStores s (s.beginMessage n f) := by
  simp [SameStores, State.beginMessage]

@[simp] theorem state_dataFrame_stores (s : State) (n : Nat) (f : SFrame) : SameStores s (s.dataFrame n f) := by
  unfold State.dataFrame
  dsimp only
  repeat' split
  all_goals simp [SameStores]

@[simp] theorem state_endMessage_stores (s : State) (n vc : Nat) : SameStores s (s.endMessage n vc) := by
  unfold State.endMessage
  dsimp only
  repeat' split
  all_goals simp [SameStores]

@[simp] theorem state_acceptFrame_stores (s : State) (n : Nat) (f : SFrame) : SameStores s (s.acceptFrame n f) := by
  simp [SameStores, State.acceptFrame]

@[simp] theorem state_elastic_stores (s : State) (n : Nat) : SameStores s (s.elastic n) := by
  simp [SameStores, State.elastic]

@[simp] theorem frameReceiveEffect_stores (n : Nat) (header : BitVec 80) (payload : List Byte) (uncorrectable corrected : Nat) (s : State) :
    SameStores s (frameReceiveEffect n header payload uncorrectable corrected s) := by simp [SameStores, frameReceiveEffect]

@[simp] theorem state_takeInbox_stores (s : State) (m : SeamMsg) : SameStores s (s.takeInbox m).1 := by
  unfold State.takeInbox
  split <;> simp [SameStores]

theorem state_deliver_storesWf {s : State} {a : Nat} {m : SeamMsg} {done : State → Nat → State} (hs : s.storesWf)
    (hd : ∀ s t, SameStores s (done s t)) : (s.deliver a m done).storesWf := by
  unfold State.deliver
  dsimp only
  split
  · simp [State.storesWf, hs]
  · refine (hd _ _).storesWf (state_write48_storesWf _ _ _ ?_)
    split <;> simp [State.storesWf, hs]

@[simp] theorem qdataMessageEffect_storesWf (m : SeamMsg) (s : State) (hs : s.storesWf) : (qdataMessageEffect m s).storesWf :=
  state_deliver_storesWf hs fun s _ => by simp [SameStores]

@[simp] theorem qcredMessageEffect_stores (m : SeamMsg) (s : State) : SameStores s (qcredMessageEffect m s) := by
  simp [SameStores, qcredMessageEffect]

@[simp] theorem cueMessageEffect_stores (m : SeamMsg) (s : State) : SameStores s (cueMessageEffect m s) := by
  simp [SameStores, cueMessageEffect]

@[simp] theorem writeMessageEffect_storesWf (m : SeamMsg) (s : State) (hs : s.storesWf) : (writeMessageEffect m s).storesWf :=
  state_deliver_storesWf hs fun s t => by simp [SameStores]

@[simp] theorem mcastMessageEffect_storesWf (link : Nat) (m : SeamMsg) (s : State) (hs : s.storesWf) :
    (mcastMessageEffect link m s).storesWf := by
  unfold mcastMessageEffect
  dsimp only
  split
  · refine state_deliver_storesWf ?_ fun s t => by simp [SameStores]
    simp [State.storesWf, hs]
  · simp [State.storesWf, hs]

@[simp] theorem ctrlMessageEffect_stores (m : SeamMsg) (s : State) : SameStores s (ctrlMessageEffect m s) := by
  simp [SameStores, ctrlMessageEffect]

@[simp] theorem atomicBurstEffect_stores (link : Nat) (beats : List Beat) (s : State) :
    SameStores s (atomicBurstEffect link beats s) := by simp [SameStores, atomicBurstEffect]

@[simp] theorem burstCloseEffect_stores (n : Nat) (s : State) : SameStores s (burstCloseEffect n s) := by
  unfold burstCloseEffect
  dsimp only
  repeat' split
  all_goals simp [SameStores]

@[simp] theorem discoveryIdentityEffect_storesWf (n dev plink : Nat) (s : State) (hs : s.storesWf) :
    (discoveryIdentityEffect n dev plink s).storesWf := by simp [State.storesWf, discoveryIdentityEffect, hs]

@[simp] theorem latencyProbeEffect_storesWf (n oneWay : Nat) (s : State) (hs : s.storesWf) :
    (latencyProbeEffect n oneWay s).storesWf := by simp [State.storesWf, latencyProbeEffect, hs]

@[simp] theorem state_resetElastic_stores (s : State) (n : Nat) : SameStores s (s.resetElastic n) := ⟨rfl, rfl⟩

@[simp] theorem laneFailEffect_storesWf (n lane : Nat) (s : State) (hs : s.storesWf) :
    (laneFailEffect n lane s).storesWf := by simp [State.storesWf, laneFailEffect, hs]

@[simp] theorem laneChangeEffect_storesWf (n pair : Nat) (s : State) (hs : s.storesWf) :
    (laneChangeEffect n pair s).storesWf := by simp [State.storesWf, laneChangeEffect, hs]

@[simp] theorem retrainCompleteEffect_storesWf (n : Nat) (ok : Bool) (oneWay : Nat) (s : State) (hs : s.storesWf) :
    (retrainCompleteEffect n ok oneWay s).storesWf := by simp [State.storesWf, retrainCompleteEffect, hs]

/-! ### The cluster ports (R96) -/

@[simp] theorem state_putUnitBeats_stores (s : State) (u : Nat) (b : List OutBeat) : SameStores s (s.putUnitBeats u b) := by
  simp [SameStores, State.putUnitBeats]

@[simp] theorem state_sendBeat_stores (s : State) (c u t : Nat) (b : OutBeat) : SameStores s (s.sendBeat c u t b) := by
  unfold State.sendBeat
  dsimp only
  repeat' split
  all_goals simp [SameStores]

@[simp] theorem state_givePlace_stores (s : State) (c u t : Nat) : SameStores s (s.givePlace c u t) := by
  unfold State.givePlace
  split <;> simp [SameStores]

@[simp] theorem slotBeatSendEffect_stores (c : Nat) (s : State) : SameStores s (slotBeatSendEffect c s) := by
  unfold slotBeatSendEffect
  dsimp only
  repeat' split
  all_goals simp [SameStores]

/-! ### The sequencer (07_clockwork) -/

@[simp] theorem state_setStream_stores (s : State) (n : Nat) (x : Stream) : SameStores s (s.setStream n x) := ⟨rfl, rfl⟩

@[simp] theorem state_loseEngine_stores (s : State) (n : Nat) : SameStores s (s.loseEngine n) := ⟨rfl, rfl⟩

@[simp] theorem state_loseRow_stores (s : State) (n : Nat) : SameStores s (s.loseRow n) := ⟨rfl, rfl⟩

@[simp] theorem state_loseState_stores (s : State) (k level : Nat) : SameStores s (s.loseState k level) := by
  simp [SameStores, State.loseState]

@[simp] theorem state_setGate_stores (s : State) (k : Nat) (g : Gate) : SameStores s (s.setGate k g) := ⟨rfl, rfl⟩

@[simp] theorem state_dropGate_stores (s : State) (k : Nat) : SameStores s (s.dropGate k) := ⟨rfl, rfl⟩

@[simp] theorem unitGateEffect_stores (k : Nat) (s : State) : SameStores s (unitGateEffect k s) := by
  unfold unitGateEffect
  split <;> simp [SameStores]

@[simp] theorem wakeStartEffect_stores (k : Nat) (s : State) : SameStores s (wakeStartEffect k s) := by
  unfold wakeStartEffect
  repeat' split
  all_goals simp [SameStores]

@[simp] theorem wakeCompleteEffect_stores (k : Nat) (s : State) : SameStores s (wakeCompleteEffect k s) := by
  unfold wakeCompleteEffect
  repeat' split
  all_goals simp [SameStores]

@[simp] theorem state_callUnit_stores (s : State) (u : Nat) : SameStores s (s.callUnit u) := by
  unfold State.callUnit
  dsimp only
  repeat' split
  all_goals simp [SameStores]

@[simp] theorem state_seqResv_stores (s : State) (c : Cmd) : SameStores s (s.seqResv c) := ⟨rfl, rfl⟩

@[simp] theorem nopEffect_stores (c : Cmd) (s : State) : SameStores s (nopEffect c s) := ⟨rfl, rfl⟩

@[simp] theorem advanceEffect_stores (n : Nat) (c : Cmd) (s : State) : SameStores s (advanceEffect n c s) := by
  simp [SameStores, advanceEffect]

@[simp] theorem slackEffect_stores (n : Nat) (c : Cmd) (s : State) : SameStores s (slackEffect n c s) := by
  simp [SameStores, slackEffect]

@[simp] theorem waitcueEffect_stores (n : Nat) (c : Cmd) (s : State) : SameStores s (waitcueEffect n c s) := by
  simp [SameStores, waitcueEffect]

@[simp] theorem postcueEffect_stores (c : Cmd) (s : State) : SameStores s (postcueEffect c s) := by
  simp [SameStores, postcueEffect]

@[simp] theorem state_sleep_stores (s : State) (k level : Nat) (wake : Option Nat) :
    SameStores s (s.sleep k level wake) := by
  unfold State.sleep
  split <;> simp [SameStores]

@[simp] theorem sleepEffect_stores (c : Cmd) (s : State) : SameStores s (sleepEffect c s) := by
  simp [SameStores, sleepEffect]

@[simp] theorem qboundEffect_stores (n : Nat) (c : Cmd) (s : State) : SameStores s (qboundEffect n c s) := by
  simp [SameStores, qboundEffect]

@[simp] theorem qwaitEffect_stores (n : Nat) (c : Cmd) (s : State) : SameStores s (qwaitEffect n c s) := by
  simp [SameStores, qwaitEffect]

@[simp] theorem qfreeEffect_stores (c : Cmd) (s : State) : SameStores s (qfreeEffect c s) := by
  simp [SameStores, qfreeEffect]

@[simp] theorem bgslotEffect_stores (n : Nat) (c : Cmd) (s : State) : SameStores s (bgslotEffect n c s) := by
  simp [SameStores, bgslotEffect]

@[simp] theorem bgslotCloseEffect_stores (s : State) : SameStores s (bgslotCloseEffect s) := by
  unfold bgslotCloseEffect
  split <;> simp [SameStores]

@[simp] theorem expandEffect_stores (n : Nat) (c : Cmd) (s : State) : SameStores s (expandEffect n c s) := by
  simp [SameStores, expandEffect]

@[simp] theorem stependEffect_stores (n : Nat) (c : Cmd) (s : State) : SameStores s (stependEffect n c s) := by
  simp [SameStores, stependEffect]

@[simp] theorem startEffect_stores (c : Cmd) (step : Nat) (s : State) : SameStores s (startEffect c step s) :=
  state_toUnit_stores fun s => by simp [SameStores]

@[simp] theorem seqCommand_stores (n : Nat) (c : Cmd) (s : State) : SameStores s (seqCommand n c s) := by
  simp [SameStores, seqCommand]

@[simp] theorem deliverCommand_storesWf (n : Nat) (c : Cmd) (step : Nat) (s : State) (hs : s.storesWf) :
    (deliverCommand n c step s).storesWf := by
  unfold deliverCommand
  split <;> simp [State.storesWf, hs]

@[simp] theorem state_setExpand_stores (s : State) (n : Nat) (e : Option Expansion) : SameStores s (s.setExpand n e) :=
  ⟨rfl, rfl⟩

@[simp] theorem state_countRecomp_stores (s : State) (step stage b : Nat) : SameStores s (s.countRecomp step stage b) := by
  simp [SameStores, State.countRecomp]

@[simp] theorem state_turnBack_stores (s : State) (n : Nat) (e : Expansion) (b : Nat) : SameStores s (s.turnBack n e b) := by
  simp [SameStores, State.turnBack]

@[simp] theorem expandNext_stores (fuel n : Nat) (s : State) : SameStores s (expandNext fuel n s).1 := by
  induction fuel generalizing s with
  | zero => exact ⟨rfl, rfl⟩
  | succ fuel ih =>
    unfold expandNext
    dsimp only
    repeat' split
    all_goals simp [SameStores, ih]

@[simp] theorem state_expandIssued_stores (s : State) (n : Nat) (c : Cmd) : SameStores s (s.expandIssued n c) := by
  unfold State.expandIssued
  split <;> simp [SameStores]

@[simp] theorem state_nextItem_stores (s : State) (n : Nat) : SameStores s (s.nextItem n).1 := by
  unfold State.nextItem
  dsimp only
  repeat' split
  all_goals simp [SameStores]

@[simp] theorem state_growLag_storesWf (s : State) (n d : Nat) (hs : s.storesWf) : (s.growLag n d).storesWf := by
  simp [State.storesWf, State.growLag, hs]

@[simp] theorem state_stretch_stores (s : State) (n head : Nat) : SameStores s (s.stretch n head) := by
  simp [SameStores, State.stretch]

@[simp] theorem state_lateEvent_stores (s : State) (c : Cmd) (code : Nat) : SameStores s (s.lateEvent c code) := by
  unfold State.lateEvent
  split <;> simp [SameStores]

@[simp] theorem state_issue_storesWf (s : State) (n : Nat) (c : Cmd) (inserted : Bool) (due off : Nat) (hs : s.storesWf) :
    (s.issue n c inserted due off).storesWf := by simp [State.storesWf, State.issue, hs]

@[simp] theorem commandIssueEffect_storesWf (n : Nat) (s : State) (hs : s.storesWf) : (commandIssueEffect n s).storesWf := by
  unfold commandIssueEffect
  dsimp only
  repeat' split
  all_goals simp [State.storesWf, hs]

/-! ### The service cores (R265 to R267) -/

@[simp] theorem state_setCore_stores (s : State) (k : Nat) (c : Core) : SameStores s (s.setCore k c) := ⟨rfl, rfl⟩

theorem zcRun_stores {k : Nat} {insn : Word} {f3 : Nat} {f : ZcInsn → State → State} {s : State}
    (hf : ∀ i, SameStores s (f i s)) : SameStores s (zcRun k insn f3 f s) := by
  unfold zcRun
  dsimp only
  repeat' split
  case isFalse.isFalse.isTrue => exact hf _
  all_goals simp [SameStores]

@[simp] theorem zcIssueEffect_storesWf (k : Nat) (insn : Word) (s : State) (hs : s.storesWf) :
    (zcIssueEffect k insn s).storesWf := by
  unfold zcIssueEffect zcRun
  dsimp only
  repeat' split
  all_goals simp [State.storesWf, hs]

@[simp] theorem zcWaitEffect_stores (k : Nat) (insn : Word) (s : State) : SameStores s (zcWaitEffect k insn s) :=
  zcRun_stores fun i => by simp [SameStores]

@[simp] theorem zcTimeEffect_stores (k : Nat) (insn : Word) (s : State) : SameStores s (zcTimeEffect k insn s) :=
  zcRun_stores fun i => by simp [SameStores]

@[simp] theorem zcCueEffect_stores (k : Nat) (insn : Word) (s : State) : SameStores s (zcCueEffect k insn s) :=
  zcRun_stores fun i => by simp [SameStores]

@[simp] theorem zcCuewaitEffect_stores (k : Nat) (insn : Word) (s : State) : SameStores s (zcCuewaitEffect k insn s) :=
  zcRun_stores fun i => by simp [SameStores]

@[simp] theorem zcBeatEffect_stores (k : Nat) (insn : Word) (s : State) : SameStores s (zcBeatEffect k insn s) :=
  zcRun_stores fun i => by simp [SameStores]

@[simp] theorem zcDoneEffect_stores (k : Nat) (insn : Word) (s : State) : SameStores s (zcDoneEffect k insn s) :=
  zcRun_stores fun i => by simp [SameStores]

@[simp] theorem zcWaitResumeEffect_stores (k : Nat) (s : State) : SameStores s (zcWaitResumeEffect k s) := by
  unfold zcWaitResumeEffect
  dsimp only
  repeat' split
  all_goals simp [SameStores]

/-! ### The device's own requests over the host ports (13_host_ports_and_images) -/

@[simp] theorem state_setQp_stores (s : State) (q : Nat) (x : QueuePair) : SameStores s (s.setQp q x) := ⟨rfl, rfl⟩

@[simp] theorem state_roceRead_stores (s : State) (w : RoceWhat) (a n : Nat) : SameStores s (s.roceRead w a n) := by
  unfold State.roceRead
  dsimp only
  refine SameStores.trans (t := s.countN Reg.hptEvcTrkwait (b2n (s.trackerFull 65536 s.trackerHost))) (by simp [SameStores])
    (foldl_stores _ (fun s i => ?_) _ _)
  split <;> simp [SameStores]

@[simp] theorem state_dropReads_stores (s : State) : SameStores s s.dropReads := ⟨rfl, rfl⟩

@[simp] theorem state_readImage'_stores (s : State) : SameStores s s.readImage' := by simp [SameStores, State.readImage']

@[simp] theorem state_nextImage_stores (s : State) (replace : Bool) : SameStores s (s.nextImage replace) := by
  simp [SameStores, State.nextImage]

/-! ### Visor (R498 to R507) -/

@[simp] theorem state_stage_stores (s : State) (tail : List Byte) : SameStores s (s.stage tail) := by
  simp [SameStores, State.stage]

@[simp] theorem state_goEntry_stores (s : State) (tail : List Byte) : SameStores s (s.goEntry tail) := by
  simp [SameStores, State.goEntry]

@[simp] theorem state_flushLog_storesWf (s : State) (hs : s.storesWf) : s.flushLog.storesWf := by
  refine (foldl_stores State.stage state_stage_stores _ _).storesWf ⟨?_, hs.2⟩
  exact List.foldlRecOn (motive := fun x : Memory × Tbl Word => x.1.wf = true) _ _ hs.1
    fun x hx e _ => Memory.wf_write _ _ _ hx

@[simp] theorem state_makeRoom_storesWf (s : State) (hs : s.storesWf) : s.makeRoom.storesWf := by
  unfold State.makeRoom
  split
  · exact hs
  · exact foldl_storesWf _ (fun s _ => state_flushLog_storesWf s) _ hs

@[simp] theorem state_logDecision_storesWf (s : State) (kind : Nat) (body : List Byte) (hs : s.storesWf) :
    (s.logDecision kind body).storesWf := by simp [State.storesWf, State.logDecision, hs]

@[simp] theorem telemetryPeriodEffect_stores (s : State) : SameStores s (telemetryPeriodEffect s) := by
  simp [SameStores, telemetryPeriodEffect]

@[simp] theorem state_collect_storesWf (s : State) (e : Nat) (h : HistEntry) (hs : s.storesWf) : (s.collect e h).storesWf := by
  unfold State.collect
  extract_lets s' a sum sat m c m' late
  have hs' : s'.storesWf := (foldl_stores _ (fun s _ => state_settleBank_stores s _ _ _) _ s).storesWf hs
  clear_value s'
  have hm : m.wf = true := Memory.wf_foldl _ (fun m _ => Memory.wf_write m _ _) _ hs'.1
  have hm' : m'.wf = true := Memory.wf_write _ _ _ hm
  exact ⟨hm', hs'.2⟩

@[simp] theorem state_collectAll_storesWf (s : State) (hs : s.storesWf) : s.collectAll.storesWf :=
  foldl_storesWf _ (fun s e hs => by dsimp only; split <;> simp [State.storesWf, hs]) _ hs

@[simp] theorem state_noisePair_storesWf (s : State) (n : Nat) (hs : s.storesWf) : (s.noisePair n).storesWf := by
  simp [State.storesWf, State.noisePair, hs]

@[simp] theorem state_noteNoise_storesWf (s : State) (dev n : Nat) (sd qd : Word) (full : Bool) (hs : s.storesWf) :
    (s.noteNoise dev n sd qd full).storesWf := by simp [State.storesWf, State.noteNoise, hs]

@[simp] theorem noiseMessageEffect_storesWf (dev n : Nat) (sd qd : Word) (full : Bool) (s : State) (hs : s.storesWf) :
    (noiseMessageEffect dev n sd qd full s).storesWf := by simp [State.storesWf, noiseMessageEffect, hs]

@[simp] theorem state_stepNoise_storesWf (s : State) (n : Nat) (hs : s.storesWf) : (s.stepNoise n).storesWf := by
  simp [State.storesWf, State.stepNoise, hs]

end Sys2Proof.Machine
end

section
/-! SUPPORT. What outer sync, the partner ports, the Cuff, the slice census and the end of a step do to the tile stores and
HBM. -/

namespace Sys2Proof.Machine

/-! ### Outer sync (10_outer_sync) -/

@[simp] theorem state_setShard_stores (s : State) (x : Nat) (v : Shard) : SameStores s (s.setShard x v) := ⟨rfl, rfl⟩

@[simp] theorem state_setPport_stores (s : State) (p : Nat) (v : PPort) : SameStores s (s.setPport p v) := ⟨rfl, rfl⟩

@[simp] theorem state_showUnacked_stores (s : State) (p : Nat) : SameStores s (s.showUnacked p) := ⟨rfl, rfl⟩

@[simp] theorem state_queueC_stores (s : State) (p : Nat) (bytes : List Byte) : SameStores s (s.queueC p bytes) := by
  simp [SameStores, State.queueC]

@[simp] theorem state_queueD_stores (s : State) (p : Nat) (bytes : List Byte) (background : Bool) :
    SameStores s (s.queueD p bytes background) := ⟨rfl, rfl⟩

@[simp] theorem state_sendOut_stores (s : State) (site : Nat) (m : Outgoing) : SameStores s (s.sendOut site m) := by
  unfold State.sendOut
  repeat' split
  all_goals simp [SameStores]

@[simp] theorem state_sendSites_stores (s : State) (sites : List Nat) (m : Outgoing) :
    SameStores s (s.sendSites sites m) := by simp [SameStores, State.sendSites]

@[simp] theorem state_handOver_stores (s : State) (e : SliceEntry) (g : Group) (step : Nat) (r : Rec) :
    SameStores s (s.handOver e g step r).1 := by
  unfold State.handOver
  repeat' split
  all_goals simp [SameStores]

@[simp] theorem roundSendEffect_stores (x : Nat) (s : State) : SameStores s (roundSendEffect x s) := by
  simp [SameStores, roundSendEffect]

@[simp] theorem state_touched_stores (s : State) (x : Nat) : SameStores s (s.touched x) := ⟨rfl, rfl⟩

@[simp] theorem state_takeC_stores (s : State) (m : ClassC) : SameStores s (s.takeC m) := by
  unfold State.takeC
  split <;> simp [SameStores]

theorem state_hear_stores {s : State} {m : ClassC} {f : State → State} (hf : ∀ s, SameStores s (f s)) :
    SameStores s (s.hear m f) := by
  unfold State.hear
  dsimp only
  repeat' split
  · simp [SameStores]
  · simp [SameStores]
  · simp [SameStores, hf]

theorem state_hear_storesWf {s : State} {m : ClassC} {f : State → State} (hs : s.storesWf)
    (hf : ∀ s, s.storesWf → (f s).storesWf) : (s.hear m f).storesWf := by
  unfold State.hear
  dsimp only
  repeat' split
  · simp [State.storesWf, hs]
  · simp [State.storesWf, hs]
  · exact hf _ (by simp [State.storesWf, hs])

@[simp] theorem state_relayC_stores (s : State) (m : ClassC) : SameStores s (s.relayC m) := ⟨rfl, rfl⟩

@[simp] theorem state_settleWait_stores (s : State) (x : Nat) : SameStores s (s.settleWait x) := by
  simp [SameStores, State.settleWait]

@[simp] theorem state_sendJoin_stores (s : State) (x : Nat) : SameStores s (s.sendJoin x) := by
  simp [SameStores, State.sendJoin]

@[simp] theorem state_noteRound_stores (s : State) (x : Nat) (m : ClassC) : SameStores s (s.noteRound x m) := by
  simp [SameStores, State.noteRound]

@[simp] theorem roundEffect_stores (m : ClassC) (s : State) : SameStores s (roundEffect m s) :=
  state_hear_stores fun s => by simp [SameStores]

@[simp] theorem state_retain_stores (s : State) (x : Nat) : SameStores s (s.retain x) := ⟨rfl, rfl⟩

@[simp] theorem state_askMissing_stores (s : State) (x : Nat) (m : ClassC) : SameStores s (s.askMissing x m) :=
  foldl_stores _ (fun s p => by dsimp only; repeat' split; all_goals simp [SameStores]) _ s

@[simp] theorem state_sendFetch_stores (s : State) (x i n : Nat) : SameStores s (s.sendFetch x i n) := by
  unfold State.sendFetch
  dsimp only
  repeat' split
  all_goals simp [SameStores]

@[simp] theorem state_ownWeight_stores (s : State) (x : Nat) (m : ClassC) : SameStores s (s.ownWeight x m) := by
  simp [SameStores, State.ownWeight]

@[simp] theorem state_acceptCommit_storesWf (s : State) (x : Nat) (m : ClassC) (hs : s.storesWf) :
    (s.acceptCommit x m).storesWf := by simp [State.storesWf, State.acceptCommit, hs]

@[simp] theorem commitEffect_storesWf (m : ClassC) (s : State) (hs : s.storesWf) : (commitEffect m s).storesWf :=
  state_hear_storesWf hs fun s hs => by
    dsimp only
    split
    · simp [State.storesWf, hs]
    · exact foldl_storesWf _ (fun s x hs => by split <;> simp [State.storesWf, hs]) _ hs

@[simp] theorem state_tryCommit_storesWf (s : State) (x : Nat) (hs : s.storesWf) : (s.tryCommit x).storesWf := by
  simp [State.storesWf, State.tryCommit, hs]

@[simp] theorem leaderCommitEffect_storesWf (x : Nat) (s : State) (hs : s.storesWf) : (leaderCommitEffect x s).storesWf := by
  simp [State.storesWf, leaderCommitEffect, hs]

@[simp] theorem commitDeadlineEffect_storesWf (x : Nat) (s : State) (hs : s.storesWf) :
    (commitDeadlineEffect x s).storesWf := by
  unfold commitDeadlineEffect
  split <;> simp [State.storesWf, hs]

@[simp] theorem siteSilentEffect_stores (site : Nat) (s : State) : SameStores s (siteSilentEffect site s) := by
  simp [SameStores, siteSilentEffect]

@[simp] theorem memberRemovalEffect_stores (x site : Nat) (s : State) : SameStores s (memberRemovalEffect x site s) := by
  simp [SameStores, memberRemovalEffect]

@[simp] theorem joinEffect_stores (m : ClassC) (s : State) : SameStores s (joinEffect m s) :=
  state_hear_stores fun s => by simp [SameStores]

@[simp] theorem state_storeRecord_storesWf (s : State) (e : MapEntry) (body : List Byte) (hs : s.storesWf) :
    (s.storeRecord e body).storesWf := by
  unfold State.storeRecord
  repeat' split
  all_goals simp [State.storesWf, hs]

@[simp] theorem fetchEffect_stores (m : ClassC) (s : State) : SameStores s (fetchEffect m s) :=
  state_hear_stores fun s => by simp [SameStores]

@[simp] theorem state_serveWaiting_stores (s : State) : SameStores s s.serveWaiting := by
  simp [SameStores, State.serveWaiting]

@[simp] theorem state_markCatchup_stores (s : State) (x : Nat) (is : List (Nat × Bool)) :
    SameStores s (s.markCatchup x is) := by simp [SameStores, State.markCatchup]

@[simp] theorem state_renewDigest_stores (s : State) (e : MapEntry) (omuZero : Bool) :
    SameStores s (s.renewDigest e omuZero) := ⟨rfl, rfl⟩

theorem state_install_storesWf (s : State) (x i : Nat) (e : MapEntry) (around : Nat) (anchor mom : List Nat) (census : Bool)
    (hs : s.storesWf) : (s.install x i e around anchor mom census).storesWf := by
  unfold State.install
  extract_lets
  simp only [State.storesWf, state_putFld_frame, state_renewDigest_stores]
  exact state_storeRecord_storesWf _ _ _ hs

@[simp] theorem state_takeServed_storesWf (s : State) (x i around : Nat) (digest : List Byte) (anchor mom : List Nat)
    (hs : s.storesWf) : (s.takeServed x i around digest anchor mom).storesWf := by
  unfold State.takeServed
  dsimp only
  split
  · exact hs
  · split
    · exact hs
    · split
      · exact state_install_storesWf _ _ _ _ _ _ _ _ hs
      · simp [State.storesWf, hs]

@[simp] theorem state_takeSlices_storesWf (n : Nat) (s : State) (x : Nat) (bs : List Byte) (hs : s.storesWf) :
    (s.takeSlices n x bs).storesWf := by
  induction n generalizing s bs with
  | zero => exact hs
  | succ n ih => exact ih _ _ (state_takeServed_storesWf _ _ _ _ _ _ _ hs)

@[simp] theorem state_takeD_stores (s : State) (p : Nat) (o : DObject) : SameStores s (s.takeD p o) := ⟨rfl, rfl⟩

@[simp] theorem anchorObjectEffect_storesWf (p : Nat) (o : DObject) (s : State) (hs : s.storesWf) :
    (anchorObjectEffect p o s).storesWf := by simp [State.storesWf, anchorObjectEffect, hs]

@[simp] theorem state_noteHeld_stores (s : State) : SameStores s s.noteHeld := by simp [SameStores, State.noteHeld]

@[simp] theorem deltaObjectEffect_stores (p : Nat) (o : DObject) (s : State) : SameStores s (deltaObjectEffect p o s) := by
  simp [SameStores, deltaObjectEffect]

@[simp] theorem state_adopt_stores (s : State) (src x : Nat) (l : List MapEntry) : SameStores s (s.adopt src x l) :=
  ⟨rfl, rfl⟩

@[simp] theorem state_adoptLost_stores (s : State) (x : Nat) : SameStores s (s.adoptLost x) := ⟨rfl, rfl⟩

@[simp] theorem state_dropShards_stores (s : State) : SameStores s s.dropShards := ⟨rfl, rfl⟩

@[simp] theorem state_announceMoved_stores (s : State) (x : Nat) : SameStores s (s.announceMoved x) := by
  simp [SameStores, State.announceMoved]

@[simp] theorem state_reportRefused_stores (s : State) (tensor first r : Nat) :
    SameStores s (s.reportRefused tensor first r) := by
  unfold State.reportRefused
  split <;> simp [SameStores]

@[simp] theorem state_applyPoint_storesWf (s : State) (x : Nat) (hs : s.storesWf) : (s.applyPoint x).storesWf := by
  have hf (l : List Nat) (g : State → Nat → State) (hg : ∀ s i, s.storesWf → (g s i).storesWf) : (l.foldl g s).storesWf :=
    foldl_storesWf g hg l hs
  unfold State.applyPoint
  dsimp only
  split
  · exact hs
  · split
    · exact hs
    · simp only [State.storesWf, state_putFld_frame, state_retain_stores, state_setShard_stores]
      refine hf _ _ fun s i hs => ?_
      repeat' split
      all_goals simp [State.storesWf, hs]

@[simp] theorem state_endCut_storesWf (s : State) (step : Nat) (hs : s.storesWf) : (s.endCut step).storesWf := by
  simp [State.storesWf, State.endCut, hs]

@[simp] theorem state_startCut_stores (s : State) (n : Nat) : SameStores s (s.startCut n) := by
  simp [SameStores, State.startCut]

@[simp] theorem state_roundApplied_stores (s : State) : SameStores s s.roundApplied := by
  simp [SameStores, State.roundApplied]

@[simp] theorem state_brimBoundary_storesWf (s : State) (n : Nat) (hs : s.storesWf) : (s.brimBoundary n).storesWf := by
  have ha (s : State) (hs : s.storesWf) : (s.ownedShards.foldl State.applyPoint s.noteHeld).storesWf :=
    foldl_storesWf _ state_applyPoint_storesWf _ (by simp [State.storesWf, hs])
  unfold State.brimBoundary
  dsimp only
  repeat' split
  · exact hs
  · simp [State.storesWf, ha, hs]
  · simp [State.storesWf, ha, hs]

@[simp] theorem state_brimFirst_stores (s : State) : SameStores s s.brimFirst := by simp [SameStores, State.brimFirst]

@[simp] theorem state_brimResume_stores (s : State) : SameStores s s.brimResume := ⟨rfl, rfl⟩

@[simp] theorem state_brimStart_stores (s : State) : SameStores s s.brimStart := by simp [SameStores, State.brimStart]

/-! ### Partner ports (11_partner_ports) -/

@[simp] theorem state_setAssoc_stores (s : State) (a : Nat) (x : Assoc) : SameStores s (s.setAssoc a x) := ⟨rfl, rfl⟩

@[simp] theorem state_emitControl_stores (s : State) (h : Nat) (c : Control) : SameStores s (s.emitControl h c) := by
  simp [SameStores, State.emitControl]

@[simp] theorem state_sendControl_stores (s : State) (h kind : Nat) (body : List Byte) :
    SameStores s (s.sendControl h kind body) := by simp [SameStores, State.sendControl]

@[simp] theorem state_sendKeyMessage_stores (s : State) (a kind : Nat) (body : List Byte) :
    SameStores s (s.sendKeyMessage a kind body) := by simp [SameStores, State.sendKeyMessage]

@[simp] theorem state_startHandshake_stores (s : State) (a : Nat) : SameStores s (s.startHandshake a) := by
  simp [SameStores, State.startHandshake]

@[simp] theorem state_moveKey_stores (s : State) (a seq : Nat) : SameStores s (s.moveKey a seq) := by
  simp [SameStores, State.moveKey]

@[simp] theorem state_countRecord_stores (s : State) (a len : Nat) : SameStores s (s.countRecord a len) := by
  simp [SameStores, State.countRecord]

@[simp] theorem state_atNs_stores (s : State) (t : Nat) : SameStores s (s.atNs t) := by simp [SameStores, State.atNs]

@[simp] theorem state_showRoute_stores (s : State) (p q : Nat) : SameStores s (s.showRoute p q) := ⟨rfl, rfl⟩

@[simp] theorem state_windowDue_stores (s : State) (p obj win : Nat) : SameStores s (s.windowDue p obj win) := by
  unfold State.windowDue
  dsimp only
  repeat' split
  all_goals simp [SameStores]

@[simp] theorem state_dueWindows_stores (s : State) (p q : Nat) (f : DWindow → Bool) :
    SameStores s (s.dueWindows p q f) := by simp [SameStores, State.dueWindows]

@[simp] theorem state_accepted_stores (s : State) (p : Nat) (k : Packet) : SameStores s (s.accepted p k) := by
  simp [SameStores, State.accepted]

@[simp] theorem state_noteGeneration_stores (s : State) (a g : Nat) : SameStores s (s.noteGeneration a g) := by
  simp [SameStores, State.noteGeneration]

theorem state_receive_stores {s : State} {p : Nat} {k : Packet} {f : State → List Byte → State}
    (hf : ∀ s b, SameStores s (f s b)) : SameStores s (s.receive p k f) := by
  unfold State.receive
  dsimp only
  split
  · exact ⟨rfl, rfl⟩
  · split
    · simp [SameStores]
    · split
      · exact ⟨rfl, rfl⟩
      · simp [SameStores, hf]

theorem state_receive_storesWf {s : State} {p : Nat} {k : Packet} {f : State → List Byte → State} (hs : s.storesWf)
    (hf : ∀ s b, s.storesWf → (f s b).storesWf) : (s.receive p k f).storesWf := by
  unfold State.receive
  dsimp only
  split
  · exact hs
  · split
    · simp [State.storesWf, hs]
    · split
      · exact hs
      · exact hf _ _ (by simp [State.storesWf, hs])

@[simp] theorem state_showUp_stores (s : State) (p q v : Nat) : SameStores s (s.showUp p q v) := ⟨rfl, rfl⟩

@[simp] theorem probeEffect_stores (p : Nat) (k : Packet) (s : State) : SameStores s (probeEffect p k s) :=
  state_receive_stores fun s _ => by simp [SameStores]

@[simp] theorem routeDownEffect_stores (p q : Nat) (s : State) : SameStores s (routeDownEffect p q s) := by
  simp [SameStores, routeDownEffect]

@[simp] theorem state_atTimer_stores (s : State) (last : Option Nat) (us : Nat) : SameStores s (s.atTimer last us) := by
  unfold State.atTimer
  split <;> simp [SameStores]

@[simp] theorem probeTimerEffect_stores (p : Nat) (s : State) : SameStores s (probeTimerEffect p s) := by
  simp [SameStores, probeTimerEffect]

@[simp] theorem feedbackTimerEffect_stores (p : Nat) (s : State) : SameStores s (feedbackTimerEffect p s) := by
  simp [SameStores, feedbackTimerEffect]

@[simp] theorem state_takeFragment_stores (s : State) (p : Nat) (k : Packet) (plain : List Byte) :
    SameStores s (s.takeFragment p k plain) := by simp [SameStores, State.takeFragment]

@[simp] theorem classCFragmentEffect_stores (p : Nat) (k : Packet) (s : State) :
    SameStores s (classCFragmentEffect p k s) := by
  unfold classCFragmentEffect
  dsimp only
  repeat' split
  all_goals simp [SameStores]

@[simp] theorem classCReleaseEffect_stores (p mid : Nat) (s : State) : SameStores s (classCReleaseEffect p mid s) := by
  unfold classCReleaseEffect
  dsimp only
  repeat' split
  all_goals simp [SameStores]

@[simp] theorem classCResendEffect_stores (p mid : Nat) (s : State) : SameStores s (classCResendEffect p mid s) := by
  unfold classCResendEffect
  dsimp only
  repeat' split
  all_goals simp [SameStores]

@[simp] theorem state_windowComplete_stores (s : State) (p obj win : Nat) (data : List Byte) :
    SameStores s (s.windowComplete p obj win data) := by
  unfold State.windowComplete
  dsimp only
  repeat' split
  all_goals simp [SameStores]

@[simp] theorem state_takeFrame_stores (s : State) (p : Nat) (k : Packet) (plain : List Byte) :
    SameStores s (s.takeFrame p k plain) := by simp [SameStores, State.takeFrame]

@[simp] theorem classDFrameEffect_stores (p : Nat) (k : Packet) (s : State) : SameStores s (classDFrameEffect p k s) :=
  state_receive_stores fun s b => by simp [SameStores]

@[simp] theorem state_adapt_storesWf (s : State) (p : Nat) (newR : Bool) (hs : s.storesWf) : (s.adapt p newR).storesWf := by
  simp [State.storesWf, State.adapt, hs]

@[simp] theorem state_takeRouteReport_storesWf (s : State) (p q : Nat) (t : Nat × Nat × Nat × Nat × Bool × Nat) (hs : s.storesWf) :
    (s.takeRouteReport p q t).storesWf := by simp [State.storesWf, State.takeRouteReport, hs]

@[simp] theorem state_takeResend_stores (s : State) (p : Nat) (e : Nat × Nat × Nat) : SameStores s (s.takeResend p e) := by
  simp [SameStores, State.takeResend]

@[simp] theorem state_takeOreq_stores (s : State) (p : Nat) (e : Nat × Nat × Nat × Nat) : SameStores s (s.takeOreq p e) := by
  unfold State.takeOreq
  dsimp only
  repeat' split
  all_goals simp [SameStores]

@[simp] theorem state_takeAcks_stores (s : State) (p cack cmap : Nat) : SameStores s (s.takeAcks p cack cmap) := by
  simp [SameStores, State.takeAcks]

@[simp] theorem feedbackReportEffect_storesWf (p : Nat) (k : Packet) (f : Feedback) (s : State) (hs : s.storesWf) :
    (feedbackReportEffect p k f s).storesWf := by
  refine state_receive_storesWf hs fun s _ hs => ?_
  extract_lets s1 s2 s3
  have h1 : s1.storesWf := (state_takeAcks_stores s _ _ _).storesWf hs
  have h2 : s2.storesWf := foldl_storesWf _ (fun s t => state_takeRouteReport_storesWf s p _ _) _ h1
  have h3 : s3.storesWf := (foldl_stores _ (fun s e => state_takeResend_stores s p e) _ s2).storesWf h2
  exact (foldl_stores _ (fun s e => state_takeOreq_stores s p e) _ s3).storesWf h3

@[simp] theorem state_solicit_stores (s : State) (p : Nat) : SameStores s (s.solicit p) := by
  simp [SameStores, State.solicit]

@[simp] theorem state_afterShaper_stores (s : State) (p cost : Nat) : SameStores s (s.afterShaper p cost) := by
  simp [SameStores, State.afterShaper]

@[simp] theorem state_transmit_stores (s : State) (p : Nat) (n : PPort × Next) : SameStores s (s.transmit p n) := by
  simp [SameStores, State.transmit]

@[simp] theorem state_beforePacket_storesWf (s : State) (p : Nat) (hs : s.storesWf) : (s.beforePacket p).storesWf := by
  simp [State.storesWf, State.beforePacket, hs]

@[simp] theorem packetTransmitEffect_storesWf (p : Nat) (s : State) (hs : s.storesWf) :
    (packetTransmitEffect p s).storesWf := by
  unfold packetTransmitEffect
  dsimp only
  repeat' split
  all_goals simp [State.storesWf, hs]

@[simp] theorem neighborSolicitationEffect_stores (p : Nat) (target : BitVec 128) (s : State) :
    SameStores s (neighborSolicitationEffect p target s) := by simp [SameStores, neighborSolicitationEffect]

@[simp] theorem echoRequestEffect_stores (p : Nat) (source : BitVec 128) (data : List Byte) (s : State) :
    SameStores s (echoRequestEffect p source data s) := by simp [SameStores, echoRequestEffect]

@[simp] theorem neighborAdvertisementEffect_stores (p : Nat) (target : BitVec 128) (mac : BitVec 48) (s : State) :
    SameStores s (neighborAdvertisementEffect p target mac s) := by simp [SameStores, neighborAdvertisementEffect]

@[simp] theorem macPauseEffect_stores (p : Nat) (s : State) : SameStores s (macPauseEffect p s) := by
  simp [SameStores, macPauseEffect]

@[simp] theorem partnerLinkDownEffect_stores (p : Nat) (s : State) : SameStores s (partnerLinkDownEffect p s) := by
  simp [SameStores, partnerLinkDownEffect]

@[simp] theorem portLinkUpEffect_stores (unit : Nat) (s : State) : SameStores s (portLinkUpEffect unit s) := by
  simp [SameStores, portLinkUpEffect]

/-! ### The Cuff at work (R166 to R185) -/

@[simp] theorem state_leaveSlot_stores (s : State) (p k from' to' : Nat) : SameStores s (s.leaveSlot p k from' to') :=
  ⟨rfl, rfl⟩

@[simp] theorem state_endedOne_stores (s : State) (p step : Nat) : SameStores s (s.endedOne p step) := ⟨rfl, rfl⟩

@[simp] theorem state_queueInner_stores (s : State) (p k : Nat) (e : SliceEntry) (step : Nat) :
    SameStores s (s.queueInner p k e step) := ⟨rfl, rfl⟩

@[simp] theorem state_triggered_stores (s : State) (p step : Nat) : SameStores s (s.triggered p step) := by
  simp [SameStores, State.triggered]

@[simp] theorem state_triggerSlow_storesWf (s : State) (p k : Nat) (x : Slot) (g : Group) (step : Nat) (hs : s.storesWf) :
    (s.triggerSlow p k x g step).storesWf := by
  unfold State.triggerSlow
  dsimp only
  repeat' split
  all_goals simp [State.storesWf, hs]

@[simp] theorem state_queueUntouched1_storesWf (n : Nat) (s : State) (x : Nat × SltSlice) (hs : s.storesWf) :
    (State.queueUntouched1 n s x).storesWf := by
  unfold State.queueUntouched1
  repeat' split
  all_goals simp [State.storesWf, hs]

@[simp] theorem state_queueUntouched_storesWf (s : State) (hs : s.storesWf) : s.queueUntouched.storesWf :=
  foldl_storesWf _ (state_queueUntouched1_storesWf _) _ hs

@[simp] theorem state_slotTrigger_storesWf (s : State) (p k : Nat) (hs : s.storesWf) : (s.slotTrigger p k).storesWf := by
  simp [State.storesWf, State.slotTrigger, hs]

@[simp] theorem state_startEntry_stores (s : State) (p : Nat) (e : CuffEntry) (base : Nat) :
    SameStores s (s.startEntry p e base) := by simp [SameStores, State.startEntry]

@[simp] theorem cuffEntryStartEffect_stores (p : Nat) (s : State) : SameStores s (cuffEntryStartEffect p s) := by
  unfold cuffEntryStartEffect
  dsimp only
  repeat' split
  all_goals simp [SameStores]

@[simp] theorem state_runWrites_stores (s : State) (p : Nat) (run : CuffRun) (ws : List (Nat × Nat × List Byte)) (extra : Nat) :
    SameStores s (s.runWrites p run ws extra) := ⟨rfl, rfl⟩

@[simp] theorem state_returnInner_stores (s : State) (p : Nat) (run : CuffRun) : SameStores s (s.returnInner p run) := by
  simp [SameStores, State.returnInner]

@[simp] theorem state_cuffBusy_stores (s : State) (p start stop : Nat) : SameStores s (s.cuffBusy p start stop) := ⟨rfl, rfl⟩

@[simp] theorem state_leavePipe_stores (s : State) (p : Nat) (run : CuffRun) (t : Nat) :
    SameStores s (s.leavePipe p run t) := by simp [SameStores, State.leavePipe]

@[simp] theorem state_returnOuter_stores (s : State) (p q : Nat) (run : CuffRun) : SameStores s (s.returnOuter p q run) := by
  simp [SameStores, State.returnOuter]

@[simp] theorem state_returnSkip_stores (s : State) (p : Nat) (run : CuffRun) : SameStores s (s.returnSkip p run) :=
  ⟨rfl, rfl⟩

@[simp] theorem state_cuffReturn_stores (s : State) (p : Nat) : SameStores s (s.cuffReturn p) := by
  unfold State.cuffReturn
  repeat' split
  all_goals simp [SameStores]

@[simp] theorem state_prefetched_stores (s : State) (n count : Nat) : SameStores s (s.prefetched n count) := ⟨rfl, rfl⟩

@[simp] theorem hbmReadReturnEffect_stores (what : ReadFor) (s : State) : SameStores s (hbmReadReturnEffect what s) := by
  unfold hbmReadReturnEffect
  split <;> simp [SameStores]

@[simp] theorem state_cutAfter_storesWf (s : State) (p : Nat) (run : CuffRun) (hs : s.storesWf) :
    (s.cutAfter p run).storesWf := by simp [State.storesWf, State.cutAfter, hs]

@[simp] theorem state_digestAfter_stores (s : State) (p : Nat) (run : CuffRun) : SameStores s (s.digestAfter p run) :=
  ⟨rfl, rfl⟩

@[simp] theorem state_noteUpdated_stores (s : State) (p : Nat) (run : CuffRun) : SameStores s (s.noteUpdated p run) := by
  simp [SameStores, State.noteUpdated]

@[simp] theorem state_ackRun_storesWf (s : State) (p : Nat) (run : CuffRun) (hs : s.storesWf) : (s.ackRun p run).storesWf := by
  have hc : (commitWrites s.hbm run.writes).wf = true := commitWrites_wf _ _ hs.1
  unfold State.ackRun
  dsimp only
  repeat' split
  all_goals simp [State.storesWf, hs, hc]

/-! ### The slice census (R186 to R188) -/

@[simp] theorem state_censusCatchup_stores (s : State) (c : CensusOf) : SameStores s (s.censusCatchup c) := by
  unfold State.censusCatchup
  split <;> simp [SameStores]

@[simp] theorem state_censusSkip_storesWf (s : State) (c : CensusOf) (r : Rec) (hs : s.storesWf) :
    (s.censusSkip c r).storesWf := by simp [State.storesWf, State.censusSkip, hs]

@[simp] theorem state_repair_storesWf (s : State) (c : CensusOf) (r : Rec) (hs : s.storesWf) : (s.repair c r).storesWf := by
  unfold State.repair
  extract_lets b s1 zero r1 wc r2 t
  have h1 : s1.storesWf := hs
  clear_value b
  cases b with
  | some b => exact state_storeRecord_storesWf s1 _ _ h1
  | none =>
    dsimp only
    split
    · exact state_storeRecord_storesWf _ _ _ (by simp [State.storesWf, h1])
    · simp [State.storesWf, h1]

@[simp] theorem state_outerRoll_storesWf (s : State) (c : CensusOf) (r : Rec) (hs : s.storesWf) :
    (s.outerRoll c r).storesWf := by simp [State.storesWf, State.outerRoll, hs]

@[simp] theorem state_rollSlice_storesWf (s : State) (c : CensusOf) (r : Rec) (hs : s.storesWf) :
    (s.rollSlice c r).storesWf := by simp [State.storesWf, State.rollSlice, hs]

theorem state_reapply_stores (c : CensusOf) (a : State × Rec) (q : Nat) : SameStores a.1 (State.reapply c a q).1 := by
  unfold State.reapply
  dsimp only
  split <;> simp [SameStores]

@[simp] theorem state_outerRepair_storesWf (s : State) (c : CensusOf) (hs : s.storesWf) : (s.outerRepair c).storesWf := by
  have hr (l : List Nat) (s : State) (r : Rec) : SameStores s (l.foldl (State.reapply c) (s, r)).1 :=
    foldl_fst_stores _ (state_reapply_stores c) l (s, r)
  unfold State.outerRepair
  dsimp only
  repeat' split
  all_goals simp [State.storesWf, hs, hr]

@[simp] theorem state_censusOne_storesWf (s : State) (c : CensusOf) (lost : Bool) (hs : s.storesWf) :
    (s.censusOne c lost).storesWf := by simp [State.storesWf, State.censusOne, hs]

@[simp] theorem state_censusEntry_storesWf (s : State) (step : Nat) (lost : Bool) (e : MapEntry) (hs : s.storesWf) :
    (s.censusEntry step lost e).storesWf := by
  unfold State.censusEntry
  split <;> simp [State.storesWf, hs]

@[simp] theorem state_sliceCensus_storesWf (s : State) (step : Nat) (lost : Bool) (hs : s.storesWf) :
    (s.sliceCensus step lost).storesWf :=
  foldl_storesWf _ (fun s e => state_censusEntry_storesWf s step lost e) _ hs

@[simp] theorem state_repairNum_storesWf (s : State) (num : Nat) (hs : s.storesWf) : (s.repairNum num).storesWf := by
  unfold State.repairNum
  repeat' split
  all_goals simp [State.storesWf, hs]

/-! ### A step's end and the job's layout (08_mapping_a_job) -/

@[simp] theorem state_writeConstants_storesWf (s : State) (step : Nat) (hs : s.storesWf) : (s.writeConstants step).storesWf :=
  ⟨Memory.wf_foldl _ (fun _ _ h => Memory.wf_foldl _ (fun m _ => Memory.wf_write m _ _) _ h) _ hs.1, hs.2⟩

@[simp] theorem state_scalePlans_storesWf (s : State) (b0 b : Nat) (hs : s.storesWf) : (s.scalePlans b0 b).storesWf :=
  ⟨Memory.wf_foldl _ (fun m _ => Memory.wf_write m _ _) _
    (Memory.wf_foldl _ (fun m _ h => Memory.wf_write _ _ _ (Memory.wf_write m _ _ h)) _ hs.1), hs.2⟩

@[simp] theorem state_feedNoise_stores (s : State) (n : Nat) : SameStores s (s.feedNoise n) := by
  simp [SameStores, State.feedNoise]

@[simp] theorem state_steer_storesWf (s : State) (n : Nat) (hs : s.storesWf) : (s.steer n).storesWf := by
  unfold State.steer
  split <;> simp [State.storesWf, hs]

@[simp] theorem state_putEpochs_stores (s : State) (lo w v : Nat) : SameStores s (s.putEpochs lo w v) := by
  simp [SameStores, State.putEpochs]

@[simp] theorem state_checkpointMap_stores (s : State) : SameStores s s.checkpointMap := ⟨rfl, rfl⟩

@[simp] theorem state_openBoundary_stores (s : State) : SameStores s s.openBoundary := by
  simp [SameStores, State.openBoundary]

@[simp] theorem state_setBatch_stores (s : State) (b : Nat) : SameStores s (s.setBatch b) := ⟨rfl, rfl⟩

@[simp] theorem state_boundarySequencer_storesWf (s : State) (hs : s.storesWf) : s.boundarySequencer.storesWf := by
  simp [State.storesWf, State.boundarySequencer, hs]

@[simp] theorem state_sendReady_stores (s : State) : SameStores s s.sendReady := by simp [SameStores, State.sendReady]

@[simp] theorem state_clearLags_stores (s : State) : SameStores s s.clearLags := by simp [SameStores, State.clearLags]

@[simp] theorem state_restartStreams_stores (s : State) (n : Nat) : SameStores s (s.restartStreams n) := by
  simp [SameStores, State.restartStreams]

@[simp] theorem state_closeBoundary_stores (s : State) : SameStores s s.closeBoundary := by
  unfold State.closeBoundary
  split <;> simp [SameStores]

@[simp] theorem state_boundaryRegisters_storesWf (s : State) (hs : s.storesWf) : s.boundaryRegisters.storesWf := by
  unfold State.boundaryRegisters
  split
  · exact hs
  · extract_lets b x s1 mb s2 job s3 s4 c job' s5
    have h1 : s1.storesWf := by simp [s1, State.storesWf, hs]
    have h2 : s2.storesWf := state_boundarySequencer_storesWf s1 h1
    clear_value s2
    have h4 : s4.storesWf := state_writeConstants_storesWf _ _ (state_writeConstants_storesWf s3 _ h2)
    clear_value s4
    split
    · exact (state_sendCtrlAll_stores s5 _ _).storesWf h4
    · simp [State.storesWf, h4]

@[simp] theorem readyCycleMessageEffect_stores (dev cycle : Nat) (s : State) :
    SameStores s (readyCycleMessageEffect dev cycle s) := by simp [SameStores, readyCycleMessageEffect]

@[simp] theorem state_passEmptySlots_stores (s : State) (n : Nat) : SameStores s (s.passEmptySlots n) := by
  simp [SameStores, State.passEmptySlots]

@[simp] theorem state_stopJob_stores (s : State) (replace : Bool) : SameStores s (s.stopJob replace) := by
  simp [SameStores, State.stopJob]

@[simp] theorem state_honourStop_stores (s : State) : SameStores s s.honourStop := by
  unfold State.honourStop
  split <;> simp [SameStores]

@[simp] theorem state_endStep_storesWf (s : State) (n : Nat) (hs : s.storesWf) : (s.endStep n).storesWf := by
  unfold State.endStep
  extract_lets flags s1 s2 lag s3 s4 s5 s6
  have h1 : s1.storesWf := by simp [s1, State.storesWf, hs]
  have h2 : s2.storesWf := h1
  have h3 : s3.storesWf := by simp [s3, State.storesWf, h2]
  have hq : s3.queueUntouched.storesWf := state_queueUntouched_storesWf s3 h3
  have h4 : s4.storesWf := by simp [s4, State.storesWf, hq]
  have h5 : s5.storesWf := by simp [s5, State.storesWf, h4]
  have h6 : s6.storesWf := by simp [s6, State.storesWf, h5]
  repeat' split
  · exact h4
  · simp [State.storesWf, h6]
  · exact h6
  · simp [State.storesWf, h6]

@[simp] theorem state_endSteps_storesWf (n : Nat) (s : State) (hs : s.storesWf) : (s.endSteps n).storesWf := by
  induction n generalizing s with
  | zero => exact hs
  | succ n ih =>
    unfold State.endSteps
    split
    · exact ih _ (state_endStep_storesWf s _ hs)
    · exact hs

@[simp] theorem slotTriggerEffect_storesWf (p k : Nat) (s : State) (hs : s.storesWf) :
    (slotTriggerEffect p k s).storesWf := by simp [State.storesWf, slotTriggerEffect, hs]

@[simp] theorem touchListPostEffect_storesWf (st : Nat) (s : State) (hs : s.storesWf) : (touchListPostEffect st s).storesWf :=
  state_endSteps_storesWf 2 _ (state_retryFetches_storesWf _ (state_queueUntouched_storesWf _ (state_planList_storesWf s st hs)))

@[simp] theorem streamIssueEffect_storesWf (n : Nat) (s : State) (hs : s.storesWf) : (streamIssueEffect n s).storesWf := by
  simp [State.storesWf, streamIssueEffect, hs]

@[simp] theorem streamEndEffect_storesWf (n : Nat) (c : Cmd) (s : State) (hs : s.storesWf) :
    (streamEndEffect n c s).storesWf := by simp [State.storesWf, streamEndEffect, hs]

@[simp] theorem state_abortPartition_stores (s : State) (p : Nat) : SameStores s (s.abortPartition p) := by
  simp [SameStores, State.abortPartition]

@[simp] theorem state_showCensus_stores (s : State) (v : Nat) : SameStores s (s.showCensus v) := by
  simp [SameStores, State.showCensus]

@[simp] theorem state_startCensus_storesWf (s : State) (hs : s.storesWf) : s.startCensus.storesWf := by
  unfold State.startCensus
  split <;> simp [State.storesWf, hs]

@[simp] theorem state_abortStep_storesWf (s : State) (hs : s.storesWf) : s.abortStep.storesWf := by
  simp [State.storesWf, State.abortStep, hs]

@[simp] theorem abortMessageEffect_storesWf (link dev step : Nat) (s : State) (hs : s.storesWf) :
    (abortMessageEffect link dev step s).storesWf := by simp [State.storesWf, abortMessageEffect, hs]

@[simp] theorem state_holdTraining_stores (s : State) : SameStores s s.holdTraining := ⟨rfl, rfl⟩

@[simp] theorem state_restartSlots_stores (s : State) (n : Nat) : SameStores s (s.restartSlots n) := by
  simp [SameStores, State.restartSlots]

@[simp] theorem state_recover_storesWf (s : State) (c : Census) (members : List Nat) (hs : s.storesWf) :
    (s.recover c members).storesWf := by
  unfold State.recover
  extract_lets step job s1 s2 job' s3 ch
  have h1 : s1.storesWf := hs
  have h2 : s2.storesWf := state_sliceCensus_storesWf _ _ _ (by simp [State.storesWf, h1])
  have h3 : s3.storesWf := h2
  clear_value s3
  split
  · simp [State.storesWf, h3]
  · simp [State.storesWf, h3]

@[simp] theorem state_concludeCensus_storesWf (s : State) (c : Census) (hs : s.storesWf) :
    (s.concludeCensus c).storesWf := by simp [State.storesWf, State.concludeCensus, hs]

@[simp] theorem state_secondRound_stores (s : State) (c : Census) : SameStores s (s.secondRound c) := by
  simp [SameStores, State.secondRound]

@[simp] theorem state_advanceCensus_storesWf (s : State) (hs : s.storesWf) : s.advanceCensus.storesWf := by
  unfold State.advanceCensus
  split <;> simp [State.storesWf, hs]

@[simp] theorem hbmWriteAckEffect_storesWf (p : Nat) (s : State) (hs : s.storesWf) : (hbmWriteAckEffect p s).storesWf := by
  unfold hbmWriteAckEffect
  split
  · exact hs
  · exact state_advanceCensus_storesWf _ (state_endSteps_storesWf 2 _ (state_ackRun_storesWf s p _ hs))

@[simp] theorem censusRecordEffect_storesWf (dev engines halfLinks lastStep epoch : Nat) (s : State) (hs : s.storesWf) :
    (censusRecordEffect dev engines halfLinks lastStep epoch s).storesWf := by
  unfold censusRecordEffect
  dsimp only
  repeat' split
  all_goals simp [State.storesWf, hs]

@[simp] theorem censusSetEffect_storesWf (dev : Nat) (heard : List Nat) (s : State) (hs : s.storesWf) :
    (censusSetEffect dev heard s).storesWf := by
  unfold censusSetEffect
  split <;> simp [State.storesWf, hs]

@[simp] theorem censusTimeoutEffect_storesWf (s : State) (hs : s.storesWf) : (censusTimeoutEffect s).storesWf := by
  unfold censusTimeoutEffect
  split <;> simp [State.storesWf, hs]

@[simp] theorem state_putMigrated_storesWf (s : State) (e : MapEntry) (b : List Byte) (hs : s.storesWf) :
    (s.putMigrated e b).storesWf := by
  unfold State.putMigrated
  dsimp only
  repeat' split
  all_goals simp [State.storesWf, hs]

@[simp] theorem state_migrateOne_storesWf (s : State) (old : List MapEntry) (step : Nat) (e : MapEntry) (hs : s.storesWf) :
    (s.migrateOne old step e).storesWf := by
  unfold State.migrateOne
  dsimp only
  repeat' split
  all_goals simp [State.storesWf, hs]

@[simp] theorem state_migrate_storesWf (s : State) (step : Nat) (hs : s.storesWf) : (s.migrate step).storesWf := by
  unfold State.migrate
  split
  · exact hs
  · extract_lets new mine before gained owner kept s1 s2 job s3 s4 s5
    have h1 : s1.storesWf := (foldl_stores _ (fun s x => by split <;> simp [SameStores]) _ s).storesWf hs
    have h2 : s2.storesWf := foldl_storesWf _ (fun s e => state_migrateOne_storesWf s before step e) _ h1
    have h3 : s3.storesWf := h2
    have h4 : s4.storesWf :=
      (foldl_stores _ (fun s e => state_renewDigest_stores s _ _) _ _).storesWf (by simp [State.storesWf, h3])
    have h5 : s5.storesWf := (foldl_stores _ state_announceMoved_stores _ _).storesWf h4
    exact (foldl_stores _ (fun s x => foldl_stores _ (fun s i => state_sendFetch_stores s _ _ _) _ s) _ s5).storesWf h5

@[simp] theorem state_routeHeld_stores (s : State) (p : Nat) : SameStores s (s.routeHeld p) := by
  simp [SameStores, State.routeHeld]

@[simp] theorem migrationCompleteEffect_storesWf (s : State) (hs : s.storesWf) : (migrationCompleteEffect s).storesWf := by
  unfold migrationCompleteEffect
  split
  · exact hs
  · extract_lets s1 e s2 s3
    have h1 : s1.storesWf := state_migrate_storesWf s _ hs
    have h2 : s2.storesWf := by simp [s2, State.storesWf, h1]
    have h3 : s3.storesWf := state_boundaryRegisters_storesWf _ (by simp [State.storesWf, h2])
    repeat' split
    · exact h1
    · simp [State.storesWf, h3]
    · exact h3

@[simp] theorem dataDescriptorReadEffect_stores (step : Nat) (bytes : List Byte) (s : State) :
    SameStores s (dataDescriptorReadEffect step bytes s) := by simp [SameStores, dataDescriptorReadEffect]

end Sys2Proof.Machine
end

section
/-! SUPPORT. What the NAND, background work, the cipher engine, the coordinator, Mitten, Gauntlet and the register window do to
the tile stores and HBM. -/

namespace Sys2Proof.Machine

/-! ### The NAND of the slow tier (R213 to R221) -/

@[simp] theorem state_eraseBlock_stores (s : State) (b : Nat) : SameStores s (s.eraseBlock b) := ⟨rfl, rfl⟩

@[simp] theorem state_retireBlock_stores (s : State) (b : Nat) : SameStores s (s.retireBlock b) := ⟨rfl, rfl⟩

@[simp] theorem state_rewriteImage_storesWf (s : State) (num : Nat) (above : Option Nat) (hs : s.storesWf) :
    (s.rewriteImage num above).storesWf := by
  unfold State.rewriteImage
  repeat' split
  all_goals simp [State.storesWf, hs]

@[simp] theorem state_emptyBlock_storesWf (s : State) (key : Nat) (above : Option Nat) (hs : s.storesWf) :
    (s.emptyBlock key above).storesWf :=
  foldl_storesWf _ (fun s _ => state_rewriteImage_storesWf s _ above) (imagesIn s.slt key) hs

@[simp] theorem state_collectBlock_storesWf (s : State) (key : Nat) (hs : s.storesWf) : (s.collectBlock key).storesWf := by
  simp [State.storesWf, State.collectBlock, hs]

@[simp] theorem state_collectGarbage_storesWf (s : State) (g : Nat) (hs : s.storesWf) : (s.collectGarbage g).storesWf := by
  unfold State.collectGarbage
  repeat' split
  all_goals simp [State.storesWf, hs]

@[simp] theorem state_levelWear_storesWf (s : State) (g : Nat) (hs : s.storesWf) : (s.levelWear g).storesWf := by
  unfold State.levelWear
  split <;> simp [State.storesWf, hs]

@[simp] theorem state_slowQuantum_storesWf (s : State) (hs : s.storesWf) : s.slowQuantum.storesWf := by
  refine foldl_storesWf _ state_levelWear_storesWf _ (foldl_storesWf _ state_collectGarbage_storesWf _ ?_)
  split <;> simp [State.storesWf, hs]

@[simp] theorem state_nandBusy_stores (s : State) (t : Nat) : SameStores s (s.nandBusy t) := by
  unfold State.nandBusy
  split <;> simp [SameStores]

@[simp] theorem state_issueFetches_stores (s : State) : SameStores s s.issueFetches := ⟨rfl, rfl⟩

@[simp] theorem state_writeMap_storesWf (s : State) (num : Nat) (hs : s.storesWf) : (s.writeMap num).storesWf :=
  ⟨Memory.wf_write _ _ _ hs.1, hs.2⟩

@[simp] theorem state_programmed_storesWf (s : State) (g : SltProgram) (block : Nat) (hs : s.storesWf) :
    (s.programmed g block).storesWf := by
  unfold State.programmed
  extract_lets same c mine key x old blocks blocks' s1 slt s2 s3
  have h1 : s1.storesWf := by simp [s1, State.storesWf, hs]
  have h2 : s2.storesWf := h1
  have h3 : s3.storesWf := by
    unfold s3
    split
    · exact state_putLine_storesWf s2 _ _ h2
    · exact h2
  have hm := state_writeMap_storesWf s3 g.num h3
  simp [State.storesWf, hm]

@[simp] theorem flashProgramCompleteEffect_storesWf (num block : Nat) (ok : Bool) (s : State) (hs : s.storesWf) :
    (flashProgramCompleteEffect num block ok s).storesWf := by
  unfold flashProgramCompleteEffect
  split <;> simp [State.storesWf, hs]

@[simp] theorem state_fetchCounts_stores (s : State) (r : FlashResult) (alone : Bool) :
    SameStores s (s.fetchCounts r alone) := by simp [SameStores, State.fetchCounts]

@[simp] theorem state_serveReads_stores (s : State) (num l : Nat) : SameStores s (s.serveReads num l) := by
  simp [SameStores, State.serveReads]

@[simp] theorem state_landRead_storesWf (s : State) (f : SltFetch) (core since : Nat) (img : Option FlashImage) (hs : s.storesWf) :
    (s.landRead f core since img).storesWf := by
  unfold State.landRead
  split <;> simp [State.storesWf, hs]

@[simp] theorem state_landLine_storesWf (s : State) (f : SltFetch) (img : Option FlashImage) (hs : s.storesWf) :
    (s.landLine f img).storesWf := by
  unfold State.landLine
  extract_lets bytes slt s1 line s2
  have h1 : s1.storesWf := ⟨Memory.wf_write _ _ _ hs.1, hs.2⟩
  have h2 : s2.storesWf := by
    unfold s2
    cases img with
    | none => exact state_repairNum_storesWf _ _ (state_unreadable_storesWf s1 _ h1)
    | some i => simp [State.storesWf, h1]
  simp [State.storesWf, h2]

@[simp] theorem state_landFetch_storesWf (s : State) (f : SltFetch) (r : FlashResult) (hs : s.storesWf) :
    (s.landFetch f r).storesWf := by
  unfold State.landFetch
  split <;> simp [State.storesWf, hs]

@[simp] theorem state_scrubRead_storesWf (s : State) (num : Nat) (r : FlashResult) (hs : s.storesWf) :
    (s.scrubRead num r).storesWf := by
  unfold State.scrubRead
  dsimp only
  repeat' split
  all_goals simp [State.storesWf, hs]

@[simp] theorem flashFetchCompleteEffect_storesWf (num : Nat) (r : FlashResult) (s : State) (hs : s.storesWf) :
    (flashFetchCompleteEffect num r s).storesWf := by
  unfold flashFetchCompleteEffect
  split <;> simp [State.storesWf, hs]

/-! ### Background work (R254 to R259) -/

@[simp] theorem refreshWindowEffect_stores (g : Nat) (s : State) : SameStores s (refreshWindowEffect g s) := by
  simp [SameStores, refreshWindowEffect]

@[simp] theorem state_writeRecord_storesWf (s : State) (hs : s.storesWf) : s.writeRecord.storesWf := by
  simp [State.storesWf, State.writeRecord, hs]

@[simp] theorem state_visorQuantum_storesWf (s : State) (hs : s.storesWf) : s.visorQuantum.storesWf := by
  unfold State.visorQuantum
  split
  · exact state_flushLog_storesWf s hs
  · exact state_writeRecord_storesWf _ (state_flushLog_storesWf _ (state_collectAll_storesWf s hs))

@[simp] theorem state_readMonitor_stores (s : State) (m : Nat) : SameStores s (s.readMonitor m) := by
  simp [SameStores, State.readMonitor]

@[simp] theorem state_completeSweep_stores (s : State) : SameStores s s.completeSweep := by
  simp [SameStores, State.completeSweep]

@[simp] theorem state_monitorQuantum_stores (s : State) : SameStores s s.monitorQuantum := by
  simp [SameStores, State.monitorQuantum]

@[simp] theorem state_recalQuantum_stores (s : State) : SameStores s s.recalQuantum := by
  simp [SameStores, State.recalQuantum]

@[simp] theorem state_quantumWork_storesWf (s : State) (cls : Nat) (hs : s.storesWf) : (s.quantumWork cls).storesWf := by
  simp [State.storesWf, State.quantumWork, hs]

@[simp] theorem state_serve_storesWf (s : State) (cls t : Nat) (hs : s.storesWf) : (s.serve cls t).storesWf := by
  simp [State.storesWf, State.serve, hs]

@[simp] theorem backgroundQuantumEffect_storesWf (cls : Nat) (s : State) (hs : s.storesWf) :
    (backgroundQuantumEffect cls s).storesWf := by simp [State.storesWf, backgroundQuantumEffect, hs]

@[simp] theorem state_forceSlot_storesWf (s : State) (cls : Nat) (hs : s.storesWf) : (s.forceSlot cls).storesWf :=
  state_serve_storesWf _ cls _ (state_logDecision_storesWf _ 6 _
    (foldl_storesWf _ (fun s n => state_growLag_storesWf s n _) _ hs))

theorem state_atDeadline_stores {s t : State} {cls : Nat} (h : s.atDeadline cls = some t) : SameStores s t := by
  unfold State.atDeadline at h
  repeat' split at h
  · cases h
    simp [SameStores]
  · cases h
    exact ⟨rfl, rfl⟩
  · obtain ⟨c, -, rfl⟩ := Option.map_eq_some_iff.1 h
    simp [SameStores]

@[simp] theorem forcedSlotEffect_storesWf (cls : Nat) (s : State) (hs : s.storesWf) : (forcedSlotEffect cls s).storesWf := by
  unfold forcedSlotEffect
  split
  · exact hs
  · split
    case h_1 => exact hs
    case h_2 h =>
      have ht := (state_atDeadline_stores h).storesWf hs
      split
      · exact ht
      · exact state_forceSlot_storesWf _ cls ht

/-! ### The cipher engine (12_cipher_and_trust) -/

@[simp] theorem state_setPipe_stores (s : State) (q : Nat) (l : Tbl LaneRec) (v w : List LaneRec) :
    SameStores s (s.setPipe q l v w) := ⟨rfl, rfl⟩

@[simp] theorem state_placeLane_stores (s : State) (q : Nat) (r : LaneRec) : SameStores s (s.placeLane q r) := by
  unfold State.placeLane
  dsimp only
  repeat' split
  all_goals simp [SameStores]

@[simp] theorem recordStartEffect_stores (decrypt : Bool) (a prio len : Nat) (s : State) :
    SameStores s (recordStartEffect decrypt a prio len s) := by simp [SameStores, recordStartEffect]

@[simp] theorem state_refillLane_stores (s : State) (q i : Nat) : SameStores s (s.refillLane q i) := by
  unfold State.refillLane
  dsimp only
  repeat' split
  all_goals simp [SameStores]

@[simp] theorem state_sealed_stores (s : State) (r : LaneRec) (seq : Nat) (aad body : List Byte) :
    SameStores s (s.sealed r seq aad body) := by simp [SameStores, State.sealed]

@[simp] theorem state_opened_stores (s : State) (r : LaneRec) (seq kid : Nat) (aad body tag : List Byte) :
    SameStores s (s.opened r seq kid aad body tag) := by
  unfold State.opened
  dsimp only
  repeat' split
  all_goals simp [SameStores]

@[simp] theorem recordCompleteEffect_stores (decrypt : Bool) (lane seq kid : Nat) (aad body tag : List Byte) (s : State) :
    SameStores s (recordCompleteEffect decrypt lane seq kid aad body tag s) := by
  unfold recordCompleteEffect
  dsimp only
  repeat' split
  all_goals simp [SameStores]

@[simp] theorem state_handshakeFailed_stores (s : State) (a : Nat) : SameStores s (s.handshakeFailed a) := ⟨rfl, rfl⟩

@[simp] theorem state_sendFinish_stores (s : State) (a : Nat) : SameStores s (s.sendFinish a) := by
  simp [SameStores, State.sendFinish]

@[simp] theorem helloEffect_stores (a : Nat) (h : List Byte) (s : State) : SameStores s (helloEffect a h s) := by
  simp [SameStores, helloEffect]

@[simp] theorem state_establish_stores (s : State) (a : Nat) : SameStores s (s.establish a) := by
  simp [SameStores, State.establish]

@[simp] theorem finishEffect_stores (a : Nat) (sig : List Byte) (s : State) : SameStores s (finishEffect a sig s) := by
  simp [SameStores, finishEffect]

@[simp] theorem keyupdEffect_stores (a gen psn : Nat) (s : State) : SameStores s (keyupdEffect a gen psn s) := by
  simp [SameStores, keyupdEffect]

@[simp] theorem keyackEffect_stores (a gen : Nat) (s : State) : SameStores s (keyackEffect a gen s) := by
  simp [SameStores, keyackEffect]

@[simp] theorem keySlotOverwriteEffect_stores (a : Nat) (s : State) : SameStores s (keySlotOverwriteEffect a s) := by
  unfold keySlotOverwriteEffect
  dsimp only
  repeat' split
  all_goals simp [SameStores]

@[simp] theorem rekeyTimerEffect_stores (a : Nat) (s : State) : SameStores s (rekeyTimerEffect a s) := by
  unfold rekeyTimerEffect
  split <;> simp [SameStores]

@[simp] theorem handshakeTimeoutEffect_stores (h : Nat) (s : State) : SameStores s (handshakeTimeoutEffect h s) := by
  unfold handshakeTimeoutEffect
  dsimp only
  repeat' split
  all_goals simp [SameStores]

@[simp] theorem handshakeRestartEffect_stores (a : Nat) (s : State) : SameStores s (handshakeRestartEffect a s) := by
  simp [SameStores, handshakeRestartEffect]

@[simp] theorem alarmEffect_storesWf (source : Nat) (s : State) (hs : s.storesWf) : (alarmEffect source s).storesWf := by
  simp [State.storesWf, alarmEffect, hs]

@[simp] theorem knownAnswerTestEffect_storesWf (pass : Bool) (s : State) (hs : s.storesWf) :
    (knownAnswerTestEffect pass s).storesWf := by simp [State.storesWf, knownAnswerTestEffect, hs]

@[simp] theorem state_startReport_stores (s : State) (nonce : List Byte) : SameStores s (s.startReport nonce) := ⟨rfl, rfl⟩

@[simp] theorem reportSignedEffect_stores (s : State) : SameStores s (reportSignedEffect s) := by
  unfold reportSignedEffect
  split <;> simp [SameStores]

/-! ### Contact with the coordinator (R427 to R438) -/

@[simp] theorem state_setHport_stores (s : State) (h : Nat) (p : HPort) : SameStores s (s.setHport h p) := ⟨rfl, rfl⟩

@[simp] theorem state_openQps_stores (s : State) (h : Nat) : SameStores s (s.openQps h) := by
  simp [SameStores, State.openQps]

@[simp] theorem contactEffect_stores (h : Nat) (s : State) : SameStores s (contactEffect h s) := by
  simp [SameStores, contactEffect]

@[simp] theorem contactRetryEffect_stores (s : State) : SameStores s (contactRetryEffect s) := by
  unfold contactRetryEffect
  split <;> simp [SameStores]

@[simp] theorem controlResendEffect_stores (h : Nat) (s : State) : SameStores s (controlResendEffect h s) := by
  simp [SameStores, controlResendEffect]

@[simp] theorem state_received_stores (s : State) (h n : Nat) : SameStores s (s.received h n) := ⟨rfl, rfl⟩

@[simp] theorem state_takeControl_stores (s : State) (h mid ack len : Nat) :
    SameStores s (s.takeControl h mid ack len).1 := by
  unfold State.takeControl
  split <;> simp [SameStores]

@[simp] theorem state_noteJob_stores (s : State) (b : List Byte) (o : Nat) : SameStores s (s.noteJob b o) := ⟨rfl, rfl⟩

@[simp] theorem assignEffect_stores (h mid ack : Nat) (b : List Byte) (s : State) :
    SameStores s (assignEffect h mid ack b s) := by simp [SameStores, assignEffect]

@[simp] theorem state_instruct_stores (s : State) (replace : Bool) : SameStores s (s.instruct replace) := by
  simp [SameStores, State.instruct]

@[simp] theorem stopEffect_stores (h mid ack : Nat) (s : State) : SameStores s (stopEffect h mid ack s) := by
  simp [SameStores, stopEffect]

@[simp] theorem replaceEffect_stores (h mid ack : Nat) (b : List Byte) (s : State) :
    SameStores s (replaceEffect h mid ack b s) := by simp [SameStores, replaceEffect]

@[simp] theorem roceAckTimeoutEffect_stores (q : Nat) (s : State) : SameStores s (roceAckTimeoutEffect q s) := by
  unfold roceAckTimeoutEffect
  split <;> simp [SameStores]

@[simp] theorem cnpEffect_stores (q : Nat) (s : State) : SameStores s (cnpEffect q s) := by
  unfold cnpEffect
  split <;> simp [SameStores]

@[simp] theorem roceRateRecoveryEffect_stores (q : Nat) (s : State) : SameStores s (roceRateRecoveryEffect q s) := by
  unfold roceRateRecoveryEffect
  repeat' split
  all_goals simp [SameStores]

@[simp] theorem state_landed_stores (s : State) (w : RoceWhat) (n : Nat) : SameStores s (s.landed w n) := by
  unfold State.landed
  split <;> simp [SameStores]

@[simp] theorem roceResponseEffect_storesWf (q psn : Nat) (data : List Byte) (s : State) (hs : s.storesWf) :
    (roceResponseEffect q psn data s).storesWf := by
  unfold roceResponseEffect
  repeat' split
  all_goals simp [State.storesWf, hs]

@[simp] theorem hostPortLinkDownEffect_stores (h : Nat) (s : State) : SameStores s (hostPortLinkDownEffect h s) := by
  simp [SameStores, hostPortLinkDownEffect]

/-! ### The margin plan and the frequency (R461 to R472) -/

@[simp] theorem state_applyRail_stores (s : State) (rail : Nat) (trims : List Nat) :
    SameStores s (s.applyRail rail trims) := by simp [SameStores, State.applyRail]

@[simp] theorem state_sendProposal_stores (s : State) : SameStores s s.sendProposal := by
  simp [SameStores, State.sendProposal]

@[simp] theorem state_replan_storesWf (s : State) (hs : s.storesWf) : s.replan.storesWf := by
  simp [State.storesWf, State.replan, hs]

@[simp] theorem state_planDue_storesWf (s : State) (hs : s.storesWf) : s.planDue.storesWf := by
  simp [State.storesWf, State.planDue, hs]

@[simp] theorem marginEpochEndEffect_storesWf (s : State) (hs : s.storesWf) : (marginEpochEndEffect s).storesWf := by
  simp [State.storesWf, marginEpochEndEffect, hs]

@[simp] theorem replanHoldoverTimeoutEffect_storesWf (s : State) (hs : s.storesWf) :
    (replanHoldoverTimeoutEffect s).storesWf := by
  unfold replanHoldoverTimeoutEffect
  split <;> simp [State.storesWf, hs]

@[simp] theorem state_agreeFrequency_storesWf (s : State) (hs : s.storesWf) : s.agreeFrequency.storesWf := by
  unfold State.agreeFrequency
  split <;> simp [State.storesWf, hs]

@[simp] theorem frequencyProposalEffect_storesWf (dev prop step : Nat) (s : State) (hs : s.storesWf) :
    (frequencyProposalEffect dev prop step s).storesWf := by simp [State.storesWf, frequencyProposalEffect, hs]

@[simp] theorem frequencyAgreementTimeoutEffect_storesWf (s : State) (hs : s.storesWf) :
    (frequencyAgreementTimeoutEffect s).storesWf := by
  unfold frequencyAgreementTimeoutEffect
  split <;> simp [State.storesWf, hs]

@[simp] theorem state_noteSwitch_stores (s : State) : SameStores s s.noteSwitch := by
  unfold State.noteSwitch
  split <;> simp [SameStores]

@[simp] theorem switchCycleMessageEffect_stores (dev cycle : Nat) (s : State) :
    SameStores s (switchCycleMessageEffect dev cycle s) := by simp [SameStores, switchCycleMessageEffect]

@[simp] theorem frequencySwitchEffect_stores (s : State) : SameStores s (frequencySwitchEffect s) := by
  unfold frequencySwitchEffect
  split <;> simp [SameStores]

@[simp] theorem clockRestartEffect_stores (s : State) : SameStores s (clockRestartEffect s) := by
  unfold clockRestartEffect
  split <;> simp [SameStores]

@[simp] theorem state_showAlert_stores (s : State) : SameStores s s.showAlert := ⟨rfl, rfl⟩

@[simp] theorem powerSampleEffect_stores (watts : Nat) (s : State) : SameStores s (powerSampleEffect watts s) := ⟨rfl, rfl⟩

@[simp] theorem temperatureSampleEffect_storesWf (t : Nat) (s : State) (hs : s.storesWf) :
    (temperatureSampleEffect t s).storesWf := by simp [State.storesWf, temperatureSampleEffect, hs]

/-! ### Mitten: resets and the boot (R455 to R458, R473 to R477) -/

@[simp] theorem state_nonVolatile_storesWf (s : State) : s.nonVolatile.storesWf := ⟨rfl, rfl⟩

@[simp] theorem state_porstReset_storesWf (s : State) (pin : Bool) : (s.porstReset pin).storesWf := by
  simp [State.storesWf, State.porstReset]

@[simp] theorem porstNAssertEffect_storesWf (s : State) : (porstNAssertEffect s).storesWf := by
  simp [State.storesWf, porstNAssertEffect]

@[simp] theorem porstNReleaseEffect_stores (strap : BitVec 2) (s : State) : SameStores s (porstNReleaseEffect strap s) := by
  simp [SameStores, porstNReleaseEffect]

@[simp] theorem pwrgoodFallEffect_storesWf (s : State) (hs : s.storesWf) : (pwrgoodFallEffect s).storesWf := by
  simp [State.storesWf, pwrgoodFallEffect, hs]

@[simp] theorem state_startReset_storesWf (s : State) (cause : Nat) (noretain : Bool) (hs : s.storesWf) :
    (s.startReset cause noretain).storesWf := by
  unfold State.startReset
  repeat' split
  all_goals simp [State.storesWf, hs]

@[simp] theorem resetNAssertEffect_storesWf (s : State) (hs : s.storesWf) : (resetNAssertEffect s).storesWf := by
  simp [State.storesWf, resetNAssertEffect, hs]

@[simp] theorem selfRefreshConfirmEffect_stores (ok : Bool) (s : State) : SameStores s (selfRefreshConfirmEffect ok s) := by
  unfold selfRefreshConfirmEffect
  split <;> simp [SameStores]

@[simp] theorem state_afterReset_storesWf (s : State) (r : ResetRun) (hs : s.storesWf) : (s.afterReset r).storesWf := by
  simp [State.storesWf, State.afterReset, hs]

@[simp] theorem resetReleaseEffect_storesWf (s : State) (hs : s.storesWf) : (resetReleaseEffect s).storesWf := by
  unfold resetReleaseEffect
  split <;> simp [State.storesWf, hs]

@[simp] theorem alarmResetEffect_storesWf (s : State) (hs : s.storesWf) : (alarmResetEffect s).storesWf := by
  simp [State.storesWf, alarmResetEffect, hs]

@[simp] theorem state_applyConfig_stores (s : State) (i : Image) (slot : Nat) : SameStores s (s.applyConfig i slot) :=
  ⟨rfl, rfl⟩

@[simp] theorem state_toStep_stores (s : State) (n : Nat) : SameStores s (s.toStep n) := ⟨rfl, rfl⟩

@[simp] theorem state_bootFail_storesWf (s : State) (step cause stack : Nat) (hs : s.storesWf) :
    (s.bootFail step cause stack).storesWf := by simp [State.storesWf, State.bootFail, hs]

@[simp] theorem state_bootImage_stores (s : State) (slot : Nat) (bs : List Byte) : SameStores s (s.bootImage slot bs) := by
  unfold State.bootImage
  repeat' split
  all_goals simp [SameStores]

@[simp] theorem state_bootKeys_stores (s : State) : SameStores s s.bootKeys := ⟨rfl, rfl⟩

@[simp] theorem state_bootKat_storesWf (s : State) (hs : s.storesWf) : s.bootKat.storesWf := by
  simp [State.storesWf, State.bootKat, hs]

@[simp] theorem state_bootHbm_storesWf (s : State) (hs : s.storesWf) : s.bootHbm.storesWf := by
  simp [State.storesWf, State.bootHbm, hs]

@[simp] theorem state_setUpPorts_stores (s : State) : SameStores s s.setUpPorts := ⟨rfl, rfl⟩

@[simp] theorem state_rebuildMap_stores (s : State) : SameStores s s.rebuildMap := ⟨rfl, rfl⟩

@[simp] theorem state_trained_stores (s : State) (present failed : Nat) : SameStores s (s.trained present failed) := by
  simp [SameStores, State.trained]

@[simp] theorem state_sendAlign_stores (s : State) : SameStores s s.sendAlign := by simp [SameStores, State.sendAlign]

@[simp] theorem state_alignSelf_stores (s : State) : SameStores s s.alignSelf := by simp [SameStores, State.alignSelf]

@[simp] theorem state_contactCoordinator_stores (s : State) : SameStores s s.contactCoordinator := by
  simp [SameStores, State.contactCoordinator]

@[simp] theorem state_fillGroupTables_storesWf (s : State) (hs : s.storesWf) : s.fillGroupTables.storesWf :=
  ⟨Memory.wf_foldl _ (fun m _ => Memory.wf_write m _ _) _ hs.1, hs.2⟩

@[simp] theorem state_ready_storesWf (s : State) (hs : s.storesWf) : s.ready.storesWf :=
  foldl_storesWf _ (fun s (f : Nat × FlashImage) => state_writeMap_storesWf s f.1) _ (by
    have h := state_writeConstants_storesWf _ (s.job.firstStep + 1) (state_writeConstants_storesWf _ s.job.firstStep (state_fillGroupTables_storesWf s hs))
    simp [State.storesWf, h])

@[simp] theorem state_rejoin_storesWf (s : State) (hs : s.storesWf) : s.rejoin.storesWf := by
  simp [State.storesWf, State.rejoin, hs]

@[simp] theorem state_firstSweep_storesWf (s : State) (hs : s.storesWf) : s.firstSweep.storesWf := by
  simp [State.storesWf, State.firstSweep, hs]

@[simp] theorem state_blowFuses_stores (s : State) : SameStores s s.blowFuses := ⟨rfl, rfl⟩

@[simp] theorem state_bootDone_storesWf (s : State) (hs : s.storesWf) : s.bootDone.storesWf := by
  unfold State.bootDone
  repeat' split
  all_goals simp [State.storesWf, hs]

@[simp] theorem state_bootOk_storesWf (s : State) (hs : s.storesWf) : s.bootOk.storesWf := by
  simp [State.storesWf, State.bootOk, hs]

@[simp] theorem bootStepCompleteEffect_storesWf (r : BootResult) (s : State) (hs : s.storesWf) :
    (bootStepCompleteEffect r s).storesWf := by
  unfold bootStepCompleteEffect
  dsimp only
  split
  · exact hs
  · cases r <;> simp [State.storesWf, hs]

@[simp] theorem alignmentFrameEffect_storesWf (n cycle refDev : Nat) (s : State) (hs : s.storesWf) :
    (alignmentFrameEffect n cycle refDev s).storesWf := by
  simp [State.storesWf, alignmentFrameEffect, hs]

@[simp] theorem state_showLock_stores (s : State) (v : Nat) : SameStores s (s.showLock v) := ⟨rfl, rfl⟩

@[simp] theorem state_loseLock_stores (s : State) : SameStores s s.loseLock := by simp [SameStores, State.loseLock]

@[simp] theorem state_gainLock_storesWf (s : State) (hs : s.storesWf) : s.gainLock.storesWf := by
  simp [State.storesWf, State.gainLock, hs]

@[simp] theorem ptpSyncEffect_storesWf (h : Nat) (offset : Int) (sec ns : Nat) (s : State) (hs : s.storesWf) :
    (ptpSyncEffect h offset sec ns s).storesWf := by
  unfold ptpSyncEffect
  simp [State.storesWf, hs]

@[simp] theorem hostLinkDown_stores (h : Nat) (s : State) : SameStores s (hostLinkDown h s) := by
  simp [SameStores, hostLinkDown]

/-! ### Gauntlet (R481 to R493) -/

@[simp] theorem state_poisonRow_stores (s : State) (unit cause row : Nat) : SameStores s (s.poisonRow unit cause row) := by
  simp [SameStores, State.poisonRow]

@[simp] theorem faultReportEffect_storesWf (unit cause access addr detail : Nat) (s : State) (hs : s.storesWf) :
    (faultReportEffect unit cause access addr detail s).storesWf := by simp [State.storesWf, faultReportEffect, hs]

@[simp] theorem state_isolate_storesWf (s : State) (unit : Nat) (hs : s.storesWf) : (s.isolate unit).storesWf := by
  simp [State.storesWf, State.isolate, hs]

@[simp] theorem state_setRecord_stores (s : State) (e stage : Nat) (isOpen : Bool) :
    SameStores s (s.setRecord e stage isOpen) := ⟨rfl, rfl⟩

@[simp] theorem state_dispose_storesWf (s : State) (r : FaultRec) (d : Nat) (hs : s.storesWf) :
    (s.dispose r d).storesWf := by simp [State.storesWf, State.dispose, hs]

@[simp] theorem state_handle_storesWf (s : State) (e : Nat) (r : FaultRec) (d : Nat) (hs : s.storesWf) :
    (s.handle e r d).storesWf := by simp [State.storesWf, State.handle, hs]

@[simp] theorem state_ack_storesWf (s : State) (e d : Nat) (hs : s.storesWf) : (s.ack e d).storesWf := by
  unfold State.ack
  split <;> simp [State.storesWf, hs]

@[simp] theorem state_dismissBits_storesWf (s : State) (first v : Nat) (hs : s.storesWf) : (s.dismissBits first v).storesWf :=
  foldl_storesWf _ (fun s b hs => by repeat' split; all_goals simp [State.storesWf, hs]) _ hs

@[simp] theorem state_postStage_stores (s : State) (e unit stage : Nat) : SameStores s (s.postStage e unit stage) := by
  simp [SameStores, State.postStage]

@[simp] theorem escalationNotifyEffect_stores (e : Nat) (s : State) : SameStores s (escalationNotifyEffect e s) := by
  unfold escalationNotifyEffect
  split <;> simp [SameStores]

@[simp] theorem escalationIsolateEffect_storesWf (e : Nat) (s : State) (hs : s.storesWf) :
    (escalationIsolateEffect e s).storesWf := by
  unfold escalationIsolateEffect
  split <;> simp [State.storesWf, hs]

@[simp] theorem escalationSafeEffect_storesWf (e : Nat) (s : State) (hs : s.storesWf) :
    (escalationSafeEffect e s).storesWf := by
  unfold escalationSafeEffect
  split <;> simp [State.storesWf, hs]

@[simp] theorem state_restartWatchdog_stores (s : State) (core : Nat) : SameStores s (s.restartWatchdog core) := ⟨rfl, rfl⟩

@[simp] theorem watchdogExpiryEffect_storesWf (core : Nat) (s : State) (hs : s.storesWf) :
    (watchdogExpiryEffect core s).storesWf := by simp [State.storesWf, watchdogExpiryEffect, hs]

@[simp] theorem state_unfreeze_stores (s : State) : SameStores s s.unfreeze := ⟨rfl, rfl⟩

@[simp] theorem state_parityFault_storesWf (s : State) (off : Nat) (hs : s.storesWf) : (s.parityFault off).storesWf := by
  simp [State.storesWf, State.parityFault, hs]

@[simp] theorem paritySweepEffect_storesWf (found : Option Nat) (s : State) (hs : s.storesWf) :
    (paritySweepEffect found s).storesWf := by
  unfold paritySweepEffect
  dsimp only
  repeat' split
  all_goals simp [State.storesWf, hs]

/-! ### Job start (R415, R436) -/

@[simp] theorem state_refuseJob_stores (s : State) (b : Bad) : SameStores s (s.refuseJob b) := by
  simp [SameStores, State.refuseJob]

@[simp] theorem state_jobRegisters_stores (s : State) : SameStores s s.jobRegisters := by
  simp [SameStores, State.jobRegisters]

@[simp] theorem state_openJob_stores (s : State) (i : Image) : SameStores s (s.openJob i) := by
  simp [SameStores, State.openJob]

@[simp] theorem state_acceptJob_storesWf (s : State) (i : Image) (hs : s.storesWf) : (s.acceptJob i).storesWf := by
  simp [State.storesWf, State.acceptJob, hs]

@[simp] theorem jobImageReadCompleteEffect_storesWf (s : State) (hs : s.storesWf) :
    (jobImageReadCompleteEffect s).storesWf := by
  unfold jobImageReadCompleteEffect
  dsimp only
  repeat' split
  all_goals simp [State.storesWf, hs]

/-! ### The control window (16_register_interface) -/

@[simp] theorem state_violAt_stores (s : State) (b : Option (Block × Nat × Nat)) : SameStores s (s.violAt b) := by
  unfold State.violAt
  split <;> simp [SameStores]

@[simp] theorem state_enableLink_stores (s : State) (n v : Nat) : SameStores s (s.enableLink n v) := by
  simp [SameStores, State.enableLink]

@[simp] theorem state_actOn_storesWf (s : State) (m : Master) (b : Block) (n off v : Nat) (hs : s.storesWf) :
    (s.actOn m b n off v).storesWf := by
  unfold State.actOn
  repeat' split
  all_goals simp [State.storesWf, hs]

@[simp] theorem state_storeWord_stores (s : State) (b : Block) (n off v : Nat) : SameStores s (s.storeWord b n off v) := by
  simp [SameStores, State.storeWord]

@[simp] theorem state_settleFor_stores (s : State) (b : Block) (n off : Nat) : SameStores s (s.settleFor b n off) := by
  simp [SameStores, State.settleFor]

@[simp] theorem state_writeFields_storesWf (s : State) (m : Master) (b : Block) (n off : Nat) (r : RegRow) (v : Nat) (hs : s.storesWf) :
    (s.writeFields m b n off r v).storesWf := by simp [State.storesWf, State.writeFields, hs]

@[simp] theorem state_refuseRemote_stores (s : State) : SameStores s s.refuseRemote := ⟨rfl, rfl⟩

@[simp] theorem state_writeWord_storesWf (s : State) (m : Master) (a v : Nat) (hs : s.storesWf) :
    (s.writeWord m a v).storesWf := by
  unfold State.writeWord
  repeat' split
  all_goals simp [State.storesWf, hs]

@[simp] theorem state_writeAlias_storesWf (s : State) (m : Master) (o : AliasOp) (a v : Nat) (hs : s.storesWf) :
    (s.writeAlias m o a v).storesWf := by
  unfold State.writeAlias
  repeat' split
  all_goals simp [State.storesWf, hs]

@[simp] theorem state_writeBit_storesWf (s : State) (m : Master) (x v : Nat) (hs : s.storesWf) :
    (s.writeBit m x v).storesWf := by
  unfold State.writeBit
  dsimp only
  repeat' split
  all_goals simp [State.storesWf, hs]

@[simp] theorem state_writeAt_storesWf (s : State) (m : Master) (a v : Nat) (hs : s.storesWf) :
    (s.writeAt m a v).storesWf := by
  unfold State.writeAt
  split <;> simp [State.storesWf, hs]

@[simp] theorem state_latch_stores (s : State) (m : Master) (b : Block) (n off : Nat) :
    SameStores s (s.latch m b n off) := by simp [SameStores, State.latch]

@[simp] theorem state_taccCount_stores (s : State) (refused : Bool) (n : Nat) : SameStores s (s.taccCount refused n) :=
  ⟨rfl, rfl⟩

@[simp] theorem state_checkParity_storesWf (s : State) (t : Target) (hs : s.storesWf) : (s.checkParity t).storesWf := by
  unfold State.checkParity
  split <;> simp [State.storesWf, hs]

@[simp] theorem state_readWord_stores (s : State) (m : Master) (t : Target) : SameStores s (s.readWord m t).1 := by
  unfold State.readWord
  split <;> simp [SameStores]

@[simp] theorem state_readPair_stores (s : State) (m : Master) (a : Nat) : SameStores s (s.readPair m a).1 := by
  unfold State.readPair
  repeat' split
  all_goals simp [SameStores]

@[simp] theorem state_readSized_stores (s : State) (m : Master) (a size : Nat) : SameStores s (s.readSized m a size).1 := by
  unfold State.readSized
  repeat' split
  all_goals simp [SameStores]

@[simp] theorem state_writeSized_storesWf (s : State) (m : Master) (a size v : Nat) (hs : s.storesWf) :
    (s.writeSized m a size v).storesWf := by simp [State.storesWf, State.writeSized, hs]

@[simp] theorem state_accessTime_stores (s : State) (m : Master) (t : Target) : SameStores s (s.accessTime m t) := by
  unfold State.accessTime
  split <;> simp [SameStores]

@[simp] theorem state_readAccess_storesWf (s : State) (m : Master) (a size : Nat) (hs : s.storesWf) :
    (s.readAccess m a size).storesWf := by simp [State.storesWf, State.readAccess, hs]

@[simp] theorem state_writeAccess_storesWf (s : State) (m : Master) (a size v : Nat) (hs : s.storesWf) :
    (s.writeAccess m a size v).storesWf := by simp [State.storesWf, State.writeAccess, hs]

@[simp] theorem jtagEffect_stores (i : JtagInsn) (s : State) : SameStores s (jtagEffect i s) := by
  simp [SameStores, jtagEffect]

/-! ### The coordinator's requests (R429, R430) -/

theorem state_packet_stores {s : State} {h hseq ext n : Nat} {f : State → State} (hf : ∀ s, SameStores s (f s)) :
    SameStores s (s.packet h hseq ext n f) := by
  unfold State.packet
  dsimp only
  repeat' split
  · exact ⟨rfl, rfl⟩
  · simp [SameStores]
  · simp [SameStores, hf]

theorem state_packet_storesWf {s : State} {h hseq ext n : Nat} {f : State → State} (hs : s.storesWf)
    (hf : ∀ s, s.storesWf → (f s).storesWf) : (s.packet h hseq ext n f).storesWf := by
  unfold State.packet
  dsimp only
  repeat' split
  · exact hs
  · simp [State.storesWf, hs]
  · exact hf _ (by simp [State.storesWf, hs])

@[simp] theorem state_respond_stores (s : State) (h ext n : Nat) : SameStores s (s.respond h ext n) := ⟨rfl, rfl⟩

@[simp] theorem state_respondRead_stores (s : State) (h n : Nat) : SameStores s (s.respondRead h n) := by
  simp [SameStores, State.respondRead]

@[simp] theorem state_invalid_stores (s : State) (h : Nat) : SameStores s (s.invalid h) := ⟨rfl, rfl⟩

@[simp] theorem state_readNext_storesWf (s : State) (a size : Nat) (hs : s.storesWf) : (s.readNext a size).storesWf := by
  simp [State.storesWf, State.readNext, hs]

@[simp] theorem state_readPairs_storesWf (s : State) (n a : Nat) (hs : s.storesWf) : (s.readPairs n a).storesWf := by
  induction n generalizing s a with
  | zero => exact hs
  | succ n ih => exact ih _ _ (state_readNext_storesWf s a 8 hs)

@[simp] theorem state_readMr0_storesWf (s : State) (a n : Nat) (hs : s.storesWf) : (s.readMr0 a n).storesWf := by
  unfold State.readMr0
  extract_lets viol s1 lead s2 b m s3
  have h0 : viol.storesWf := (state_violAt_stores s _).storesWf hs
  have h1 : s1.storesWf := hs
  have h2 : s2.storesWf := by simp [s2, State.storesWf, h1]
  have h3 : s3.storesWf := state_readPairs_storesWf s2 _ _ h2
  simp [State.storesWf, hs, h0, h3]

@[simp] theorem state_writeWords_storesWf (s : State) (n a : Nat) (d : List Byte) (hs : s.storesWf) :
    (s.writeWords n a d).storesWf := by
  induction n generalizing s a d with
  | zero => exact hs
  | succ n ih => exact ih _ _ _ (state_writeAccess_storesWf s .remote a 4 _ hs)

@[simp] theorem state_writeMr0_storesWf (s : State) (a : Nat) (d : List Byte) (hs : s.storesWf) :
    (s.writeMr0 a d).storesWf := by simp [State.storesWf, State.writeMr0, hs]

@[simp] theorem rdmaReadEffect_storesWf (h hseq region a n : Nat) (s : State) (hs : s.storesWf) :
    (rdmaReadEffect h hseq region a n s).storesWf :=
  state_packet_storesWf hs fun s hs => by
    dsimp only
    repeat' split
    all_goals simp [State.storesWf, hs]

@[simp] theorem rdmaWriteEffect_storesWf (h hseq a : Nat) (d : List Byte) (s : State) (hs : s.storesWf) :
    (rdmaWriteEffect h hseq a d s).storesWf :=
  state_packet_storesWf hs fun s hs => by
    split <;> simp [State.storesWf, hs]

@[simp] theorem rdmaSendEffect_stores (h hseq qpn : Nat) (d : List Byte) (s : State) :
    SameStores s (rdmaSendEffect h hseq qpn d s) :=
  state_packet_stores fun s => by
    repeat' split
    all_goals simp [SameStores]

@[simp] theorem unsupportedRequestEffect_stores (h hseq : Nat) (s : State) : SameStores s (unsupportedRequestEffect h hseq s) :=
  state_packet_stores fun s => by simp [SameStores]

end Sys2Proof.Machine
end

section
/-! SUPPORT. A step keeps the tile stores and HBM in canonical form (R9, R253): each command by what its effect does to
them, and a tick, which moves the clocks alone. -/

namespace Sys2Proof.Machine

/-- The state that an outcome goes on to, if any, has its stores in canonical form. -/
def OutcomeStoresWf (o : Out) : Prop := ∀ t, o = .next t → t.storesWf

theorem OutcomeStoresWf.next {t : State} (h : t.storesWf) : OutcomeStoresWf (.next t) := by
  rintro _ ⟨⟩
  exact h

section
variable {s : State} {i : Instr} {f : State → State} (hs : s.storesWf)
include hs

theorem inCore_keeps (hf : ∀ s, s.storesWf → (f s).storesWf) : OutcomeStoresWf (.next (s.inCore i f)) := by
  refine .next ?_
  unfold State.inCore State.core
  repeat' split
  · exact hs
  · exact hf s hs
  · exact hs

theorem inAlwaysOn_keeps (hf : ∀ s, s.storesWf → (f s).storesWf) : OutcomeStoresWf (.next (s.inAlwaysOn i f)) := by
  refine .next ?_
  unfold State.inAlwaysOn State.always
  repeat' split
  · exact hs
  · exact hf s hs
  · exact hs

theorem inWindow_keeps (hf : ∀ s, s.storesWf → (f s).storesWf) : OutcomeStoresWf (.next (s.inWindow i f)) := by
  refine .next ?_
  unfold State.inWindow
  split
  · exact hf s hs
  · exact hs

theorem inCore_same (hf : ∀ s, SameStores s (f s)) : OutcomeStoresWf (.next (s.inCore i f)) :=
  inCore_keeps hs fun s => (hf s).storesWf

theorem inAlwaysOn_same (hf : ∀ s, SameStores s (f s)) : OutcomeStoresWf (.next (s.inAlwaysOn i f)) :=
  inAlwaysOn_keeps hs fun s => (hf s).storesWf

theorem inWindow_same (hf : ∀ s, SameStores s (f s)) : OutcomeStoresWf (.next (s.inWindow i f)) :=
  inWindow_keeps hs fun s => (hf s).storesWf

theorem inWindow_write {m : Master} {a z v : Nat} : OutcomeStoresWf (.next (s.inWindow i fun s => s.writeAccess m a z v)) :=
  inWindow_keeps hs fun s => state_writeAccess_storesWf s _ _ _ _

theorem inWindow_read {m : Master} {a z : Nat} : OutcomeStoresWf (.next (s.inWindow i fun s => s.readAccess m a z)) :=
  inWindow_keeps hs fun s => state_readAccess_storesWf s _ _ _

end

/-- Every command keeps the stores in canonical form. -/
theorem exec_storesWf (i : Instr) (s : State) (hs : s.storesWf) : OutcomeStoresWf (exec i s) := by
  cases i with
  | commandIssue => exact inCore_keeps hs (streamIssueEffect_storesWf _)
  | prod => exact inCore_same hs (prodEffect_stores _)
  | tileStart => exact inCore_same hs (tileStartEffect_stores _)
  | promotion => exact inCore_keeps hs (promotionEffect_storesWf _)
  | drain => exact inCore_same hs (drainEffect_stores _ _)
  | accumulatorSwap => exact inCore_keeps hs (swapEffect_storesWf _)
  | slotBeatSend => exact inCore_same hs (slotBeatSendEffect_stores _)
  | rowred => exact inCore_keeps hs (rowIssue_storesWf _ _ _)
  | rowew => exact inCore_keeps hs (rowIssue_storesWf _ _ _)
  | rowfn => exact inCore_keeps hs (rowIssue_storesWf _ _ _)
  | rblk => exact inCore_keeps hs (rowIssue_storesWf _ _ _)
  | tblld => exact inCore_keeps hs (rowIssue_storesWf _ _ _)
  | rowCommandStart => exact inCore_keeps hs (rowCommandStartEffect_storesWf _)
  | stash => exact inCore_keeps hs (lnrIssue_storesWf _ _ _)
  | unstash => exact inCore_keeps hs (lnrIssue_storesWf _ _ _)
  | sreset => exact inCore_keeps hs (lnrIssue_storesWf _ _ _)
  | linerCommandStart => exact inCore_keeps hs (linerCommandStartEffect_storesWf _)
  | send => exact inCore_same hs (seamIssue_stores _ _)
  | write => exact inCore_same hs (seamIssue_stores _ _)
  | mcast => exact inCore_same hs (seamIssue_stores _ _)
  | post => exact inCore_same hs (seamIssue_stores _ _)
  | start => exact inCore_same hs (startEffect_stores _ _)
  | nop => exact inCore_same hs (nopEffect_stores _)
  | advance => exact inCore_same hs (advanceEffect_stores _ _)
  | slack => exact inCore_same hs (slackEffect_stores _ _)
  | waitcue => exact inCore_same hs (waitcueEffect_stores _ _)
  | postcue => exact inCore_same hs (postcueEffect_stores _)
  | sleep => exact inCore_same hs (sleepEffect_stores _)
  | unitGate => exact inCore_same hs (unitGateEffect_stores _)
  | wakeStart => exact inCore_same hs (wakeStartEffect_stores _)
  | wakeComplete => exact inCore_same hs (wakeCompleteEffect_stores _)
  | qbound => exact inCore_same hs (qboundEffect_stores _ _)
  | qwait => exact inCore_same hs (qwaitEffect_stores _ _)
  | qfree => exact inCore_same hs (qfreeEffect_stores _)
  | bgslot => exact inCore_same hs (bgslotEffect_stores _ _)
  | bgslotClose => exact inCore_same hs bgslotCloseEffect_stores
  | expand => exact inCore_same hs (expandEffect_stores _ _)
  | stepend => exact inCore_keeps hs (streamEndEffect_storesWf _ _)
  | zcIssue => exact inCore_keeps hs (zcIssueEffect_storesWf _ _)
  | zcWait => exact inCore_same hs (zcWaitEffect_stores _ _)
  | zcTime => exact inCore_same hs (zcTimeEffect_stores _ _)
  | zcCue => exact inCore_same hs (zcCueEffect_stores _ _)
  | zcCuewait => exact inCore_same hs (zcCuewaitEffect_stores _ _)
  | zcBeat => exact inCore_same hs (zcBeatEffect_stores _ _)
  | zcDone => exact inCore_same hs (zcDoneEffect_stores _ _)
  | beatArrival => exact inCore_same hs (beatArrivalEffect_stores _ _)
  | beatAdd => exact inCore_same hs (beatAddEffect_stores _ _ _)
  | windowEntry => exact inCore_same hs (windowEntryEffect_stores _ _)
  | ingressStallLimit => exact inCore_keeps hs (ingressStallLimitEffect_storesWf _ _)
  | slotTrigger => exact inCore_keeps hs (slotTriggerEffect_storesWf _ _)
  | slotOpen => exact inCore_same hs (slotOpenEffect_stores _ _)
  | cuffEntryStart => exact inCore_same hs (cuffEntryStartEffect_stores _)
  | hbmReadReturn => exact inCore_same hs (hbmReadReturnEffect_stores _)
  | hbmWriteAck => exact inCore_keeps hs (hbmWriteAckEffect_storesWf _)
  | noiseMessage => exact inCore_keeps hs (noiseMessageEffect_storesWf _ _ _ _ _)
  | refreshWindow => exact inCore_same hs (refreshWindowEffect_stores _)
  | backgroundQuantum => exact inCore_keeps hs (backgroundQuantumEffect_storesWf _)
  | forcedSlot => exact inCore_keeps hs (forcedSlotEffect_storesWf _)
  | touchListPost => exact inWindow_write hs
  | flashFetchComplete => exact inCore_keeps hs (flashFetchCompleteEffect_storesWf _ _)
  | abortMessage => exact inCore_keeps hs (abortMessageEffect_storesWf _ _ _)
  | censusRecord => exact inCore_keeps hs (censusRecordEffect_storesWf _ _ _ _ _)
  | censusSet => exact inCore_keeps hs (censusSetEffect_storesWf _ _)
  | censusTimeout => exact inCore_keeps hs censusTimeoutEffect_storesWf
  | migrationComplete => exact inCore_keeps hs migrationCompleteEffect_storesWf
  | readyCycleMessage => exact inCore_same hs (readyCycleMessageEffect_stores _ _)
  | frameReceive => exact inCore_same hs (frameReceiveEffect_stores _ _ _ _ _)
  | egressSlot => exact inCore_same hs (egressSlotEffect_stores _)
  | nak => exact inCore_keeps hs (nakEffect_storesWf _ _)
  | retryTimeout => exact inCore_keeps hs (retryTimeoutEffect_storesWf _)
  | latencyProbe => exact inCore_keeps hs (latencyProbeEffect_storesWf _ _)
  | discoveryIdentity => exact inCore_keeps hs (discoveryIdentityEffect_storesWf _ _ _)
  | alignmentFrame => exact inCore_keeps hs (alignmentFrameEffect_storesWf _ _ _)
  | laneFail => exact inCore_keeps hs (laneFailEffect_storesWf _ _)
  | laneChange => exact inCore_keeps hs (laneChangeEffect_storesWf _ _)
  | retrainComplete => exact inCore_keeps hs (retrainCompleteEffect_storesWf _ _ _)
  | qdataMessage => exact inCore_keeps hs (qdataMessageEffect_storesWf _)
  | qcredMessage => exact inCore_same hs (qcredMessageEffect_stores _)
  | cueMessage => exact inCore_same hs (cueMessageEffect_stores _)
  | writeMessage => exact inCore_keeps hs (writeMessageEffect_storesWf _)
  | mcastMessage => exact inCore_keeps hs (mcastMessageEffect_storesWf _ _)
  | ctrlMessage => exact inCore_same hs (ctrlMessageEffect_stores _)
  | atomicBurst => exact inCore_same hs (atomicBurstEffect_stores _ _)
  | burstClose => exact inCore_same hs (burstCloseEffect_stores _)
  | roundSend => exact inCore_same hs (roundSendEffect_stores _)
  | round => exact inCore_same hs (roundEffect_stores _)
  | commit => exact inCore_keeps hs (commitEffect_storesWf _)
  | join => exact inCore_same hs (joinEffect_stores _)
  | fetch => exact inCore_same hs (fetchEffect_stores _)
  | leaderCommit => exact inCore_keeps hs (leaderCommitEffect_storesWf _)
  | commitDeadline => exact inCore_keeps hs (commitDeadlineEffect_storesWf _)
  | siteSilent => exact inCore_same hs (siteSilentEffect_stores _)
  | memberRemoval => exact inCore_same hs (memberRemovalEffect_stores _ _)
  | deltaObject => exact inCore_same hs (deltaObjectEffect_stores _ _)
  | anchorObject => exact inCore_keeps hs (anchorObjectEffect_storesWf _ _)
  | classCFragment => exact inCore_same hs (classCFragmentEffect_stores _ _)
  | classCRelease => exact inCore_same hs (classCReleaseEffect_stores _ _)
  | classCResend => exact inCore_same hs (classCResendEffect_stores _ _)
  | classDFrame => exact inCore_same hs (classDFrameEffect_stores _ _)
  | probe => exact inCore_same hs (probeEffect_stores _ _)
  | feedbackReport => exact inCore_keeps hs (feedbackReportEffect_storesWf _ _ _)
  | probeTimer => exact inCore_same hs (probeTimerEffect_stores _)
  | feedbackTimer => exact inCore_same hs (feedbackTimerEffect_stores _)
  | routeDown => exact inCore_same hs (routeDownEffect_stores _ _)
  | packetTransmit => exact inCore_keeps hs (packetTransmitEffect_storesWf _)
  | neighborSolicitation => exact inCore_same hs (neighborSolicitationEffect_stores _ _)
  | echoRequest => exact inCore_same hs (echoRequestEffect_stores _ _ _)
  | macPause => exact inCore_same hs (macPauseEffect_stores _)
  | partnerLinkDown => exact inCore_same hs (partnerLinkDownEffect_stores _)
  | recordStart => exact inCore_same hs (recordStartEffect_stores _ _ _ _)
  | recordComplete => exact inCore_same hs (recordCompleteEffect_stores _ _ _ _ _ _ _)
  | hello => exact inCore_same hs (helloEffect_stores _ _)
  | finish => exact inCore_same hs (finishEffect_stores _ _)
  | keyupd => exact inCore_same hs (keyupdEffect_stores _ _ _)
  | keyack => exact inCore_same hs (keyackEffect_stores _ _)
  | keySlotOverwrite => exact inCore_same hs (keySlotOverwriteEffect_stores _)
  | rekeyTimer => exact inCore_same hs (rekeyTimerEffect_stores _)
  | handshakeTimeout => exact inCore_same hs (handshakeTimeoutEffect_stores _)
  | knownAnswerTest => exact inCore_keeps hs (knownAnswerTestEffect_storesWf _)
  | alarm => exact inAlwaysOn_keeps hs (alarmEffect_storesWf _)
  | reportSigned => exact inCore_same hs reportSignedEffect_stores
  | contact => exact inCore_same hs (contactEffect_stores _)
  | assign => exact inCore_same hs (assignEffect_stores _ _ _ _)
  | stop => exact inCore_same hs (stopEffect_stores _ _ _)
  | replace => exact inCore_same hs (replaceEffect_stores _ _ _ _)
  | controlResend => exact inCore_same hs (controlResendEffect_stores _)
  | contactRetry => exact inCore_same hs contactRetryEffect_stores
  | jobImageReadComplete => exact inCore_keeps hs jobImageReadCompleteEffect_storesWf
  | rdmaRead => exact inCore_keeps hs (rdmaReadEffect_storesWf _ _ _ _ _)
  | rdmaWrite => exact inCore_keeps hs (rdmaWriteEffect_storesWf _ _ _ _)
  | rdmaSend => exact inCore_same hs (rdmaSendEffect_stores _ _ _ _)
  | unsupportedRequest => exact inCore_same hs (unsupportedRequestEffect_stores _ _)
  | roceAckTimeout => exact inCore_same hs (roceAckTimeoutEffect_stores _)
  | cnp => exact inCore_same hs (cnpEffect_stores _)
  | dataDescriptorRead => exact inCore_same hs (dataDescriptorReadEffect_stores _ _)
  | ptpSync => exact inCore_keeps hs (ptpSyncEffect_storesWf _ _ _ _)
  | porstNAssert => exact inWindow_keeps hs fun s _ => porstNAssertEffect_storesWf s
  | porstNRelease => exact inWindow_same hs (porstNReleaseEffect_stores _)
  | resetNAssert => exact inWindow_keeps hs resetNAssertEffect_storesWf
  | pwrgoodFall => exact inWindow_keeps hs pwrgoodFallEffect_storesWf
  | bootStepComplete => exact inAlwaysOn_keeps hs (bootStepCompleteEffect_storesWf _)
  | selfRefreshConfirm => exact inAlwaysOn_same hs (selfRefreshConfirmEffect_stores _)
  | resetRelease => exact inAlwaysOn_keeps hs resetReleaseEffect_storesWf
  | alarmReset => exact inAlwaysOn_keeps hs alarmResetEffect_storesWf
  | marginEpochEnd => exact inCore_keeps hs marginEpochEndEffect_storesWf
  | frequencyProposal => exact inCore_keeps hs (frequencyProposalEffect_storesWf _ _ _)
  | switchCycleMessage => exact inCore_same hs (switchCycleMessageEffect_stores _ _)
  | frequencySwitch => exact inAlwaysOn_same hs frequencySwitchEffect_stores
  | clockRestart => exact inAlwaysOn_same hs clockRestartEffect_stores
  | powerSample => exact inAlwaysOn_same hs (powerSampleEffect_stores _)
  | temperatureSample => exact inAlwaysOn_keeps hs (temperatureSampleEffect_storesWf _)
  | faultReport => exact inAlwaysOn_keeps hs (faultReportEffect_storesWf _ _ _ _ _)
  | escalationNotify => exact inAlwaysOn_same hs (escalationNotifyEffect_stores _)
  | escalationIsolate => exact inAlwaysOn_keeps hs (escalationIsolateEffect_storesWf _)
  | escalationSafe => exact inAlwaysOn_keeps hs (escalationSafeEffect_storesWf _)
  | ackDismiss => exact inWindow_write hs
  | ackAbort => exact inWindow_write hs
  | ackIsolate => exact inWindow_write hs
  | ackSafe => exact inWindow_write hs
  | openDismiss => exact inWindow_write hs
  | wdtKick => exact inWindow_write hs
  | watchdogExpiry => exact inAlwaysOn_keeps hs (watchdogExpiryEffect_storesWf _)
  | unfreeze => exact inWindow_write hs
  | paritySweep => exact inAlwaysOn_keeps hs (paritySweepEffect_storesWf _)
  | dlogPost => exact inWindow_write hs
  | telemetryPeriod => exact inCore_same hs telemetryPeriodEffect_stores
  | histogramClear => exact inWindow_write hs
  | attest => exact inWindow_write hs
  | fullReset => exact inWindow_write hs
  | ringTailWrite => exact inWindow_write hs
  | cueWrite => exact inWindow_write hs
  | evqConsWrite => exact inWindow_write hs
  | testAccessRead => exact inWindow_read hs
  | lowWordRead => exact inWindow_read hs
  | registerWrite => exact inWindow_write hs
  | setAliasWrite => exact inWindow_write hs
  | clearAliasWrite => exact inWindow_write hs
  | toggleAliasWrite => exact inWindow_write hs
  | mittenBitAliasWrite => exact inWindow_write hs
  | jtagInstruction => exact inWindow_same hs (jtagEffect_stores _)
  | hostPortLinkDown => exact inCore_same hs (hostLinkDown_stores _)
  | portLinkUp => exact inCore_same hs (portLinkUpEffect_stores _)
  | roceResponse => exact inCore_keeps hs (roceResponseEffect_storesWf _ _ _)
  | roceRateRecovery => exact inCore_same hs (roceRateRecoveryEffect_stores _)
  | flashProgramComplete => exact inCore_keeps hs (flashProgramCompleteEffect_storesWf _ _ _)
  | replanHoldoverTimeout => exact inAlwaysOn_keeps hs replanHoldoverTimeoutEffect_storesWf
  | frequencyAgreementTimeout => exact inCore_keeps hs frequencyAgreementTimeoutEffect_storesWf
  | handshakeRestart => exact inCore_same hs (handshakeRestartEffect_stores _)
  | zcWaitResume => exact inCore_same hs (zcWaitResumeEffect_stores _)
  | registerRead => exact inWindow_read hs
  | neighborAdvertisement => exact inCore_same hs (neighborAdvertisementEffect_stores _ _ _)

end Sys2Proof.Machine
end

section
open Sys2Proof Sys2Proof.Machine

/-- Settles O9: it holds. A command leaves HBM and the tile stores in canonical form (`exec_storesWf`), since all it stores
there are bytes written to a memory in that form; a tick leaves both as they are. -/
theorem stepKeepsStoresCanonical : Obligations.StepKeepsStoresCanonical := by
  unfold Obligations.StepKeepsStoresCanonical
  intro s t hs h
  unfold step at h
  split at h
  · exact OutcomeStoresWf.next ((state_tick_stores s).storesWf hs) t h
  · refine exec_storesWf _ _ ?_ t h
    exact hs

end

section
/-! SUPPORT. How a command comes to a unit that holds its commands in order of issue, and the rules of the row units
(04_backward_pass, R118): when a command waits, when it starts, and what its start changes. -/

namespace Sys2Proof.Machine

/-! ### A command at its unit -/

/-- A command issued now outside a stream, as a unit holds it: with its cycle, the step of its draws and the layout epoch
(R50, R118, R134). -/
def State.heldNow (s : State) (c : Cmd) : HeldCmd :=
  { cmd := c, issue := s.now, step := s.stepNow, lepoch := s.fld Reg.seqEpoch 0 16 }

/-- A unit that is not isolated acts on its command (R488). -/
theorem toUnit_run {s : State} {unit : Nat} (h : s.isolated unit = false) (f : State → State) : s.toUnit unit f = f s := by
  simp [State.toUnit, h]

/-- A unit with nothing held that is free by now starts a command at once (R118, R134). -/
theorem idle {α : Type} {held : List α} {busyTo now : Nat} (hh : held = []) (hb : busyTo ≤ now) :
    (held.isEmpty && decide (busyTo ≤ now)) = true := by
  rw [Bool.and_eq_true, List.isEmpty_iff, decide_eq_true_eq]
  exact ⟨hh, hb⟩

/-- A unit with a command held, or busy, does not. -/
theorem not_idle {α : Type} {held : List α} {busyTo now : Nat} (hb : held ≠ [] ∨ now < busyTo) :
    ¬ (held.isEmpty && decide (busyTo ≤ now)) = true := by
  rw [Bool.and_eq_true, List.isEmpty_iff, decide_eq_true_eq]
  rintro ⟨hh, hle⟩
  exact hb.elim (fun hne => hne hh) (Nat.not_lt.2 hle)

/-- The present cycle has come already. -/
@[simp] theorem atCycle_now (s : State) : s.atCycle s.now = s := if_pos (Nat.le_refl _)

/-- A write of the tile stores takes the place of the lines that are due by then (R97). -/
@[simp] theorem setTile_tileNow (s : State) (m : Memory) : (s.setTile m).tileNow = m := by
  have hdue : (s.tileDue.filter fun w => decide (s.now < w.1)).filter (fun w => decide (w.1 < s.now + 1)) = [] := by
    rw [List.filter_filter, List.filter_eq_nil_iff]
    intro w _
    simp only [Bool.and_eq_true, decide_eq_true_eq]
    omega
  exact congrArg (List.foldl (fun m w => m.write w.2.1 w.2.2) m) hdue

/-! ### A row-unit command that starts (R118) -/

/-- The start of a row-unit command changes registers, tile stores, row units and the clock alone. -/
theorem rowStart_frame (s : State) (n : Nat) (k : RowOp) (h : HeldCmd) (start : Nat) :
    let t := s.rowStart n k h start
    t = { s with regs := t.regs, tile := t.tile, tileDue := t.tileDue, tileWas := t.tileWas, row := t.row
                 clk := t.clk } := by
  obtain ⟨c, e⟩ := atCycle_clk s start
  simp only [State.rowStart, e]
  rfl

@[simp] theorem rowStart_clk (s : State) (n : Nat) (k : RowOp) (h : HeldCmd) (start : Nat) :
    (s.rowStart n k h start).clk = (s.atCycle start).clk := rfl

theorem rowStart_now (s : State) (n : Nat) (k : RowOp) (h : HeldCmd) {start : Nat} (hs : start < 2 ^ 64) :
    (s.rowStart n k h start).now = max s.now start := state_atCycle_now s start hs

/-- The tile stores hold what the command's rule puts there. -/
theorem rowStart_tile (s : State) (n : Nat) (k : RowOp) (h : HeldCmd) (start : Nat) :
    (s.rowStart n k h start).tile = (runRow (s.atCycle start).landedTiles n k h start).tile := rfl

theorem rowStart_tileNow (s : State) (n : Nat) (k : RowOp) (h : HeldCmd) (start : Nat) :
    (s.rowStart n k h start).tileNow = (runRow (s.atCycle start).landedTiles n k h start).tile :=
  setTile_tileNow (s.atCycle start) _

/-- The unit is as the command's rule leaves it, and busy for the command's cycles. -/
theorem rowStart_rowUnit_self (s : State) (n : Nat) (k : RowOp) (h : HeldCmd) (start : Nat) :
    let r := runRow (s.atCycle start).landedTiles n k h start
    (s.rowStart n k h start).rowUnit n = { r.unit with busyTo := start + r.cycles } := Tbl.get_set_self _ _ _ _

theorem rowStart_rowUnit_ne (s : State) {n j : Nat} (k : RowOp) (h : HeldCmd) (start : Nat) (hj : j ≠ n) :
    (s.rowStart n k h start).rowUnit j = s.rowUnit j := by
  obtain ⟨c, e⟩ := atCycle_clk s start
  refine (Tbl.get_set_ne _ _ _ _ _ hj).trans ?_
  rw [e]
  rfl

/-! ### Row-unit commands in order (R118) -/

/-- The commands of the row units and their kinds. -/
def rowInstrs (c : Cmd) : List (Instr × RowOp) :=
  [(.rowred c, .red), (.rowew c, .ew), (.rowfn c, .fn), (.rblk c, .rblk), (.tblld c, .tblld)]

/-- A row-unit command given outside a stream is issued to its unit under the current step (R50). -/
theorem exec_rowInstr {s : State} (hr : s.coreRunning) {c : Cmd} {i : Instr} {k : RowOp} (hi : (i, k) ∈ rowInstrs c)
    (hw : wellFormed i = true) : exec i s = .next (rowIssue k c s.stepNow s) := by
  simp only [rowInstrs, List.mem_cons, List.not_mem_nil, or_false, Prod.mk.injEq] at hi
  rcases hi with ⟨rfl, rfl⟩ | ⟨rfl, rfl⟩ | ⟨rfl, rfl⟩ | ⟨rfl, rfl⟩ | ⟨rfl, rfl⟩ <;>
    exact congrArg _ (inCore_run hr _ hw _)

/-- Behind another command, or while its unit is busy, a command waits. -/
theorem rowIssue_waits {s : State} {c : Cmd} (hi : s.isolated (cmdUnit c) = false)
    (hb : (s.rowUnit (cmdUnit c - 0x80)).held ≠ [] ∨ s.now < (s.rowUnit (cmdUnit c - 0x80)).busyTo) (k : RowOp) :
    rowIssue k c s.stepNow s = { s with row := s.row.set (cmdUnit c - 0x80) { s.rowUnit (cmdUnit c - 0x80) with
      held := (s.rowUnit (cmdUnit c - 0x80)).held ++ [(k, s.heldNow c)] } } := by
  rw [rowIssue, toUnit_run hi]
  exact if_neg (not_idle hb)

/-- On an idle unit a command starts at its issue. -/
theorem rowIssue_starts {s : State} {c : Cmd} (hi : s.isolated (cmdUnit c) = false)
    (hh : (s.rowUnit (cmdUnit c - 0x80)).held = []) (hb : (s.rowUnit (cmdUnit c - 0x80)).busyTo ≤ s.now) (k : RowOp) :
    rowIssue k c s.stepNow s = s.rowStart (cmdUnit c - 0x80) k (s.heldNow c) s.now := by
  rw [rowIssue, toUnit_run hi]
  exact if_pos (idle hh hb)

/-- The command held longest starts at its issue or when its unit is free, and leaves the list of held ones. -/
theorem rowCommandStartEffect_starts {s : State} {n : Nat} {k : RowOp} {h : HeldCmd} {rest : List (RowOp × HeldCmd)}
    (hi : s.isolated (0x80 + n) = false) (hh : (s.rowUnit n).held = (k, h) :: rest) :
    rowCommandStartEffect n s = State.rowStart { s with row := s.row.set n { s.rowUnit n with held := rest } } n k h
      (max (s.rowUnit n).busyTo h.issue) := by
  simp [rowCommandStartEffect, hh, hi]

/-- A unit's held commands changed are no other unit's. -/
theorem rowUnit_set_ne (s : State) {n j : Nat} (u : RowUnit) (hj : j ≠ n) :
    ({ s with row := s.row.set n u } : State).rowUnit j = s.rowUnit j := Tbl.get_set_ne _ _ _ _ _ hj

end Sys2Proof.Machine
end

section
open Sys2Proof Sys2Proof.Machine

/-- Settles O13: it holds. A command behind others is appended to its unit's held ones (`rowIssue_waits`); one that starts,
at its issue (`rowIssue_starts`) or later (`rowCommandStartEffect_starts`), runs whole as `rowStart` says. -/
theorem rowCommandsRunInOrder : Obligations.RowCommandsRunInOrder := by
  unfold Obligations.RowCommandsRunInOrder
  refine ⟨?_, ?_, ?_⟩
  · intro c s i k hr hi hw hu u hb
    rw [exec_rowInstr hr hi hw, rowIssue_waits hu hb]
    rfl
  · intro c s i k hr hi hw hu n r hh hb
    have hself := rowStart_rowUnit_self s n k (s.heldNow c) s.now
    have hframe := rowStart_frame s n k (s.heldNow c) s.now
    have htile := rowStart_tile s n k (s.heldNow c) s.now
    have hnow := rowStart_tileNow s n k (s.heldNow c) s.now
    simp only [rowStart_clk, atCycle_now] at hself hframe htile hnow
    have hexec : exec i s = .next (s.rowStart n k (s.heldNow c) s.now) := by
      rw [exec_rowInstr hr hi hw, rowIssue_starts hu hh hb]
    refine ⟨_, hexec, hframe, hnow, fun j hj => rowStart_rowUnit_ne s k _ _ hj, htile, ?_⟩
    rw [hself]
    exact ⟨rfl, rfl, rfl⟩
  · intro n s k h rest hr hn hu hh start s' r
    have hself := rowStart_rowUnit_self s' n k h start
    have hexec : exec (.rowCommandStart n) s = .next (s'.rowStart n k h start) :=
      congrArg _ ((inCore_run hr (.rowCommandStart n) (decide_eq_true hn) _).trans (rowCommandStartEffect_starts hu hh))
    refine ⟨_, hexec, rowStart_frame s' n k h start,
      fun j hj => (rowStart_rowUnit_ne s' k h start hj).trans (rowUnit_set_ne s _ hj),
      fun hs => rowStart_now s' n k h hs, rowStart_tile s' n k h start, ?_⟩
    rw [hself]
    exact ⟨rfl, rfl⟩

end

section
/-! SUPPORT. Registers, tables and HBM accesses as the Liner uses them: reads after writes, and what an access changes. -/

namespace Sys2Proof.Machine

/-! ### Reads of tables and registers -/

/-- A filter on keys hides the keys that do not pass it, and no others. -/
theorem Tbl.get?_filter {α : Type} (t : Tbl α) (p : Nat → Bool) (k : Nat) :
    Tbl.get? (t.filter fun x => p x.1) k = if p k then Tbl.get? t k else none := by
  rw [Tbl.get?, Tbl.find?_filter]
  split <;> rfl

/-- A 64-bit pair reads as written. -/
theorem pair_putPair_self (r : Tbl Word) (a : Nat) {v : Nat} (h : v < 2 ^ 64) : Regs.pair (Regs.putPair r a v) a = v := by
  rw [Regs.pair, Regs.putPair, Regs.nat_put_self, Regs.nat_put_ne _ _ _ _ (by omega), Regs.nat_put_self]
  omega

theorem pair_lt (r : Tbl Word) (a : Nat) : Regs.pair r a < 2 ^ 64 := by
  have hlo := regs_nat_lt r a
  have hhi := regs_nat_lt r (a + 4)
  unfold Regs.pair
  omega

/-- A count changes its counter and its counter's SAT register alone (R8, R497). -/
theorem nat_count_ne (r : Tbl Word) {a k : Nat} (n : Nat) (h : k ≠ a) (hs : ∀ x ∈ satOf a, k ≠ x.1) :
    Regs.nat (Regs.count r a n) k = Regs.nat r k := by
  unfold Regs.count
  dsimp only
  split
  case isTrue => rfl
  case isFalse =>
    split
    case isTrue => exact Regs.nat_put_ne _ _ _ _ h
    case isFalse =>
      cases e : satOf a with
      | none => exact Regs.nat_put_ne _ _ _ _ h
      | some x => exact (Regs.nat_put_ne _ _ _ _ (hs x e)).trans (Regs.nat_put_ne _ _ _ _ h)

@[simp] theorem b2n_false : b2n false = 0 := rfl

@[simp] theorem regs_count_zero (r : Tbl Word) (a : Nat) : Regs.count r a 0 = r := rfl

@[simp] theorem regs_count64_zero (r : Tbl Word) (a : Nat) : Regs.count64 r a 0 = r := rfl

/-- Registers cleared one after the other: those read 0, the others as before. -/
theorem nat_clearAll (f : Nat → Nat) (l : List Nat) (r : Tbl Word) (k : Nat) :
    Regs.nat (l.foldl (fun r w => Regs.put r (f w) 0) r) k = if ∃ w ∈ l, k = f w then 0 else Regs.nat r k := by
  induction l generalizing r with
  | nil => simp
  | cons w l ih =>
    rw [List.foldl_cons, ih]
    by_cases hk : k = f w
    · simp [hk]
    · simp [hk, Regs.nat_put_ne _ _ _ _ hk]

/-! ### Accesses of a stream to HBM (R140, R255) -/

/-- A stream's access changes of the partitions the use of their banks alone. -/
theorem streamAccess_partition (s : State) (a n t p : Nat) :
    (s.streamAccess a n t).1.partition p =
      { s.partition p with bankUse := ((s.streamAccess a n t).1.partition p).bankUse } := by
  unfold State.streamAccess
  dsimp only
  split
  · rfl
  · by_cases hp : p = stackOf a
    · subst hp
      simp [State.partition]
    · simp [State.partition, Tbl.get_set_ne _ _ _ _ _ hp]

/-- A stream of no bytes makes no access. -/
@[simp] theorem streamAccess_zero (s : State) (a t : Nat) : s.streamAccess a 0 t = (s, 0) := by
  simp [State.streamAccess]

/-- Changes of cues noted change the cues' histories alone (R244). -/
theorem noteCues_frame (c t old new : Nat → Nat) (now : Nat) (l : List Nat) (q : Sequencer) :
    let q' := l.foldl (fun q i => noteCue q (c i) (t i) (old i) (new i) now) q
    q' = { q with cueHist := q'.cueHist } := by
  induction l generalizing q with
  | nil => rfl
  | cons i l ih => exact ih (noteCue q (c i) (t i) (old i) (new i) now)

end Sys2Proof.Machine
end

section
/-! SUPPORT. The rules of the Liner (04_backward_pass, R134 to R142): when a command waits, when it streams, what its start
changes, and what an SRESET leaves of its stage. -/

namespace Sys2Proof.Machine

/-! ### A Liner command that starts (R134, R140) -/

/-- The start of a Liner command changes registers, tile stores, HBM, partitions, the Liner, the histories of the cues and
the clock alone. -/
theorem lnrStart_frame (s : State) (cl : Nat) (k : LnrOp) (h : HeldCmd) (start : Nat) :
    let t := s.lnrStart cl k h start
    t = { s with regs := t.regs, tile := t.tile, tileDue := t.tileDue, tileWas := t.tileWas, part := t.part, hbm := t.hbm
                 lnr := t.lnr, clk := t.clk, seq := { s.seq with cueHist := t.seq.cueHist } } := by
  intro t
  obtain ⟨c, e⟩ := atCycle_clk s start
  have hseq : t.seq = { s.seq with cueHist := t.seq.cueHist } := by
    simp only [t, State.lnrStart, e]
    exact noteCues_frame _ _ _ _ _ _ _
  rw [← hseq]
  simp only [t, State.lnrStart, e]
  rfl

/-- Partitions keep all but the use of their banks. -/
theorem lnrStart_partition (s : State) (cl : Nat) (k : LnrOp) (h : HeldCmd) (start p : Nat) :
    (s.lnrStart cl k h start).partition p =
      { s.partition p with bankUse := ((s.lnrStart cl k h start).partition p).bankUse } := by
  obtain ⟨c, e⟩ := atCycle_clk s start
  simp only [State.lnrStart, e]
  exact streamAccess_partition _ _ _ _ p

@[simp] theorem lnrStart_clk (s : State) (cl : Nat) (k : LnrOp) (h : HeldCmd) (start : Nat) :
    (s.lnrStart cl k h start).clk = (s.atCycle start).clk := rfl

theorem lnrStart_now (s : State) (cl : Nat) (k : LnrOp) (h : HeldCmd) {start : Nat} (hs : start < 2 ^ 64) :
    (s.lnrStart cl k h start).now = max s.now start := state_atCycle_now s start hs

/-- HBM, the tile stores and the directory hold what the command's rule puts there. -/
theorem lnrStart_stores (s : State) (cl : Nat) (k : LnrOp) (h : HeldCmd) (start : Nat) :
    let t := s.lnrStart cl k h start
    let r := runLnr (s.atCycle start).landedTiles k h
    t.tile = r.tile ∧ t.tileNow = r.tile ∧ t.hbm = r.hbm ∧ t.lnr.dir = r.lnr.dir ∧ t.lnr.scrDir = r.lnr.scrDir ∧
      (t.lnr.queues.get {} cl).streamTo = start + r.stream := by
  unfold State.lnrStart
  dsimp only
  cases stashStage k h.cmd <;>
    exact ⟨rfl, setTile_tileNow (s.atCycle start) _, rfl, rfl, rfl,
      congrArg LnrQueue.streamTo (Tbl.get_set_self _ _ _ _)⟩

/-! ### Liner commands in order (R134) -/

/-- The commands of the Liner and their kinds. -/
def lnrInstrs (c : Cmd) : List (Instr × LnrOp) := [(.stash c, .stash), (.unstash c, .unstash), (.sreset c, .sreset)]

/-- A Liner command given outside a stream is issued under the current step (R50). -/
theorem exec_lnrInstr {s : State} (hr : s.coreRunning) {c : Cmd} {i : Instr} {k : LnrOp} (hi : (i, k) ∈ lnrInstrs c)
    (hw : wellFormed i = true) : exec i s = .next (lnrIssue k c s.stepNow s) := by
  simp only [lnrInstrs, List.mem_cons, List.not_mem_nil, or_false, Prod.mk.injEq] at hi
  rcases hi with ⟨rfl, rfl⟩ | ⟨rfl, rfl⟩ | ⟨rfl, rfl⟩ <;> exact congrArg _ (inCore_run hr _ hw _)

/-- The queue of a cluster's Liner commands. -/
def State.lnrQueue (s : State) (cl : Nat) : LnrQueue := s.lnr.queues.get {} cl

/-- The state with the held commands of a cluster's queue replaced. -/
def State.withLnrHeld (s : State) (cl : Nat) (l : List (LnrOp × HeldCmd)) : State :=
  { s with lnr := { s.lnr with queues := s.lnr.queues.set cl { s.lnrQueue cl with held := l } } }

/-- Behind another command, or while its cluster streams, a command waits. -/
theorem lnrIssue_waits {s : State} {k : LnrOp} {c : Cmd}
    (hb : (s.lnrQueue (LnrCmd.of k c).cluster).held ≠ [] ∨ s.now < (s.lnrQueue (LnrCmd.of k c).cluster).streamTo) :
    lnrIssue k c s.stepNow s = s.withLnrHeld (LnrCmd.of k c).cluster
      ((s.lnrQueue (LnrCmd.of k c).cluster).held ++ [(k, s.heldNow c)]) := if_neg (not_idle hb)

/-- On an idle cluster a command streams from its issue. -/
theorem lnrIssue_starts {s : State} {k : LnrOp} {c : Cmd} (hh : (s.lnrQueue (LnrCmd.of k c).cluster).held = [])
    (hb : (s.lnrQueue (LnrCmd.of k c).cluster).streamTo ≤ s.now) :
    lnrIssue k c s.stepNow s = s.lnrStart (LnrCmd.of k c).cluster k (s.heldNow c) s.now :=
  if_pos (idle hh hb)

/-- The command held longest starts at its issue or when its cluster's streaming ends. -/
theorem linerCommandStartEffect_starts {s : State} {cl : Nat} {k : LnrOp} {h : HeldCmd} {rest : List (LnrOp × HeldCmd)}
    (hh : (s.lnrQueue cl).held = (k, h) :: rest) :
    linerCommandStartEffect cl s = (s.withLnrHeld cl rest).lnrStart cl k h (max (s.lnrQueue cl).streamTo h.issue) := by
  rw [State.lnrQueue] at hh
  unfold linerCommandStartEffect
  dsimp only
  rw [hh]
  rfl

/-! ### SRESET (R142) -/

/-- A stage named by a command is one of four. -/
theorem lnrCmd_stage_lt (k : LnrOp) (c : Cmd) : (LnrCmd.of k c).stage < 4 := Nat.mod_lt _ (by decide)

/-- A violation counted leaves the registers of the stages as they are (R8). -/
theorem nat_count_lnrEvcViol (r : Tbl Word) (n : Nat) {k : Nat} (h : Reg.lnrEvcSat < k) :
    Regs.nat (Regs.count r Reg.lnrEvcViol n) k = Regs.nat r k := by
  have hsat : satOf Reg.lnrEvcViol = some (Reg.lnrEvcSat, 6) := by decide
  refine nat_count_ne r n (by unfold Reg.lnrEvcViol; unfold Reg.lnrEvcSat at h; omega) ?_
  rw [hsat]
  rintro x ⟨⟩
  exact Nat.ne_of_gt h

/-- A violation counted leaves BASE of a stage as it is. -/
theorem pair_count_base (r : Tbl Word) (n st : Nat) :
    Regs.pair (Regs.count r Reg.lnrEvcViol n) (Reg.lnrSBaseLo st) = Regs.pair r (Reg.lnrSBaseLo st) := by
  rw [Regs.pair, nat_count_lnrEvcViol, nat_count_lnrEvcViol, Regs.pair] <;>
    simp only [Reg.lnrEvcSat, Reg.lnrSBaseLo] <;> omega

/-- A violation counted leaves the directory span of a stage as it is. -/
theorem fld_count_dir (r : Tbl Word) (n st lo w : Nat) :
    Regs.fld (Regs.count r Reg.lnrEvcViol n) (Reg.lnrSDir st) lo w = Regs.fld r (Reg.lnrSDir st) lo w := by
  rw [Regs.fld, nat_count_lnrEvcViol, Regs.fld]
  simp only [Reg.lnrEvcSat, Reg.lnrSDir]
  omega

/-- The reset of its stage that an SRESET makes: its reserved bits are counted first (R142, R8). -/
def State.sresetOf (s : State) (c : Cmd) : Liner × Tbl Word :=
  resetStage s.lnr (Regs.count s.regs Reg.lnrEvcViol (b2n (LnrCmd.of .sreset c).reserved)) (LnrCmd.of .sreset c).stage

/-- An SRESET that starts when issued leaves the registers as the reset of its stage does: it has no hold, streams in no
cycle and makes no access. -/
theorem lnrStart_sreset_regs (s : State) (cl : Nat) (c : Cmd) :
    (s.lnrStart cl .sreset (s.heldNow c) s.now).regs = (s.sresetOf c).2 := by
  have hbusy (b : Nat) : s.now - max s.now b = 0 := Nat.sub_eq_zero_of_le (Nat.le_max_left _ _)
  simp only [State.lnrStart, atCycle_now, runLnr, runSreset, stashStage, State.heldNow, State.sresetOf, State.landedTiles,
    reduceCtorEq, if_false, streamAccess_zero, Nat.add_zero, Nat.sub_self, bne_self_eq_false, b2n_false, regs_count_zero,
    regs_count64_zero, hbusy]

/-- It leaves the directories as the reset of its stage does, and moves nothing. -/
theorem lnrStart_sreset_stores (s : State) (cl : Nat) (c : Cmd) :
    let t := s.lnrStart cl .sreset (s.heldNow c) s.now
    t.hbm = s.hbm ∧ t.tileNow = s.tileNow ∧ t.eng = s.eng ∧ t.row = s.row ∧
      t.lnr.dir = (s.sresetOf c).1.dir ∧ t.lnr.scrDir = (s.sresetOf c).1.scrDir := by
  intro t
  have hframe : t = _ := lnrStart_frame s cl .sreset (s.heldNow c) s.now
  have hstores := lnrStart_stores s cl .sreset (s.heldNow c) s.now
  simp only [atCycle_now] at hstores
  obtain ⟨-, hnow, hhbm, hdir, hscr, -⟩ := hstores
  exact ⟨hhbm, hnow, by rw [hframe], by rw [hframe], hdir, hscr⟩

/-- The reset of a stage clears its RECOMP bits and moves its head; of the registers below the cues it changes no other but
`LNR_Ss_FULL`. -/
theorem nat_resetStage (l : Liner) (r : Tbl Word) {st k : Nat} (hk : k < Reg.seqCueHw 0) (hf : k ≠ Reg.lnrSFull st) :
    Regs.nat (resetStage l r st).2 k = if ∃ w ∈ List.range 8, k = Reg.lnrSRecomp0 st + 4 * w then 0
      else Regs.nat (setHead r st (Regs.pair r (Reg.lnrSBaseLo st))) k := by
  have hcue (i : Nat) : k ≠ Reg.seqCueHw i := by
    unfold Reg.seqCueHw at hk ⊢
    omega
  rw [resetStage, Regs.nat_put_ne _ _ _ _ (hcue _), Regs.nat_put_ne _ _ _ _ (hcue _), Regs.putFld,
    Regs.nat_put_ne _ _ _ _ hf, nat_clearAll]

/-- After an SRESET the head stands at BASE (R142). -/
theorem pair_resetStage_head (l : Liner) (r : Tbl Word) {st : Nat} (hst : st < 4) :
    Regs.pair (resetStage l r st).2 (Reg.lnrSHeadLo st) = Regs.pair r (Reg.lnrSBaseLo st) := by
  have hword {k : Nat} (hk : k = Reg.lnrSHeadLo st ∨ k = Reg.lnrSHeadLo st + 4) : Regs.nat (resetStage l r st).2 k =
      Regs.nat (Regs.putPair r (Reg.lnrSHeadLo st) (Regs.pair r (Reg.lnrSBaseLo st))) k := by
    simp only [Reg.lnrSHeadLo] at hk
    rw [nat_resetStage, if_neg, setHead, nat_putPair_ne]
    case hnc =>
      rintro ⟨w, _, hw⟩
      simp only [Reg.lnrSRecomp0] at hw
      omega
    all_goals
      simp only [Reg.lnrSHwmLo, Reg.lnrSFull, Reg.seqCueHw]
      omega
  rw [Regs.pair, hword (Or.inl rfl), hword (Or.inr rfl)]
  exact pair_putPair_self r _ (pair_lt r _)

/-- After an SRESET no micro-batch is marked for recompute (R142). -/
theorem nat_resetStage_recomp (l : Liner) (r : Tbl Word) {st w : Nat} (hst : st < 4) (hw : w < 8) :
    Regs.nat (resetStage l r st).2 (Reg.lnrSRecomp0 st + 4 * w) = 0 := by
  rw [nat_resetStage, if_pos ⟨w, List.mem_range.2 hw, rfl⟩] <;>
    simp only [Reg.lnrSRecomp0, Reg.lnrSFull, Reg.seqCueHw] <;> omega

/-- After an SRESET the stash of the stage is not full (R142). -/
theorem fld_resetStage_full (l : Liner) (r : Tbl Word) {st : Nat} (hst : st < 4) :
    Regs.fld (resetStage l r st).2 (Reg.lnrSFull st) 0 9 = 0 := by
  have hcue (i : Nat) : Reg.lnrSFull st ≠ Reg.seqCueHw i := by
    unfold Reg.lnrSFull Reg.seqCueHw
    omega
  rw [resetStage, Regs.fld, Regs.nat_put_ne _ _ _ _ (hcue _), Regs.nat_put_ne _ _ _ _ (hcue _)]
  exact state_putFld_fld { regs := _ } (Reg.lnrSFull st) 0 9 0 (by decide)

/-- After an SRESET the directory of the stage is empty (R142). -/
theorem resetStage_dir (l : Liner) (r : Tbl Word) {st e : Nat} (hlo : Regs.fld r (Reg.lnrSDir st) 0 16 ≤ e)
    (hhi : e < Regs.fld r (Reg.lnrSDir st) 0 16 + 256 * Regs.fld r (Reg.lnrSDir st) 16 16) :
    Tbl.get? (resetStage l r st).1.dir e = none := by
  refine (Tbl.get?_filter _ (fun j => !(decide (Regs.fld r (Reg.lnrSDir st) 0 16 ≤ j) &&
    decide (j < Regs.fld r (Reg.lnrSDir st) 0 16 + 256 * Regs.fld r (Reg.lnrSDir st) 16 16))) e).trans (if_neg ?_)
  simp [hlo, hhi]

/-- After an SRESET the scratch directory of the stage is empty (R142). -/
theorem resetStage_scrDir (l : Liner) (r : Tbl Word) {st e : Nat} (he : e / 65536 = st) :
    Tbl.get? (resetStage l r st).1.scrDir e = none := by
  refine (Tbl.get?_filter _ (fun j => j / 65536 != st) e).trans (if_neg ?_)
  simp [he]

end Sys2Proof.Machine
end

section
open Sys2Proof Sys2Proof.Machine

/-- Settles O14: it holds. A command behind others is appended to its cluster's held ones (`lnrIssue_waits`); one that
starts, at its issue (`lnrIssue_starts`) or later (`linerCommandStartEffect_starts`), runs whole as `lnrStart` says; an
SRESET then leaves of its stage what `resetStage` does. -/
theorem linerCommandsRunInOrder : Obligations.LinerCommandsRunInOrder := by
  unfold Obligations.LinerCommandsRunInOrder
  refine ⟨?_, ⟨?_, ?_⟩, ?_⟩
  · intro c s i k hr hi hw cl q hb
    rw [exec_lnrInstr hr hi hw, lnrIssue_waits hb]
    rfl
  · intro c s i k hr hi hw cl q r hh hb
    have hexec : exec i s = .next (s.lnrStart cl k (s.heldNow c) s.now) := by
      rw [exec_lnrInstr hr hi hw, lnrIssue_starts hh hb]
    have hframe := lnrStart_frame s cl k (s.heldNow c) s.now
    have hstores := lnrStart_stores s cl k (s.heldNow c) s.now
    simp only [lnrStart_clk, atCycle_now] at hframe hstores
    obtain ⟨-, hnow, hhbm, hdir, -, hstream⟩ := hstores
    exact ⟨_, hexec, hframe, lnrStart_partition s cl k (s.heldNow c) s.now, hnow, hhbm, hdir, hstream⟩
  · intro cl s k h rest hr hcl hh start s' r
    have hexec : exec (.linerCommandStart cl) s = .next (s'.lnrStart cl k h start) :=
      congrArg _ ((inCore_run hr (.linerCommandStart cl) (decide_eq_true hcl) _).trans (linerCommandStartEffect_starts hh))
    obtain ⟨htile, -, hhbm, hdir, -, -⟩ := lnrStart_stores s' cl k h start
    exact ⟨_, hexec, lnrStart_frame s' cl k h start, fun hs => lnrStart_now s' cl k h hs, htile, hhbm, hdir⟩
  · intro c s hr hw x q hh hb
    have hmem : (Instr.sreset c, LnrOp.sreset) ∈ lnrInstrs c := by simp [lnrInstrs]
    have hexec : exec (.sreset c) s = .next (s.lnrStart x.cluster .sreset (s.heldNow c) s.now) := by
      rw [exec_lnrInstr hr hmem hw, lnrIssue_starts hh hb]
    obtain ⟨hhbm, htile, heng, hrow, hdir, hscr⟩ := lnrStart_sreset_stores s x.cluster c
    have hregs := lnrStart_sreset_regs s x.cluster c
    have hst : x.stage < 4 := lnrCmd_stage_lt _ c
    refine ⟨_, hexec, hhbm, htile, heng, hrow, ?_, fun e hlo hhi => ?_, fun e he => ?_, fun w hw8 => ?_, ?_⟩
    · rw [hregs, State.sresetOf, pair_resetStage_head _ _ hst, pair_count_base]
    · rw [hdir]
      exact resetStage_dir _ _ (by rwa [fld_count_dir]) (by rwa [fld_count_dir, fld_count_dir])
    · rw [hscr]
      exact resetStage_scrDir _ _ he
    · rw [State.reg, hregs]
      exact nat_resetStage_recomp _ _ hst hw8
    · rw [State.fld, hregs]
      exact fld_resetStage_full _ _ hst

end

section
/-! SUPPORT. Partitions, slots and ingresses read after writes, and the Cuff's event counters (05_reduction_and_cuff, R152
to R168, R191). -/

namespace Sys2Proof.Machine

/-! ### Partitions, slots and ingresses after writes -/

/-- A state with the same partitions reads the same there. -/
theorem partition_of_part {s t : State} (h : t.part = s.part) (p : Nat) : t.partition p = s.partition p := by
  rw [State.partition, h, State.partition]

theorem slot_of_partition {s t : State} {p : Nat} (h : t.partition p = s.partition p) (k : Nat) :
    t.slot p k = s.slot p k := by
  rw [State.slot, h, State.slot]

@[simp] theorem atCycle_partition (s : State) (t p : Nat) : (s.atCycle t).partition p = s.partition p :=
  partition_of_part (by simp) p

theorem atCycle_regs (s : State) (t : Nat) : (s.atCycle t).regs = s.regs := by simp

theorem atCycle_job (s : State) (t : Nat) : (s.atCycle t).job = s.job := by simp

@[simp] theorem atCycle_slot (s : State) (t p k : Nat) : (s.atCycle t).slot p k = s.slot p k :=
  slot_of_partition (atCycle_partition s t p) k

@[simp] theorem setPartition_partition_self (s : State) (p : Nat) (x : Partition) : (s.setPartition p x).partition p = x :=
  Tbl.get_set_self _ _ _ _

theorem setPartition_partition_ne (s : State) {p q : Nat} (x : Partition) (h : q ≠ p) :
    (s.setPartition p x).partition q = s.partition q := Tbl.get_set_ne _ _ _ _ _ h

@[simp] theorem setSlot_partition_self (s : State) (p k : Nat) (x : Slot) :
    (s.setSlot p k x).partition p = { s.partition p with slots := (s.partition p).slots.set k x } :=
  setPartition_partition_self _ _ _

@[simp] theorem setIngress_partition_self (s : State) (p i : Nat) (g : Ingress) :
    (s.setIngress p i g).partition p = { s.partition p with ingress := (s.partition p).ingress.set i g } :=
  setPartition_partition_self _ _ _

/-- Once slot `k` of a partition has been set, it reads as set and the others read as before. -/
theorem slot_of_set {s t : State} {p k : Nat} {x : Slot} (h : (t.partition p).slots = (s.partition p).slots.set k x)
    (h0 : (t.partition p).pass0 = (s.partition p).pass0) : t.slot p k = x ∧ ∀ j, j ≠ k → t.slot p j = s.slot p j := by
  simp only [State.slot, h, h0]
  exact ⟨Tbl.get_set_self _ _ _ _, fun j hj => Tbl.get_set_ne _ _ _ _ _ hj⟩

theorem setSlot_slot_ne (s : State) {p k j : Nat} (x : Slot) (h : j ≠ k) : (s.setSlot p k x).slot p j = s.slot p j :=
  (slot_of_set (s := s) (x := x) (by simp) (by simp)).2 j h

@[simp] theorem setSlot_slot_self (s : State) (p k : Nat) (x : Slot) : (s.setSlot p k x).slot p k = x :=
  (slot_of_set (s := s) (by simp) (by simp)).1

@[simp] theorem setIngress_ingressAt_self (s : State) (p i : Nat) (g : Ingress) :
    ((s.setIngress p i g).partition p).ingressAt i = g := by
  rw [setIngress_partition_self]
  exact Tbl.get_set_self _ _ _ _

/-- Once piece `q` of a slot has been set, it reads as set and the others read as before. -/
theorem piece_of_set {x y : Slot} {q : Nat} {pc : Piece} (h : y.pieces = x.pieces.set q pc) :
    y.piece q = pc ∧ ∀ j, j ≠ q → y.piece j = x.piece j := by
  simp only [Slot.piece, h]
  exact ⟨Tbl.get_set_self _ _ _ _, fun j hj => Tbl.get_set_ne _ _ _ _ _ hj⟩

/-! ### The Cuff's event counters (R191, R497) -/

/-- The event counters of a partition are shown saturated in its `CUF_EVC_SAT`. -/
theorem satOf_cuf {p c : Nat} (hp : p < 8) (hlo : Reg.cufEvcWfull p ≤ c) (hhi : c < Reg.cufEvcSat p) :
    ∃ i, satOf c = some (Reg.cufEvcSat p, i) := by
  unfold Reg.cufEvcWfull at hlo
  unfold Reg.cufEvcSat at hhi
  have hloc : locate c = some (.cuf, p, c % 0x2000) := by
    have hdiv : (c - 0x300000) / 0x2000 = p := by omega
    unfold locate
    rw [if_neg (by omega), if_neg (by omega), if_neg (by omega), if_neg (by omega), if_neg (by omega), if_neg (by omega),
      if_neg (by omega), if_neg (by omega), if_neg (by omega), if_neg (by omega), if_neg (by omega), if_pos (by omega), hdiv]
  refine ⟨(c % 0x2000 - Block.cuf.counters.1) / 4, ?_⟩
  simp only [satOf, hloc, Block.satOff, Block.base, Reg.cufEvcSat]
  congr 2
  omega

/-- A counter reads one count more, until it saturates (R8). -/
theorem nat_count_self (r : Tbl Word) (a n : Nat) (hs : ∀ x ∈ satOf a, a ≠ x.1) :
    Regs.nat (Regs.count r a n) a = min 0xFFFFFFFF (Regs.nat r a + n) := by
  have hlt := regs_nat_lt r a
  have hput : Regs.nat (Regs.put r a (min 0xFFFFFFFF (Regs.nat r a + n))) a = min 0xFFFFFFFF (Regs.nat r a + n) := by
    rw [Regs.nat_put_self, Nat.mod_eq_of_lt (by omega)]
  unfold Regs.count
  dsimp only
  split
  case isTrue h => omega
  case isFalse =>
    split
    case isTrue => exact hput
    case isFalse =>
      cases e : satOf a with
      | none => exact hput
      | some x => exact (Regs.nat_put_ne _ _ _ _ (hs x e)).trans hput

/-- A count of a partition's event counter. -/
theorem countN_cuf_self (s : State) {p c : Nat} (n : Nat) (hp : p < 8) (hlo : Reg.cufEvcWfull p ≤ c)
    (hhi : c < Reg.cufEvcSat p) : (s.countN c n).reg c = min 0xFFFFFFFF (s.reg c + n) := by
  obtain ⟨i, e⟩ := satOf_cuf hp hlo hhi
  refine nat_count_self _ _ _ fun x hx => ?_
  obtain rfl : _ = x := Option.some.inj (e.symm.trans hx)
  exact Nat.ne_of_lt hhi

/-- It leaves the registers below the counters as they are. -/
theorem countN_cuf_below (s : State) {p c a : Nat} (n : Nat) (hp : p < 8) (hlo : Reg.cufEvcWfull p ≤ c)
    (hhi : c < Reg.cufEvcSat p) (ha : a < Reg.cufEvcWfull p) : (s.countN c n).reg a = s.reg a := by
  obtain ⟨i, e⟩ := satOf_cuf hp hlo hhi
  refine nat_count_ne _ _ (by omega) fun x hx => ?_
  obtain rfl : _ = x := Option.some.inj (e.symm.trans hx)
  exact Nat.ne_of_lt (by omega)

end Sys2Proof.Machine
end

section
/-! SUPPORT. The rules of a partition's ingresses and of the add (05_reduction_and_cuff, R161 to R168, R189). -/

namespace Sys2Proof.Machine

/-! ### A beat leaves its ingress (R162, R164) -/

/-- A partition once the first beat of ingress `i` has left it: no beat waits there. -/
def Partition.popped (x : Partition) (i : Nat) : Partition :=
  { x with ingress := x.ingress.set i { queue := (x.ingressAt i).queue.drop 1 } }

@[simp] theorem Partition.popped_ingressAt (x : Partition) (i : Nat) :
    (x.popped i).ingressAt i = { queue := (x.ingressAt i).queue.drop 1 } := Tbl.get_set_self _ _ _ _

/-- A freed receive buffer changes Seam alone (R305). -/
theorem releaseSeam_seam (s : State) (p : Nat) : ∃ x, s.releaseSeam p = { s with seam := x } := by
  unfold State.releaseSeam
  split
  · exact ⟨s.seam, rfl⟩
  · exact ⟨_, rfl⟩

/-- A beat that leaves changes Seam, its ingress, and the count of the cycles waited there. -/
theorem leaveIngress_frame (s : State) (p i : Nat) :
    ∃ x r, s.leaveIngress p i = { s.setPartition p ((s.partition p).popped i) with seam := x, regs := r } ∧
      (((s.partition p).ingressAt i).wait = none → r = s.regs) := by
  have hseam : ∃ x, (if i = 32 then s.releaseSeam p else s) = { s with seam := x } := by
    split
    · exact releaseSeam_seam s p
    · exact ⟨s.seam, rfl⟩
  obtain ⟨x, e⟩ := hseam
  simp only [State.leaveIngress, e]
  exact ⟨x, _, rfl, fun h => by simp only [h, regs_count64_zero]; rfl⟩

@[simp] theorem leaveIngress_partition (s : State) (p i : Nat) :
    (s.leaveIngress p i).partition p = (s.partition p).popped i := by
  obtain ⟨x, r, e, -⟩ := leaveIngress_frame s p i
  rw [e]
  exact setPartition_partition_self s p _

/-- One that did not wait leaves the registers as they are. -/
theorem leaveIngress_regs {s : State} {p i : Nat} (h : ((s.partition p).ingressAt i).wait = none) :
    (s.leaveIngress p i).regs = s.regs := by
  obtain ⟨x, r, e, hr⟩ := leaveIngress_frame s p i
  rw [e]
  exact hr h

/-- A beat that goes no further changes at most the drain of a local engine (R558). -/
theorem beatAdded_eng (s : State) (p : Nat) (b : Beat) (t : Nat) : ∃ e, s.beatAdded p b t = { s with eng := e } := by
  unfold State.beatAdded State.beatDone
  dsimp only
  repeat' split
  · exact ⟨s.eng, rfl⟩
  · exact ⟨_, rfl⟩
  · exact ⟨s.eng, rfl⟩

@[simp] theorem beatAdded_partition (s : State) (p : Nat) (b : Beat) (t q : Nat) :
    (s.beatAdded p b t).partition q = s.partition q := by
  obtain ⟨e, h⟩ := beatAdded_eng s p b t
  rw [h]
  rfl

@[simp] theorem beatAdded_reg (s : State) (p : Nat) (b : Beat) (t a : Nat) : (s.beatAdded p b t).reg a = s.reg a := by
  obtain ⟨e, h⟩ := beatAdded_eng s p b t
  rw [h]
  rfl

@[simp] theorem count_partition (s : State) (a q : Nat) : (s.count a).partition q = s.partition q := rfl

@[simp] theorem countN_partition (s : State) (a n q : Nat) : (s.countN a n).partition q = s.partition q := rfl

/-! ### Routes (R164, R182, R189) -/

/-- The counter that a route names is an event counter of its partition. -/
theorem routeBeat_counter {s : State} {p c : Nat} {b : Beat}
    (h : routeBeat s p b = .discard c ∨ routeBeat s p b = .pend c) : Reg.cufEvcWfull p ≤ c ∧ c < Reg.cufEvcSat p := by
  unfold routeBeat at h
  dsimp only at h
  repeat' split at h
  case h_1 => simp at h
  all_goals
    simp only [Route.discard.injEq, Route.pend.injEq, reduceCtorEq, or_false, false_or] at h
    subst h
    simp only [Reg.cufEvcWfull, Reg.cufEvcSat, Reg.cufEvcDiscard, Reg.cufEvcViol, Reg.cufEvcEpochhold, Reg.cufEvcEarly]
    omega

theorem routeFirst_discard {s : State} {p i c : Nat} {b : Beat} (h : routeBeat s p b = .discard c) :
    s.routeFirst p i b = ((s.leaveIngress p i).count c).beatAdded p b s.now := by
  simp only [State.routeFirst, h]

theorem routeFirst_pend {s : State} {p i c : Nat} {b : Beat} (h : routeBeat s p b = .pend c)
    (hroom : (s.partition p).pendCount < 256) :
    s.routeFirst p i b = ((s.leaveIngress p i).count c).setPartition p
      ({ s.partition p with pend := (s.partition p).pend ++ [b] }.popped i) := by
  simp only [State.routeFirst, h, hroom, if_true, count_partition, leaveIngress_partition]
  rfl

theorem routeFirst_wait {s : State} {p i c : Nat} {b : Beat} (h : routeBeat s p b = .pend c)
    (hfull : 256 ≤ (s.partition p).pendCount) (hw : ((s.partition p).ingressAt i).wait = none) :
    s.routeFirst p i b = s.setIngress p i { (s.partition p).ingressAt i with wait := some ⟨s.now, false, 0, false⟩ } := by
  simp only [State.routeFirst, h, Nat.not_lt.2 hfull, if_false, State.waitIngress, hw]
  rfl

/-- A slot takes a beat, and is `y` then. -/
def Slot.Takes (x : Slot) (b : Beat) (y : Slot) : Prop :=
  ∀ (s : State) (p k : Nat), s.slot p k = x → s.handBeat p k b = .done (s.setSlot p k y)

/-- A beat whose turn it is becomes ready at its slot (R161). -/
theorem takes_of_turn {x : Slot} {b : Beat} {r : RankBeat} (h : x.rank b = .turn r) :
    x.Takes b { x.sawBeat r with ready := x.ready ++ [r] } := by
  rintro s p k rfl
  simp only [State.handBeat, h]
  rfl

/-- One whose rank is ahead of the pointer enters the reorder window while that has room (R162). -/
theorem takes_of_ahead {x : Slot} {b : Beat} {r : RankBeat} (h : x.rank b = .ahead r) (hroom : x.window.length < 8) :
    x.Takes b { x.sawBeat r with window := x.window ++ [r] } := by
  rintro s p k rfl
  simp only [State.handBeat, h, hroom, if_true]
  rfl

/-- A beat seen from its source changes no sum. -/
@[simp] theorem sawBeat_sums (x : Slot) (r : RankBeat) (q : Nat) : ((x.sawBeat r).piece q).sums = (x.piece q).sums := by
  obtain ⟨hself, hne⟩ := piece_of_set (x := x) (y := x.sawBeat r) (q := r.piece) rfl
  by_cases hq : q = r.piece
  · rw [hq, hself]
  · rw [hne q hq]

/-- A beat that its slot takes leaves its ingress, in its turn behind the pending ones the slot took (R164): the clock may
move, and the cycles by which the beat is late are counted. -/
theorem routeFirst_slot {s : State} {p i k : Nat} {b : Beat} {y : Slot} (hr : routeBeat s p b = .slot k)
    (ht : (s.slot p k).taking = []) (hy : (s.slot p k).Takes b y) :
    ∃ c r, s.routeFirst p i b = (({ s with clk := c, regs := r } : State).setSlot p k y).leaveIngress p i := by
  obtain ⟨c, e⟩ := atCycle_clk s (s.slot p k).takeTo
  have hdone (r : Tbl Word) := hy { s with clk := c, regs := r } p k rfl
  simp only [State.routeFirst, hr, ht, e, hdone, List.isEmpty_nil, Bool.not_true, Bool.false_eq_true, if_false]
  exact ⟨c, _, rfl⟩

/-- The slot is as it took the beat; the other slots stay. -/
theorem routeFirst_taken {s : State} {p i k : Nat} {b : Beat} {y : Slot} (hr : routeBeat s p b = .slot k)
    (ht : (s.slot p k).taking = []) (hy : (s.slot p k).Takes b y) :
    let t := s.routeFirst p i b
    (t.partition p).ingressAt i = { queue := ((s.partition p).ingressAt i).queue.drop 1 } ∧ t.slot p k = y ∧
      ∀ j, j ≠ k → t.slot p j = s.slot p j := by
  obtain ⟨c, r, e⟩ := routeFirst_slot (i := i) hr ht hy
  intro t
  have hpart : t.partition p = ({ s.partition p with slots := (s.partition p).slots.set k y } : Partition).popped i := by
    simp only [t, e, leaveIngress_partition, setSlot_partition_self]
    rfl
  refine ⟨?_, slot_of_set (by rw [hpart]; rfl) (by rw [hpart]; rfl)⟩
  rw [hpart, Partition.popped_ingressAt]
  rfl

end Sys2Proof.Machine
end

section
/-! SUPPORT. The add of a ready beat (05_reduction_and_cuff, R161, R165, R168). -/

namespace Sys2Proof.Machine

/-- An add changes its partition, the counts of R165 and R168, and the drain of a local engine. -/
theorem addBeat_frame (s : State) (p k : Nat) (r : RankBeat) (inTurn : Bool) (t : Nat) :
    ∃ x g e, s.addBeat p k r inTurn t = { s.setPartition p x with regs := g, eng := e } := by
  unfold State.addBeat
  dsimp only
  obtain ⟨e, h⟩ := beatAdded_eng _ p r.beat (t + 7)
  rw [h]
  exact ⟨_, _, e, rfl⟩

/-- What an add in turn does to a piece that has no rank added ahead: the sums lane by lane, the pointer by one, the
abstentions counted. -/
def Piece.AddedInTurn (x : Piece) (b : Beat) (y : Piece) : Prop :=
  y.sums = addLanes x.sums b.vals ∧ y.ptr = x.ptr + 1 ∧ y.abst = x.abst + b2n b.abstain

/-- Visor's segment is apart from the rest of the piece (R500). -/
theorem segment_ptr_skip (x : Piece) (vals : List Word) (ends : Bool) :
    (x.segment vals ends).ptr = x.ptr ∧ (x.segment vals ends).skip = x.skip := by
  cases ends <;> exact ⟨rfl, rfl⟩

/-- The slot after such an add, which takes the partition's add cycle `t`; the other slots stay. -/
theorem addBeat_inTurn {s : State} {p k : Nat} {r : RankBeat} (t : Nat) (hskip : ((s.slot p k).piece r.piece).skip = []) :
    ∃ pc st la, ((s.slot p k).piece r.piece).AddedInTurn r.beat pc ∧
      (s.addBeat p k r true t).slot p k = { s.slot p k with
        pieces := (s.slot p k).pieces.set r.piece pc, state := st, lastAdd := la } ∧
      (∀ j, j ≠ k → (s.addBeat p k r true t).slot p j = s.slot p j) ∧
      ((s.addBeat p k r true t).partition p).addFree = t + 1 := by
  obtain ⟨hptr, hsk⟩ :=
    segment_ptr_skip ((s.slot p k).piece r.piece) r.beat.vals (segmentEnd s p (s.slot p k).slice r.rank)
  have hpart : (s.addBeat p k r true t).partition p = _ :=
    (beatAdded_partition _ p r.beat (t + 7) p).trans (setPartition_partition_self s p _)
  obtain ⟨hself, hne⟩ := slot_of_set (s := s) (congrArg Partition.slots hpart) (by rw [hpart])
  refine ⟨_, _, _, ?_, hself, hne, by rw [hpart]⟩
  simp only [State.slot] at hskip hptr hsk ⊢
  simp [Piece.AddedInTurn, Piece.add, hsk, hskip, hptr, passSkips]

/-- With an empty window no waiting beat follows an add. -/
theorem addWaiting_of_window_nil (n : Nat) {s : State} {p k : Nat} (q : Nat) (h : (s.slot p k).window = []) :
    s.addWaiting n p k q = s := by
  cases n with
  | zero => rfl
  | succ n => simp [State.addWaiting, h]

/-- The partition's next add cycle (R161). -/
def State.addCycle (s : State) (p : Nat) : Nat := max s.now (s.partition p).addFree

/-- The state in that cycle, with the beat to add taken from the slot's ready ones. -/
def State.toAdd (s : State) (p k : Nat) (r : RankBeat) : State :=
  (s.atCycle (s.addCycle p)).setSlot p k { s.slot p k with ready := (s.slot p k).ready.erase r }

@[simp] theorem toAdd_slot_self (s : State) (p k : Nat) (r : RankBeat) :
    (s.toAdd p k r).slot p k = { s.slot p k with ready := (s.slot p k).ready.erase r } := setSlot_slot_self _ _ _ _

theorem toAdd_slot_ne (s : State) {p k j : Nat} (r : RankBeat) (h : j ≠ k) : (s.toAdd p k r).slot p j = s.slot p j :=
  (setSlot_slot_ne _ _ h).trans (atCycle_slot s _ p j)

@[simp] theorem toAdd_piece (s : State) (p k : Nat) (r : RankBeat) (q : Nat) :
    ((s.toAdd p k r).slot p k).piece q = (s.slot p k).piece q := by
  rw [toAdd_slot_self]
  rfl

/-- BEAT_ADD at a slot whose window is empty and that took no pending beat adds the ready beat alone, in the partition's
next add cycle. -/
theorem beatAddEffect_alone {s : State} {p k q : Nat} {r : RankBeat}
    (hr : (s.slot p k).ready.find? (fun r => r.piece == q) = some r) (hw : (s.slot p k).window = [])
    (ht : (s.slot p k).taking = []) (hskip : ((s.slot p k).piece r.piece).skip = []) :
    beatAddEffect p k q s = (s.toAdd p k r).addBeat p k r true (s.addCycle p) := by
  have hadded : (((s.toAdd p k r).slot p k).piece r.piece).skip = [] := by rwa [toAdd_piece]
  obtain ⟨pc, st, la, -, hslot, -⟩ := addBeat_inTurn (s.addCycle p) hadded
  rw [toAdd_slot_self] at hslot
  have hwindow : (((s.toAdd p k r).addBeat p k r true (s.addCycle p)).slot p k).window = [] := by rw [hslot]; exact hw
  have htaking : (((s.toAdd p k r).addBeat p k r true (s.addCycle p)).slot p k).taking = [] := by rw [hslot]; exact ht
  have hadd : beatAddEffect p k q s = (fun t : State => t.takeBeats (t.slot p k).taking.length p k)
      (((s.toAdd p k r).addBeat p k r true (s.addCycle p)).addWaiting 8 p k q) := by
    simp only [beatAddEffect, hr]
    rfl
  rw [hadd, addWaiting_of_window_nil 8 q hwindow]
  simp only [htaking]
  rfl

/-! ### The commands of an ingress and of a slot -/

theorem exec_beatArrival {s : State} {p i : Nat} (hrun : s.coreRunning) (hp : p < 8) (hi : i < 33) :
    exec (.beatArrival p i) s = .next (beatArrivalEffect p i s) :=
  congrArg _ (inCore_run hrun (.beatArrival p i) (decide_eq_true ⟨hp, hi⟩) _)

theorem exec_windowEntry {s : State} {p i : Nat} (hrun : s.coreRunning) (hp : p < 8) (hi : i < 33) :
    exec (.windowEntry p i) s = .next (windowEntryEffect p i s) :=
  congrArg _ (inCore_run hrun (.windowEntry p i) (decide_eq_true ⟨hp, hi⟩) _)

theorem exec_ingressStallLimit {s : State} {p i : Nat} (hrun : s.coreRunning) (hp : p < 8) (hi : i < 33) :
    exec (.ingressStallLimit p i) s = .next (ingressStallLimitEffect p i s) :=
  congrArg _ (inCore_run hrun (.ingressStallLimit p i) (decide_eq_true ⟨hp, hi⟩) _)

theorem exec_beatAdd {s : State} {p k q : Nat} (hrun : s.coreRunning) (hp : p < 8) (hk : k < 2048) (hq : q < 64) :
    exec (.beatAdd p k q) s = .next (beatAddEffect p k q s) :=
  congrArg _ (inCore_run hrun (.beatAdd p k q) (decide_eq_true ⟨hp, hk, hq⟩) _)

end Sys2Proof.Machine
end

section
open Sys2Proof Sys2Proof.Machine

/-- Settles O25: it holds. Each route of a beat that arrives or leaves its wait is one lemma (`routeFirst_discard`,
`routeFirst_pend`, `routeFirst_wait`, `routeFirst_taken`); a ready beat is added alone (`beatAddEffect_alone`), as
`addBeat_inTurn` says. -/
theorem beatsAreRoutedAndAdded : Obligations.BeatsAreRoutedAndAdded := by
  unfold Obligations.BeatsAreRoutedAndAdded
  refine ⟨?arrival, ⟨?window, ?stall⟩, ?add⟩
  case arrival =>
    intro p i at' b rest s hrun hp hi hq hw out route
    have hexec : exec (.beatArrival p i) s = .next ((s.atCycle at').routeFirst p i b) := by
      rw [exec_beatArrival hrun hp hi]
      simp only [beatArrivalEffect, hq, hw]
    obtain ⟨hhbm, htile⟩ : SameStores s ((s.atCycle at').routeFirst p i b) := by simp [SameStores]
    rw [← atCycle_partition s at'] at hq hw
    have hregs : ((s.atCycle at').leaveIngress p i).regs = s.regs := (leaveIngress_regs hw).trans (by simp)
    have hcount (c : Nat) (hc : Reg.cufEvcWfull p ≤ c ∧ c < Reg.cufEvcSat p) :
        (((s.atCycle at').leaveIngress p i).count c).reg c = min 0xFFFFFFFF (s.reg c + 1) := by
      rw [State.count, countN_cuf_self _ _ hp hc.1 hc.2, State.reg, hregs, State.reg]
    refine ⟨fun c hc => ?_, fun c hc hroom => ?_, fun c hc hfull => ?_, fun k r hk ht hrank => ?_⟩
    · rw [routeFirst_discard hc] at hexec hhbm htile
      refine ⟨_, hexec, ?_, ?_, ?_, ?_, hhbm, htile⟩
      · simp only [out, beatAdded_partition, count_partition, leaveIngress_partition, Partition.popped_ingressAt, hq]
        exact ⟨rfl, trivial⟩
      · simp [Partition.popped]
      · simp [Partition.popped]
      · rw [beatAdded_reg, hcount c (routeBeat_counter (.inl hc))]
    · rw [routeFirst_pend hc (by rwa [atCycle_partition])] at hexec hhbm htile
      refine ⟨_, hexec, ?_, ?_, ?_, hcount c (routeBeat_counter (.inr hc)), hhbm, htile⟩
      · simp only [out, setPartition_partition_self, Partition.popped_ingressAt]
        exact ⟨congrArg (List.drop 1) hq, trivial⟩
      · simp [Partition.popped]
      · simp [Partition.popped]
    · rw [routeFirst_wait hc (by rwa [atCycle_partition]) hw] at hexec
      refine ⟨_, hexec, ?_, ?_, ?_, atCycle_regs s at'⟩
      · rw [setIngress_ingressAt_self, hq]
      · rw [setIngress_ingressAt_self]
        rfl
      · simp
    · rw [← atCycle_slot s at'] at ht hrank
      obtain ⟨hing, hslot, hne⟩ := routeFirst_taken (i := i) hk ht (takes_of_turn hrank)
      simp only [atCycle_slot] at hslot hne
      refine ⟨_, hexec, ?_, ?_, fun q => ?_, hne, hhbm, htile⟩
      · simp only [out, hing, hq]
        exact ⟨rfl, trivial⟩
      · rw [hslot]
      · rw [hslot]
        exact sawBeat_sums _ _ _
  case window =>
    intro p i at' k b r rest w s hrun hp hi hq hw hk ht hrank hroom
    have hexec : exec (.windowEntry p i) s = .next (s.routeFirst p i b) := by
      rw [exec_windowEntry hrun hp hi]
      simp only [windowEntryEffect, hq, hw]
    obtain ⟨hhbm, htile⟩ : SameStores s (s.routeFirst p i b) := by simp [SameStores]
    obtain ⟨hing, hslot, -⟩ := routeFirst_taken (i := i) hk ht (takes_of_ahead hrank hroom)
    refine ⟨_, hexec, ?_, ?_, ?_, fun q => ?_, hhbm, htile⟩
    · rw [hslot]
    · rw [hing, hq]
      rfl
    · rw [hing]
    · rw [hslot]
      exact sawBeat_sums _ _ _
  case stall =>
    intro p i w s hrun hp hi hw
    rw [exec_ingressStallLimit hrun hp hi]
    refine ⟨fun hrep => ?_, fun hrep => ?_⟩ <;> simp [ingressStallLimitEffect, hw, hrep, partUnit]
  case add =>
    intro p k q r s hrun hp hk hq hr hw ht hskip
    obtain rfl : r.piece = q := by simpa using List.find?_some hr
    have hexec := exec_beatAdd hrun hp hk hq
    obtain ⟨hhbm, htile⟩ := beatAddEffect_stores p k r.piece s
    rw [beatAddEffect_alone hr hw ht hskip] at hexec hhbm htile
    have hadded : (((s.toAdd p k r).slot p k).piece r.piece).skip = [] := by rwa [toAdd_piece]
    obtain ⟨pc, st, la, ⟨hsums, hptr, habst⟩, hslot, hne, hfree⟩ := addBeat_inTurn (s.addCycle p) hadded
    obtain ⟨x, g, e, hframe⟩ := addBeat_frame (s.toAdd p k r) p k r true (s.addCycle p)
    rw [toAdd_piece] at hsums hptr habst
    rw [toAdd_slot_self] at hslot
    obtain ⟨hself, hothers⟩ := piece_of_set (x := s.slot p k) (congrArg Slot.pieces hslot)
    refine ⟨_, hexec, hhbm, htile, ?_, ?_, ?_, ?_, hothers, ?_, hfree, fun j hj => ?_⟩
    · rw [hframe]
      exact atCycle_job s (s.addCycle p)
    · rw [hself, hsums]
    · rw [hself, hptr]
    · rw [hself, habst]
    · rw [hslot]
    · rw [hne j hj, toAdd_slot_ne s r hj]

end

section
/-! SUPPORT. A slot's trigger and opening, and the start of a Cuff entry (05_reduction_and_cuff, R153 to R172). -/

namespace Sys2Proof.Machine

/-! ### The trigger (R162, R166, R169) -/

theorem slotTrigger_incomplete {s : State} {p k : Nat} (h : (s.slot p k).complete = false) : s.slotTrigger p k = s := by
  simp [State.slotTrigger, h]

theorem withFlagStep_self {x : Partition} {f : Option Nat} (h : x.flagStep = f) : x = { x with flagStep := f } := by
  subst h
  rfl

/-- A trigger keeps of FLAGGED what an add of its own step or a later one has set (R162). -/
theorem triggered_partition (s : State) (p step : Nat) :
    (s.triggered p step).partition p =
      { s.partition p with flagStep := (s.partition p).flagStep.filter fun n => decide (step ≤ n) } := by
  have hput (t : State) : (t.put (Reg.cufStep p) (step % 2 ^ 32)).partition p = t.partition p := rfl
  unfold State.triggered
  dsimp only
  rw [hput]
  cases hflag : (s.partition p).flagStep with
  | none => exact withFlagStep_self hflag
  | some n =>
    by_cases hn : n < step
    · simp [hn, Option.filter, Nat.not_le.2 hn]
    · have hkept : (some n).filter (fun n => decide (step ≤ n)) = some n := by simp [Nat.not_lt.1 hn]
      simp only [hn, decide_false, Bool.false_eq_true, if_false, hkept]
      exact withFlagStep_self hflag

/-- The state in the cycle after a slot's last add, with the step shown and the slice's noise added (R162, R191, R500). -/
def State.atTrigger (s : State) (p k : Nat) : State :=
  let t := (s.atCycle ((s.slot p k).lastAdd + 1)).triggered p (s.passStep (s.slot p k))
  { t with vsr := addNoise t.vsr (s.slot p k).noise.1 (s.slot p k).noise.2 }

theorem atTrigger_partition (s : State) (p k : Nat) :
    (s.atTrigger p k).partition p = { s.partition p with
      flagStep := (s.partition p).flagStep.filter fun n => decide (s.passStep (s.slot p k) ≤ n) } := by
  have h := triggered_partition (s.atCycle ((s.slot p k).lastAdd + 1)) p (s.passStep (s.slot p k))
  rwa [atCycle_partition] at h

/-- The trigger of a slice in HBM: the slot is complete, and the slice's update enters the Cuff queue. -/
theorem slotTrigger_hbm {s : State} {p k : Nat} (hstate : (s.slot p k).state = 2) (hc : (s.slot p k).complete = true)
    (hready : (s.slot p k).ready = []) (hwin : (s.slot p k).window = []) (hslt : (s.slot p k).slice.slt = false) :
    s.slotTrigger p k = ((s.atTrigger p k).setSlot p k { s.slot p k with state := 3 }).queueInner p k (s.slot p k).slice
      (s.passStep (s.slot p k)) := by
  unfold State.slotTrigger
  dsimp only
  rw [if_neg (by simp [hstate, hc, hready, hwin]), if_neg (by simp [hslt])]
  rfl

/-- An update that enters the queue is counted where it waits, and stands in the queue. -/
theorem queueInner_partition (s : State) (p k : Nat) (e : SliceEntry) (step : Nat) :
    ∃ c : CuffEntry, (c.slot = k ∧ c.slice = e ∧ c.step = step ∧ c.outer = none) ∧
      (s.queueInner p k e step).partition p = { s.partition p with queue := enqueue (s.partition p).queue c } :=
  ⟨_, ⟨rfl, rfl, rfl, rfl⟩, setPartition_partition_self s p _⟩

/-- What such a trigger makes of the partition. -/
theorem slotTrigger_partition {s : State} {p k : Nat} (hstate : (s.slot p k).state = 2) (hc : (s.slot p k).complete = true)
    (hready : (s.slot p k).ready = []) (hwin : (s.slot p k).window = []) (hslt : (s.slot p k).slice.slt = false) :
    ∃ c : CuffEntry,
      (c.slot = k ∧ c.slice = (s.slot p k).slice ∧ c.step = s.passStep (s.slot p k) ∧ c.outer = none) ∧
      (s.slotTrigger p k).partition p = { s.partition p with
        slots := (s.partition p).slots.set k { s.slot p k with state := 3 }
        queue := enqueue (s.partition p).queue c
        flagStep := (s.partition p).flagStep.filter fun n => decide (s.passStep (s.slot p k) ≤ n) } := by
  obtain ⟨c, hentry, hpart⟩ := queueInner_partition ((s.atTrigger p k).setSlot p k { s.slot p k with state := 3 }) p k
    (s.slot p k).slice (s.passStep (s.slot p k))
  refine ⟨c, hentry, ?_⟩
  rw [slotTrigger_hbm hstate hc hready hwin hslt, hpart, setSlot_partition_self, atTrigger_partition]

theorem length_enqueue (q : List CuffEntry) (e : CuffEntry) : (enqueue q e).length = q.length + 1 := by
  have h := congrArg List.length (List.takeWhile_append_dropWhile
    (p := fun x : CuffEntry => !(x.outer.isNone && x.entered == e.entered && decide (e.slot < x.slot))) (l := q))
  rw [List.length_append] at h
  simp only [enqueue, List.length_append, List.length_cons]
  omega

theorem mem_enqueue (q : List CuffEntry) (e : CuffEntry) : e ∈ enqueue q e := by simp [enqueue]

/-- An update that enters the queue leaves `CUF_STEP` as it is. -/
theorem queueInner_cufStep (s : State) {p : Nat} (k step : Nat) (e : SliceEntry) (hp : p < 8) :
    (s.queueInner p k e step).reg (Reg.cufStep p) = s.reg (Reg.cufStep p) := by
  refine countN_cuf_below (p := p) _ _ hp ?_ ?_ ?_ <;>
    simp only [Reg.cufEvcWait, Reg.cufEvcWfull, Reg.cufEvcSat, Reg.cufStep] <;> omega

/-- `CUF_STEP` shows the step of the trigger (R191). -/
theorem atTrigger_cufStep (s : State) (p k : Nat) :
    (s.atTrigger p k).reg (Reg.cufStep p) = s.passStep (s.slot p k) % 2 ^ 32 :=
  (state_put_reg _ _ _).trans (Nat.mod_mod _ _)

@[simp] theorem atTrigger_stores (s : State) (p k : Nat) : SameStores s (s.atTrigger p k) := by
  simp [SameStores, State.atTrigger]

/-! ### Opening (R153, R156, R157) -/

/-- A partition that is not enabled opens nothing. -/
theorem slotOpenEffect_disabled {s : State} {p : Nat} (k : Nat) (h : s.fld (Reg.cufCfg p) 0 1 = 0) :
    slotOpenEffect p k s = s := by
  unfold slotOpenEffect
  dsimp only
  split
  · rfl
  · simp [h]

/-- The cycle in which a slot may open its next entry: the one after it has left UPDATING (R157). -/
def Slot.openAt (x : Slot) (now : Nat) : Nat :=
  match x.freeAt with
  | some t => t + 1
  | none => now + 1

/-- The slot once it has opened entry `e`, with no pending beat of the slice. -/
def Slot.openedFor (x : Slot) (e : SliceEntry) (runs : List (Nat × Nat × Nat)) : Slot :=
  { state := 1, entry := x.entry, pass := x.pass, slice := e, runs := runs }

/-- A partition once slot `k` has opened as `y`: an abort is over (R182). -/
def Partition.opened (x : Partition) (k : Nat) (y : Slot) : Partition :=
  { x with slots := x.slots.set k y, aborting := false }

/-- A slot that may open takes its program's next entry. -/
theorem slotOpenEffect_opens {s : State} {p k : Nat} {e : SliceEntry}
    (he : programEntry s p k (s.slotAfter p k).entry = some e) (hon : s.fld (Reg.cufCfg p) 0 1 = 1)
    (hmay : (s.slotAfter p k).mayOpen = true) (hheld : s.passHeld (s.slotAfter p k).pass = false) (hslt : e.slt = false)
    (habort : (s.partition p).aborting = true → s.job.census = none) (hepoch : e.lepoch = s.fld (Reg.cufEpoch p) 0 16)
    (hpend : ∀ b ∈ (s.partition p).pend, e.holds b = false) :
    slotOpenEffect p k s = (s.atCycle ((s.slotAfter p k).openAt s.now)).setPartition p
      ((s.partition p).opened k ((s.slotAfter p k).openedFor e (planRuns s p e.plan))) := by
  have hidle : ((s.partition p).aborting && s.job.census.isSome) = false := by
    cases h : (s.partition p).aborting
    · rfl
    · simp [habort h]
  have htaking : ((s.partition p).pend.filter fun b => e.holds b && b.lepoch == e.lepoch) = [] :=
    List.filter_eq_nil_iff.2 fun b hb => by simp [hpend b hb]
  have hkept : ((s.partition p).pend.filter fun b => !(e.holds b && b.lepoch == e.lepoch)) = (s.partition p).pend :=
    List.filter_eq_self.2 fun b hb => by simp [hpend b hb]
  have hplan (t : Nat) : planRuns (s.atCycle t) p e.plan = planRuns s p e.plan := by simp [planRuns]
  unfold slotOpenEffect
  dsimp only
  rw [he]
  dsimp only
  rw [if_neg (by simp [hmay, hidle, hheld, hon, hepoch]), if_neg (by simp [hslt]), htaking, hkept, hplan]
  rfl

/-! ### The start of an entry (R169, R170, R172) -/

/-- Nothing starts while the Cuff is not enabled or 16 entries are in the pipeline. -/
theorem cuffEntryStartEffect_stands {s : State} {p : Nat}
    (h : s.fld (Reg.cufCfg p) 0 1 = 0 ∨ 16 ≤ (s.partition p).pipe.length) : cuffEntryStartEffect p s = s := if_pos h

section
variable {s : State} {p : Nat} {e : CuffEntry} (hon : s.fld (Reg.cufCfg p) 0 1 = 1) (hroom : (s.partition p).pipe.length < 16)
  (hnext : s.nextEntry' (s.partition p) [] (s.partition p).queue = some e)
include hon hroom hnext

/-- The oldest entry waits at the queue's head for its step's constants, and is counted once (R172). -/
theorem cuffEntryStartEffect_waits (hinner : e.outer = none) (hconst : s.constsReady e.step = false) :
    cuffEntryStartEffect p s = (s.setPartition p { s.partition p with
      queue := (s.partition p).queue.map fun q => if q = e then { q with waited := true } else q }).countN
        (Reg.cufEvcWait p) (b2n (!e.waited)) := by
  unfold cuffEntryStartEffect
  dsimp only
  rw [if_neg (by omega), hnext]
  simp [hinner, hconst]

/-- The oldest entry, of a slice in HBM, starts once its constants stand (R169). -/
theorem cuffEntryStartEffect_starts (hslt : e.slice.slt = false) (hconst : s.constsReady e.step = true) :
    cuffEntryStartEffect p s = s.startEntry p e e.slice.record := by
  unfold cuffEntryStartEffect
  dsimp only
  rw [if_neg (by omega), hnext]
  simp [hconst, State.entryBase, hslt]

end

/-- Accesses start no earlier than they are requested (R255). -/
theorem le_accessAll (use : Tbl Nat) (lines : List Nat) (t : Nat) : t ≤ (accessAll use lines t).1 :=
  List.foldlRecOn (motive := fun acc : Nat × Nat × Tbl Nat => t ≤ acc.1) lines _ (Nat.le_refl t)
    fun _ h _ _ => Nat.le_trans h (Nat.le_max_left _ _)

/-- The cycle in which an entry starts: 2 cycles after its trigger at the earliest, and not before the partition may start
one (R169). -/
def State.startCycle (s : State) (p : Nat) (e : CuffEntry) : Nat := max s.now (max (e.entered + 2) (s.partition p).startFree)

/-- An entry that starts in cycle `t` has its reads issued then, its data 448 cycles later at the earliest. -/
def CuffRun.StartedAt (run : CuffRun) (e : CuffEntry) (base t : Nat) : Prop :=
  run.entry = e ∧ run.base = base ∧ run.anchor = t - 2 ∧ t + 448 ≤ run.dataAt

theorem leaveSlot_partition (s : State) (p k a b : Nat) : ∃ y, (s.leaveSlot p k a b).partition p =
    { s.partition p with slots := y } := ⟨_, setSlot_partition_self s p k _⟩

/-- An entry that starts leaves the queue and enters the pipeline; the next one starts 64 cycles later at the earliest. -/
theorem startEntry_moves (s : State) (p : Nat) (e : CuffEntry) (base : Nat) :
    let t := s.startEntry p e base
    t.job = s.job ∧ ∃ run : CuffRun, run.StartedAt e base (s.startCycle p e) ∧
      (t.partition p).queue = (s.partition p).queue.erase e ∧ (t.partition p).pipe = (s.partition p).pipe ++ [run] ∧
      s.startCycle p e + 64 ≤ (t.partition p).startFree := by
  unfold State.startEntry
  extract_lets x t s1 abst skip hand bg r run s2 counts s3 u
  have hpart : s3.partition p = s2.partition p := rfl
  rw [setPartition_partition_self] at hpart
  have hrun : run.StartedAt e base (s.startCycle p e) :=
    ⟨rfl, rfl, rfl, Nat.add_le_add_right (Nat.le_trans (Nat.le_max_left _ _) (le_accessAll _ _ _)) 448⟩
  have hfree : s.startCycle p e + 64 ≤ t + (if hand then 80 else 64) := by
    split
    · exact Nat.add_le_add_left (by decide) t
    · exact Nat.le_refl _
  have hu : u.job = s3.job ∧ ∃ y, u.partition p = { s3.partition p with slots := y } := by
    by_cases h : skip ∧ s3.slotHolds p e
    · rw [show u = _ from if_pos h]
      exact ⟨rfl, leaveSlot_partition _ _ _ _ _⟩
    · rw [show u = _ from if_neg h]
      exact ⟨rfl, _, rfl⟩
  obtain ⟨hjob, y, hy⟩ := hu
  rw [hpart] at hy
  exact ⟨hjob.trans (atCycle_job s t), run, hrun, by rw [hy], by rw [hy], by rw [hy]; exact hfree⟩

/-! ### The commands -/

theorem exec_slotTrigger {s : State} {p k : Nat} (hrun : s.coreRunning) (hp : p < 8) (hk : k < 2048) :
    exec (.slotTrigger p k) s = .next ((s.slotTrigger p k).endSteps 2) :=
  congrArg _ (inCore_run hrun (.slotTrigger p k) (decide_eq_true ⟨hp, hk⟩) _)

theorem exec_slotOpen {s : State} {p k : Nat} (hrun : s.coreRunning) (hp : p < 8) (hk : k < 2048) :
    exec (.slotOpen p k) s = .next (slotOpenEffect p k s) :=
  congrArg _ (inCore_run hrun (.slotOpen p k) (decide_eq_true ⟨hp, hk⟩) _)

theorem exec_cuffEntryStart {s : State} {p : Nat} (hrun : s.coreRunning) (hp : p < 8) :
    exec (.cuffEntryStart p) s = .next (cuffEntryStartEffect p s) :=
  congrArg _ (inCore_run hrun (.cuffEntryStart p) (decide_eq_true hp) _)

/-- No step ends while the current one is not over (R10). -/
theorem endSteps_of_not_over {s : State} {n : Nat} (h : s.stepOver (s.reg Reg.seqStep) = false) : s.endSteps n = s := by
  cases n with
  | zero => rfl
  | succ n => simp [State.endSteps, h]

end Sys2Proof.Machine
end

section
open Sys2Proof Sys2Proof.Machine

/-- Settles O26: it holds. What a trigger, an opening and a start each do is one equation (`slotTrigger_hbm`,
`slotOpenEffect_opens`, `cuffEntryStartEffect_waits`, `cuffEntryStartEffect_starts`), and the clauses read it off. -/
theorem slotsTriggerOpenAndStart : Obligations.SlotsTriggerOpenAndStart := by
  unfold Obligations.SlotsTriggerOpenAndStart
  refine ⟨?trigger, ?opening, ?start⟩
  case trigger =>
    intro p k s hrun hp hk x t
    have hexec := exec_slotTrigger hrun hp hk
    refine ⟨hexec, fun hover => ?_, fun hstate hc hready hwin hslt => ?_, slotTrigger_incomplete⟩
    · rw [hexec, endSteps_of_not_over hover]
    · have ht : t = _ := slotTrigger_hbm hstate hc hready hwin hslt
      obtain ⟨hhbm, htile⟩ := atTrigger_stores s p k
      obtain ⟨c, hentry, hpart⟩ := slotTrigger_partition hstate hc hready hwin hslt
      obtain ⟨hslot, hothers⟩ := slot_of_set (s := s) (congrArg Partition.slots hpart) (by rw [hpart])
      have hflag : (t.partition p).flagStep = (s.partition p).flagStep.filter fun n => decide (s.passStep x ≤ n) :=
        congrArg Partition.flagStep hpart
      have hqueue : (t.partition p).queue = enqueue (s.partition p).queue c := congrArg Partition.queue hpart
      refine ⟨congrArg Slot.state hslot, fun q => congrArg (·.piece q) hslot, hothers, ?_, ⟨c, ?_, hentry⟩, ?_,
        fun n hn hlt => ?_, fun n hn hle => ?_, ?_, ?_⟩
      · rw [hqueue, length_enqueue]
      · rw [hqueue]
        exact mem_enqueue _ c
      · rw [ht, queueInner_cufStep _ _ _ _ hp]
        exact atTrigger_cufStep s p k
      · rw [hflag, hn]
        simp [Option.filter, Nat.not_le.2 hlt]
      · rw [hflag, hn]
        simp [hle]
      · rw [ht]
        exact hhbm
      · rw [ht]
        exact htile
  case opening =>
    intro p k e s hrun hp hk x he
    rw [exec_slotOpen hrun hp hk]
    refine ⟨fun hoff => by rw [slotOpenEffect_disabled k hoff], fun hon hmay hheld hslt habort hepoch hpend => ?_⟩
    rw [slotOpenEffect_opens he hon hmay hheld hslt habort hepoch hpend]
    obtain ⟨c, hclk⟩ := atCycle_clk s (x.openAt s.now)
    have hpart := setPartition_partition_self (s.atCycle (x.openAt s.now)) p
      ((s.partition p).opened k (x.openedFor e (planRuns s p e.plan)))
    obtain ⟨hslot, hothers⟩ := slot_of_set (s := s) (congrArg Partition.slots hpart) (by rw [hpart]; rfl)
    refine ⟨_, rfl, ?_, hslot, fun c hfree hc => ?_, hothers, ?_, fun q hq => ?_⟩
    · rw [hclk]
      rfl
    · rw [show x.openAt s.now = c + 1 by simp [Slot.openAt, hfree]]
      exact state_atCycle_now s (c + 1) hc
    · rw [hpart]
      rfl
    · rw [setPartition_partition_ne _ _ hq, atCycle_partition]
  case start =>
    intro p s hrun hp x
    rw [exec_cuffEntryStart hrun hp]
    refine ⟨fun h => by rw [cuffEntryStartEffect_stands h], fun e hon hroom hnext hinner hconst => ?_,
      fun e hon hroom hnext hinner hslt hconst => ?_⟩
    · rw [cuffEntryStartEffect_waits hon hroom hnext hinner hconst]
      refine ⟨_, rfl, rfl, ?_, ?_⟩
      · rw [countN_partition, setPartition_partition_self]
      · refine countN_cuf_self _ _ hp ?_ ?_ <;> simp only [Reg.cufEvcWait, Reg.cufEvcWfull, Reg.cufEvcSat] <;> omega
    · obtain ⟨hhbm, htile⟩ := cuffEntryStartEffect_stores p s
      rw [cuffEntryStartEffect_starts hon hroom hnext hslt hconst] at hhbm htile ⊢
      obtain ⟨hjob, run, ⟨hentry, hbase, hanchor, hdata⟩, hqueue, hpipe, hfree⟩ := startEntry_moves s p e e.slice.record
      refine ⟨_, rfl, hhbm, htile, hjob, hqueue, ?_, ⟨run, ?_, hentry, hbase, hanchor, hdata⟩, hfree⟩
      · rw [hpipe, List.length_append, List.length_singleton]
      · rw [hpipe]
        exact List.mem_append_right _ (List.mem_singleton_self run)

end

section
/-! SUPPORT. A noise message that completes its step's set while the decision log has no room (15_gauntlet_faults_counters_test,
R501, R504): the pair is logged, and a class 1 quantum writes the ring in HBM. -/

namespace Sys2Proof.Machine

theorem exec_noiseMessage {s : State} {d n : Nat} (a b : Word) (f : Bool) (hrun : s.coreRunning) (hd : d < 1024)
    (hn : n < 2 ^ 32) : exec (.noiseMessage d n a b f) s = .next (s.noteNoise d n a b f) :=
  congrArg _ (inCore_run hrun (.noiseMessage d n a b f) (decide_eq_true ⟨hd, hn⟩) _)

/-- A part in the run state, in a job whose one member is device 5, after 64 writes of GO: the staging buffer is full. -/
def fullLog : State :=
  (List.range 64).foldl (fun s _ => s.goEntry [12]) { State.reset.put Reg.aonState 2 with job := { members := [5] } }

theorem fullLog_coreRunning : fullLog.coreRunning := by decide +kernel

theorem fullLog_noise : Tbl.get? (Tbl.get [] fullLog.vsr.noise 7) 5 = none := by decide +kernel

/-- The staged entries stand nowhere in HBM. -/
theorem fullLog_hbm : fullLog.hbm.get (128 * 63) = 0 := by decide +kernel

/-- With device 5's message for step 7 the 64 staged entries move to the ring at address 0; entry 63 begins with its
number. -/
theorem fullLog_noteNoise_hbm : (fullLog.noteNoise 5 7 0 0 false).hbm.get (128 * 63) = 63 := by decide +kernel

end Sys2Proof.Machine
end

section
open Sys2Proof Sys2Proof.Machine

/-- Refutes O27: its last clause has a first noise message leave HBM as it is. The message that completes the set of its
step logs the noise pair (R501), and where 64 entries are staged the log makes room by a class 1 quantum, which writes the
ring in HBM (R504, log 116), as in the state `fullLog`. -/
theorem not_updatesReadAndWrite : ¬ Obligations.UpdatesReadAndWrite := by
  unfold Obligations.UpdatesReadAndWrite
  rintro ⟨-, hnoise⟩
  obtain ⟨-, hfirst⟩ := hnoise 5 7 0 0 false fullLog fullLog_coreRunning (by decide) (by decide)
  obtain ⟨t, hexec, -, hhbm, -⟩ := hfirst fullLog_noise
  rw [exec_noiseMessage 0 0 false fullLog_coreRunning (by decide) (by decide)] at hexec
  obtain rfl : fullLog.noteNoise 5 7 0 0 false = t := Host.Outcome.next.inj hexec
  have hbyte : (63 : Byte) = 0 := by rw [← fullLog_noteNoise_hbm, hhbm, fullLog_hbm]
  exact absurd hbyte (by decide)

end

section
/-! SUPPORT. What the slow tier's counts leave alone, and what a touch list's post comes to (06_slow_tier, R198 to R203). -/

namespace Sys2Proof.Machine

/-! ### Registers that the slow tier's counts leave alone -/

/-- The slow tier's settings, its channels, and every register above it. -/
abbrev SltSetting (k : Nat) : Prop := 0xA0000 ≤ k ∧ k < 0xA0040 ∨ 0xA0150 ≤ k

/-- The event counters of a touch list's post, of forward reads and of fetches, the request tracker's among them (R431). -/
def sltTallies : List Nat := [Reg.sltEvcViol, Reg.sltEvcWait, Reg.sltEvcRthru, Reg.sltEvcCorr, Reg.hptEvcTrkwait]

/-- The 64-bit counters of a fetch. -/
def sltPairs : List Nat := [Reg.sltBusyLo, Reg.sltStallLo, Reg.sltRdBytesLo, Reg.cphXtsBytesLo]

theorem sltTallies_apart : ∀ a ∈ sltTallies, ¬ SltSetting a ∧ ∀ x ∈ satOf a, ¬ SltSetting x.1 := by decide

theorem sltPairs_apart : ∀ a ∈ sltPairs, ¬ SltSetting a ∧ ¬ SltSetting (a + 4) := by decide

theorem nat_count_setting (r : Tbl Word) {a k : Nat} (n : Nat) (ha : a ∈ sltTallies) (hk : SltSetting k) :
    Regs.nat (Regs.count r a n) k = Regs.nat r k := by
  obtain ⟨hne, hsat⟩ := sltTallies_apart a ha
  exact nat_count_ne r n (fun e => hne (e ▸ hk)) fun x hx e => hsat x hx (e ▸ hk)

theorem nat_count64_ne (r : Tbl Word) {a k : Nat} (n : Nat) (h1 : k ≠ a) (h2 : k ≠ a + 4) :
    Regs.nat (Regs.count64 r a n) k = Regs.nat r k := by
  unfold Regs.count64
  split
  · rfl
  · exact nat_putPair_ne r _ h1 h2

theorem nat_count64_setting (r : Tbl Word) {a k : Nat} (n : Nat) (ha : a ∈ sltPairs) (hk : SltSetting k) :
    Regs.nat (Regs.count64 r a n) k = Regs.nat r k := by
  obtain ⟨hlo, hhi⟩ := sltPairs_apart a ha
  exact nat_count64_ne r n (fun e => hlo (e ▸ hk)) fun e => hhi (e ▸ hk)

/-- Two states agree on those registers. -/
def SameSettings (s t : State) : Prop := ∀ k, SltSetting k → t.reg k = s.reg k

theorem SameSettings.trans {s t u : State} (h : SameSettings s t) (g : SameSettings t u) : SameSettings s u :=
  fun k hk => (g k hk).trans (h k hk)

theorem SameSettings.fld {s t : State} (h : SameSettings s t) {a : Nat} (ha : SltSetting a) (lo w : Nat) :
    t.fld a lo w = s.fld a lo w := congrArg (bits · lo w) (h a ha)

theorem SameSettings.pair {s t : State} (h : SameSettings s t) {a : Nat} (hlo : SltSetting a) (hhi : SltSetting (a + 4)) :
    Regs.pair t.regs a = Regs.pair s.regs a := by
  have elo : Regs.nat t.regs a = Regs.nat s.regs a := h a hlo
  have ehi : Regs.nat t.regs (a + 4) = Regs.nat s.regs (a + 4) := h (a + 4) hhi
  rw [Regs.pair, elo, ehi, Regs.pair]

theorem sameSettings_countN (s : State) {a : Nat} (n : Nat) (ha : a ∈ sltTallies) : SameSettings s (s.countN a n) :=
  fun _ hk => nat_count_setting s.regs n ha hk

/-! ### Forward reads that start (R203) -/

/-- `t` is `s` with waiting forward reads begun: reads, read-through lines, fetches and counts alone have moved. -/
def ReadsStarted (s t : State) : Prop :=
  t = { s with
    slt := { s.slt with reads := t.slt.reads, through := t.slt.through, fetches := t.slt.fetches }
    regs := t.regs } ∧
    SameSettings s t

theorem ReadsStarted.trans {s t u : State} (h : ReadsStarted s t) (g : ReadsStarted t u) : ReadsStarted s u :=
  ⟨by rw [g.1, h.1], h.2.trans g.2⟩

theorem readThrough_started (s : State) (num core l since : Nat) : ReadsStarted s (s.readThrough num core l since) :=
  ⟨rfl, (sameSettings_countN s _ (by decide)).trans (sameSettings_countN _ 1 (by decide))⟩

theorem startReads_started (s : State) : ReadsStarted s s.startReads := by
  refine List.foldlRecOn (motive := ReadsStarted s) _ _ ⟨rfl, fun _ _ => rfl⟩ fun t ht r _ => ?_
  split
  · next l _ => exact ht.trans (readThrough_started { t with slt := { t.slt with reads := t.slt.reads.erase r } } _ _ _ _)
  · exact ht

/-! ### The post of a touch list (R198, R199, R201) -/

/-- The touch list that `SLT_TLIST` points to is a list of step `st` that the device plans. -/
def State.touchListGood (s : State) (st : Nat) : Prop :=
  s.fld Reg.sltCfg 0 1 = 1 ∧ (st = s.reg Reg.seqStep ∨ st = (s.reg Reg.seqStep + 1) % 2 ^ 32) ∧
    ascending ((touchList s.hbm (Regs.pair s.regs Reg.sltTlistLo)).map (·.1)) = true ∧
    (touchList s.hbm (Regs.pair s.regs Reg.sltTlistLo)).any (fun e => e.2.1 == 0) = false

theorem touchListGood_of_settings {s t : State} (h : SameSettings s t) (hm : t.hbm = s.hbm) (st : Nat) :
    t.touchListGood st ↔ s.touchListGood st := by
  unfold State.touchListGood
  rw [h.fld (by decide), h Reg.seqStep (by decide), h.pair (by decide) (by decide), hm]

/-- A list that is not good plans nothing. -/
theorem planList_refused {s : State} {st : Nat} (h : ¬ s.touchListGood st) : s.planList st = s.count Reg.sltEvcViol := by
  have hbit : s.fld Reg.sltCfg 0 1 < 2 := Nat.mod_lt _ (by decide)
  unfold State.planList
  dsimp only
  split
  case isTrue => rfl
  case isFalse hstep =>
    refine if_pos (Decidable.byContradiction fun hlist => h ⟨by omega, by omega, ?_⟩)
    simpa only [Bool.or_eq_true, Bool.not_eq_true', not_or, Bool.not_eq_false, Bool.not_eq_true] using hlist

/-- A good list becomes its step's plan, with cue 240 at the step; then the forward reads that can start do (R201, R203,
R244). -/
theorem planList_planned {s : State} {st : Nat} (h : s.touchListGood st) :
    ∃ u : State, s.planList st = u.startReads ∧ (Tbl.get? u.slt.plans st).isSome = true ∧
      u.reg (Reg.seqCueHw 16) = st % 2 ^ 32 := by
  obtain ⟨hon, hstep, hasc, hmask⟩ := h
  unfold State.planList
  dsimp only
  rw [if_neg (by omega), if_neg (by rw [hasc, hmask]; decide)]
  refine ⟨_, rfl, ?plan, ?cue⟩
  case plan =>
    rw [Tbl.get?_set_self]
    rfl
  case cue =>
    rw [State.reg, nat_count_setting _ _ (by decide) (by decide), State.setCue]
    exact (Regs.nat_put_self _ _ _).trans (Nat.mod_mod _ _)

theorem planList_good {s : State} {st : Nat} (h : s.touchListGood st) (hst : st < 2 ^ 32) :
    (Tbl.get? (s.planList st).slt.plans st).isSome = true ∧ (s.planList st).reg (Reg.seqCueHw 16) = st := by
  obtain ⟨u, e, hplan, hcue⟩ := planList_planned h
  obtain ⟨hparts, hset⟩ := startReads_started u
  rw [e, hset _ (by decide), hcue, hparts]
  exact ⟨hplan, Nat.mod_eq_of_lt hst⟩

/-- A write of a slow-tier register that has no RWT bit stores a word there, and its action follows (R526, R527). -/
theorem writeFields_slt (s : State) (m : Master) (off v : Nat) {r : RegRow} (hr : r.rwt = 0) :
    ∃ x, s.writeFields m .slt 0 off r v = (s.put (0xA0000 + off) x).actOn m .slt 0 off v := by
  refine ⟨r.stored s.testPermit (s.reg (0xA0000 + off)) v, ?_⟩
  simp only [State.writeFields, State.settleFor, State.storeWord, hr, Nat.and_zero, if_true, reduceCtorEq, false_and,
    if_false, Block.base]

theorem actOn_touchListPost (s : State) (m : Master) (v : Nat) : s.actOn m .slt 0 0x58 v = touchListPostEffect v s := by
  simp only [State.actOn, if_true]

/-- The post of a touch list acts when its access does: the clocks and `SLT_TLIST_POST` alone have moved (R523, R526). -/
theorem exec_touchListPost {s : State} {m : Master} (hm : m.exists' = true) (hin : m ≠ .remote) (hi : s.mayIssue m = true)
    (hq : s.quiet = false) (w : Word) :
    ∃ t : State, t = { s with clk := t.clk, free := t.free, regs := t.regs } ∧ (∀ a, a ≠ 0xA0058 → t.reg a = s.reg a) ∧
      exec (.touchListPost m w) s = .next (touchListPostEffect w.toNat t) := by
  have hl : locate 0xA0058 = some (.slt, 0, 0x58) := by decide
  obtain ⟨r, hr, hrwt⟩ : ∃ r, Block.slt.regRow 0 0x58 = some r ∧ r.rwt = 0 := ⟨_, rfl, by decide⟩
  have ht : (targetOf 0xA0058).inCoreDomain := Target.inCoreDomain_of_block (b := .slt) hl (by decide) (by decide)
  have hword : (s.afterAccess m).writeWord m 0xA0058 w.toNat = (s.afterAccess m).writeFields m .slt 0 0x58 r w.toNat :=
    (writeWord_located hl hr hin rfl w.toNat).trans (if_pos rfl)
  obtain ⟨x, hx⟩ := writeFields_slt (s.afterAccess m) m 0x58 w.toNat hrwt
  have hexec : exec (.touchListPost m w) s = .next (s.writeAccess m 0xA0058 4 w.toNat) :=
    congrArg Host.Outcome.next (if_pos hm)
  refine ⟨(s.afterAccess m).put (0xA0000 + 0x58) x, ?parts, fun a ha => ?reg, ?exec⟩
  case parts =>
    obtain ⟨c, f, hparts⟩ := afterAccess_parts s m
    rw [hparts]
    rfl
  case reg => rw [state_put_reg_ne _ _ _ _ ha, afterAccess_reg]
  case exec =>
    rw [hexec, writeAccess_inCoreDomain hi hq ht, writeSized_word _ _ (by decide), Nat.mod_eq_of_lt w.isLt, State.writeAt,
      targetOf_direct (by decide), ← actOn_touchListPost _ m, ← hx, ← hword]

end Sys2Proof.Machine
end

section
/-! SUPPORT. Where a fetched image lands, and the programs and erases of the NAND (06_slow_tier, R203, R215 to R220). -/

namespace Sys2Proof.Machine

/-! ### The row cache under the same settings (R200) -/

theorem cacheLines_of_settings {s t : State} (h : SameSettings s t) : t.cacheLines = s.cacheLines :=
  h Reg.sltCacheLines (by decide)

theorem lineAddr_of_settings {s t : State} (h : SameSettings s t) (l : Nat) : t.lineAddr l = s.lineAddr l := by
  rw [State.lineAddr, State.lineAddr, h.pair (by decide) (by decide)]

theorem dirAddr_of_settings {s t : State} (h : SameSettings s t) (l : Nat) : t.dirAddr l = s.dirAddr l := by
  rw [State.dirAddr, State.dirAddr, lineAddr_of_settings h, cacheLines_of_settings h]

theorem cacheLine_of_settings {s t : State} (h : SameSettings s t) (hm : t.hbm = s.hbm) (l : Nat) :
    t.cacheLine l = s.cacheLine l := by
  rw [State.cacheLine, State.cacheLine, dirAddr_of_settings h, hm]

theorem putLine_hbm_of_settings {s t : State} (h : SameSettings s t) (hm : t.hbm = s.hbm) (l : Nat) (c : CacheLine) :
    (t.putLine l c).hbm = (s.putLine l c).hbm := by
  rw [State.putLine, State.putLine, dirAddr_of_settings h, hm]

/-- HBM with an image on line `l` and, for a cache line, its GEN in the directory (R200, R215). -/
def State.landedHbm (s : State) (l : Nat) (i : FlashImage) : Memory :=
  let s1 := { s with hbm := s.hbm.write (s.lineAddr l) i.bytes }
  if l < s.cacheLines then (s1.putLine l { s1.cacheLine l with gen := i.gen }).hbm else s1.hbm

theorem landedHbm_of_settings {s t : State} (h : SameSettings s t) (hm : t.hbm = s.hbm) (l : Nat) (i : FlashImage) :
    t.landedHbm l i = s.landedHbm l i := by
  have h1 : SameSettings { s with hbm := s.hbm.write (s.lineAddr l) i.bytes }
      { t with hbm := t.hbm.write (t.lineAddr l) i.bytes } := h
  have hm1 : t.hbm.write (t.lineAddr l) i.bytes = s.hbm.write (s.lineAddr l) i.bytes := by
    rw [hm, lineAddr_of_settings h]
  simp only [State.landedHbm]
  rw [cacheLine_of_settings h1 hm1, putLine_hbm_of_settings h1 hm1, cacheLines_of_settings h, hm1]

theorem groupWorks_of_settings {s t : State} (h : SameSettings s t) (g : Nat) : t.groupWorks g = s.groupWorks g := by
  refine List.all_congr rfl fun i => ?_
  rw [h.fld]
  exact .inr (by unfold Reg.sltChStatus; omega)

theorem readImage_of_settings {s t : State} (h : SameSettings s t) (hf : t.slt.flash = s.slt.flash)
    (hx : t.cph.xts = s.cph.xts) (num : Nat) (r : FlashResult) : t.readImage num r = s.readImage num r := by
  simp only [State.readImage, State.flashImage, hf, hx, groupWorks_of_settings h]

/-! ### What every end of a NAND command counts (R215, R223) -/

/-- Counting `SLT_BUSY` changes that counter, and up to when it is counted. -/
theorem nandBusy_frame (s : State) (t : Nat) :
    s.nandBusy t = { s with slt := { s.slt with busyTo := (s.nandBusy t).slt.busyTo }, regs := (s.nandBusy t).regs } := by
  unfold State.nandBusy
  split <;> rfl

theorem nandBusy_reg (s : State) (t : Nat) {k : Nat} (hlo : k ≠ Reg.sltBusyLo) (hhi : k ≠ Reg.sltBusyLo + 4) :
    (s.nandBusy t).reg k = s.reg k := by
  unfold State.nandBusy
  split
  · rfl
  · exact nat_count64_ne _ _ hlo hhi

/-- The counts of a fetch change counters, and up to when `SLT_BUSY` is counted. -/
theorem fetchCounts_frame (s : State) (r : FlashResult) (alone : Bool) :
    s.fetchCounts r alone =
      { s with
        slt := { s.slt with busyTo := (s.fetchCounts r alone).slt.busyTo }
        regs := (s.fetchCounts r alone).regs } := by
  unfold State.fetchCounts
  dsimp only
  rw [nandBusy_frame]

theorem fetchCounts_settings (s : State) (r : FlashResult) (alone : Bool) : SameSettings s (s.fetchCounts r alone) := by
  intro k hk
  obtain ⟨hlo, hhi⟩ := sltPairs_apart Reg.sltBusyLo (by decide)
  rw [State.fetchCounts, State.reg, nat_count_setting _ _ (by decide) hk, nat_count64_setting _ _ (by decide) hk,
    nat_count64_setting _ _ (by decide) hk]
  exact nandBusy_reg s _ (fun e => hlo (e ▸ hk)) fun e => hhi (e ▸ hk)

/-- The counts of a fetch do not change what it reads. -/
theorem readImage_fetchCounts (s : State) (r : FlashResult) (alone : Bool) (num : Nat) :
    (s.fetchCounts r alone).readImage num r = s.readImage num r :=
  readImage_of_settings (fetchCounts_settings s r alone) (by rw [fetchCounts_frame]) (by rw [fetchCounts_frame]) num r

/-! ### The end of a fetch (R203, R215, R216) -/

/-- Forward reads served from a line change the service cores, the reads that wait, and counts. -/
theorem serveReads_parts (s : State) (num l : Nat) :
    ∃ w q g, s.serveReads num l = { s with slt := { s.slt with reads := w }, seq := q, regs := g } := by
  unfold State.serveReads
  refine List.foldlRecOn _ _
    (motive := fun t : State => ∃ w q g, t = { s with slt := { s.slt with reads := w }, seq := q, regs := g })
    ⟨_, s.seq, s.regs, rfl⟩ ?_
  rintro t ⟨w, q, g, rfl⟩ r -
  exact ⟨w, _, _, rfl⟩

/-- A readable image lands whole on its line, and its fetch is done (R215). -/
theorem landLine_image (s : State) (f : SltFetch) (i : FlashImage) :
    let t := s.landLine f (some i)
    t.hbm = s.landedHbm f.line i ∧ t.slt.fetches = s.slt.fetches.erase f ∧ t.slt.flash = s.slt.flash ∧ t.tile = s.tile ∧
      t.part = s.part := by
  let u : State := { s with
    hbm := s.hbm.write (s.lineAddr f.line) i.bytes
    slt := { s.slt with fetches := s.slt.fetches.erase f }
    regs := Regs.count64 s.regs Reg.sltStallLo (s.lineWait f.num) }
  let v : State := if f.line < u.cacheLines then u.putLine f.line { u.cacheLine f.line with gen := i.gen } else u
  have hset : SameSettings { s with hbm := u.hbm } u := fun k hk => nat_count64_setting _ _ (by decide) hk
  have hput : v = { u with hbm := v.hbm } := by
    unfold v
    split <;> rfl
  have hhbm : v.hbm = s.landedHbm f.line i := by
    unfold v
    rw [hbm_ite, cacheLine_of_settings hset rfl, putLine_hbm_of_settings hset rfl, cacheLines_of_settings hset]
    rfl
  obtain ⟨w, q, g, e⟩ := serveReads_parts v f.num f.line
  have hland : s.landLine f (some i) = v.serveReads f.num f.line := rfl
  rw [hland, e]
  refine ⟨hhbm, ?_, ?_, ?_, ?_⟩ <;> rw [hput]

theorem deliverCopy_copies (s : State) (core num : Nat) (copy : List Byte) :
    Tbl.get? ((s.deliverCopy core num copy).serviceCore core).copies num = some copy := by
  rw [State.serviceCore, State.deliverCopy, Tbl.get_set_self, Tbl.get?_set_self]

/-- A forward read's image goes to its service core (R203). -/
theorem landRead_image (s : State) (f : SltFetch) (core since : Nat) (i : FlashImage) :
    let t := s.landRead f core since (some i)
    t.hbm = s.hbm ∧ Tbl.get? (t.serviceCore core).copies f.num = some ((i.bytes.drop recWc).take 4224) ∧
      t.slt.flash = s.slt.flash ∧ t.tile = s.tile ∧ t.part = s.part := by
  let u : State := { s with
    slt := { s.slt with fetches := s.slt.fetches.erase f, through := s.slt.through.erase f.line }
    regs := Regs.count64 s.regs Reg.sltStallLo (s.now - since) }
  let v : State := u.deliverCopy core f.num ((i.bytes.drop recWc).take 4224)
  have hland : s.landRead f core since (some i) = v.startReads := rfl
  obtain ⟨hparts, -⟩ := startReads_started v
  rw [hland, hparts]
  exact ⟨rfl, deliverCopy_copies u _ _ _, rfl, rfl, rfl⟩

/-- An issued fetch with no reader whose image can be read ends on its line. -/
theorem landFetch_line {s : State} {f : SltFetch} {r : FlashResult} {i : FlashImage} (hi : s.readImage f.num r = some i)
    (hf : f.reader = none) :
    let t := s.landFetch f r
    t.hbm = s.landedHbm f.line i ∧ t.slt.fetches = s.slt.fetches.erase f ∧ t.slt.flash = s.slt.flash ∧ t.tile = s.tile ∧
      t.part = s.part := by
  let u : State := s.fetchCounts r (decide (s.nandSince.length ≤ 1))
  have hframe : u = { s with slt := { s.slt with busyTo := u.slt.busyTo }, regs := u.regs } := fetchCounts_frame s r _
  have hset : SameSettings s u := fetchCounts_settings s r _
  have hland : s.landFetch f r = u.landLine f (some i) := by
    rw [State.landFetch, readImage_fetchCounts, hi, hf]
  obtain ⟨hhbm, hfetch, hflash, htile, hpart⟩ := landLine_image u f i
  simp only [hland, hhbm, hfetch, hflash, htile, hpart]
  refine ⟨landedHbm_of_settings hset (by rw [hframe]) f.line i, ?_, ?_, ?_, ?_⟩ <;> rw [hframe]

/-- An issued fetch for a forward read whose image can be read ends at its service core. -/
theorem landFetch_reader {s : State} {f : SltFetch} {r : FlashResult} {i : FlashImage} {core since : Nat}
    (hi : s.readImage f.num r = some i) (hf : f.reader = some (core, since)) :
    let t := s.landFetch f r
    t.hbm = s.hbm ∧ Tbl.get? (t.serviceCore core).copies f.num = some ((i.bytes.drop recWc).take 4224) ∧
      t.slt.flash = s.slt.flash ∧ t.tile = s.tile ∧ t.part = s.part := by
  let u : State := s.fetchCounts r (decide (s.nandSince.length ≤ 1))
  have hframe : u = { s with slt := { s.slt with busyTo := u.slt.busyTo }, regs := u.regs } := fetchCounts_frame s r _
  have hland : s.landFetch f r = u.landRead f core since (some i) := by
    rw [State.landFetch, readImage_fetchCounts, hi, hf]
  obtain ⟨hhbm, hcopy, hflash, htile, hpart⟩ := landRead_image u f core since i
  simp only [hland, hhbm, hcopy, hflash, htile, hpart]
  refine ⟨?_, trivial, ?_, ?_, ?_⟩ <;> rw [hframe]

/-! ### The ends of programs and erases (R220) -/

/-- `t` has the images, the tile stores and the engines of `s`. -/
structure SameImages (s t : State) : Prop where
  flash : t.slt.flash = s.slt.flash
  tile : t.tile = s.tile
  eng : t.eng = s.eng

theorem SameImages.trans {s t u : State} (h : SameImages s t) (g : SameImages t u) : SameImages s u :=
  ⟨g.flash.trans h.flash, g.tile.trans h.tile, g.eng.trans h.eng⟩

theorem ReadsStarted.sameImages {s t : State} (h : ReadsStarted s t) : SameImages s t := by
  rw [h.1]
  exact ⟨rfl, rfl, rfl⟩

theorem nandBusy_sameImages (s : State) (t : Nat) : SameImages s (s.nandBusy t) := by
  rw [nandBusy_frame]
  exact ⟨rfl, rfl, rfl⟩

theorem assignLine_sameImages (s : State) (l num st : Nat) : SameImages s (s.assignLine l num st) := by
  unfold State.assignLine
  dsimp only
  split <;> exact ⟨rfl, rfl, rfl⟩

theorem fetchSlice_sameImages (s : State) (st num : Nat) : SameImages s (s.fetchSlice st num) := by
  have hwait : SameImages s (s.count Reg.sltEvcWait) := ⟨rfl, rfl, rfl⟩
  unfold State.fetchSlice
  split
  · exact ⟨rfl, rfl, rfl⟩
  · split
    · exact hwait
    · split
      · exact assignLine_sameImages s _ num st
      · split
        · exact ⟨rfl, rfl, rfl⟩
        · exact hwait

theorem retryFetches_sameImages (s : State) : SameImages s s.retryFetches := by
  refine List.foldlRecOn (motive := SameImages s) _ _ ⟨rfl, rfl, rfl⟩ fun t ht e _ => ?_
  dsimp only
  split
  · exact ht.trans (fetchSlice_sameImages t e.step e.slice.record)
  · exact ht

/-- A programmed image is its slice's image from then on (R220). -/
theorem programmed_image (s : State) (g : SltProgram) (block : Nat) :
    (s.programmed g block).tile = s.tile ∧ (s.programmed g block).eng = s.eng ∧
      Tbl.get? (s.programmed g block).slt.flash g.num = some ⟨s.cph.xts, g.gen, block, g.bytes⟩ := by
  unfold State.programmed
  extract_lets same c mine key x old blocks blocks' s1 slt s2 s3
  have hbusy : SameImages s s1 := nandBusy_sameImages s s.now
  have hline : SameImages s2 s3 := by
    unfold s3
    split <;> exact ⟨rfl, rfl, rfl⟩
  have hmap : SameImages s3 (s3.writeMap g.num).issueFetches := ⟨rfl, rfl, rfl⟩
  have h := ((hline.trans hmap).trans (startReads_started _).sameImages).trans (retryFetches_sameImages _)
  have hkey : s1.cph.xts = s.cph.xts := congrArg (·.cph.xts) (nandBusy_frame s s.now)
  refine ⟨h.tile.trans hbusy.tile, h.eng.trans hbusy.eng, ?_⟩
  rw [h.flash]
  exact (Tbl.get?_set_self _ _ _).trans (by rw [hkey])

/-- `t` is `s` with block `key` left as `y` by the end of its erase: counts, and garbage collection's note of the block,
have moved beside it (R220). -/
def State.eraseEnded (s : State) (key : Nat) (y : FlashBlock) (t : State) : Prop :=
  t = { s with regs := t.regs, slt := { s.slt with
    blocks := s.slt.blocks.set key y, busyTo := t.slt.busyTo, collecting := s.slt.collecting.erase key } }

/-- The block reads as left and every other block as before. -/
theorem State.eraseEnded.blocks {s t : State} {key : Nat} {y : FlashBlock} (h : s.eraseEnded key y t) :
    (Tbl.get {} t.slt.blocks key : FlashBlock) = y ∧ ∀ k, k ≠ key → Tbl.get? t.slt.blocks k = Tbl.get? s.slt.blocks k := by
  have hb : t.slt.blocks = s.slt.blocks.set key y := congrArg (·.slt.blocks) h
  rw [hb]
  exact ⟨Tbl.get_set_self _ _ _ _, fun k hk => Tbl.get?_set_ne _ _ _ _ hk⟩

theorem State.eraseEnded.frame {s t : State} {key : Nat} {y : FlashBlock} (h : s.eraseEnded key y t) :
    t = { s with regs := t.regs, slt := { s.slt with
      blocks := t.slt.blocks, busyTo := t.slt.busyTo, collecting := s.slt.collecting.erase key } } := by
  have hb : t.slt.blocks = s.slt.blocks.set key y := congrArg (·.slt.blocks) h
  rw [hb]
  exact h

/-- An erase counts one more and leaves the block empty. -/
theorem eraseBlock_ended (s : State) (key : Nat) :
    ∃ y : FlashBlock, y.erases = (s.slt.blocks.get {} key : FlashBlock).erases + 1 ∧ y.written = false ∧
      s.eraseEnded key y ((s.nandBusy s.now).eraseBlock key) := by
  let x : FlashBlock := s.slt.blocks.get {} key
  refine ⟨{
    erases := x.erases + 1
    retired := x.retired || decide ((s.nandBusy s.now).fld Reg.sltWear 0 16 ≤ x.erases + 1) }, rfl, rfl, ?_⟩
  unfold State.eraseEnded State.eraseBlock
  rw [nandBusy_frame]

/-- A failed erase retires the block. -/
theorem retireBlock_ended (s : State) (key : Nat) :
    s.eraseEnded key { (s.slt.blocks.get {} key : FlashBlock) with retired := true }
      ((s.nandBusy s.now).retireBlock key) := by
  unfold State.eraseEnded State.retireBlock
  rw [nandBusy_frame]

/-- A block that retires is counted once (R8). -/
theorem retireBlock_count {s : State} {key : Nat} (h : (s.slt.blocks.get {} key : FlashBlock).retired = false) :
    ((s.nandBusy s.now).retireBlock key).reg Reg.sltEvcRetire = min 0xFFFFFFFF (s.reg Reg.sltEvcRetire + 1) := by
  have hret : (Tbl.get {} (s.nandBusy s.now).slt.blocks key : FlashBlock).retired = false := by
    rw [nandBusy_frame]
    exact h
  have hsat : ∀ x ∈ satOf Reg.sltEvcRetire, Reg.sltEvcRetire ≠ x.1 := by decide
  rw [State.retireBlock, State.reg, hret, nat_count_self _ _ _ hsat]
  exact congrArg (min 0xFFFFFFFF <| · + 1) (nandBusy_reg s s.now (by decide) (by decide))

/-! ### The commands -/

theorem exec_flashFetchComplete {s : State} (hrun : s.coreRunning) (num : Nat) (r : FlashResult) :
    exec (.flashFetchComplete num r) s = .next (flashFetchCompleteEffect num r s) :=
  congrArg _ (inCore_run hrun (.flashFetchComplete num r) rfl _)

theorem exec_flashProgramComplete {s : State} (hrun : s.coreRunning) (num block : Nat) (ok : Bool) :
    exec (.flashProgramComplete num block ok) s = .next (flashProgramCompleteEffect num block ok s) :=
  congrArg _ (inCore_run hrun (.flashProgramComplete num block ok) rfl _)

theorem flashFetchCompleteEffect_fetch {s : State} {num : Nat} {f : SltFetch}
    (h : s.slt.fetches.find? (fun e => e.num == num && e.issued) = some f) (r : FlashResult) :
    flashFetchCompleteEffect num r s = s.landFetch f r := by
  rw [flashFetchCompleteEffect, h]

/-- With no such fetch, and no scrub running, nothing happens (R216, R219). -/
theorem flashFetchCompleteEffect_idle {s : State} {num : Nat}
    (h : s.slt.fetches.find? (fun f => f.num == num && f.issued) = none) (hscrub : s.fld Reg.sltCfg 1 1 = 0)
    (r : FlashResult) : flashFetchCompleteEffect num r s = s := by
  rw [flashFetchCompleteEffect, h]
  exact if_neg fun hs => by omega

theorem flashProgramCompleteEffect_program {s : State} {num block : Nat} {g : SltProgram}
    (h : s.slt.programs.find? (fun e => e.num == num) = some g) (ht : s.blockTakes g block = true) :
    flashProgramCompleteEffect num block true s = s.programmed g block := by
  rw [flashProgramCompleteEffect, h]
  simp only [ht, Bool.not_true, Bool.false_eq_true, if_false, if_true]

/-- The end of the erase of a written block in service that holds no image. -/
theorem flashProgramCompleteEffect_erase {s : State} {num block : Nat} (ok : Bool)
    (h : s.slt.programs.find? (fun g => g.num == num) = none)
    (hw : (s.slt.blocks.get {} (blockKey num block) : FlashBlock).written = true)
    (hr : (s.slt.blocks.get {} (blockKey num block) : FlashBlock).retired = false)
    (he : (imagesIn s.slt (blockKey num block)).isEmpty = true) :
    flashProgramCompleteEffect num block ok s =
      if ok then (s.nandBusy s.now).eraseBlock (blockKey num block)
      else (s.nandBusy s.now).retireBlock (blockKey num block) := by
  rw [flashProgramCompleteEffect, h]
  simp only [hw, hr, he, Bool.not_true, Bool.false_eq_true, or_self, if_false]

end Sys2Proof.Machine
end

section
open Sys2Proof Sys2Proof.Machine

/-- Settles O28: it holds. A touch list's post acts in the state of its access, whose registers but `SLT_TLIST_POST` are
those of `s`; a fetch, a program or an erase counts first, which changes none of the registers that say where images lie. -/
theorem slowTierPlansAndFetches : Obligations.SlowTierPlansAndFetches := by
  unfold Obligations.SlowTierPlansAndFetches
  refine ⟨?post, ⟨?fetch, ?idle, ?program, ?erase⟩⟩
  case post =>
    intro m w s hm hin hi hq st list good
    obtain ⟨s1, hparts, hreg, hexec⟩ := exec_touchListPost hm hin hi hq w
    have hset : SameSettings s s1 := fun k hk => hreg k (by omega)
    have hgood : s1.touchListGood st ↔ good := touchListGood_of_settings hset (by rw [hparts]) st
    exact ⟨s1, hparts, hreg, hexec, fun h => planList_refused (mt hgood.1 h), fun h => planList_good (hgood.2 h) w.isLt⟩
  case fetch =>
    intro num r f i s hrun hfind himg
    have hnum : f.num = num := by
      have := List.find?_some hfind
      simp only [Bool.and_eq_true, beq_iff_eq] at this
      exact this.1
    rw [exec_flashFetchComplete hrun, flashFetchCompleteEffect_fetch hfind]
    subst hnum
    exact ⟨fun hf => ⟨_, rfl, landFetch_line himg hf⟩, fun core since hf => ⟨_, rfl, landFetch_reader himg hf⟩⟩
  case idle =>
    intro num r s hrun hfind hscrub
    rw [exec_flashFetchComplete hrun, flashFetchCompleteEffect_idle hfind hscrub]
  case program =>
    intro num block g s hrun hfind htakes
    rw [exec_flashProgramComplete hrun, flashProgramCompleteEffect_program hfind htakes]
    exact ⟨_, rfl, programmed_image s g block⟩
  case erase =>
    intro num block ok s hrun hfind key x hwritten hretired hempty
    rw [exec_flashProgramComplete hrun, flashProgramCompleteEffect_erase ok hfind hwritten hretired hempty]
    cases ok with
    | true =>
      obtain ⟨y, herases, hclear, hended⟩ := eraseBlock_ended s key
      obtain ⟨hblock, hothers⟩ := hended.blocks
      refine ⟨_, rfl, hended.frame, fun _ => ?_, nofun, hothers⟩
      rw [if_pos rfl, hblock]
      exact ⟨herases, hclear⟩
    | false =>
      have hended := retireBlock_ended s key
      obtain ⟨hblock, hothers⟩ := hended.blocks
      refine ⟨_, rfl, hended.frame, nofun, fun _ => ⟨?_, retireBlock_count hretired⟩, hothers⟩
      exact congrArg FlashBlock.retired hblock

end

section
/-! SUPPORT. How a command of the core domain comes to its effect, what a sequencer command's fields say, and the registers,
streams, cues and gates of the sequencer read after writes (07_clockwork, R231 to R251). -/

namespace Sys2Proof.Machine

/-! ### Commands of the core domain -/

/-- A well-formed command of the core domain has the effect that its meaning names while the core runs. -/
theorem exec_running {s : State} (hr : s.coreRunning) {i : Instr} (hw : wellFormed i = true) {f : State → State}
    (hdef : exec i s = .next (s.inCore i f)) : exec i s = .next (f s) :=
  hdef.trans (congrArg _ (inCore_run hr i hw f))

/-- A well-formed sequencer command stands in one of the 40 streams and has its own opcode (R225, R232). -/
theorem inStream_opcode {c : Cmd} {n o : Nat} (h : c.inStream n o = true) : n < 40 ∧ cmdOpcode c = o := by
  simp only [Cmd.inStream, Cmd.isFor, Bool.and_eq_true, decide_eq_true_eq, beq_iff_eq] at h
  obtain ⟨hn, ⟨hop, -⟩, -⟩ := h
  exact ⟨hn, hop⟩

/-- A command with nothing above bit 31 has no field above it. -/
theorem cmdFld_of_low {c : Cmd} (h : c.toNat / 2 ^ 32 = 0) : cmdFld c 32 224 = 0 := by
  rw [cmdFld, bits, h, Nat.zero_mod]

/-! ### The count of reserved bits (R233) -/

theorem seqResv_eq (s : State) {c : Cmd} {o : Nat} (h : cmdOpcode c = o) :
    s.seqResv c = s.countN Reg.seqEvcViol (b2n (seqReserved o c)) := by
  rw [State.seqResv, h]

/-- A command whose reserved bits are zero is not counted. -/
theorem seqResv_clean (s : State) {c : Cmd} {o : Nat} (h : cmdOpcode c = o) (hres : seqReserved o c = false) :
    s.seqResv c = s := by
  rw [seqResv_eq s h, hres]
  rfl

/-- The counter of violations and its saturation flag lie among the event counters. -/
theorem seqEvcViol_place : (0x380100 ≤ Reg.seqEvcViol ∧ Reg.seqEvcViol < 0x380200) ∧
    ∀ x ∈ satOf Reg.seqEvcViol, 0x380100 ≤ x.1 ∧ x.1 < 0x380200 := by decide

/-- A violation counted changes no setting of the sequencer and no register of a stream, a cue or a queue. -/
theorem countN_seqEvcViol_reg (s : State) (n : Nat) {k : Nat} (hk : k < 0x380100 ∨ 0x380200 ≤ k) :
    (s.countN Reg.seqEvcViol n).reg k = s.reg k := by
  obtain ⟨hviol, hsat⟩ := seqEvcViol_place
  exact nat_count_ne s.regs n (by omega) fun x hx => by have := hsat x hx; omega

theorem seqResv_reg (s : State) (c : Cmd) {k : Nat} (hk : k < 0x380100 ∨ 0x380200 ≤ k) : (s.seqResv c).reg k = s.reg k :=
  countN_seqEvcViol_reg s _ hk

/-! ### Streams -/

@[simp] theorem stream_setStream_self (s : State) (n : Nat) (x : Stream) : (s.setStream n x).stream n = x :=
  Tbl.get_set_self _ _ _ _

theorem stream_setStream_ne (s : State) {n j : Nat} (x : Stream) (h : j ≠ n) : (s.setStream n x).stream j = s.stream j :=
  Tbl.get_set_ne _ _ _ _ _ h

/-! ### Cues (R243 to R245) -/

/-- A cue has reached a value while it is less than 2^31 ahead of it (R243). -/
theorem cueReached_iff {a v : Nat} (h : v < 2 ^ 32) : cueReached a v = true ↔ (a + 2 ^ 32 - v) % 2 ^ 32 < 2 ^ 31 := by
  rw [cueReached, Nat.mod_eq_of_lt h, decide_eq_true_eq]

/-- The cues' registers follow one another, the read-only ones after the others. -/
theorem cueReg_eq (q : Nat) : cueReg q = 0x380800 + 4 * q := by
  unfold cueReg Reg.seqCue Reg.seqCueHw
  split <;> omega

theorem cueReg_of_lt {q : Nat} (h : q < 224) : cueReg q = Reg.seqCue q := if_pos h

theorem cueReg_ne {q r : Nat} (h : q ≠ r) : cueReg q ≠ cueReg r := by
  rw [cueReg_eq, cueReg_eq]
  omega

/-- An amount added to a cue changes its register and its history (R244). -/
theorem addCue_frame (s : State) (q n t : Nat) :
    let u := s.addCue q n t
    u = { s with regs := u.regs, seq := { s.seq with cueHist := u.seq.cueHist } } := rfl

theorem addCue_reg_self (s : State) (q n t : Nat) : (s.addCue q n t).reg (cueReg q) = (s.reg (cueReg q) + n) % 2 ^ 32 :=
  (Regs.nat_put_self _ _ _).trans (Nat.mod_mod _ _)

theorem addCue_reg_ne (s : State) {q a : Nat} (n t : Nat) (h : a ≠ cueReg q) : (s.addCue q n t).reg a = s.reg a :=
  Regs.nat_put_ne _ _ _ _ h

/-- A post adds to a cue below 224 (R245). -/
theorem postCue_low (s : State) {q : Nat} (h : q < 224) (n t : Nat) : s.postCue q n t = s.addCue q n t := if_pos h

theorem postCue_high (s : State) {q : Nat} (h : 224 ≤ q) (n t : Nat) : s.postCue q n t = s.count Reg.seqEvcViol :=
  if_neg (Nat.not_lt.2 h)

end Sys2Proof.Machine
end

section
/-! SUPPORT. NOP, ADVANCE, SLACK, WAITCUE and POSTCUE (07_clockwork, R228, R233, R234, R243 to R245). -/

namespace Sys2Proof.Machine

/-- ADVANCE by N moves its stream's planned offset on by N. -/
theorem advanceEffect_moves {c : Cmd} (hk : cmdFld c 32 32 ≠ 0) (n : Nat) (s : State) :
    advanceEffect n c s =
      (s.seqResv c).setStream n { s.stream n with offset := (s.stream n).offset + cmdFld c 32 32 } := if_neg hk

theorem seqResv_lag (s : State) (c : Cmd) (n : Nat) : (s.seqResv c).lag n = s.lag n :=
  seqResv_reg s c (by unfold Reg.seqSLag; omega)

/-- SLACK by N takes at most N from its stream's lag. -/
theorem slackEffect_takes {c : Cmd} (hk : cmdFld c 32 32 ≠ 0) (n : Nat) (s : State) :
    slackEffect n c s = (s.seqResv c).put (Reg.seqSLag n) (s.lag n - min (s.lag n) (cmdFld c 32 32)) := by
  rw [slackEffect, if_neg hk, seqResv_lag]

/-- An ADVANCE or SLACK by 0 without reserved bits is counted as empty alone (R234). -/
theorem advanceEffect_empty {s : State} {c : Cmd} (n : Nat) (hk : cmdFld c 32 32 = 0) (hres : s.seqResv c = s) :
    advanceEffect n c s = s.count Reg.seqEvcEmpty := by
  rw [advanceEffect, if_pos hk, hres]

theorem slackEffect_empty {s : State} {c : Cmd} (n : Nat) (hk : cmdFld c 32 32 = 0) (hres : s.seqResv c = s) :
    slackEffect n c s = s.count Reg.seqEvcEmpty := by
  rw [slackEffect, if_pos hk, hres]

theorem lag_put_ne (s : State) {n j : Nat} (v : Nat) (h : j ≠ n) : (s.put (Reg.seqSLag n) v).lag j = s.lag j :=
  state_put_reg_ne s _ _ v (by unfold Reg.seqSLag; omega)

theorem lag_lt (s : State) (n : Nat) : s.lag n < 2 ^ 32 := regs_nat_lt _ _

/-- WAITCUE passes once the cue has reached its value. -/
theorem waitcueEffect_passes {n : Nat} {c : Cmd} {s : State}
    (h : cueReached (s.cueSeen (cmdFld c 32 8) s.now) (waitValue s n c) = true) :
    waitcueEffect n c s = (s.seqResv c).putFld (Reg.seqSStatus n) 0 4 0 := if_pos h

/-- Before, its stream shows that it waits for a cue. -/
theorem waitcueEffect_waits {n : Nat} {c : Cmd} {s : State}
    (h : ¬ cueReached (s.cueSeen (cmdFld c 32 8) s.now) (waitValue s n c) = true) :
    waitcueEffect n c s = s.putFld (Reg.seqSStatus n) 0 4 1 := if_neg h

end Sys2Proof.Machine
end

section
open Sys2Proof Sys2Proof.Machine

/-- Settles O17: it holds. A NOP is its count of reserved bits (`seqResv_eq`), which touches no stream and no lag; an ADVANCE
or SLACK that is not empty makes one write beside it (`advanceEffect_moves`, `slackEffect_takes`). -/
theorem streamCommandsMoveTheirStream : Obligations.StreamCommandsMoveTheirStream := by
  unfold Obligations.StreamCommandsMoveTheirStream
  refine ⟨?nop, fun n c s hr => ⟨?advance, ?slack, ?empty⟩⟩
  case nop =>
    intro n c s hr hw
    obtain ⟨-, hop⟩ := inStream_opcode hw
    have hexec : exec (.nop n c) s = .next (s.countN Reg.seqEvcViol (b2n (seqReserved 0 c))) := by
      rw [exec_running hr hw rfl, nopEffect, seqResv_eq s hop]
    refine ⟨hexec, fun hlow => ?_⟩
    have hres : seqReserved 0 c = false := by simp [seqReserved, cmdFld_of_low hlow]
    rw [hexec, hres]
    rfl
  case advance =>
    intro hw hk
    refine ⟨_, exec_running hr hw rfl, ?_⟩
    rw [advanceEffect_moves hk]
    exact ⟨rfl, congrArg Stream.offset (stream_setStream_self _ _ _), fun j hj => stream_setStream_ne (s.seqResv c) _ hj,
      fun j _ => seqResv_lag s c j⟩
  case slack =>
    intro hw hk
    have hlt := lag_lt s n
    refine ⟨_, exec_running hr hw rfl, ?_⟩
    rw [slackEffect_takes hk]
    refine ⟨rfl, ?_, fun j _ hj => (lag_put_ne _ _ hj).trans (seqResv_lag s c j)⟩
    exact (state_put_reg _ _ _).trans (Nat.mod_eq_of_lt (by omega))
  case empty =>
    intro hk hres
    refine ⟨fun hw => ?_, fun hw => ?_⟩ <;> obtain ⟨-, hop⟩ := inStream_opcode hw
    · rw [exec_running hr hw rfl, advanceEffect_empty n hk (seqResv_clean s hop hres)]
    · rw [exec_running hr hw rfl, slackEffect_empty n hk (seqResv_clean s hop hres)]

end

section
open Sys2Proof Sys2Proof.Machine

/-- Settles O18: it holds. WAITCUE passes or waits as `cueReached` says, whose value lies below 2^32 (`cueReached_iff`); a
POSTCUE without reserved bits is the post alone (`postCue_low`, `postCue_high`). -/
theorem cuesCompareAndAdd : Obligations.CuesCompareAndAdd := by
  unfold Obligations.CuesCompareAndAdd
  refine ⟨?wait, ?post⟩
  case wait =>
    intro n c s hr hw v
    have hiff : cueReached (s.cueSeen (cmdFld c 32 8) s.now) (waitValue s n c) = true ↔
        (s.cueSeen (cmdFld c 32 8) s.now + 2 ^ 32 - v) % 2 ^ 32 < 2 ^ 31 := cueReached_iff (Nat.mod_lt _ (by decide))
    refine ⟨_, exec_running hr hw rfl, ?_⟩
    by_cases h : (s.cueSeen (cmdFld c 32 8) s.now + 2 ^ 32 - v) % 2 ^ 32 < 2 ^ 31
    · rw [waitcueEffect_passes (hiff.2 h)]
      exact ⟨rfl, fun _ => state_putFld_fld _ _ _ _ _ (by decide), fun hn => absurd h hn⟩
    · rw [waitcueEffect_waits (mt hiff.1 h)]
      exact ⟨rfl, fun hn => absurd hn h,
        fun _ => ⟨state_putFld_fld _ _ _ _ _ (by decide), fun a ha => state_putFld_reg_ne _ _ _ _ _ _ ha⟩⟩
  case post =>
    intro n c s hr hw hres q
    obtain ⟨-, hop⟩ := inStream_opcode hw
    have hexec : exec (.postcue n c) s = .next (s.postCue q (cmdFld c 40 32) s.now) := by
      rw [exec_running hr hw rfl, postcueEffect, seqResv_clean s hop hres]
    refine ⟨fun hq => ⟨_, hexec, ?_⟩, fun hq => ?_⟩
    · rw [postCue_low s hq, ← cueReg_of_lt hq]
      exact ⟨addCue_frame s _ _ _, addCue_reg_self s _ _ _, fun a ha => addCue_reg_ne s _ _ ha⟩
    · rw [hexec, postCue_high s hq]

end

section
/-! SUPPORT. QBOUND, QWAIT and QFREE, and the credit that QFREE sends (07_clockwork, R233, R234, R247, R248; 09_seam_links,
R306, R317). -/

namespace Sys2Proof.Machine

/-! ### A one-frame message in a link's egress -/

/-- A one-frame message changes Seam alone (R306). -/
theorem sendSmall_frame (s : State) (n dest : Nat) (b : Bool) (m : SeamMsg) :
    let t := s.sendSmall n dest b m
    t = { s with seam := t.seam } := rfl

/-- It waits behind what its link's egress holds. -/
theorem sendSmall_out_length (s : State) (n dest : Nat) (b : Bool) (m : SeamMsg) :
    ((s.sendSmall n dest b m).link n).out.length = (s.link n).out.length + 1 := by
  have hout : ∃ f, ((s.sendSmall n dest b m).link n).out = (s.link n).out ++ [f] :=
    ⟨_, congrArg SLink.out (Tbl.get_set_self _ _ _ _)⟩
  obtain ⟨f, hf⟩ := hout
  rw [hf, List.length_append, List.length_singleton]

/-- The routes lie where `SEAM_DOM_ROUTE_BASE` says (R317); another register is no matter to them. -/
theorem routeTo_put (s : State) {a : Nat} (v d : Nat) (hlo : Reg.seamDomRouteBaseLo ≠ a)
    (hhi : Reg.seamDomRouteBaseLo + 4 ≠ a) : (s.put a v).routeTo d = s.routeTo d := by
  have hbase : Regs.pair (s.put a v).regs Reg.seamDomRouteBaseLo = Regs.pair s.regs Reg.seamDomRouteBaseLo := by
    rw [state_put_regs, Regs.pair, Regs.nat_put_ne _ _ _ _ hlo, Regs.nat_put_ne _ _ _ _ hhi, Regs.pair]
  simp only [State.routeTo, hbase]
  rfl

/-! ### The commands -/

theorem fld_lt (s : State) (a lo w : Nat) : s.fld a lo w < 2 ^ w := Nat.mod_lt _ (Nat.two_pow_pos w)

/-- A queue command whose bits above its queue are zero has no reserved bit set. -/
theorem seqReserved_queue {c : Cmd} (h : cmdFld c 38 218 = 0) {o : Nat} (ho : o = 6 ∨ o = 7 ∨ o = 8) :
    seqReserved o c = false := by
  rcases ho with rfl | rfl | rfl <;> simp [seqReserved, h]

/-- QBOUND takes a credit of its queue. -/
theorem qboundEffect_takes {c : Cmd} {s : State} (n : Nat) (hok : s.queueOk (cmdFld c 32 6) false = true)
    (hcred : s.fld (Reg.seqQCred (cmdFld c 32 6)) 0 5 ≠ 0) (hden : s.denied (cmdFld c 32 6) = false) :
    qboundEffect n c s =
      (s.seqResv c).putFld (Reg.seqQCred (cmdFld c 32 6)) 0 5 (s.fld (Reg.seqQCred (cmdFld c 32 6)) 0 5 - 1) := by
  simp [qboundEffect, hok, hcred, hden]

/-- With none left its stream shows that it waits for one. -/
theorem qboundEffect_waits {c : Cmd} {s : State} (n : Nat) (hok : s.queueOk (cmdFld c 32 6) false = true)
    (hcred : s.fld (Reg.seqQCred (cmdFld c 32 6)) 0 5 = 0) :
    qboundEffect n c s = s.putFld (Reg.seqSStatus n) 0 4 3 := by
  simp [qboundEffect, hok, hcred]

theorem qwaitEffect_passes {c : Cmd} {s : State} (n : Nat) (hok : s.queueOk (cmdFld c 32 6) true = true)
    (hmsg : s.reg (Reg.seqQArr (cmdFld c 32 6)) ≠ s.reg (Reg.seqQCons (cmdFld c 32 6))) :
    qwaitEffect n c s = s.seqResv c := by
  simp [qwaitEffect, hok, hmsg]

theorem qwaitEffect_waits {c : Cmd} {s : State} (n : Nat) (hok : s.queueOk (cmdFld c 32 6) true = true)
    (hmsg : s.reg (Reg.seqQArr (cmdFld c 32 6)) = s.reg (Reg.seqQCons (cmdFld c 32 6))) :
    qwaitEffect n c s = s.putFld (Reg.seqSStatus n) 0 4 2 := by
  simp [qwaitEffect, hok, hmsg]

/-- The state after QFREE has consumed a message of queue `q`. -/
def State.consumed (s : State) (q : Nat) : State :=
  s.put (Reg.seqQCons q) ((s.reg (Reg.seqQCons q) + 1) % 2 ^ 32)

/-- QFREE without reserved bits consumes a message and sends the peer one credit. -/
theorem qfreeEffect_frees {c : Cmd} {s : State} (hres : s.seqResv c = s) (hok : s.queueOk (cmdFld c 32 6) true = true)
    (hmsg : s.reg (Reg.seqQArr (cmdFld c 32 6)) ≠ s.reg (Reg.seqQCons (cmdFld c 32 6))) :
    ∃ m, qfreeEffect c s = (s.consumed (cmdFld c 32 6)).sendSmall (s.routeTo (s.peerOf (cmdFld c 32 6)).1).1
      (s.peerOf (cmdFld c 32 6)).1 false m := by
  have hroute (d : Nat) : (s.consumed (cmdFld c 32 6)).routeTo d = s.routeTo d :=
    routeTo_put s _ d (by unfold Reg.seamDomRouteBaseLo Reg.seqQCons; omega)
      (by unfold Reg.seamDomRouteBaseLo Reg.seqQCons; omega)
  refine ⟨{ emptyMsg 1 (s.consumed (cmdFld c 32 6)).device with queue := (s.peerOf (cmdFld c 32 6)).2 }, ?_⟩
  rw [← hroute]
  simp only [qfreeEffect, hres, hok, hmsg, Bool.not_true, Bool.false_eq_true, if_false]
  rfl

theorem qfreeEffect_none {c : Cmd} {s : State} (hres : s.seqResv c = s)
    (hmsg : s.reg (Reg.seqQArr (cmdFld c 32 6)) = s.reg (Reg.seqQCons (cmdFld c 32 6))) :
    qfreeEffect c s = s.count Reg.seqEvcViol := by
  simp [qfreeEffect, hres, hmsg]

end Sys2Proof.Machine
end

section
open Sys2Proof Sys2Proof.Machine

/-- Settles O19: it holds. Without reserved bits each command is its one write (`qboundEffect_takes`, `qwaitEffect_passes`)
or its wait, and QFREE's credit is one frame more on the link of its peer's route (`sendSmall_out_length`). -/
theorem queueCommandsMoveCredits : Obligations.QueueCommandsMoveCredits := by
  unfold Obligations.QueueCommandsMoveCredits
  intro n c s hr hzero q
  have hclean {o : Nat} (hw : c.inStream n o = true) (ho : o = 6 ∨ o = 7 ∨ o = 8) : s.seqResv c = s :=
    seqResv_clean s (inStream_opcode hw).2 (seqReserved_queue hzero ho)
  refine ⟨fun hw hok => ⟨?take, ?full⟩, fun hw hok => ⟨?pass, ?wait⟩, fun hw hok => ⟨?free, ?none⟩⟩
  case take =>
    intro hcred hden
    have hlt := Nat.lt_of_le_of_lt (Nat.sub_le _ 1) (fld_lt s (Reg.seqQCred q) 0 5)
    refine ⟨_, exec_running hr hw rfl, ?_⟩
    rw [qboundEffect_takes n hok hcred hden, hclean hw (by decide)]
    exact ⟨rfl, (state_putFld_fld _ _ _ _ _ (by decide)).trans (Nat.mod_eq_of_lt hlt),
      fun a ha => state_putFld_reg_ne _ _ _ _ _ _ ha⟩
  case full =>
    intro hcred
    refine ⟨_, exec_running hr hw rfl, ?_⟩
    rw [qboundEffect_waits n hok hcred]
    exact ⟨rfl, state_putFld_fld _ _ _ _ _ (by decide), fun a ha => state_putFld_reg_ne _ _ _ _ _ _ ha⟩
  case pass =>
    intro hmsg
    rw [exec_running hr hw rfl, qwaitEffect_passes n hok hmsg, hclean hw (by decide)]
  case wait =>
    intro hmsg
    refine ⟨_, exec_running hr hw rfl, ?_⟩
    rw [qwaitEffect_waits n hok hmsg]
    exact ⟨rfl, state_putFld_fld _ _ _ _ _ (by decide)⟩
  case free =>
    intro hmsg
    obtain ⟨m, hm⟩ := qfreeEffect_frees (hclean hw (by decide)) hok hmsg
    refine ⟨_, exec_running hr hw rfl, ?_⟩
    rw [hm]
    refine ⟨rfl, ?_, fun a ha => state_put_reg_ne s (Reg.seqQCons q) a _ ha, sendSmall_out_length _ _ _ _ _⟩
    exact (state_put_reg s _ _).trans (Nat.mod_mod _ _)
  case none =>
    intro hmsg
    rw [exec_running hr hw rfl, qfreeEffect_none (hclean hw (by decide)) hmsg]

end

section
/-! SUPPORT. BGSLOT and its close, EXPAND and STEPEND (07_clockwork, R233, R235, R237, R258). -/

namespace Sys2Proof.Machine

/-! ### Background slots (R258) -/

/-- BGSLOT of classes for a time, in a stream that opens none. -/
theorem bgslotEffect_other {n : Nat} {c : Cmd} {s : State} (hres : s.seqResv c = s) (hlen : cmdFld c 32 32 ≠ 0)
    (hcls : cmdFld c 64 4 ≠ 0) (hn : s.fld Reg.seqCfg 2 6 ≠ n) : bgslotEffect n c s = s := by
  simp [bgslotEffect, hres, hlen, hcls, hn]

/-- In the stream that `SEQ_CFG.BGSTREAM` names it opens a slot. -/
theorem bgslotEffect_opens {n : Nat} {c : Cmd} {s : State} (hres : s.seqResv c = s) (hlen : cmdFld c 32 32 ≠ 0)
    (hcls : cmdFld c 64 4 ≠ 0) (hn : s.fld Reg.seqCfg 2 6 = n) :
    bgslotEffect n c s = { s with seq := { s.seq with
      slots := s.seq.slots ++ [{ classes := cmdFld c 64 4, closes := s.now + cmdFld c 32 32 }] } } := by
  simp [bgslotEffect, hres, hlen, hcls, hn]

/-- The slots that are open, the one that closes first at the front. -/
abbrev closingOrder (l : List BgSlot) : List BgSlot := l.mergeSort fun a b => decide (a.closes ≤ b.closes)

/-- The front of that order closes no later than any other. -/
theorem closingOrder_head {l rest : List BgSlot} {b : BgSlot} (h : closingOrder l = b :: rest) :
    b ∈ l ∧ ∀ x ∈ l, b.closes ≤ x.closes := by
  have hmem (x : BgSlot) : x ∈ l ↔ x ∈ b :: rest := by rw [← h, List.mem_mergeSort]
  have hsorted : (b :: rest).Pairwise fun a b => decide (a.closes ≤ b.closes) = true := by
    rw [← h]
    exact List.pairwise_mergeSort (fun a b c => by simp only [decide_eq_true_eq]; omega)
      (fun a b => by simp only [Bool.or_eq_true, decide_eq_true_eq]; omega) l
  refine ⟨(hmem b).2 List.mem_cons_self, fun x hx => ?_⟩
  rcases List.mem_cons.1 ((hmem x).1 hx) with rfl | hx
  · exact Nat.le_refl _
  · exact of_decide_eq_true ((List.pairwise_cons.1 hsorted).1 x hx)

/-- The close of the slot that ends first. -/
theorem bgslotCloseEffect_first {s : State} (h : s.seq.slots ≠ []) :
    ∃ b ∈ s.seq.slots, (∀ x ∈ s.seq.slots, b.closes ≤ x.closes) ∧
      bgslotCloseEffect s =
        { s with clk := (s.atCycle b.closes).clk, seq := { s.seq with slots := s.seq.slots.erase b } } := by
  cases horder : s.seq.slots.mergeSort fun a b => decide (a.closes ≤ b.closes) with
  | nil =>
    have hlen := (List.length_mergeSort _).symm.trans (congrArg List.length horder)
    exact absurd (List.eq_nil_of_length_eq_zero hlen) h
  | cons b rest =>
    obtain ⟨hmem, hfirst⟩ := closingOrder_head horder
    refine ⟨b, hmem, hfirst, ?_⟩
    obtain ⟨k, e⟩ := atCycle_clk s b.closes
    rw [bgslotCloseEffect, horder]
    dsimp only
    rw [e]

/-! ### EXPAND and STEPEND -/

/-- EXPAND in the native order begins its stream's expansion (R237). -/
theorem expandEffect_begins {n : Nat} {c : Cmd} {s : State} (h : s.fld Reg.seqCfg 1 1 = 0) :
    expandEffect n c s = ((s.seqResv c).setStream n { s.stream n with expand := some ⟨c, .forward, 0, 0, []⟩ }).putFld
      (Reg.seqSStatus n) 4 1 1 := if_neg (by omega)

/-- In the compatibility order it is a violation (R241). -/
theorem expandEffect_compat {n : Nat} {c : Cmd} {s : State} (h : s.fld Reg.seqCfg 1 1 = 1) :
    expandEffect n c s = s.count Reg.seqEvcViol := if_pos h

/-- The stream after STEPEND: at the start of its next step. -/
def State.nextStep (s : State) (n : Nat) (c : Cmd) : State :=
  (s.seqResv c).setStream n { s.stream n with step := (s.stream n).step + 1, offset := 0 }

theorem nextStep_reg (s : State) (n : Nat) (c : Cmd) {k : Nat} (hk : k < 0x380100 ∨ 0x380200 ≤ k) :
    (s.nextStep n c).reg k = s.reg k := seqResv_reg s c hk

/-- STEPEND begins the stream's next step, and in the native order its program from the first command. -/
theorem stependEffect_eq (n : Nat) (c : Cmd) (s : State) :
    stependEffect n c s =
      if s.fld Reg.seqCfg 1 1 = 1 then s.nextStep n c else (s.nextStep n c).put (Reg.seqSHead n) 0 := by
  have hcfg : (s.nextStep n c).fld Reg.seqCfg 1 1 = s.fld Reg.seqCfg 1 1 :=
    congrArg (bits · 1 1) (nextStep_reg s n c (by decide))
  rw [← hcfg]
  rfl

theorem stependEffect_frame (n : Nat) (c : Cmd) (s : State) :
    let t := stependEffect n c s
    t = { s with regs := t.regs, seq := { s.seq with streams := t.seq.streams } } ∧
      ∀ j, t.stream j = (s.nextStep n c).stream j := by
  rw [stependEffect_eq]
  split <;> exact ⟨rfl, fun _ => rfl⟩

end Sys2Proof.Machine
end

section
open Sys2Proof Sys2Proof.Machine

/-- Settles O20: it holds. The slot that closes is the front of the closing order (`closingOrder_head`); EXPAND and STEPEND
write their own stream, and STEPEND's other writes are its program's head alone (`stependEffect_eq`). -/
theorem slotsExpansionsAndSteps : Obligations.SlotsExpansionsAndSteps := by
  unfold Obligations.SlotsExpansionsAndSteps
  refine ⟨⟨?opening, ?closing⟩, fun n c s hr => ⟨?begins, ?compat, ?stepend⟩⟩
  case opening =>
    intro n c s hr hw hres hlen hcls
    have hclean : s.seqResv c = s := seqResv_clean s (inStream_opcode hw).2 hres
    refine ⟨fun hn => ?_, fun hn => ?_⟩
    · rw [exec_running hr hw rfl, bgslotEffect_opens hclean hlen hcls hn]
    · rw [exec_running hr hw rfl, bgslotEffect_other hclean hlen hcls hn]
  case closing =>
    intro s hr hopen hlt
    obtain ⟨b, hb, hfirst, heff⟩ := bgslotCloseEffect_first hopen
    have hexec : exec .bgslotClose s = .next _ := exec_running hr rfl rfl
    refine ⟨_, b, hb, hexec, hfirst, ?_⟩
    rw [heff]
    exact ⟨rfl, state_atCycle_now s _ (hlt b hb)⟩
  case begins =>
    intro hw hcfg
    refine ⟨_, exec_running hr hw rfl, ?_⟩
    rw [expandEffect_begins hcfg]
    exact ⟨rfl, congrArg Stream.expand (stream_setStream_self (s.seqResv c) _ _), state_putFld_fld _ _ _ _ _ (by decide),
      fun j hj => stream_setStream_ne (s.seqResv c) _ hj⟩
  case compat =>
    intro hw hcfg
    rw [exec_running hr hw rfl, expandEffect_compat hcfg]
  case stepend =>
    intro hw
    obtain ⟨hframe, hstream⟩ := stependEffect_frame n c s
    have hself : (stependEffect n c s).stream n = _ := (hstream n).trans (stream_setStream_self _ _ _)
    refine ⟨stependEffect n c s, exec_running hr hw rfl, fun hover => endSteps_of_not_over hover, hframe,
      congrArg Stream.step hself, congrArg Stream.offset hself,
      fun j hj => (hstream j).trans (stream_setStream_ne (s.seqResv c) _ hj), fun hcfg => ?_, fun hcfg => ?_⟩
    · rw [stependEffect_eq, if_neg (by omega)]
      exact state_put_reg _ _ _
    · rw [stependEffect_eq, if_pos hcfg]
      exact nextStep_reg s n c (by unfold Reg.seqSHead; omega)

end

section
/-! SUPPORT. SLEEP, and the gating and waking of its targets (07_clockwork, R234, R250 to R252). -/

namespace Sys2Proof.Machine

/-! ### Gates -/

@[simp] theorem gate_setGate_self (s : State) (k : Nat) (g : Gate) : Tbl.get? (s.setGate k g).seq.gates k = some g :=
  Tbl.get?_set_self _ _ _

theorem gate_setGate_ne (s : State) {k j : Nat} (g : Gate) (h : j ≠ k) :
    Tbl.get? (s.setGate k g).seq.gates j = Tbl.get? s.seq.gates j := Tbl.get?_set_ne _ _ _ _ h

/-- What a gating loses is no gate (R250). -/
theorem loseState_gates (s : State) (k level : Nat) : (s.loseState k level).seq.gates = s.seq.gates := by
  unfold State.loseState
  split
  · rfl
  · split
    · rfl
    · split
      · rfl
      · exact List.foldlRecOn (motive := fun t : State => t.seq.gates = s.seq.gates) _ _ rfl fun _ ht _ _ => ht

/-- A gating at level 1 loses nothing (R250). -/
theorem loseState_shallow (s : State) (k : Nat) {level : Nat} (h : level ≤ 1) : s.loseState k level = s := if_pos h

/-- The lead times of R250. -/
theorem gateTimes_lead (level : Nat) : (gateTimes level).2 = if level = 1 then 12 else if level = 2 then 1536 else 6000 := by
  unfold gateTimes
  split
  · rfl
  · split <;> rfl

/-! ### SLEEP (R250, R251) -/

/-- A SLEEP sets its target's gate, and changes no other. -/
theorem sleep_sets (s : State) (k level : Nat) (wake : Option Nat) :
    ∃ (u : State) (g : Gate), u.seq.gates = s.seq.gates ∧ s.sleep k level wake = u.setGate k g := by
  unfold State.sleep
  split
  · exact ⟨s, _, rfl, rfl⟩
  · next g _ =>
    split
    · exact ⟨s, _, rfl, rfl⟩
    · split
      · exact ⟨s, _, rfl, rfl⟩
      · refine ⟨if g.level < level then s.loseState k level else s, _, ?_, rfl⟩
        split
        · exact loseState_gates s k level
        · rfl

/-- One of a target that is awake, or still waits for idleness, is planned. -/
theorem sleep_awake {s : State} {k : Nat}
    (h : Tbl.get? s.seq.gates k = none ∨ ∃ g, Tbl.get? s.seq.gates k = some g ∧ g.phase = 0) (level : Nat)
    (wake : Option Nat) : s.sleep k level wake = s.setGate k ⟨level, wake, 0, 0, none⟩ := by
  rcases h with h | ⟨g, h, hp⟩ <;> simp only [State.sleep, h]
  exact if_pos hp

/-- A gated target stays gated, at the deeper level and with the new wake. -/
theorem sleep_gated {s : State} {k : Nat} {g : Gate} (h : Tbl.get? s.seq.gates k = some g) (hp : g.phase = 1) (level : Nat)
    (wake : Option Nat) :
    s.sleep k level wake =
      (if g.level < level then s.loseState k level else s).setGate k
        { g with level := max g.level level, wakeAt := wake } := by
  simp [State.sleep, h, hp]

/-- One in its wake is gated afterwards. -/
theorem sleep_waking {s : State} {k : Nat} {g : Gate} (h : Tbl.get? s.seq.gates k = some g) (hp : g.phase = 2) (level : Nat)
    (wake : Option Nat) : s.sleep k level wake = s.setGate k { g with next := some (level, wake) } := by
  simp [State.sleep, h, hp]

/-- The wake that a SLEEP plans: the lead time of its level ahead of the next command (R250). -/
def State.plannedWake (s : State) (level next : Nat) : Option Nat :=
  if next = 0xFFFFFFFF then none
  else some (s.now + next - if level = 1 then 12 else if level = 2 then 1536 else 6000)

theorem sleepEffect_plans {c : Cmd} {s : State} (hres : s.seqResv c = s) (hu : cmdFld c 32 12 < 0xA0)
    (hl : cmdFld c 44 2 ≠ 0) :
    sleepEffect c s = s.sleep (gateKey (cmdFld c 32 12) (cmdFld c 44 2)) (cmdFld c 44 2)
      (s.plannedWake (cmdFld c 44 2) (cmdFld c 64 32)) := by
  have hn : ¬ (0xA0 ≤ cmdFld c 32 12 ∨ cmdFld c 44 2 = 0) := by omega
  simp only [sleepEffect, hres, if_neg hn, gateTimes_lead]
  rfl

/-- Another target, or level 0, is a violation (R234). -/
theorem sleepEffect_viol {c : Cmd} {s : State} (hres : s.seqResv c = s) (h : 0xA0 ≤ cmdFld c 32 12 ∨ cmdFld c 44 2 = 0) :
    sleepEffect c s = s.count Reg.seqEvcViol := by
  simp only [sleepEffect, hres, if_pos h]

/-! ### Gating (R250, R251) -/

/-- An idle target with time before its wake gates. -/
theorem unitGateEffect_gates {s : State} {k : Nat} {g : Gate} (h : Tbl.get? s.seq.gates k = some g) (hp : g.phase = 0)
    (hidle : s.targetIdle k = true) (htime : ∀ w, g.wakeAt = some w → s.now + (gateTimes g.level).1 ≤ w) :
    unitGateEffect k s =
      (s.loseState k g.level).setGate k { g with phase := 1, at' := s.now + (gateTimes g.level).1 } := by
  have hphase : ¬ g.phase ≠ 0 := not_not_intro hp
  cases hw : g.wakeAt with
  | none => simp only [unitGateEffect, h, hw, if_neg hphase, hidle, Bool.false_eq_true, if_false, if_true]
  | some w =>
    have hlate : ¬ w < s.now + (gateTimes g.level).1 := Nat.not_lt.2 (htime w hw)
    simp only [unitGateEffect, h, hw, if_neg hphase, hidle, decide_eq_false hlate, Bool.false_eq_true, if_false, if_true]

/-- One that would not be gated before its wake is not gated, and counted. -/
theorem unitGateEffect_late {s : State} {k : Nat} {g : Gate} {w : Nat} (h : Tbl.get? s.seq.gates k = some g)
    (hp : g.phase = 0) (hw : g.wakeAt = some w) (hlate : w < s.now + (gateTimes g.level).1) :
    unitGateEffect k s = (s.dropGate k).count Reg.seqEvcNogate := by
  have hphase : ¬ g.phase ≠ 0 := not_not_intro hp
  simp only [unitGateEffect, h, hw, if_neg hphase, decide_eq_true hlate, if_true]

/-! ### Waking (R250, R252) -/

/-- A wake that waits for R252 starts no sooner than asked. -/
theorem wakeSlot_ge (n : Nat) (ws : List Nat) (room span t : Nat) : t ≤ wakeSlot n ws room span t := by
  induction n generalizing t with
  | zero => exact Nat.le_refl t
  | succ n ih =>
    unfold wakeSlot
    split
    · exact Nat.le_refl t
    · exact Nat.le_of_succ_le (ih (t + 1))

/-- A gated target's wake starts in its cycle, and lasts at least the lead time of its level. -/
theorem wakeStartEffect_wakes {s : State} {k : Nat} {g : Gate} {w : Nat} (h : Tbl.get? s.seq.gates k = some g)
    (hp : g.phase = 1) (hw : g.wakeAt = some w) :
    ∃ q g', wakeStartEffect k s = { s with clk := (s.atCycle w).clk, seq := q } ∧ Tbl.get? q.gates k = some g' ∧
      g'.phase = 2 ∧ (s.atCycle w).now + (gateTimes g.level).2 ≤ g'.at' := by
  let q := (s.atCycle w).seq
  let t := if g.level = 2 then wakeSlot 8192 q.wakes 8 16 (s.atCycle w).now
    else if g.level = 3 then wakeSlot 8192 q.clusterWakes 1 64 (s.atCycle w).now else (s.atCycle w).now
  have ht : (s.atCycle w).now ≤ t := by
    unfold t
    split
    · exact wakeSlot_ge _ _ _ _ _
    · split
      · exact wakeSlot_ge _ _ _ _ _
      · exact Nat.le_refl _
  obtain ⟨c, e⟩ := atCycle_clk s w
  have heff : wakeStartEffect k s = { s.atCycle w with seq := (wakeStartEffect k s).seq } ∧
      Tbl.get? (wakeStartEffect k s).seq.gates k = some { g with phase := 2, at' := t + (gateTimes g.level).2 } := by
    simp only [wakeStartEffect, h, hw, hp]
    exact ⟨rfl, gate_setGate_self _ _ _⟩
  obtain ⟨hframe, hgate⟩ := heff
  refine ⟨_, _, hframe.trans ?_, hgate, rfl, Nat.add_le_add_right ht _⟩
  rw [e]

/-- A wake that ends frees its target, or has it wait for the gating planned meanwhile. -/
theorem wakeCompleteEffect_ends {s : State} {k : Nat} {g : Gate} (h : Tbl.get? s.seq.gates k = some g) (hp : g.phase = 2) :
    wakeCompleteEffect k s = match g.next with
      | none => (s.atCycle g.at').dropGate k
      | some (level, wakeAt) => (s.atCycle g.at').setGate k ⟨level, wakeAt, 0, 0, none⟩ := by
  rw [wakeCompleteEffect, h]
  exact if_neg (by omega)

end Sys2Proof.Machine
end

section
open Sys2Proof Sys2Proof.Machine

/-- Settles O21: it holds. A SLEEP sets one gate (`sleep_sets`), by the phase its target is in (`sleep_awake`, `sleep_gated`,
`sleep_waking`); gating and waking are the two ends of that gate, and a wake that waits for R252 starts only later
(`wakeSlot_ge`). -/
theorem unitsSleepAndWake : Obligations.UnitsSleepAndWake := by
  unfold Obligations.UnitsSleepAndWake
  refine ⟨?sleep, fun k g s hr hk hg => ⟨?gate, ?late, ?start, ?complete⟩⟩
  case sleep =>
    intro n c s hr hw hres u level next lead wake old
    have hclean : s.seqResv c = s := seqResv_clean s (inStream_opcode hw).2 hres
    refine ⟨fun hu hl => ⟨s.sleep (gateKey u level) level wake, ?_⟩, fun hviol => ?_⟩
    · obtain ⟨hhbm, htile⟩ := state_sleep_stores s (gateKey u level) level wake
      obtain ⟨v, g', hv, hset⟩ := sleep_sets s (gateKey u level) level wake
      have hexec : exec (.sleep n c) s = .next (s.sleep (gateKey u level) level wake) := by
        rw [exec_running hr hw rfl, sleepEffect_plans hclean hu hl]
        rfl
      refine ⟨hexec, htile, hhbm, fun k hk => ?_, fun hawake => ?_, fun g hg hp => ?_, fun g hg hp => ?_⟩
      · rw [hset, gate_setGate_ne v g' hk, hv]
      · rw [sleep_awake hawake]
        exact ⟨rfl, gate_setGate_self _ _ _⟩
      · rw [sleep_gated hg hp]
        exact ⟨gate_setGate_self _ _ _, fun hle => by rw [if_neg (Nat.not_lt.2 hle)]; rfl⟩
      · rw [sleep_waking hg hp]
        exact ⟨rfl, gate_setGate_self _ _ _⟩
    · rw [exec_running hr hw rfl, sleepEffect_viol hclean hviol]
  case gate =>
    intro hp hidle htime
    obtain ⟨hhbm, htile⟩ := unitGateEffect_stores k s
    refine ⟨_, exec_running (i := .unitGate k) hr hk rfl, htile, hhbm, ?_⟩
    rw [unitGateEffect_gates hg hp hidle htime]
    refine ⟨gate_setGate_self _ _ _, fun hlevel => ?_⟩
    rw [loseState_shallow s k (Nat.le_of_eq hlevel)]
    exact ⟨rfl, rfl, rfl⟩
  case late =>
    intro w hp hw hlate
    rw [exec_running (i := .unitGate k) hr hk rfl, unitGateEffect_late hg hp hw hlate]
  case start =>
    intro w hp hw hlt
    obtain ⟨q, g', heff, hgate, hphase, htime⟩ := wakeStartEffect_wakes hg hp hw
    refine ⟨_, exec_running (i := .wakeStart k) hr hk rfl, ?_⟩
    rw [heff]
    exact ⟨state_atCycle_now s w hlt, rfl, rfl, rfl, g', hgate, hphase, htime⟩
  case complete =>
    intro hp hlt
    obtain ⟨c, e⟩ := atCycle_clk s g.at'
    have hnow := state_atCycle_now s g.at' hlt
    refine ⟨_, exec_running (i := .wakeComplete k) hr hk rfl, ?_⟩
    rw [wakeCompleteEffect_ends hg hp]
    rw [e] at hnow ⊢
    cases hnext : g.next with
    | none => exact ⟨hnow, fun _ => rfl, nofun⟩
    | some p =>
      refine ⟨hnow, nofun, fun l w he => ?_⟩
      obtain rfl : p = (l, w) := Option.some.inj he
      rfl

end

section
/-! SUPPORT. The instructions of the service-core extension on a core that runs (07_clockwork, R265). -/

namespace Sys2Proof.Machine

/-! ### Service cores after writes -/

@[simp] theorem serviceCore_setCore_self (s : State) (k : Nat) (c : Core) : (s.setCore k c).serviceCore k = c :=
  Tbl.get_set_self _ _ _ _

theorem serviceCore_setCore_ne (s : State) {k j : Nat} (c : Core) (h : j ≠ k) :
    (s.setCore k c).serviceCore j = s.serviceCore j := Tbl.get_set_ne _ _ _ _ _ h

/-- A hart's register other than x0 reads as written. -/
theorem core_x_setX_self (c : Core) {r : Nat} (v : Nat) (h : r ≠ 0) : (c.setX r v).x r = v % 2 ^ 64 := by
  rw [Core.setX, Core.x, if_neg h, if_neg h, Tbl.get_set_self, BitVec.toNat_ofNat]

/-! ### Words of the extension -/

/-- Core `k` executes its hart's next instruction, and `w` is the extension's instruction of `f3`. -/
structure ZcRuns (s : State) (k : Nat) (w : Word) (f3 : Nat) : Prop where
  runs : s.coreRuns k = true
  opcode : (ZcInsn.of w).opcode = 0x0B
  funct7 : (ZcInsn.of w).funct7 = 0
  funct3 : (ZcInsn.of w).funct3 = f3

variable {k : Nat} {w : Word} {s : State}

/-- An instruction of the extension has its effect. -/
theorem ZcRuns.zcRun {f3 : Nat} (h : ZcRuns s k w f3) (h6 : f3 ≠ 6) (f : ZcInsn → State → State) :
    Machine.zcRun k w f3 f s = f (ZcInsn.of w) s := by
  obtain ⟨hruns, hop, h7, h3⟩ := h
  simp [Machine.zcRun, hruns, hop, h7, h3, h6]

/-- The command of such an instruction. -/
theorem ZcRuns.exec {f3 : Nat} (h : ZcRuns s k w f3) (h6 : f3 ≠ 6) (hr : s.coreRunning) {i : Instr}
    (hw : wellFormed i = true) {f : ZcInsn → State → State}
    (hdef : Machine.exec i s = .next (s.inCore i (Machine.zcRun k w f3 f))) : Machine.exec i s = .next (f (ZcInsn.of w) s) :=
  (exec_running hr hw hdef).trans (congrArg _ (h.zcRun h6 f))

/-- A word with another funct7, or funct3 0b110, raises the illegal-instruction exception. -/
theorem zcRun_illegal (hruns : s.coreRuns k = true) (hop : (ZcInsn.of w).opcode = 0x0B)
    (hill : (ZcInsn.of w).funct7 ≠ 0 ∨ (ZcInsn.of w).funct3 = 6) (f3 : Nat) (f : ZcInsn → State → State) :
    zcRun k w f3 f s = s.setCore k { s.serviceCore k with illegal := true } := by
  simp only [zcRun, hruns, hop, Bool.not_true, bne_self_eq_false, Bool.or_false, Bool.false_eq_true, if_false, if_pos hill]

/-! ### zc.cue (R245) -/

/-- The state in which a hart has read a cue, and posts to it. -/
def State.cueRead (s : State) (k : Nat) (w : Word) : State :=
  s.setCore k ((s.serviceCore k).setX (ZcInsn.of w).rd (s.cueAt ((s.serviceCore k).x (ZcInsn.of w).rs1 % 256) s.now))

theorem zcCueEffect_eq (h : ZcRuns s k w 3) :
    zcCueEffect k w s =
      if (s.serviceCore k).x (ZcInsn.of w).rs2 = 0 then s.cueRead k w
      else (s.cueRead k w).postCue ((s.serviceCore k).x (ZcInsn.of w).rs1 % 256)
        ((s.serviceCore k).x (ZcInsn.of w).rs2 % 2 ^ 32) (s.now + 12) := h.zcRun (by decide) _

/-- A post leaves the service cores as they are. -/
theorem postCue_serviceCore (s : State) (q n t k : Nat) : (s.postCue q n t).serviceCore k = s.serviceCore k := by
  unfold State.postCue
  split <;> rfl

/-- A post leaves every other cue as it is. -/
theorem postCue_reg_ne (s : State) {q r : Nat} (n t : Nat) (h : r ≠ q) :
    (s.postCue q n t).reg (cueReg r) = s.reg (cueReg r) := by
  rcases Nat.lt_or_ge q 224 with hq | hq
  · rw [postCue_low s hq]
    exact addCue_reg_ne s n t (cueReg_ne h)
  · rw [postCue_high s hq]
    exact countN_seqEvcViol_reg s 1 (by rw [cueReg_eq]; omega)

/-- A cue below 224 after a hart's post to it. -/
theorem zcCueEffect_cue (h : ZcRuns s k w 3) (hq : (s.serviceCore k).x (ZcInsn.of w).rs1 % 256 < 224) :
    (zcCueEffect k w s).reg (cueReg ((s.serviceCore k).x (ZcInsn.of w).rs1 % 256)) =
      (s.reg (cueReg ((s.serviceCore k).x (ZcInsn.of w).rs1 % 256)) + (s.serviceCore k).x (ZcInsn.of w).rs2) % 2 ^ 32 := by
  rw [zcCueEffect_eq h]
  split
  next h0 =>
    rw [h0]
    exact (Nat.mod_eq_of_lt (regs_nat_lt _ _)).symm
  next =>
    rw [postCue_low _ hq, addCue_reg_self, Nat.add_mod_mod]
    rfl

theorem zcCueEffect_serviceCore (h : ZcRuns s k w 3) :
    (zcCueEffect k w s).serviceCore k =
      (s.serviceCore k).setX (ZcInsn.of w).rd (s.cueAt ((s.serviceCore k).x (ZcInsn.of w).rs1 % 256) s.now) := by
  rw [zcCueEffect_eq h]
  split
  · exact serviceCore_setCore_self _ _ _
  · rw [postCue_serviceCore]
    exact serviceCore_setCore_self _ _ _

theorem zcCueEffect_others (h : ZcRuns s k w 3) {q : Nat} (hq : q ≠ (s.serviceCore k).x (ZcInsn.of w).rs1 % 256) :
    (zcCueEffect k w s).reg (cueReg q) = s.reg (cueReg q) := by
  rw [zcCueEffect_eq h]
  split
  · rfl
  · exact postCue_reg_ne _ _ _ hq

/-! ### zc.issue (R240, R265) -/

theorem read48_length (s : State) (a n : Nat) : (s.read48 a n).length = n := by
  unfold State.read48 Memory.read
  split <;> rw [List.length_map, List.length_range]

/-- The stream that zc.issue names, and the commands in its ring. -/
def State.zcStream (s : State) (k : Nat) (w : Word) : Nat := (s.serviceCore k).x (ZcInsn.of w).rs2 % 64
def State.ringUsed (s : State) (n : Nat) : Nat := (s.reg (Reg.seqSTail n) + 2 ^ 32 - s.reg (Reg.seqSHead n)) % 2 ^ 32
/-- The address at which the next command of a ring goes. -/
def State.ringSlot (s : State) (n : Nat) : Nat :=
  Regs.pair s.regs (Reg.seqSBaseLo n) + 32 * (s.reg (Reg.seqSTail n) % s.reg (Reg.seqSLen n))

/-- A stream that is no compatibility ring is answered 2, and counted. -/
theorem zcIssueEffect_noRing (h : ZcRuns s k w 0) (hring : s.ringOk (s.zcStream k w) = false) :
    zcIssueEffect k w s = (s.setCore k ((s.serviceCore k).setX (ZcInsn.of w).rd 2)).count Reg.seqEvcViol := by
  rw [State.zcStream] at hring
  refine (h.zcRun (by decide) _).trans ?_
  simp [hring]

/-- A full ring is answered 1. -/
theorem zcIssueEffect_full (h : ZcRuns s k w 0) (hring : s.ringOk (s.zcStream k w) = true)
    (hfull : s.reg (Reg.seqSLen (s.zcStream k w)) ≤ s.ringUsed (s.zcStream k w)) :
    zcIssueEffect k w s = s.setCore k ((s.serviceCore k).setX (ZcInsn.of w).rd 1) := by
  rw [State.zcStream] at hring hfull
  rw [State.ringUsed] at hfull
  refine (h.zcRun (by decide) _).trans ?_
  dsimp only
  rw [hring, if_neg (by decide), if_pos hfull]

/-- The state in which a command has been appended to its ring: its bytes in HBM, and the cycle in which it reaches the
ring. -/
def State.ringed (s : State) (n : Nat) (bytes : List Byte) : State :=
  let t := { s with hbm := s.hbm.write (s.ringSlot n) bytes }
  t.setStream n { t.stream n with ringAt := (t.stream n).ringAt.set (s.reg (Reg.seqSTail n)) (s.now + 24) }

/-- A ring with room takes the command, answered 0. -/
theorem zcIssueEffect_appends (h : ZcRuns s k w 0) (hring : s.ringOk (s.zcStream k w) = true)
    (hroom : s.ringUsed (s.zcStream k w) < s.reg (Reg.seqSLen (s.zcStream k w))) :
    zcIssueEffect k w s =
      ((s.ringed (s.zcStream k w) (s.read48 ((s.serviceCore k).x (ZcInsn.of w).rs1) 32)).setCore k
        ((s.serviceCore k).setX (ZcInsn.of w).rd 0)).put (Reg.seqSTail (s.zcStream k w))
        ((s.reg (Reg.seqSTail (s.zcStream k w)) + 1) % 2 ^ 32) := by
  have hlen : max 1 (s.reg (Reg.seqSLen (s.zcStream k w))) = s.reg (Reg.seqSLen (s.zcStream k w)) := by omega
  rw [State.ringed, State.ringSlot, ← hlen]
  rw [State.zcStream] at hring hroom ⊢
  rw [State.ringUsed] at hroom
  refine (h.zcRun (by decide) _).trans ?_
  dsimp only
  rw [hring, if_neg (by decide), if_neg (Nat.not_le.2 hroom)]
  rfl

end Sys2Proof.Machine
end

section
open Sys2Proof Sys2Proof.Machine

/-- Settles O23: it holds. Each instruction of a core that runs has its own effect (`ZcRuns.exec`); a hart's post to a cue
is that of POSTCUE (`postCue_low`, `postCue_high`), and a command appended changes the 32 bytes of its place in the ring. -/
theorem serviceCoreInstructions : Obligations.ServiceCoreInstructions := by
  unfold Obligations.ServiceCoreInstructions
  intro k w s hr hk hruns i c hop h7
  have hzc {f3 : Nat} (h3 : i.funct3 = f3) : ZcRuns s k w f3 := ⟨hruns, hop, h7, h3⟩
  have hwf : decide (k < 256) = true := decide_eq_true hk
  refine ⟨?time, ?wait, ?done, ?cue, ?cuewait, ?issue, ?beat⟩
  case time =>
    intro h3
    exact (hzc h3).exec (by decide) hr (i := .zcTime k w) hwf rfl
  case wait =>
    intro h3
    have hexec := (hzc h3).exec (by decide) hr (i := .zcWait k w) hwf rfl
    exact ⟨fun hle => hexec.trans (congrArg _ (if_pos hle)),
      fun hlt => hexec.trans (congrArg _ (if_neg (Nat.not_le.2 hlt)))⟩
  case done =>
    intro h3
    exact (hzc h3).exec (by decide) hr (i := .zcDone k w) hwf rfl
  case cue =>
    intro h3
    refine ⟨_, exec_running (i := .zcCue k w) hr hwf rfl, zcCueEffect_serviceCore (hzc h3), fun hq => ?_,
      fun q _ hq => zcCueEffect_others (hzc h3) hq⟩
    rw [← cueReg_of_lt hq]
    exact zcCueEffect_cue (hzc h3) hq
  case cuewait =>
    intro h3
    refine ⟨_, (hzc h3).exec (by decide) hr (i := .zcCuewait k w) hwf rfl, rfl, ?_⟩
    rw [serviceCore_setCore_self]
    dsimp only
    split
    next hreached => exact iff_of_true rfl hreached
    next hreached => exact iff_of_false nofun hreached
  case issue =>
    intro h3 n used
    refine ⟨fun hring => ?_, fun hring hfull => ?_, fun hring hroom => ?_⟩
    · rw [exec_running (i := .zcIssue k w) hr hwf rfl, zcIssueEffect_noRing (hzc h3) hring]
    · rw [exec_running (i := .zcIssue k w) hr hwf rfl, zcIssueEffect_full (hzc h3) hring hfull]
    · refine ⟨_, exec_running (i := .zcIssue k w) hr hwf rfl, ?_⟩
      rw [zcIssueEffect_appends (hzc h3) hring hroom]
      refine ⟨serviceCore_setCore_self _ _ _, rfl, (state_put_reg _ _ _).trans (Nat.mod_mod _ _),
        fun a ha => state_put_reg_ne _ _ _ _ ha, fun b hb => Memory.get_write_out _ _ _ _ ?_⟩
      rw [read48_length]
      exact hb
  case beat =>
    intro h3
    refine ⟨_, (hzc h3).exec (by decide) hr (i := .zcBeat k w) hwf rfl, rfl, ?_, fun hrd => ?_⟩
    · rw [serviceCore_setCore_self, List.length_append, List.length_singleton]
    · rw [serviceCore_setCore_self]
      exact core_x_setX_self c 0 hrd

end

section
/-! SUPPORT. START, the forward reads of a routine, and the resumption of a stalled hart (06_slow_tier, R203; 07_clockwork,
R232, R265, R267). -/

namespace Sys2Proof.Machine

/-! ### Forward reads (R203) -/

/-- `t` is `s` after forward reads of core `k`: of the cores it has at most copies for `k` beside, and else registers and
the slow tier alone have moved. -/
structure CopiesRead (k : Nat) (s t : State) : Prop where
  frame : t = { s with regs := t.regs, slt := t.slt, seq := { s.seq with cores := t.seq.cores } }
  others : ∀ j, j ≠ k → t.serviceCore j = s.serviceCore j
  core : t.serviceCore k = { s.serviceCore k with copies := (t.serviceCore k).copies }

theorem CopiesRead.of_slow {k : Nat} {s t : State} (h : t = { s with regs := t.regs, slt := t.slt }) : CopiesRead k s t := by
  rw [h]
  exact ⟨rfl, fun _ _ => rfl, rfl⟩

theorem CopiesRead.trans {k : Nat} {s t u : State} (h : CopiesRead k s t) (g : CopiesRead k t u) : CopiesRead k s u := by
  refine ⟨?_, fun j hj => (g.others j hj).trans (h.others j hj), ?_⟩
  · rw [g.frame, h.frame]
  · rw [g.core, h.core]

theorem deliverCopy_copies_read (s : State) (k num : Nat) (copy : List Byte) :
    CopiesRead k s (s.deliverCopy k num copy) := by
  refine ⟨rfl, fun j hj => Tbl.get_set_ne _ _ _ _ _ hj, ?_⟩
  have hself : (s.deliverCopy k num copy).serviceCore k = _ := Tbl.get_set_self _ _ _ _
  rw [hself]
  rfl

theorem forwardRead_copies_read (k st : Nat) (s : State) (num : Nat) : CopiesRead k s (State.forwardRead k st s num) := by
  unfold State.forwardRead
  dsimp only
  split
  · split
    · exact deliverCopy_copies_read _ _ _ _
    · exact .of_slow rfl
  · split
    · exact .of_slow rfl
    · exact .of_slow rfl
  · exact .of_slow rfl

theorem routineReads_copies_read (s : State) (k entry arg st : Nat) : CopiesRead k s (s.routineReads k entry arg st) :=
  List.foldlRecOn (motive := CopiesRead k s) _ _ (.of_slow rfl) fun t ht num _ =>
    ht.trans (forwardRead_copies_read k st t num)

/-! ### START (R232, R267) -/

/-- The core of a START: it runs its routine from the entry, with the argument in x10. -/
def Core.started (x : Core) (c : Cmd) : Core :=
  { x with busy := true, entry := cmdFld c 32 64, illegal := false, copies := []
           regs := x.regs.set 10 (BitVec.ofNat 64 (cmdFld c 96 64)) }

theorem started_argument (x : Core) (c : Cmd) : (x.started c).x 10 = cmdFld c 96 64 := by
  rw [Core.x, if_neg (by decide), Core.started, Tbl.get_set_self, BitVec.toNat_ofNat]
  exact Nat.mod_mod _ _

theorem started_register (x : Core) (c : Cmd) {r : Nat} (h : r ≠ 10) : (x.started c).x r = x.x r := by
  rw [Core.x, Core.started, Tbl.get_set_ne _ _ _ _ _ h, Core.x]

/-- An idle core begins its routine, and its forward reads follow. -/
theorem startEffect_starts {c : Cmd} {s : State} (hi : s.isolated (cmdUnit c) = false)
    (hidle : (s.serviceCore (cmdUnit c - 0xA0)).busy = false) (step : Nat) :
    ∃ t, CopiesRead (cmdUnit c - 0xA0) ((s.countN Reg.seqEvcViol (b2n (cmdFld c 160 96 != 0))).setCore (cmdUnit c - 0xA0)
      ((s.serviceCore (cmdUnit c - 0xA0)).started c)) t ∧ startEffect c step s = t := by
  refine ⟨_, routineReads_copies_read _ _ (cmdFld c 32 64) (cmdFld c 96 64) step, ?_⟩
  rw [startEffect, toUnit_run hi]
  exact if_neg (by rw [hidle]; decide)

/-- A core that runs a routine is left as it is. -/
theorem startEffect_busy {c : Cmd} {s : State} (hi : s.isolated (cmdUnit c) = false)
    (hbusy : (s.serviceCore (cmdUnit c - 0xA0)).busy = true) (step : Nat) : startEffect c step s = s := by
  rw [startEffect, toUnit_run hi]
  exact if_pos hbusy

/-! ### A stalled hart (R265) -/

/-- A hart that waits for a cycle resumes in it. -/
theorem zcWaitResumeEffect_cycle {k t : Nat} {s : State} (h : (s.serviceCore k).waitUntil = some t) :
    zcWaitResumeEffect k s = (s.atCycle t).setCore k { s.serviceCore k with waitUntil := none } := by
  rw [zcWaitResumeEffect]
  dsimp only
  rw [h]

/-- One that waits for a cue resumes once that has come. -/
theorem zcWaitResumeEffect_cue {k : Nat} {q : Nat × Nat} {s : State} (hw : (s.serviceCore k).waitUntil = none)
    (hq : (s.serviceCore k).waitCue = some q) :
    zcWaitResumeEffect k s = if cueReached (s.cueSeen q.1 s.now) q.2
      then s.setCore k { s.serviceCore k with waitCue := none } else s := by
  rw [zcWaitResumeEffect]
  dsimp only
  rw [hw, hq]

end Sys2Proof.Machine
end

section
open Sys2Proof Sys2Proof.Machine

/-- Settles O24: it holds. START writes its core (`Core.started`), and the forward reads that follow leave of the cores all
but that core's copies (`routineReads_copies_read`). -/
theorem routinesStartAndResume : Obligations.RoutinesStartAndResume := by
  unfold Obligations.RoutinesStartAndResume
  refine ⟨?start, ?illegal, ?cycle, ?cue⟩
  case start =>
    intro c s hr hw hi k
    refine ⟨fun hidle => ?_, fun hbusy => by rw [exec_running hr hw rfl, startEffect_busy hi hbusy]⟩
    obtain ⟨t, hread, heff⟩ := startEffect_starts hi hidle s.stepNow
    have hcore := hread.core
    have hother := hread.others
    rw [serviceCore_setCore_self] at hcore
    refine ⟨t, (exec_running hr hw rfl).trans (congrArg _ heff), hread.frame, ?_⟩
    rw [hcore]
    exact ⟨rfl, rfl, rfl, started_argument _ c, fun r hne => started_register _ c hne,
      fun j hj => (hother j hj).trans (serviceCore_setCore_ne _ _ hj)⟩
  case illegal =>
    intro k w s hr hk hruns hop hill
    exact (exec_running (i := .zcTime k w) hr (decide_eq_true hk) rfl).trans (congrArg _ (zcRun_illegal hruns hop hill _ _))
  case cycle =>
    intro k s t hr hk hwait hlt
    obtain ⟨c, e⟩ := atCycle_clk s t
    have hnow := state_atCycle_now s t hlt
    refine ⟨_, exec_running (i := .zcWaitResume k) hr (decide_eq_true hk) rfl, ?_⟩
    rw [zcWaitResumeEffect_cycle hwait]
    refine ⟨hnow, ?_, ?_⟩
    · rw [serviceCore_setCore_self]
    · rw [e]
      rfl
  case cue =>
    intro k s q hr hk hwait hcue
    rw [exec_running (i := .zcWaitResume k) hr (decide_eq_true hk) rfl, zcWaitResumeEffect_cue hwait hcue]

end

section
/-! SUPPORT. A NOP that issues beyond the lag limit while Gauntlet's log has no place for the fault (07_clockwork, R228;
15_gauntlet_faults_counters_test, R485, R491): the part enters the safe state, which commits accepted writes to HBM
(R181). -/

namespace Sys2Proof.Machine

/-- A NOP of the sequencer (R231, R233). -/
def nopCmd : Cmd := BitVec.ofNat 256 (0x1F8 * 2 ^ 8)

/-- An open fault of engine 0 (R482). -/
def openFault : FaultRec :=
  { unit := 0, access := 0, cause := 1, stage := 0, isOpen := true, detail := 0, rep := 0, addr := 0, fcyc := 0, todSec := 0
    todNs := 0, capAc := 0, grace := 0 }

/-- A run of the Cuff that writes the byte 1 at address 0, which its controller has accepted (R181). -/
def acceptedRun : CuffRun :=
  { entry := { outer := none, slot := 0, slice := {}, step := 0, entered := 0, waited := false }
    anchor := 0, base := 0, skip := false, dataAt := 0, returned := true, writes := [(0, 0, [1])] }

/-- Stream 0 runs with the NOP at 0x4000 fetched, due in cycle 0, in the first cycle beyond the lag limit of reset; entry 0
of Gauntlet's log is taken and the record at its HEAD is open, and partition 0 has an accepted write under way. -/
def lateNop : State :=
  let s := ((State.reset.put Reg.aonState 2).put Reg.seqCfg 1).put (Reg.seqSCfg 0) 1
  { (s.put (Reg.seqSLen 0) 1).put (Reg.seqSBaseLo 0) 0x4000 with
    clk := { fcnt := 2 ^ 24 + 1 }
    hbm := Memory.write [] 0x4000 (leBytes 32 nopCmd.toNat)
    seq := { streams := [(0, { fetched := 1 })] }
    gnt := { recs := [(0, openFault), (1, openFault)] }
    part := [(0, { pipe := [acceptedRun] })] }

theorem lateNop_runs : lateNop.coreRunning ∧ lateNop.streamRuns 0 = true ∧ lateNop.fld Reg.seqCfg 1 1 = 0 := by
  decide +kernel

theorem lateNop_next : lateNop.nextItem 0 = (lateNop, .cmd nopCmd false) := by decide +kernel

theorem lateNop_due : lateNop.dueAt 0 nopCmd false = (0, 0) := by decide +kernel

/-- Nothing holds it. -/
theorem lateNop_holds : (lateNop.atCycle 0).holds 0 nopCmd = 0 := by decide +kernel

/-- The write is not in HBM yet. -/
theorem lateNop_hbm : lateNop.hbm.get 0 = 0 := by decide +kernel

/-- The NOP's issue has stored it. -/
theorem lateNop_issue_hbm : (streamIssueEffect 0 lateNop).hbm.get 0 = 1 := by decide +kernel

end Sys2Proof.Machine
end

section
open Sys2Proof Sys2Proof.Machine

/-- Refutes O22: it has the issue of a NOP leave HBM as it is. A NOP beyond the lag limit raises a fault (R228), and where
the log has no place for it the safe state commits the accepted writes to HBM (R181, R485, R491), as in the state
`lateNop`. -/
theorem not_commandIssuesWhenDue : ¬ Obligations.CommandIssuesWhenDue := by
  unfold Obligations.CommandIssuesWhenDue
  rintro ⟨-, hnop⟩
  obtain ⟨hrun, hstream, hnative⟩ := lateNop_runs
  have hfrom : (lateNop.stream 0).from' (lateNop.dueAt 0 nopCmd false).1 = 0 := by
    rw [lateNop_due]
    rfl
  obtain ⟨t, hexec, -, -, -, -, hhbm, -⟩ := hnop 0 lateNop nopCmd hrun (by decide) hstream hnative rfl lateNop_next
    (by decide) (by decide) (by decide) rfl (by rw [hfrom, lateNop_holds]) (by rw [hfrom]; decide)
  rw [exec_running (i := .commandIssue 0) hrun (by decide) rfl] at hexec
  obtain rfl : streamIssueEffect 0 lateNop = t := Host.Outcome.next.inj hexec
  have hbyte : (1 : Byte) = 0 := by rw [← lateNop_issue_hbm, hhbm, lateNop_hbm]
  exact absurd hbyte (by decide)

end

section
/-! SUPPORT. A refresh window that opens in the present cycle (07_clockwork, R254). -/

namespace Sys2Proof.Machine

/-- REFRESH_WINDOW of a group whose window begins in the present cycle leaves the clock where it stands. -/
theorem refreshWindowEffect_now_of_open {g : Nat} {s : State} (h : windowPhase g s.now = 0) :
    (refreshWindowEffect g s).now = s.now := by
  unfold refreshWindowEffect
  split
  · rfl
  · rw [h]
    exact (congrArg State.now (atCycle_now s) : (s.atCycle s.now).now = s.now)

/-- A part in the run state in cycle 0, in which the window of group 0 opens: (0 - 731 * 0) mod 5,850 = 0. -/
def firstWindow : State := State.reset.put Reg.aonState 2

theorem firstWindow_coreRunning : firstWindow.coreRunning := by decide +kernel

theorem firstWindow_phase : windowPhase 0 firstWindow.now = 0 := by decide

end Sys2Proof.Machine
end

section
open Sys2Proof Sys2Proof.Machine

/-- Refutes O29: it has REFRESH_WINDOW move the clock on in every state. A group's window that opens in the present cycle
opens there (R254), as group 0's does in cycle 0 in the state `firstWindow`, and the clock stands. -/
theorem not_refreshAndBackgroundWork : ¬ Obligations.RefreshAndBackgroundWork := by
  unfold Obligations.RefreshAndBackgroundWork
  rintro ⟨hwindow, -⟩
  obtain ⟨t, hexec, -, hlater, -⟩ := hwindow 0 firstWindow firstWindow_coreRunning (by decide) (by decide)
  rw [exec_running (i := .refreshWindow 0) firstWindow_coreRunning (by decide) rfl] at hexec
  obtain rfl : refreshWindowEffect 0 firstWindow = t := Host.Outcome.next.inj hexec
  rw [refreshWindowEffect_now_of_open firstWindow_phase] at hlater
  exact Nat.lt_irrefl _ hlater

end

section
/-! SUPPORT. What faults, events, decisions logged and messages sent leave as it is: the settings of the sequencer, and the
parts of the state that each of them does not touch (09_seam_links, R315; 13_host_ports_and_images, R439;
15_gauntlet_faults_counters_test, R481 to R491, R504). -/

namespace Sys2Proof.Machine

/-! ### Registers that faults and events leave as they are -/

/-- A register that neither faults nor events write: one from the sequencer's block up, and in the first 256 bytes of its
4 KiB, so that it is no host port's count of bytes. -/
def SeqSetting (k : Nat) : Prop := 0x380000 ≤ k ∧ k % 0x1000 < 0x100

/-- The counters of faults, of aborts that peers sent, and of dropped events. -/
def faultTallies : List Nat :=
  [Reg.gntEvcFault, Reg.gntEvcCoalesce, Reg.gntEvcPeerabort, Reg.gntEvcLogfull, Reg.hptEvcEvdrop]

/-- They lie below the sequencer, and so do their saturation flags. -/
theorem faultTallies_below : ∀ a ∈ faultTallies, a < 0x380000 ∧ ∀ x ∈ satOf a, x.1 < 0x380000 := by decide

theorem count_setting (s : State) {a k : Nat} (ha : a ∈ faultTallies) (hk : SeqSetting k) :
    (s.count a).reg k = s.reg k := by
  obtain ⟨hlow, hsat⟩ := faultTallies_below a ha
  obtain ⟨hseq, -⟩ := hk
  exact nat_count_ne s.regs 1 (by omega) fun x hx => by have := hsat x hx; omega

/-- A register below the sequencer that is written is none of its settings. -/
theorem nat_put_setting (r : Tbl Word) {a k : Nat} (v : Nat) (ha : a < 0x380000) (hk : SeqSetting k) :
    Regs.nat (Regs.put r a v) k = Regs.nat r k :=
  Regs.nat_put_ne _ _ _ _ (Nat.ne_of_gt (Nat.lt_of_lt_of_le ha hk.1))

theorem nat_putFld_setting (r : Tbl Word) {a k : Nat} (lo w v : Nat) (ha : a < 0x380000) (hk : SeqSetting k) :
    Regs.nat (Regs.putFld r a lo w v) k = Regs.nat r k := nat_put_setting r _ ha hk

/-! ### Events (R439) -/

/-- An event written to the ring moves the ring's index and a port's count of bytes. -/
theorem writeEvent_setting (h : HostPorts) (r : Tbl Word) (e : HostEvent) {k : Nat} (hk : SeqSetting k) :
    Regs.nat (writeEvent h r e).2 k = Regs.nat r k := by
  have hprod (v : Nat) : Regs.nat (Regs.putPair r Reg.hptEvqProdLo v) k = Regs.nat r k := by
    obtain ⟨hseq, -⟩ := hk
    unfold Reg.hptEvqProdLo
    exact nat_putPair_ne r v (by omega) (by omega)
  unfold writeEvent
  dsimp only
  split
  next q _ =>
    dsimp only
    obtain ⟨-, hplace⟩ := hk
    have hport (n : Nat) : k ≠ Reg.hptHTxbytesLo n ∧ k ≠ Reg.hptHTxbytesLo n + 4 := by
      unfold Reg.hptHTxbytesLo
      omega
    obtain ⟨hlo, hhi⟩ := hport q.2.port
    exact (nat_count64_ne (Regs.putPair r _ _) _ hlo hhi).trans (hprod _)
  next => exact hprod _

/-- An event posted changes no setting of the sequencer. -/
theorem post_setting (s : State) (kind unit : Nat) (arg : List Byte) {k : Nat} (hk : SeqSetting k) :
    (s.post kind unit arg).reg k = s.reg k := by
  unfold State.post
  dsimp only
  split
  · exact writeEvent_setting _ _ _ hk
  · split
    · rfl
    · exact count_setting s (a := Reg.hptEvcEvdrop) (by decide) hk

/-! ### Faults (R481 to R491) -/

theorem eraseKeys_setting (s : State) {k : Nat} (hk : SeqSetting k) : s.eraseKeys.reg k = s.reg k := by
  have hlanes : Regs.nat ((List.range 12).foldl (fun r a => Regs.putFld r (Reg.cphAState a) 0 2 0) s.regs) k =
      Regs.nat s.regs k :=
    List.foldlRecOn (motive := fun r => Regs.nat r k = Regs.nat s.regs k) _ _ rfl fun r hr a ha =>
      (nat_putFld_setting r _ _ _ (by rw [List.mem_range] at ha; unfold Reg.cphAState; omega) hk).trans hr
  calc s.eraseKeys.reg k
      = Regs.nat ((List.range 12).foldl (fun r a => Regs.putFld r (Reg.cphAState a) 0 2 0) s.regs) k :=
        (nat_putFld_setting _ _ _ _ (by decide) hk).trans
          ((nat_putFld_setting _ _ _ _ (by decide) hk).trans (nat_putFld_setting _ _ _ _ (by decide) hk))
    _ = s.reg k := hlanes

/-- The safe state changes no setting of the sequencer. -/
theorem enterSafe_setting (s : State) (unit stage : Nat) {k : Nat} (hk : SeqSetting k) :
    (s.enterSafe unit stage).reg k = s.reg k := by
  have hroot (r : Tbl Word) : Regs.nat (faultRoot r unit stage) k = Regs.nat r k := by
    unfold faultRoot
    split
    · rfl
    · exact nat_putFld_setting _ _ _ _ (by decide) hk
  unfold State.enterSafe
  split
  · rfl
  · exact (hroot _).trans ((nat_putFld_setting _ _ _ _ (by decide) hk).trans (eraseKeys_setting s.commitAccepted hk))

theorem placeRecord_setting (s : State) (r : FaultRec) {k : Nat} (hk : SeqSetting k) :
    (s.placeRecord r).reg k = s.reg k := by
  have hcount := count_setting s (a := Reg.gntEvcFault) (by decide) hk
  unfold State.placeRecord
  split
  · exact hcount
  · dsimp only
    show Regs.nat (if _ then _ else _) k = _
    split
    · exact (nat_put_setting _ _ (by decide) hk).trans ((nat_putFld_setting _ _ _ _ (by decide) hk).trans hcount)
    · exact (nat_putFld_setting _ _ _ _ (by decide) hk).trans hcount

/-- A fault captured changes no setting of the sequencer, and the abort noted in Gauntlet stands. -/
theorem fault_keeps (s : State) (unit cause access addr detail : Nat) (crossing : Bool) :
    (∀ k, SeqSetting k → (s.fault unit cause access addr detail crossing).reg k = s.reg k) ∧
      (s.fault unit cause access addr detail crossing).gnt.aborted = s.gnt.aborted := by
  have hsafe (u : State) (n : Nat) : (u.enterSafe unit n).gnt = u.gnt := by
    obtain ⟨m, c, p, r, e⟩ := enterSafe_parts u unit n
    rw [e]
  have hplace (u : State) (v : FaultRec) : (u.placeRecord v).gnt.aborted = u.gnt.aborted := by
    unfold State.placeRecord
    split <;> rfl
  unfold State.fault
  split
  case isTrue => exact ⟨fun k hk => enterSafe_setting s unit 3 hk, congrArg _ (hsafe s 3)⟩
  case isFalse =>
    split
    case h_1 => exact ⟨fun k hk => count_setting s (a := Reg.gntEvcCoalesce) (by decide) hk, rfl⟩
    case h_2 =>
      split
      case isTrue =>
        exact ⟨fun k hk => (enterSafe_setting _ _ _ hk).trans (count_setting s (by decide) hk),
          congrArg _ (hsafe _ 3)⟩
      case isFalse =>
        dsimp only
        split
        case isTrue =>
          refine ⟨fun k hk => (enterSafe_setting _ _ _ hk).trans
            ((post_setting _ _ _ _ hk).trans (placeRecord_setting s _ hk)), ?_⟩
          rw [hsafe, State.postFault]
          obtain ⟨h, r, e⟩ := post_host _ _ _ _
          rw [e]
          exact hplace s _
        case isFalse => exact ⟨fun k hk => placeRecord_setting s _ hk, hplace s _⟩

/-! ### Messages sent (R315, R317) -/

/-- Operations on Seam alone, one after the other, change Seam alone. -/
theorem foldl_seam {α : Type} {g : State → α → State} (hg : ∀ s a, ∃ x, g s a = { s with seam := x }) (l : List α)
    (s : State) : ∃ x, l.foldl g s = { s with seam := x } :=
  List.foldlRecOn (motive := fun t => ∃ x, t = { s with seam := x }) l g ⟨s.seam, rfl⟩ fun t ⟨x, e⟩ a _ => by
    obtain ⟨y, h⟩ := hg t a
    exact ⟨y, by rw [h, e]⟩

theorem sendCtrl_seam (s : State) (d : Nat) (b : List Byte) : ∃ x, s.sendCtrl d b = { s with seam := x } := by
  unfold State.sendCtrl
  dsimp only
  split
  · exact ⟨s.seam, rfl⟩
  · exact ⟨_, rfl⟩

/-- Messages to devices change Seam alone. -/
theorem sendCtrlAll_seam (s : State) (l : List Nat) (b : List Byte) : ∃ x, s.sendCtrlAll l b = { s with seam := x } :=
  foldl_seam (fun s d => sendCtrl_seam s d b) l s

/-! ### Decisions logged (R504) -/

/-- `t` is `s` after entries of the decision log: HBM, registers, Visor and the host ports alone have moved. -/
def Logged (s t : State) : Prop := t = { s with hbm := t.hbm, regs := t.regs, vsr := t.vsr, host := t.host }

theorem Logged.trans {s t u : State} (h : Logged s t) (g : Logged t u) : Logged s u := by
  unfold Logged at h g ⊢
  rw [g, h]

theorem Logged.kept {s t : State} (h : Logged s t) : t.gnt = s.gnt ∧ t.seq = s.seq := by
  unfold Logged at h
  rw [h]
  exact ⟨rfl, rfl⟩

theorem Logged.of_regs (s : State) (r : Tbl Word) : Logged s { s with regs := r } := rfl

theorem stage_logged (s : State) (tail : List Byte) : Logged s (s.stage tail) := by
  unfold State.stage
  dsimp only
  obtain ⟨h, r, e⟩ := post_host _ _ _ _
  rw [e]
  rfl

theorem goEntry_logged (s : State) (tail : List Byte) : Logged s (s.goEntry tail) := by
  unfold State.goEntry
  split
  · exact stage_logged s tail
  · rfl

theorem flushLog_logged (s : State) : Logged s s.flushLog :=
  List.foldlRecOn (motive := Logged s) _ _ rfl fun _ ht tail _ => ht.trans (stage_logged _ tail)

theorem makeRoom_logged (s : State) : Logged s s.makeRoom := by
  unfold State.makeRoom
  split
  · rfl
  · exact List.foldlRecOn (motive := Logged s) _ _ rfl fun _ ht _ _ => ht.trans (flushLog_logged _)

theorem logDecision_logged (s : State) (kind : Nat) (body : List Byte) : Logged s (s.logDecision kind body) :=
  (makeRoom_logged s).trans ((Logged.of_regs _ _).trans (goEntry_logged _ _))

end Sys2Proof.Machine
end

section
/-! SUPPORT. Step aborts and the rounds of the membership census (05_reduction_and_cuff, R182; 08_mapping_a_job, R291, R292;
15_gauntlet_faults_counters_test, R489). -/

namespace Sys2Proof.Machine

/-! ### A partition under an abort (R182) -/

/-- Beats that go no further, one after the other, change at most the drains of local engines. -/
theorem foldl_beatAdded_eng (p : Nat) (l : List Beat) (s : State) :
    ∃ e, l.foldl (fun s b => s.beatAdded p b s.now) s = { s with eng := e } :=
  List.foldlRecOn (motive := fun t : State => ∃ e, t = { s with eng := e }) l _ ⟨s.eng, rfl⟩ fun t ⟨e, h⟩ b _ => by
    obtain ⟨e', h'⟩ := beatAdded_eng t p b t.now
    exact ⟨e', by rw [h', h]⟩

/-- `t` is `s` after partitions were cleared by an abort: Seam, the partitions, registers and engines alone have moved. -/
def Cleared (s t : State) : Prop := t = { s with seam := t.seam, part := t.part, regs := t.regs, eng := t.eng }

theorem Cleared.trans {s t u : State} (h : Cleared s t) (g : Cleared t u) : Cleared s u := by
  unfold Cleared at h g ⊢
  rw [g, h]

theorem Cleared.kept {s t : State} (h : Cleared s t) : t.gnt = s.gnt ∧ t.seq = s.seq := by
  unfold Cleared at h
  rw [h]
  exact ⟨rfl, rfl⟩

theorem abortPartition_cleared (s : State) (p : Nat) : Cleared s (s.abortPartition p) := by
  unfold State.abortPartition
  dsimp only
  obtain ⟨x, e⟩ := foldl_seam (fun s _ => releaseSeam_seam s p) (List.range (Tbl.get [] s.seam.owed p).length) s
  rw [e]
  obtain ⟨y, h⟩ := foldl_beatAdded_eng p _ _
  rw [h]
  rfl

theorem abortPartitions_cleared (s : State) : Cleared s ((List.range 8).foldl State.abortPartition s) :=
  List.foldlRecOn (motive := Cleared s) _ _ rfl fun _ ht p _ => ht.trans (abortPartition_cleared _ p)

/-! ### One field written in every partition -/

/-- One field written in several registers changes registers alone. -/
theorem foldl_putFld_regs (f : Nat → Nat) (lo w v : Nat) (l : List Nat) (s : State) :
    ∃ r, l.foldl (fun s p => s.putFld (f p) lo w v) s = { s with regs := r } :=
  List.foldlRecOn (motive := fun t : State => ∃ r, t = { s with regs := r }) l _ ⟨s.regs, rfl⟩ fun t ⟨r, h⟩ p _ => by
    rw [h]
    exact ⟨_, rfl⟩

theorem putEpochs_regs (s : State) (lo w v : Nat) : ∃ r, s.putEpochs lo w v = { s with regs := r } :=
  foldl_putFld_regs Reg.cufEpoch lo w v _ s

theorem showCensus_regs (s : State) (v : Nat) : ∃ r, s.showCensus v = { s with regs := r } :=
  foldl_putFld_regs Reg.cufStatus 27 1 v _ s

/-! ### The census (R291, R292) -/

/-- The state with a census under way that holds the device's own record, and no migration or boundary (R291, R296). -/
def State.censusBegun (s : State) (r : CensusRecord) : State :=
  { (s.putEpochs 16 1 0).showCensus 1 with job := { s.job with
    census := some { since := s.clk.acnt, records := [(s.device, r)] }
    nextLayout := none, nextMap := [], nextPositions := [], boundary := none, phase := 0, newMb := none, recovering := true
    fed := 0 } }

theorem censusBegun_frame (s : State) (r : CensusRecord) :
    (s.censusBegun r).gnt = s.gnt ∧ (s.censusBegun r).seq = s.seq ∧ (s.censusBegun r).job.census.isSome = true := by
  obtain ⟨r1, h1⟩ := putEpochs_regs s 16 1 0
  obtain ⟨r2, h2⟩ := showCensus_regs { s with regs := r1 } 1
  rw [State.censusBegun, h1, h2]
  exact ⟨rfl, rfl, rfl⟩

/-- A census begins once a migration given up has been logged, and its record goes to the other devices. -/
theorem startCensus_eq (s : State) :
    ∃ t x, Logged s t ∧ s.startCensus = { t.censusBegun s.ownRecord with seam := x } := by
  unfold State.startCensus
  cases s.job.nextLayout with
  | none => exact ⟨s, _, rfl, (sendCtrlAll_seam _ _ _).choose_spec⟩
  | some l => exact ⟨_, _, logDecision_logged _ _ _, (sendCtrlAll_seam _ _ _).choose_spec⟩

/-- A census begins: it is under way, and neither Gauntlet nor the sequencer has changed. -/
theorem startCensus_begins (s : State) :
    s.startCensus.gnt = s.gnt ∧ s.startCensus.seq = s.seq ∧ s.startCensus.job.census.isSome = true := by
  obtain ⟨t, x, hlog, e⟩ := startCensus_eq s
  obtain ⟨hgnt, hseq, hcensus⟩ := censusBegun_frame t s.ownRecord
  obtain ⟨hg, hs⟩ := hlog.kept
  rw [e]
  dsimp only
  exact ⟨hgnt.trans hg, hseq.trans hs, hcensus⟩

/-- The first abort of a step is noted, no stream issues further, and a census begins (R489, R291). -/
theorem abortStep_aborts {s : State} (h : s.gnt.aborted ≠ some (s.reg Reg.seqStep)) :
    s.abortStep.gnt.aborted = some (s.reg Reg.seqStep) ∧ s.abortStep.seq.halted = true ∧
      s.abortStep.job.census.isSome = true := by
  obtain ⟨hg, hs⟩ := (abortPartitions_cleared { s with
    gnt := { s.gnt with aborted := some (s.reg Reg.seqStep) }, seq := { s.seq with halted := true } }).kept
  unfold State.abortStep
  dsimp only at hg hs ⊢
  rw [if_neg h]
  generalize (List.range 8).foldl State.abortPartition _ = u at hg hs ⊢
  obtain ⟨x, e⟩ := sendCtrlAll_seam _ _ _
  obtain ⟨hgnt, hseq, hcensus⟩ := startCensus_begins _
  rw [e]
  refine ⟨?_, ?_, hcensus⟩
  · rw [hgnt]
    exact congrArg Gauntlet.aborted hg
  · rw [hseq]
    exact congrArg Sequencer.halted hs

/-- An abort of another step, or of one aborted already, is counted alone. -/
theorem abortMessageEffect_counts {s : State} {l d n : Nat} (h : n ≠ s.reg Reg.seqStep ∨ s.gnt.aborted = some n) :
    abortMessageEffect l d n s = s.count Reg.gntEvcPeerabort := by
  rw [← count_setting s (a := Reg.gntEvcPeerabort) (k := Reg.seqStep) (by decide) ⟨by decide, by decide⟩] at h
  exact if_pos h

/-- One of the current step aborts it. -/
theorem abortMessageEffect_aborts {s : State} {l d : Nat} (h : s.gnt.aborted ≠ some (s.reg Reg.seqStep)) :
    ∃ t : State, abortMessageEffect l d (s.reg Reg.seqStep) s = t.abortStep ∧ t.reg Reg.seqStep = s.reg Reg.seqStep ∧
      t.gnt.aborted = s.gnt.aborted := by
  have hplace : SeqSetting Reg.seqStep := ⟨by decide, by decide⟩
  have hcount := count_setting s (a := Reg.gntEvcPeerabort) (by decide) hplace
  obtain ⟨hregs, haborted⟩ := fault_keeps (s.count Reg.gntEvcPeerabort) (0x1B0 + l) 0x0E 0 0 d true
  refine ⟨_, if_neg ?_, (hregs _ hplace).trans hcount, haborted⟩
  rw [hcount]
  exact fun hother => hother.elim (fun hne => hne rfl) h

/-- The census waits for the records that its first round lacks. -/
theorem advanceCensus_first {s : State} {c : Census} (hc : s.job.census = some c) (hfirst : c.second = false)
    (h : (s.devices.all fun d => (Tbl.get? c.records d).isSome) = false) : s.advanceCensus = s := by
  simp [State.advanceCensus, hc, hfirst, h]

/-- And for the sets that its second round lacks. -/
theorem advanceCensus_second {s : State} {c : Census} (hc : s.job.census = some c) (hsecond : c.second = true)
    (h : (c.heard.all fun d => (Tbl.get? c.sets d).isSome) = false) : s.advanceCensus = s := by
  simp [State.advanceCensus, hc, hsecond, h]

/-- Without an active job a record does nothing. -/
theorem censusRecordEffect_inactive {s : State} (h : s.job.active = false) (d e hl n ep : Nat) :
    censusRecordEffect d e hl n ep s = s := if_pos (.inl (by rw [h]; rfl))

/-- A record that leaves the first round incomplete is kept. -/
theorem censusRecordEffect_keeps {s : State} {c : Census} {d e hl n ep : Nat} (hactive : s.job.active = true)
    (hd : d < s.domainSize) (hc : s.job.census = some c) (hfirst : c.second = false)
    (h : (s.devices.all fun x => (Tbl.get? (c.records.set d ⟨e, hl, n, ep⟩) x).isSome) = false) :
    censusRecordEffect d e hl n ep s =
      { s with job := { s.job with census := some { c with records := c.records.set d ⟨e, hl, n, ep⟩ } } } := by
  have hin : ¬ ((!s.job.active) = true ∨ s.domainSize ≤ d) := by simp [hactive, hd]
  have hnone : ¬ s.job.census.isNone = true := by simp [hc]
  unfold censusRecordEffect
  dsimp only
  rw [if_neg hin, if_neg hnone, hc]
  dsimp only
  rw [if_neg (by simp [hfirst])]
  exact advanceCensus_first rfl hfirst h

/-- Without a census a set does nothing. -/
theorem censusSetEffect_none {s : State} (h : s.job.census = none) (d : Nat) (l : List Nat) : censusSetEffect d l s = s := by
  rw [censusSetEffect, h]

/-- A set that leaves the second round incomplete is kept. -/
theorem censusSetEffect_keeps {s : State} {c : Census} {d : Nat} {l : List Nat} (hc : s.job.census = some c)
    (hsecond : c.second = true) (h : (c.heard.all fun x => (Tbl.get? (c.sets.set d l) x).isSome) = false) :
    censusSetEffect d l s = { s with job := { s.job with census := some { c with sets := c.sets.set d l } } } := by
  rw [censusSetEffect, hc]
  exact advanceCensus_second rfl hsecond h

/-- The second round begins with the device's own set: Seam and the census alone have moved. -/
theorem secondRound_begins (s : State) (c : Census) : ∃ x, s.secondRound c =
    { s with
      seam := x
      job := { s.job with census := some { c with
        second := true, since := s.clk.acnt, sets := c.sets.set s.device c.heard } } } := by
  obtain ⟨x, e⟩ := sendCtrlAll_seam _ _ _
  exact ⟨x, e⟩

/-- Without a census its timeout does nothing. -/
theorem censusTimeoutEffect_none {s : State} (h : s.job.census = none) : censusTimeoutEffect s = s := by
  rw [censusTimeoutEffect, h]

/-- A first round of a device that trains ends with its timeout. -/
theorem censusTimeoutEffect_first {s : State} {c : Census} (hc : s.job.census = some c) (hfirst : c.second = false)
    (hheld : s.job.held = false) :
    censusTimeoutEffect s = (s.atAc (c.since + s.censusTimeout)).secondRound c := by
  obtain ⟨k, e⟩ := atAc_clk s (c.since + s.censusTimeout)
  rw [censusTimeoutEffect, hc]
  dsimp only
  rw [e, if_neg (by simp [hheld]), if_neg (by simp [hfirst])]

end Sys2Proof.Machine
end

section
open Sys2Proof Sys2Proof.Machine

/-- Settles O30: it holds. The fault of a peer's abort keeps the step and what is aborted (`fault_keeps`), so the step aborts
here (`abortStep_aborts`); a record or set waits for those still out (`advanceCensus_first`, `advanceCensus_second`), and the
timeout of a first round begins the second (`secondRound_begins`). -/
theorem abortsAndCensus : Obligations.AbortsAndCensus := by
  unfold Obligations.AbortsAndCensus
  refine ⟨?abort, ?record, ?set, ?timeout⟩
  case abort =>
    intro l d n s hr hl hd hn
    have hexec := exec_running (i := .abortMessage l d n) hr (decide_eq_true ⟨hl, hd, hn⟩) rfl
    refine ⟨fun h => hexec.trans (congrArg _ (abortMessageEffect_counts h)), ?_⟩
    rintro rfl hnew
    obtain ⟨t, heff, hstep, haborted⟩ := abortMessageEffect_aborts (l := l) (d := d) hnew
    rw [← hstep, ← haborted] at hnew
    obtain ⟨hgnt, hhalted, hcensus⟩ := abortStep_aborts hnew
    exact ⟨_, hexec.trans (congrArg _ heff), hgnt.trans (congrArg some hstep), hhalted, hcensus⟩
  case record =>
    intro d e h n ep s hr hw
    have hexec := exec_running hr hw rfl
    exact ⟨fun hinactive => hexec.trans (congrArg _ (censusRecordEffect_inactive hinactive d e h n ep)),
      fun c hactive hd hc hfirst hmissing =>
        hexec.trans (congrArg _ (censusRecordEffect_keeps hactive hd hc hfirst hmissing))⟩
  case set =>
    intro d l s hr hw
    have hexec := exec_running hr hw rfl
    exact ⟨fun hnone => hexec.trans (congrArg _ (censusSetEffect_none hnone d l)),
      fun c hc hsecond hmissing => hexec.trans (congrArg _ (censusSetEffect_keeps hc hsecond hmissing))⟩
  case timeout =>
    intro s hr
    have hexec := exec_running (i := .censusTimeout) hr rfl rfl
    refine ⟨fun hnone => hexec.trans (congrArg _ (censusTimeoutEffect_none hnone)), fun c hc hfirst hheld => ?_⟩
    obtain ⟨k, hclk⟩ := atAc_clk s (c.since + s.censusTimeout)
    obtain ⟨x, hx⟩ := secondRound_begins { s with clk := k } c
    rw [hexec, censusTimeoutEffect_first hc hfirst hheld, hclk, hx]
    exact ⟨_, _, rfl, rfl, rfl, Tbl.get?_set_self _ _ _, rfl, rfl, rfl⟩

end

section
/-! SUPPORT. A layout-epoch boundary: the agreed start cycle, and the layout epoch that a migration counts on
(05_reduction_and_cuff, R164, R190; 08_mapping_a_job, R283 to R285, R295). -/

namespace Sys2Proof.Machine

/-! ### The agreed start (R285) -/

/-- A boundary that waits for a ready cycle stands. -/
theorem closeBoundary_waits {s : State} (h : s.agreed s.job.readyAt = none) : s.closeBoundary = s := by
  unfold State.closeBoundary
  rw [h]
  split
  case h_1 hsome => cases hsome
  case h_2 => rfl

/-- The state in which the new epoch has its start: the registers and the job name it, and streams issue again. -/
def State.epochStarted (s : State) (nb start : Nat) : State :=
  { s with
    regs := Regs.putPair s.regs Reg.seqEpochStartLo start
    job := { s.job with
      n0 := nb, boundary := s.job.nextBoundary, phase := 0, config := false, configTo := start, recovering := false }
    seq := { s.seq with halted := false } }

/-- Once every ready cycle has come the epoch has its start; tables are latched, lags cleared, and EPOCH is posted. -/
theorem closeBoundary_starts {s : State} {nb m : Nat} (hb : s.job.boundary = some nb)
    (hm : s.agreed s.job.readyAt = some m) (hp : s.job.phase = 5) : ∃ arg, s.closeBoundary =
      (s.epochStarted nb ((m + s.pol 0x0419 65536) % 2 ^ 64)).latchTables.clearLags.post 6 0x1F8 arg := by
  unfold State.closeBoundary
  rw [hb, hm]
  dsimp only
  rw [if_neg fun hne => hne hp]
  exact ⟨_, rfl⟩

/-- Lags cleared change registers alone, and of these none but the streams' lags (R228). -/
theorem clearLags_regs (s : State) : ∃ r, s.clearLags = { s with regs := r } ∧
    ∀ k, k < Reg.seqSLag 0 → Regs.nat r k = s.reg k :=
  List.foldlRecOn (motive := fun t : State => ∃ r, t = { s with regs := r } ∧
    ∀ k, k < Reg.seqSLag 0 → Regs.nat r k = s.reg k) _ _ ⟨s.regs, rfl, fun _ _ => rfl⟩ fun t ⟨r, h, hr⟩ n _ => by
      rw [h]
      refine ⟨_, rfl, fun k hk => (Regs.nat_put_ne _ _ _ _ ?_).trans (hr k hk)⟩
      unfold Reg.seqSLag at hk ⊢
      omega

/-- Two pairs whose words read the same are the same (R529). -/
theorem pair_congr {r q : Tbl Word} {a : Nat} (hlo : Regs.nat r a = Regs.nat q a)
    (hhi : Regs.nat r (a + 4) = Regs.nat q (a + 4)) : Regs.pair r a = Regs.pair q a := by
  rw [Regs.pair, hlo, hhi, Regs.pair]

/-- What follows the start leaves the start cycle, the job, the streams' release and the stores as they are. -/
theorem epochPosted_keeps (s : State) (arg : List Byte) :
    let t := s.latchTables.clearLags.post 6 0x1F8 arg
    Regs.pair t.regs Reg.seqEpochStartLo = Regs.pair s.regs Reg.seqEpochStartLo ∧ t.job = s.job ∧ t.seq = s.seq ∧
      t.hbm = s.hbm ∧ t.tile = s.tile := by
  have hreg (k : Nat) (hk : SeqSetting k) (hlag : k < Reg.seqSLag 0) :
      (s.latchTables.clearLags.post 6 0x1F8 arg).reg k = s.reg k := by
    obtain ⟨r, e, hr⟩ := clearLags_regs s.latchTables
    refine (post_setting _ _ _ _ hk).trans ?_
    rw [e]
    exact hr k hlag
  have hlo := hreg Reg.seqEpochStartLo ⟨by decide, by decide⟩ (by decide)
  have hhi := hreg (Reg.seqEpochStartLo + 4) ⟨by decide, by decide⟩ (by decide)
  obtain ⟨r, e, -⟩ := clearLags_regs s.latchTables
  obtain ⟨h, r', e'⟩ := post_host s.latchTables.clearLags 6 0x1F8 arg
  refine ⟨pair_congr hlo hhi, ?_⟩
  rw [e', e]
  exact ⟨rfl, rfl, rfl, rfl⟩

/-- Outside a boundary a ready cycle changes nothing. -/
theorem readyCycleMessageEffect_none {s : State} (h : s.job.boundary = none) (d c : Nat) :
    readyCycleMessageEffect d c s = s := if_pos (by rw [h]; rfl)

/-- During one it is kept, and the boundary closes if it was the last. -/
theorem readyCycleMessageEffect_some {s : State} {nb : Nat} (h : s.job.boundary = some nb) (d c : Nat) :
    readyCycleMessageEffect d c s = { s with job := { s.job with readyAt := s.job.readyAt.set d c } }.closeBoundary :=
  if_neg (by rw [h]; exact Bool.false_ne_true)

/-! ### The layout epoch (R164, R190) -/

/-- A field written in every partition's `CUF_EPOCH` reads there as written. -/
theorem putEpochs_fld (s : State) {lo w v p : Nat} (hp : p < 8) (hw : lo + w ≤ 32) :
    (s.putEpochs lo w v).fld (Reg.cufEpoch p) lo w = v % 2 ^ w := by
  have hfold (l : List Nat) : ∀ s : State, p ∈ l ∨ s.fld (Reg.cufEpoch p) lo w = v % 2 ^ w →
      (l.foldl (fun s p => s.putFld (Reg.cufEpoch p) lo w v) s).fld (Reg.cufEpoch p) lo w = v % 2 ^ w := by
    induction l with
    | nil => exact fun s h => h.resolve_left List.not_mem_nil
    | cons q l ih =>
      refine fun s h => ih _ ?_
      by_cases hq : p = q
      · exact .inr (hq ▸ state_putFld_fld s _ _ _ _ hw)
      · have hne : Reg.cufEpoch p ≠ Reg.cufEpoch q := by unfold Reg.cufEpoch; omega
        rw [state_putFld_fld_other _ _ _ _ _ _ _ _ hne]
        exact h.imp_left fun hmem => (List.mem_cons.1 hmem).resolve_left hq
  exact hfold _ s (.inl (List.mem_range.2 hp))

/-- A field apart from it reads there as before. -/
theorem putEpochs_fld_ne (s : State) {lo w v lo' w' p : Nat} (hw : lo + w ≤ 32) (hd : lo' + w' ≤ lo ∨ lo + w ≤ lo') :
    (s.putEpochs lo w v).fld (Reg.cufEpoch p) lo' w' = s.fld (Reg.cufEpoch p) lo' w' :=
  List.foldlRecOn (motive := fun t : State => t.fld (Reg.cufEpoch p) lo' w' = s.fld (Reg.cufEpoch p) lo' w') _ _ rfl
    fun t ht q _ => by
      refine Eq.trans ?_ ht
      by_cases hq : Reg.cufEpoch p = Reg.cufEpoch q
      · rw [hq]
        exact state_putFld_fld_ne t _ _ _ _ _ _ hw hd
      · exact state_putFld_fld_other t _ _ _ _ _ _ _ hq

/-- The epoch counted on: CUR in every partition with its hold released, and `SEQ_EPOCH` (R164, R190). -/
def State.epochCounted (s : State) (e : Nat) : State := ((s.putEpochs 0 16 e).putEpochs 16 1 0).putFld Reg.seqEpoch 0 16 e

theorem epochCounted_seqEpoch (s : State) (e : Nat) : (s.epochCounted e).fld Reg.seqEpoch 0 16 = e % 2 ^ 16 :=
  state_putFld_fld _ _ _ _ _ (by decide)

theorem epochCounted_cufEpoch (s : State) (e : Nat) {p : Nat} (hp : p < 8) :
    (s.epochCounted e).fld (Reg.cufEpoch p) 0 16 = e % 2 ^ 16 ∧ (s.epochCounted e).fld (Reg.cufEpoch p) 16 1 = 0 := by
  have hne : Reg.cufEpoch p ≠ Reg.seqEpoch := by unfold Reg.cufEpoch Reg.seqEpoch; omega
  have hother (lo w : Nat) : (s.epochCounted e).fld (Reg.cufEpoch p) lo w =
      ((s.putEpochs 0 16 e).putEpochs 16 1 0).fld (Reg.cufEpoch p) lo w := state_putFld_fld_other _ _ _ _ _ _ _ _ hne
  rw [hother, hother, putEpochs_fld_ne _ (by decide) (by decide), putEpochs_fld s hp (by decide),
    putEpochs_fld _ hp (by decide)]
  exact ⟨rfl, rfl⟩

theorem epochCounted_stores (s : State) (e : Nat) : SameStores s (s.epochCounted e) := by
  simp [SameStores, State.epochCounted]

/-- A count of a partition's event counter changes no register whose place in its 8 KiB is below the counters'. -/
theorem nat_count_cuf_setting (r : Tbl Word) {p c k : Nat} (n : Nat) (hp : p < 8) (hlo : Reg.cufEvcWfull p ≤ c)
    (hhi : c < Reg.cufEvcSat p) (hk : k % 0x2000 < 0x110) : Regs.nat (Regs.count r c n) k = Regs.nat r k := by
  obtain ⟨i, e⟩ := satOf_cuf hp hlo hhi
  unfold Reg.cufEvcWfull at hlo
  unfold Reg.cufEvcSat at hhi e
  refine nat_count_ne r n (by omega) fun x hx => ?_
  obtain rfl : _ = x := Option.some.inj (e.symm.trans hx)
  dsimp only
  omega

/-- Held beats routed leave those registers as they are (R164). -/
theorem routeHeld_setting (s : State) {p k : Nat} (hp : p < 8) (hk : k % 0x2000 < 0x110) :
    (s.routeHeld p).reg k = s.reg k := by
  unfold State.routeHeld
  dsimp only
  obtain ⟨y, h⟩ := foldl_beatAdded_eng p _ _
  rw [h]
  have hearly : Reg.cufEvcWfull p ≤ Reg.cufEvcEarly p ∧ Reg.cufEvcEarly p < Reg.cufEvcSat p := by
    unfold Reg.cufEvcWfull Reg.cufEvcEarly Reg.cufEvcSat; omega
  have hviol : Reg.cufEvcWfull p ≤ Reg.cufEvcViol p ∧ Reg.cufEvcViol p < Reg.cufEvcSat p := by
    unfold Reg.cufEvcWfull Reg.cufEvcViol Reg.cufEvcSat; omega
  exact (nat_count_cuf_setting _ _ hp hviol.1 hviol.2 hk).trans (nat_count_cuf_setting _ _ hp hearly.1 hearly.2 hk)

/-- So do the held beats of every partition. -/
theorem routeAllHeld_setting (s : State) {k : Nat} (hk : k % 0x2000 < 0x110) :
    ((List.range 8).foldl State.routeHeld s).reg k = s.reg k :=
  List.foldlRecOn (motive := fun t : State => t.reg k = s.reg k) _ _ rfl fun t ht _ hp =>
    (routeHeld_setting t (List.mem_range.1 hp) hk).trans ht

theorem routeAllHeld_fld (s : State) {k : Nat} (hk : k % 0x2000 < 0x110) (lo w : Nat) :
    ((List.range 8).foldl State.routeHeld s).fld k lo w = s.fld k lo w :=
  congrArg (bits · lo w) (routeAllHeld_setting s hk)

/-! ### MIGRATION_COMPLETE (R190, R284, R295) -/

/-- Outside the migrating step, or with a Cuff at work, nothing follows. -/
theorem migrationCompleteEffect_waits {s : State} (h : s.job.phase ≠ 2 ∨ s.mayMigrate = false) :
    migrationCompleteEffect s = s := if_pos (h.imp_right fun hm => by rw [hm]; rfl)

/-- A migration that holds training ends with the records copied. -/
theorem migrationCompleteEffect_held {s s1 : State} (hp : s.job.phase = 2) (hm : s.mayMigrate = true)
    (h1 : s.migrate (s.job.boundary.getD 1 - 1) = s1) (hheld : s1.job.held = true) : migrationCompleteEffect s = s1 := by
  unfold migrationCompleteEffect
  rw [if_neg (by simp [hp, hm]), h1]
  exact if_pos hheld

/-- Else the epoch is counted on, held beats are routed, and the boundary goes on; a STOP that waited takes effect. -/
theorem migrationCompleteEffect_goesOn {s s1 s2 s3 : State} (hp : s.job.phase = 2) (hm : s.mayMigrate = true)
    (h1 : s.migrate (s.job.boundary.getD 1 - 1) = s1) (hheld : s1.job.held = false)
    (h2 : s1.epochCounted ((s1.fld Reg.seqEpoch 0 16 + 1) % 65536) = s2)
    (h3 : (List.range 8).foldl State.routeHeld s2 = s3) :
    migrationCompleteEffect s = if s3.boundaryRegisters.job.stopping.isSome then s3.boundaryRegisters.honourStop
      else s3.boundaryRegisters := by
  unfold migrationCompleteEffect
  unfold State.epochCounted at h2
  dsimp only
  rw [if_neg (by simp [hp, hm]), h1, if_neg (by simp [hheld]), h2, h3]

end Sys2Proof.Machine
end

section
open Sys2Proof Sys2Proof.Machine

/-- Settles O31: it holds. The last ready cycle closes the boundary (`closeBoundary_starts`), and what follows the start
keeps it (`epochPosted_keeps`); a migration counts the epoch on in every partition and in the sequencer (`epochCounted`),
which the routing of held beats leaves as it is (`routeAllHeld_setting`). -/
theorem epochsBeginAgreed : Obligations.EpochsBeginAgreed := by
  unfold Obligations.EpochsBeginAgreed
  refine ⟨?ready, ?migration⟩
  case ready =>
    intro d c s hr hw s1
    have hexec := exec_running hr hw rfl
    refine ⟨fun hnone => hexec.trans (congrArg _ (readyCycleMessageEffect_none hnone d c)), fun nb hnb hwait => ?_,
      fun nb m hnb hm hphase => ?_⟩
    · rw [hexec, readyCycleMessageEffect_some hnb, closeBoundary_waits hwait]
    · obtain ⟨arg, hclose⟩ := closeBoundary_starts (s := s1) hnb hm hphase
      obtain ⟨hstart, hjob, hseq, hhbm, htile⟩ :=
        epochPosted_keeps (s1.epochStarted nb ((m + s1.pol 0x0419 65536) % 2 ^ 64)) arg
      refine ⟨_, hexec.trans (congrArg _ ((readyCycleMessageEffect_some hnb d c).trans hclose)), ?_⟩
      rw [hstart, hjob, hseq, hhbm, htile]
      exact ⟨pair_putPair_self _ _ (Nat.mod_lt _ (Nat.two_pow_pos 64)), rfl, rfl, rfl, rfl, rfl, rfl, rfl⟩
  case migration =>
    intro s hr
    have hexec := exec_running (i := .migrationComplete) hr rfl rfl
    refine ⟨fun h => hexec.trans (congrArg _ (migrationCompleteEffect_waits h)), fun hp hm => ?_⟩
    intro s1
    rw [hexec]
    refine ⟨fun hheld => congrArg _ (migrationCompleteEffect_held hp hm rfl hheld), ?_⟩
    intro e s2 s3 hheld
    have he : e % 2 ^ 16 = e := Nat.mod_mod _ _
    have hstores : SameStores s2 s3 := foldl_stores _ state_routeHeld_stores _ _
    have hnext := migrationCompleteEffect_goesOn (s2 := s2) (s3 := s3) hp hm rfl hheld rfl rfl
    refine ⟨congrArg Host.Outcome.next hnext, ?_,
      hstores.1.trans (epochCounted_stores s1 e).1, fun p hp => ?_⟩
    · rw [routeAllHeld_fld _ (by decide)]
      exact (epochCounted_seqEpoch s1 e).trans he
    · obtain ⟨hcur, hhold⟩ := epochCounted_cufEpoch s1 e hp
      have hplace : Reg.cufEpoch p % 0x2000 < 0x110 := by unfold Reg.cufEpoch; omega
      rw [routeAllHeld_fld _ hplace, routeAllHeld_fld _ hplace]
      exact ⟨hcur.trans he, hhold⟩

end

section
/-! SUPPORT. The registers of a Seam link and its record read after writes, and the state of a link that goes down
(09_seam_links, R322, R326 to R328; 15_gauntlet_faults_counters_test, R481 to R491). -/

namespace Sys2Proof.Machine

/-! ### The registers of a link (R326, R520) -/

/-- Two registers of one link that stand at different offsets. -/
theorem linkReg_ne (n : Nat) {a b : Nat} (h : a ≠ b) : a + 0x1000 * n ≠ b + 0x1000 * n :=
  fun e => h (Nat.add_right_cancel e)

/-- The event counters of a link are shown saturated in its `SEAM_EVC_SAT`. -/
theorem satOf_seam {n a : Nat} (hn : n < 36) (hlo : 0x100000 ≤ a) (hhi : a < 0x101000) :
    ∃ i, satOf (a + 0x1000 * n) = some (Reg.seamEvcSat n, i) := by
  have hloc : locate (a + 0x1000 * n) = some (.seam, n, a - 0x100000) := by
    have hdiv : (a + 0x1000 * n - 0x100000) / 0x1000 = n := by omega
    have hmod : (a + 0x1000 * n) % 0x1000 = a - 0x100000 := by omega
    unfold locate
    rw [if_neg (by omega), if_neg (by omega), if_neg (by omega), if_neg (by omega), if_neg (by omega), if_neg (by omega),
      if_neg (by omega), if_pos (by omega), hdiv, hmod]
  refine ⟨(a - 0x100000 - Block.seam.counters.1) / 4, ?_⟩
  simp only [satOf, hloc, Block.satOff, Block.base, Reg.seamEvcSat]
  congr 2
  omega

/-- A link's counter reads as many counts more, until it saturates (R8). -/
theorem nat_count_seam_self (r : Tbl Word) (m : Nat) {n a : Nat} (hn : n < 36)
    (ha : (0x100000 ≤ a ∧ a < 0x101000) ∧ a ≠ 0x10014C) :
    Regs.nat (Regs.count r (a + 0x1000 * n) m) (a + 0x1000 * n) =
      min 0xFFFFFFFF (Regs.nat r (a + 0x1000 * n) + m) := by
  obtain ⟨⟨hlo, hhi⟩, hsat⟩ := ha
  obtain ⟨i, e⟩ := satOf_seam hn hlo hhi
  refine nat_count_self _ _ _ fun x hx => ?_
  obtain rfl : _ = x := Option.some.inj (e.symm.trans hx)
  exact linkReg_ne n hsat

/-- It leaves the link's registers as they are, but for itself and `SEAM_EVC_SAT`. -/
theorem nat_count_seam_ne (r : Tbl Word) (m : Nat) {n a b : Nat} (hn : n < 36)
    (ha : (0x100000 ≤ a ∧ a < 0x101000) ∧ b ≠ a ∧ b ≠ 0x10014C) :
    Regs.nat (Regs.count r (a + 0x1000 * n) m) (b + 0x1000 * n) = Regs.nat r (b + 0x1000 * n) := by
  obtain ⟨⟨hlo, hhi⟩, hne, hsat⟩ := ha
  obtain ⟨i, e⟩ := satOf_seam hn hlo hhi
  refine nat_count_ne _ _ (linkReg_ne n hne) fun x hx => ?_
  obtain rfl : _ = x := Option.some.inj (e.symm.trans hx)
  exact linkReg_ne n hsat

/-- A 64-bit counter of the link leaves its other registers as they are. -/
theorem nat_count64_seam_ne (r : Tbl Word) (m : Nat) (n : Nat) {a b : Nat} (h : b ≠ a ∧ b ≠ a + 4) :
    Regs.nat (Regs.count64 r (a + 0x1000 * n) m) (b + 0x1000 * n) = Regs.nat r (b + 0x1000 * n) := by
  obtain ⟨hlo, hhi⟩ := h
  exact nat_count64_ne r m (linkReg_ne n hlo) (by omega)

/-! ### The record of a link -/

@[simp] theorem setLink_link_self (s : State) (n : Nat) (l : SLink) : (s.setLink n l).link n = l := Tbl.get_set_self _ _ _ _

theorem setLink_link_ne (s : State) {n k : Nat} (l : SLink) (h : k ≠ n) : (s.setLink n l).link k = s.link k :=
  Tbl.get_set_ne _ _ _ _ _ h

@[simp] theorem atCycle_link (s : State) (t n : Nat) : (s.atCycle t).link n = s.link n := by
  simp [State.link]

/-! ### STATE of a link (R327, R328) -/

/-- A link in service is in one of states 3 to 5. -/
theorem linkUp_iff (s : State) (n : Nat) : s.linkUp n = true ↔ 3 ≤ s.linkState n ∧ s.linkState n ≤ 5 := by
  simp [State.linkUp]

/-- The domain-wide record of the links lies in registers of its own. -/
theorem linkBits_nat (r : Tbl Word) (n : Nat) {k : Nat} (hk : k % 0x1000 < 0x800) :
    Regs.nat (linkBits r n) k = Regs.nat r k := by
  have hne {a b : Nat} (ha : 0x800 ≤ a % 0x1000) (hb : 0x800 ≤ b % 0x1000) : k ≠ if n / 32 = 0 then a else b := by
    split <;> omega
  exact (Regs.nat_put_ne _ _ _ _ (hne (by decide) (by decide))).trans (Regs.nat_put_ne _ _ _ _ (hne (by decide) (by decide)))

/-- A link that enters a state writes its STATE, and no other register of the links. -/
theorem putLinkState_reg (s : State) (n v : Nat) {k : Nat} (hk : k % 0x1000 < 0x800) :
    (s.putLinkState n v).reg k = (s.putFld (Reg.seamStatus n) 0 3 v).reg k := linkBits_nat _ n hk

theorem seamStatus_place (n : Nat) : Reg.seamStatus n % 0x1000 < 0x800 := by
  unfold Reg.seamStatus
  omega

theorem putLinkState_linkState (s : State) (n : Nat) {v : Nat} (hv : v < 8) : (s.putLinkState n v).linkState n = v :=
  (congrArg (bits · 0 3) (putLinkState_reg s n v (seamStatus_place n))).trans
    ((state_putFld_fld _ _ _ _ _ (by decide)).trans (Nat.mod_eq_of_lt hv))

/-- Another register of the link reads as before. -/
theorem putLinkState_reg_ne (s : State) (n v : Nat) {a : Nat} (h : a % 0x1000 < 0x800 ∧ a ≠ 0x100004) :
    (s.putLinkState n v).reg (a + 0x1000 * n) = s.reg (a + 0x1000 * n) := by
  obtain ⟨hk, hne⟩ := h
  exact (putLinkState_reg s n v (by omega)).trans (state_putFld_reg_ne _ _ _ _ _ _ (linkReg_ne n hne))

/-! ### Faults of a link (R481 to R491) -/

/-- The safe state writes registers of the blocks below Seam alone. -/
theorem enterSafe_reg (s : State) (unit stage : Nat) {k : Nat} (hk : 0x100000 ≤ k) :
    (s.enterSafe unit stage).reg k = s.reg k := by
  have hput (r : Tbl Word) {a : Nat} (lo w v : Nat) (ha : a < 0x100000) :
      Regs.nat (Regs.putFld r a lo w v) k = Regs.nat r k :=
    Regs.nat_put_ne _ _ _ _ (by omega)
  have hlanes : Regs.nat ((List.range 12).foldl (fun r a => Regs.putFld r (Reg.cphAState a) 0 2 0) s.regs) k = s.reg k :=
    List.foldlRecOn (motive := fun r => Regs.nat r k = s.reg k) _ _ rfl fun r hr a ha =>
      (hput r _ _ _ (by rw [List.mem_range] at ha; unfold Reg.cphAState; omega)).trans hr
  have herase : s.commitAccepted.eraseKeys.reg k = s.reg k :=
    (hput _ _ _ _ (by decide)).trans ((hput _ _ _ _ (by decide)).trans ((hput _ _ _ _ (by decide)).trans hlanes))
  have hroot (r : Tbl Word) : Regs.nat (faultRoot r unit stage) k = Regs.nat r k := by
    unfold faultRoot
    split
    · rfl
    · exact hput _ _ _ _ (by decide)
  unfold State.enterSafe
  split
  · rfl
  · exact (hroot _).trans ((hput _ _ _ _ (by decide)).trans herase)

/-- Gauntlet's counters and their saturation flags lie below Seam. -/
theorem gntTallies_below : ∀ a ∈ [Reg.gntEvcFault, Reg.gntEvcCoalesce, Reg.gntEvcLogfull],
    a < 0x100000 ∧ ∀ x ∈ satOf a, x.1 < 0x100000 := by decide

/-- A fault that enters no stage posts no event, and writes registers of the blocks below Seam alone. -/
theorem fault_reg (s : State) (unit : Nat) {cause : Nat} (access addr detail : Nat) (crossing : Bool)
    (hc : entryStage cause = 0) {k : Nat} (hk : 0x100000 ≤ k) :
    (s.fault unit cause access addr detail crossing).reg k = s.reg k := by
  have hcount {a : Nat} (ha : a ∈ [Reg.gntEvcFault, Reg.gntEvcCoalesce, Reg.gntEvcLogfull]) :
      (s.count a).reg k = s.reg k := by
    obtain ⟨hlow, hsat⟩ := gntTallies_below a ha
    exact nat_count_ne s.regs 1 (by omega) fun x hx => by have := hsat x hx; omega
  have hplace (v : FaultRec) : (s.placeRecord v).reg k = s.reg k := by
    have hput (r : Tbl Word) {a : Nat} (v : Nat) (ha : a < 0x100000) : Regs.nat (Regs.put r a v) k = Regs.nat r k :=
      Regs.nat_put_ne _ _ _ _ (by omega)
    unfold State.placeRecord
    split
    · exact hcount (by decide)
    · dsimp only
      show Regs.nat (if _ then _ else _) k = _
      split
      · exact (hput _ _ (by decide)).trans ((hput _ _ (by decide)).trans (hcount (by decide)))
      · exact (hput _ _ (by decide)).trans (hcount (by decide))
  unfold State.fault
  split
  case isTrue => exact enterSafe_reg s unit 3 hk
  case isFalse =>
    split
    case h_1 => exact hcount (by decide)
    case h_2 =>
      split
      case isTrue => exact (enterSafe_reg _ _ _ hk).trans (hcount (by decide))
      case isFalse =>
        dsimp only
        rw [if_neg (by rw [hc]; decide)]
        exact hplace _

/-- A fault leaves Seam's links as they are. -/
theorem fault_link (s : State) (u c a ad d : Nat) (x : Bool) (n : Nat) : (s.fault u c a ad d x).link n = s.link n := by
  obtain ⟨g, f, h, m, k, p, r, e⟩ := fault_parts s u c a ad d x
  rw [e]
  rfl

/-- A link's STATE is none of the registers that a fault writes. -/
theorem fault_linkState (s : State) (unit : Nat) {cause : Nat} (access addr detail : Nat) (crossing : Bool)
    (hc : entryStage cause = 0) (n : Nat) :
    (s.fault unit cause access addr detail crossing).linkState n = s.linkState n :=
  congrArg (bits · 0 3) (fault_reg s unit access addr detail crossing hc (by unfold Reg.seamStatus; omega))

/-- A link that enters a state, and the fault that reports it: STATE reads as entered, and the link's record and its other
registers as before. -/
theorem putLinkState_fault (s : State) (n : Nat) {v cause : Nat} (access addr detail : Nat) (hv : v < 8)
    (hc : entryStage cause = 0) :
    let t := (s.putLinkState n v).fault (linkUnit n) cause access addr detail
    t.linkState n = v ∧ t.link n = s.link n ∧
      ∀ a, 0x100000 ≤ a ∧ a % 0x1000 < 0x800 ∧ a ≠ 0x100004 → t.reg (a + 0x1000 * n) = s.reg (a + 0x1000 * n) :=
  ⟨(fault_linkState _ _ _ _ _ _ hc n).trans (putLinkState_linkState s n hv), fault_link _ _ _ _ _ _ _ n,
    fun _ ⟨hlo, hne⟩ => (fault_reg _ _ _ _ _ _ hc (Nat.le_add_right_of_le hlo)).trans (putLinkState_reg_ne s n v hne)⟩

/-! ### A link that is down (R322) -/

theorem linkDown_linkState (s : State) (n : Nat) : (s.linkDown n).linkState n = 6 :=
  (fault_linkState _ _ _ _ _ _ (by decide) n).trans (putLinkState_linkState s n (by decide))

theorem linkDown_link (s : State) (n : Nat) :
    (s.linkDown n).link n = { s.link n with replay := [], linkOut := [], retraining := false } :=
  (fault_link _ _ _ _ _ _ _ n).trans (setLink_link_self _ n _)

end Sys2Proof.Machine
end

section
/-! SUPPORT. Lanes of a Seam link that fail, and trainings that end (09_seam_links, R308, R321, R322). -/

namespace Sys2Proof.Machine

/-! ### The lanes shown in `SEAM_LANE` -/

/-- A lane marked failed and out of use, and counted. -/
def State.laneNoted (s : State) (n k : Nat) : State :=
  ((s.putFld (Reg.seamLane n) (4 + k) 1 1).putFld (Reg.seamLane n) k 1 0).count (Reg.seamEvcLanefail n)

/-- A field of a field is a field of the whole, as the lanes of one pair are two bits of those of the link. -/
theorem bits_bits (v lo w : Nat) {l m : Nat} (h : l + m ≤ w) : bits (bits v lo w) l m = bits v (lo + l) m := by
  refine Nat.eq_of_testBit_eq fun i => ?_
  rw [testBit_bits, testBit_bits, testBit_bits, Nat.add_assoc]
  by_cases hi : i < m
  · have hw : l + i < w := by omega
    simp [hi, hw]
  · simp [hi]

section Noted
variable {n k : Nat} (hn : n < 36)
include hn

theorem laneNoted_lane (s : State) : (s.laneNoted n k).reg (Reg.seamLane n) =
    ((s.putFld (Reg.seamLane n) (4 + k) 1 1).putFld (Reg.seamLane n) k 1 0).reg (Reg.seamLane n) :=
  nat_count_seam_ne _ 1 hn (by decide)

theorem laneNoted_count (s : State) : (s.laneNoted n k).reg (Reg.seamEvcLanefail n) =
    min 0xFFFFFFFF (s.reg (Reg.seamEvcLanefail n) + 1) := by
  refine (nat_count_seam_self _ 1 hn (by decide)).trans (congrArg (min _ <| · + 1) ?_)
  exact (state_putFld_reg_ne _ _ _ _ _ _ (linkReg_ne n (by decide))).trans
    (state_putFld_reg_ne _ _ _ _ _ _ (linkReg_ne n (by decide)))

theorem laneNoted_linkState (s : State) : (s.laneNoted n k).linkState n = s.linkState n := by
  have hreg : (s.laneNoted n k).reg (Reg.seamStatus n) = s.reg (Reg.seamStatus n) :=
    (nat_count_seam_ne _ 1 hn (by decide)).trans
      ((state_putFld_reg_ne _ _ _ _ _ _ (linkReg_ne n (by decide))).trans
        (state_putFld_reg_ne _ _ _ _ _ _ (linkReg_ne n (by decide))))
  exact congrArg (bits · 0 3) hreg

/-- The lane is marked. -/
theorem laneNoted_failed (s : State) (hk : k < 4) : (s.laneNoted n k).fld (Reg.seamLane n) (4 + k) 1 = 1 := by
  refine (congrArg (bits · (4 + k) 1) (laneNoted_lane hn s)).trans ?_
  exact (state_putFld_fld_ne _ _ _ _ _ _ _ (by omega) (by omega)).trans (state_putFld_fld _ _ _ _ _ (by omega))

/-- Failed lanes apart from it are as they were. -/
theorem laneNoted_others (s : State) {lo w : Nat} (hlo : 4 ≤ lo) (hk : k < 4) (h : lo + w ≤ 4 + k ∨ 4 + k + 1 ≤ lo) :
    (s.laneNoted n k).fld (Reg.seamLane n) lo w = s.fld (Reg.seamLane n) lo w := by
  refine (congrArg (bits · lo w) (laneNoted_lane hn s)).trans ?_
  exact (state_putFld_fld_ne _ _ _ _ _ _ _ (by omega) (by omega)).trans
    (state_putFld_fld_ne _ _ _ _ _ _ _ (by omega) h)

/-- A lane of the first pair: that pair has lost one, the other those it had. -/
theorem laneNoted_firstPair (s : State) (hk : k < 2) :
    bits ((s.laneNoted n k).fld (Reg.seamLane n) 4 4) 0 2 ≠ 0 ∧
      bits ((s.laneNoted n k).fld (Reg.seamLane n) 4 4) 2 2 = s.fld (Reg.seamLane n) 6 2 := by
  have hone := laneNoted_failed hn s (k := k) (by omega)
  have hkept := laneNoted_others hn s (k := k) (lo := 6) (w := 2) (by decide) (by omega) (by omega)
  rw [← hkept]
  unfold State.fld Regs.fld at hone ⊢
  rw [bits_bits _ _ _ (by decide), bits_bits _ _ _ (by decide)]
  refine ⟨?_, rfl⟩
  have hcases : k = 0 ∨ k = 1 := by omega
  rcases hcases with rfl | rfl <;> simp only [bits] at hone ⊢ <;> omega

/-- A lane of the second pair: the first has lost those it had. -/
theorem laneNoted_secondPair (s : State) (hlo : 2 ≤ k) (hk : k < 4) :
    bits ((s.laneNoted n k).fld (Reg.seamLane n) 4 4) 0 2 = s.fld (Reg.seamLane n) 4 2 := by
  rw [← laneNoted_others hn s (k := k) (lo := 4) (w := 2) (by decide) hk (by omega)]
  unfold State.fld Regs.fld
  exact bits_bits _ _ _ (by decide)

end Noted

/-! ### LANE_FAIL (R321, R322) -/

theorem laneFailEffect_down {s : State} {n : Nat} (h : s.linkUp n = false) (k : Nat) : laneFailEffect n k s = s :=
  if_pos (by rw [h]; rfl)

/-- A lane of the pair that is no longer in use is marked and counted only. -/
theorem laneFailEffect_unused {s : State} {n k : Nat} (hn : n < 36) (hk : k < 2) (h5 : s.linkState n = 5) :
    laneFailEffect n k s = s.laneNoted n k := by
  have hup : s.linkUp n = true := (linkUp_iff s n).2 (by omega)
  have hmod : k % 4 = k := Nat.mod_eq_of_lt (by omega)
  have hunused : ((s.laneNoted n k).linkState n = 4 ∧ 2 ≤ k) ∨ ((s.laneNoted n k).linkState n = 5 ∧ k < 2) :=
    .inr ⟨(laneNoted_linkState hn s).trans h5, hk⟩
  unfold laneFailEffect
  rw [hup, hmod]
  exact if_pos hunused

/-- A lane that fails while a lane of its pair may be in use. -/
theorem laneFailEffect_used {s : State} {n k : Nat} (hn : n < 36) (hk : k < 4) (hup : s.linkUp n = true)
    (hused : ¬ ((s.linkState n = 4 ∧ 2 ≤ k) ∨ (s.linkState n = 5 ∧ k < 2))) :
    let u := s.laneNoted n k
    let failed := u.fld (Reg.seamLane n) 4 4
    let pair := if bits failed 0 2 = 0 then 0 else 1
    laneFailEffect n k s = if bits failed 0 2 ≠ 0 ∧ bits failed 2 2 ≠ 0 then u.linkDown n
      else ((u.setLink n { s.link n with retraining := true, linkOut := (s.link n).linkOut ++ [.laneChange pair] }).putLinkState
        n (4 + pair)).fault (linkUnit n) 0x06 5 0 failed := by
  rw [← laneNoted_linkState hn s (k := k)] at hused
  unfold laneFailEffect
  rw [hup, Nat.mod_eq_of_lt hk]
  exact if_neg hused

/-- A lane of the first pair in use, when the other pair has lost one: the link is down. -/
theorem laneFailEffect_both {s : State} {n k : Nat} (hn : n < 36) (hk : k < 2) (hup : s.linkUp n = true)
    (h5 : s.linkState n ≠ 5) (hother : s.fld (Reg.seamLane n) 6 2 ≠ 0) :
    laneFailEffect n k s = (s.laneNoted n k).linkDown n := by
  obtain ⟨hfirst, hsecond⟩ := laneNoted_firstPair hn s hk
  exact (laneFailEffect_used hn (by omega) hup (by omega)).trans (if_pos ⟨hfirst, hsecond ▸ hother⟩)

/-- At full width the first lane to fail turns the link to the other pair. -/
theorem laneFailEffect_turns {s : State} {n k : Nat} (hn : n < 36) (hk : k < 4) (h3 : s.linkState n = 3)
    (hnone : s.fld (Reg.seamLane n) 4 4 = 0) :
    let pair := if k < 2 then 1 else 0
    ∃ d, laneFailEffect n k s = (((s.laneNoted n k).setLink n { s.link n with
        retraining := true, linkOut := (s.link n).linkOut ++ [.laneChange pair] }).putLinkState n (4 + pair)).fault
          (linkUnit n) 0x06 5 0 d := by
  have hzero {l : Nat} (h : l + 2 ≤ 4) : s.fld (Reg.seamLane n) (4 + l) 2 = 0 := by
    unfold State.fld Regs.fld at hnone ⊢
    rw [← bits_bits _ 4 4 h, hnone, bits, Nat.zero_div, Nat.zero_mod]
  intro pair
  unfold pair
  refine ⟨(s.laneNoted n k).fld (Reg.seamLane n) 4 4,
    (laneFailEffect_used hn hk ((linkUp_iff s n).2 (by omega)) (by omega)).trans ?_⟩
  by_cases hlow : k < 2
  · obtain ⟨hfirst, hsecond⟩ := laneNoted_firstPair hn s hlow
    rw [if_pos hlow, if_neg hfirst, if_neg fun h => h.2 (hsecond.trans (hzero (l := 2) (by decide)))]
  · have hfirst := (laneNoted_secondPair hn s (k := k) (by omega) hk).trans (hzero (l := 0) (by decide))
    rw [if_neg hlow, if_pos hfirst, if_neg fun h => h.1 hfirst]

/-! ### LANE_CHANGE (R321) -/

/-- The peer's lane change retrains this end on the surviving pair. -/
theorem laneChangeEffect_retrains {s : State} {n p : Nat} (hp : p < 2) (hup : s.linkUp n = true)
    (hret : (s.link n).retraining = false) :
    ∃ v d, laneChangeEffect n p s = (((s.putFld (Reg.seamLane n) 4 4 v).setLink n { s.link n with
      retraining := true }).putLinkState n (4 + p)).fault (linkUnit n) 0x06 5 0 d := by
  unfold laneChangeEffect
  rw [hup, hret, Nat.mod_eq_of_lt hp]
  exact ⟨_, _, rfl⟩

/-! ### RETRAIN_COMPLETE (R308, R321, R322) -/

theorem retrainCompleteEffect_trained {s : State} {n : Nat} (h : s.linkState n = 1) (x : Nat) :
    retrainCompleteEffect n true x s = (s.putFld (Reg.seamLane n) 0 4 15).putLinkState n 2 := if_pos h

theorem retrainCompleteEffect_untrained {s : State} {n : Nat} (h : s.linkState n = 1) (x : Nat) :
    retrainCompleteEffect n false x s = (s.putLinkState n 6).fault (linkUnit n) 0x05 5 0 3 := if_pos h

theorem retrainCompleteEffect_failed {s : State} {n : Nat} (h : s.linkState n ≠ 1) (hret : (s.link n).retraining = true)
    (x : Nat) : retrainCompleteEffect n false x s = s.linkDown n := by
  unfold retrainCompleteEffect
  rw [if_neg h, hret]
  rfl

/-- A link retrained: its retry buffer is to be replayed, and its latency is measured anew. -/
def State.retrained (s : State) (n x : Nat) : State :=
  (s.setLink n { s.link n with retraining := false, replay := (s.link n).retry, ackAt := s.now }).putFld
    (Reg.seamLatMeas n) 0 12 x

theorem retrainCompleteEffect_retrained {s : State} {n : Nat} (h : s.linkState n ≠ 1)
    (hret : (s.link n).retraining = true) (x : Nat) :
    ∃ v, retrainCompleteEffect n true x s = ((s.retrained n x).putFld (Reg.seamLane n) 0 4 v).resetElastic n := by
  unfold retrainCompleteEffect
  rw [if_neg h, hret]
  exact ⟨_, rfl⟩

/-- The measured latency stands. -/
theorem retrained_latMeas (s : State) (n : Nat) {x : Nat} (hx : x < 4096) (v : Nat) :
    (((s.retrained n x).putFld (Reg.seamLane n) 0 4 v).resetElastic n).fld (Reg.seamLatMeas n) 0 12 = x := by
  refine (state_putFld_fld_other _ _ _ _ _ _ _ _ (linkReg_ne n (by decide))).trans ?_
  refine (state_putFld_fld_other _ _ _ _ _ _ _ _ (linkReg_ne n (by decide))).trans ?_
  exact (state_putFld_fld _ _ _ _ _ (by decide)).trans (Nat.mod_eq_of_lt hx)

end Sys2Proof.Machine
end

section
open Sys2Proof Sys2Proof.Machine

/-- Settles O37: it holds. A lane's failure marks and counts it (`laneNoted`), and then turns the link to the other pair
(`laneFailEffect_turns`), takes it down (`laneFailEffect_both`) or does nothing more (`laneFailEffect_unused`); the fault
reported leaves the link and its registers as they are (`fault_reg`). -/
theorem laneFailuresHalveOrDropTheLink : Obligations.LaneFailuresHalveOrDropTheLink := by
  unfold Obligations.LaneFailuresHalveOrDropTheLink
  intro n s hr hn
  have hfail {k : Nat} (hk : k < 4) : exec (.laneFail n k) s = .next (laneFailEffect n k s) :=
    exec_running (i := .laneFail n k) hr (decide_eq_true ⟨hn, hk⟩) rfl
  have hchange {p : Nat} (hp : p < 2) : exec (.laneChange n p) s = .next (laneChangeEffect n p s) :=
    exec_running (i := .laneChange n p) hr (decide_eq_true ⟨hn, hp⟩) rfl
  have htrain (ok : Bool) {x : Nat} (hx : x < 4096) :
      exec (.retrainComplete n ok x) s = .next (retrainCompleteEffect n ok x s) :=
    exec_running (i := .retrainComplete n ok x) hr (decide_eq_true ⟨hn, hx⟩) rfl
  refine ⟨fun k hk hdown => (hfail hk).trans (congrArg _ (laneFailEffect_down hdown k)), ?turns, ?unused, ?both, ?change,
    ?first, ?again⟩
  case turns =>
    intro k hk h3 hnone
    obtain ⟨d, heff⟩ := laneFailEffect_turns hn hk h3 hnone
    obtain ⟨hstate, hlink, hreg⟩ := putLinkState_fault ((s.laneNoted n k).setLink n { s.link n with
      retraining := true, linkOut := (s.link n).linkOut ++ [.laneChange (if k < 2 then 1 else 0)] }) n
      (v := 4 + if k < 2 then 1 else 0) (cause := 0x06) 5 0 d (by split <;> decide) rfl
    rw [setLink_link_self] at hlink
    refine ⟨_, (hfail hk).trans (congrArg _ heff), hstate.trans (by split <;> rfl),
      (hreg 0x100144 (by decide)).trans (laneNoted_count hn s), ?_, ?_, ?_⟩
    · rw [hlink]
    · exact (congrArg (bits · (4 + k) 1) (hreg 0x10002C (by decide))).trans (laneNoted_failed hn s hk)
    · rw [hlink]
  case unused =>
    intro k hk h5
    exact ⟨_, (hfail (by omega)).trans (congrArg _ (laneFailEffect_unused hn hk h5)), rfl,
      (laneNoted_linkState hn s).trans h5, laneNoted_failed hn s (by omega), laneNoted_count hn s⟩
  case both =>
    intro k hk hup h5 hother
    exact ⟨_, (hfail (by omega)).trans (congrArg _ (laneFailEffect_both hn hk hup h5 hother)), linkDown_linkState _ n,
      congrArg SLink.replay (linkDown_link _ n)⟩
  case change =>
    intro p hp hup hret
    obtain ⟨v, d, heff⟩ := laneChangeEffect_retrains hp hup hret
    obtain ⟨hstate, hlink, -⟩ := putLinkState_fault ((s.putFld (Reg.seamLane n) 4 4 v).setLink n { s.link n with
      retraining := true }) n (v := 4 + p) (cause := 0x06) 5 0 d (by omega) rfl
    rw [setLink_link_self] at hlink
    exact ⟨_, (hchange hp).trans (congrArg _ heff), hstate, congrArg SLink.retraining hlink⟩
  case first =>
    rintro ok x hx h1
    refine ⟨?_, ?_⟩ <;> rintro rfl
    · exact ⟨_, (htrain _ hx).trans (congrArg _ (retrainCompleteEffect_trained h1 x)),
        putLinkState_linkState _ n (by decide)⟩
    · exact ⟨_, (htrain _ hx).trans (congrArg _ (retrainCompleteEffect_untrained h1 x)),
        (putLinkState_fault s n 5 0 3 (by decide) rfl).1⟩
  case again =>
    rintro ok x hx h1 hret
    refine ⟨?_, ?_⟩ <;> rintro rfl
    · obtain ⟨v, heff⟩ := retrainCompleteEffect_retrained h1 hret x
      have hlink := setLink_link_self s n { s.link n with retraining := false, replay := (s.link n).retry, ackAt := s.now }
      exact ⟨_, (htrain _ hx).trans (congrArg _ heff), congrArg SLink.retraining hlink, congrArg SLink.replay hlink,
        retrained_latMeas s n hx v, rfl, rfl⟩
    · exact ⟨_, (htrain _ hx).trans (congrArg _ (retrainCompleteEffect_failed h1 hret x)), linkDown_linkState _ n⟩

end

section
/-! SUPPORT. A Seam link that comes up: its peer's identity, its latency, and the counter that is passed on
(09_seam_links, R308 to R310; 14_mitten_power_ageing, R458). -/

namespace Sys2Proof.Machine

/-! ### DISCOVERY_IDENTITY (R308) -/

/-- A register written below 2^32 reads as written. -/
theorem state_put_reg_of_lt (s : State) (a : Nat) {v : Nat} (h : v < 2 ^ 32) : (s.put a v).reg a = v :=
  (state_put_reg s a v).trans (Nat.mod_eq_of_lt h)

theorem discoveryIdentityEffect_eq {s : State} {n d p : Nat} (h2 : s.linkState n = 2) (hd : d < 1024) (hp : p < 36) :
    let peer := d + p * 1024 + 65536
    discoveryIdentityEffect n d p s =
      if s.reg (Reg.seamPeerExp n) % 2 ^ 17 = peer then s.put (Reg.seamPeer n) peer
      else (((s.put (Reg.seamPeer n) peer).putFld (Reg.seamStatus n) 4 1 1).putLinkState n 6).fault (linkUnit n) 0x05 5 0 2 := by
  have hexp (v : Nat) : (s.put (Reg.seamPeer n) v).reg (Reg.seamPeerExp n) = s.reg (Reg.seamPeerExp n) :=
    state_put_reg_ne _ _ _ _ (linkReg_ne n (by decide))
  unfold discoveryIdentityEffect
  rw [if_neg (fun hne => hne h2), Nat.mod_eq_of_lt hd, Nat.mod_eq_of_lt (by omega : p < 64)]
  dsimp only
  rw [hexp]

/-- A link taken out of service with a bit of `SEAM_STATUS` set shows both. -/
theorem outOfService_shown (s : State) (n : Nat) {b cause : Nat} (access addr detail : Nat) (hb : 3 ≤ b ∧ b + 1 ≤ 32)
    (hc : entryStage cause = 0) :
    let t := ((s.putFld (Reg.seamStatus n) b 1 1).putLinkState n 6).fault (linkUnit n) cause access addr detail
    t.linkState n = 6 ∧ t.fld (Reg.seamStatus n) b 1 = 1 ∧
      ∀ a, 0x100000 ≤ a ∧ a % 0x1000 < 0x800 ∧ a ≠ 0x100004 → t.reg (a + 0x1000 * n) = s.reg (a + 0x1000 * n) := by
  obtain ⟨hlo, hhi⟩ := hb
  obtain ⟨hstate, -, hreg⟩ := putLinkState_fault (s.putFld (Reg.seamStatus n) b 1 1) n access addr detail (v := 6)
    (by decide) hc
  refine ⟨hstate, ?_, fun a ha => (hreg a ha).trans (state_putFld_reg_ne _ _ _ _ _ _ (linkReg_ne n ha.2.2))⟩
  refine (congrArg (bits · b 1) ((fault_reg _ _ _ _ _ _ hc (by unfold Reg.seamStatus; omega)).trans
    (putLinkState_reg _ n 6 (seamStatus_place n)))).trans ?_
  exact (state_putFld_fld_ne _ _ _ _ _ _ _ (by decide) (.inr hlo)).trans (state_putFld_fld _ _ _ _ _ hhi)

/-! ### LATENCY_PROBE (R308, R310) -/

theorem latencyProbeEffect_unknown {s : State} {n : Nat} (h2 : s.linkState n = 2) (h : s.fld (Reg.seamPeer n) 16 1 = 0)
    (x : Nat) : latencyProbeEffect n x s = s :=
  (if_pos h2).trans (if_pos h)

theorem latencyProbeEffect_counts {s : State} {n : Nat} (h2 : s.linkState n = 2) (h : s.fld (Reg.seamPeer n) 16 1 = 1)
    (hmore : (s.link n).probes + 1 < 64) (x : Nat) : latencyProbeEffect n x s =
      s.setLink n { s.link n with probed := max (s.link n).probed x, probes := (s.link n).probes + 1 } :=
  (if_pos h2).trans ((if_neg (by omega)).trans (if_pos hmore))

/-- The latency of a link measured. -/
def State.latencyMeasured (s : State) (n m : Nat) : State :=
  (s.setLink n { s.link n with probed := 0, probes := 0 }).putFld (Reg.seamLatMeas n) 0 12 m

theorem latencyMeasured_latMeas (s : State) (n : Nat) {m : Nat} (hm : m < 4096) :
    (s.latencyMeasured n m).fld (Reg.seamLatMeas n) 0 12 = m :=
  (state_putFld_fld _ _ _ _ _ (by decide)).trans (Nat.mod_eq_of_lt hm)

/-- The 64th probe measures the latency, and the link comes up or is left out. -/
theorem latencyProbeEffect_measures {s : State} {n : Nat} (h2 : s.linkState n = 2) (h : s.fld (Reg.seamPeer n) 16 1 = 1)
    (hlast : 63 ≤ (s.link n).probes) (x : Nat) :
    let m := max (s.link n).probed x
    let c := s.fld (Reg.seamLatPlan n) 0 12
    latencyProbeEffect n x s =
      if c < m + 8 then (((s.latencyMeasured n m).putFld (Reg.seamStatus n) 3 1 1).putLinkState n 6).fault
        (linkUnit n) 0x05 5 0 1
      else ((s.latencyMeasured n m).putFld (Reg.seamElastic n) 0 12 (c - m)).putLinkState n 3 := by
  have hwide : ¬ (s.linkState n = 4 ∨ s.linkState n = 5) := by omega
  unfold latencyProbeEffect
  rw [if_neg hwide]
  exact (if_pos h2).trans ((if_neg (by omega)).trans (if_neg (by omega)))

/-! ### ALIGNMENT_FRAME (R458) -/

/-- Link `k` gets the device's own counter to send. -/
def State.alignOn (s : State) (k : Nat) : State :=
  s.setLink k { s.link k with linkOut := (s.link k).linkOut ++ [.align s.now (s.fld Reg.aonTime 4 10)] }

/-- Of links that get it, each gets it once. -/
theorem foldl_alignOn_linkOut (n : Nat) (l : List Nat) (hl : l.Nodup) (s : State) :
    ((l.foldl State.alignOn s).link n).linkOut =
      (s.link n).linkOut ++ if n ∈ l then [.align s.now (s.fld Reg.aonTime 4 10)] else [] := by
  induction l generalizing s with
  | nil => simp
  | cons k l ih =>
    obtain ⟨hk, hl⟩ := List.nodup_cons.1 hl
    refine (ih hl (s.alignOn k)).trans ?_
    by_cases hn : n = k
    · subst hn
      rw [if_neg hk, if_pos List.mem_cons_self, List.append_nil, State.alignOn, setLink_link_self]
    · have hmem : n ∈ k :: l ↔ n ∈ l := List.mem_cons.trans (or_iff_right hn)
      rw [State.alignOn, setLink_link_ne _ _ hn]
      simp only [hmem]
      rfl

/-- Each link in service carries the counter (R458). -/
theorem sendAlign_linkOut (s : State) {n : Nat} (hn : n < 36) (hup : s.linkUp n = true) :
    ((s.sendAlign).link n).linkOut = (s.link n).linkOut ++ [.align s.now (s.fld Reg.aonTime 4 10)] := by
  have hmem : n ∈ (List.range 36).filter s.linkUp := List.mem_filter.2 ⟨List.mem_range.2 hn, hup⟩
  exact (foldl_alignOn_linkOut n _ (List.nodup_range.filter _) s).trans (congrArg _ (if_pos hmem))

theorem sendAlign_seam (s : State) : ∃ x, s.sendAlign = { s with seam := x } :=
  foldl_seam (fun _ _ => ⟨_, rfl⟩) _ s

/-- The counter that an alignment frame of cycle `c` brings over link `n`. -/
def State.alignedTo (s : State) (n c : Nat) : Nat := (c + s.fld (Reg.seamLatPlan n) 0 12 + 4) % 2 ^ 64

/-- A device that takes it, with the device it comes from. -/
def State.aligned (s : State) (c d : Nat) : State :=
  ({ s with clk := { s.clk with fcnt := c } }.putFld Reg.aonTime 0 1 1).putFld Reg.aonTime 4 10 d

theorem alignmentFrameEffect_eq {s : State} {n : Nat} (hn : n < 36) (hup : s.linkUp n = true) (c d : Nat) :
    alignmentFrameEffect n c d s =
      if s.fld Reg.aonTime 0 1 = 0 then (s.aligned (s.alignedTo n c) d).sendAlign
      else if s.now = s.alignedTo n c then s
      else (s.count Reg.aonEvcAlignerr).fault 0x200 0x0B 5 0 n false :=
  if_neg (by rw [hup]; simpa using hn)

theorem aligned_fld (s : State) (c : Nat) {d : Nat} (hd : d < 1024) :
    (s.aligned c d).fld Reg.aonTime 0 1 = 1 ∧ (s.aligned c d).fld Reg.aonTime 4 10 = d :=
  ⟨(state_putFld_fld_ne _ _ _ _ _ _ _ (by decide) (by decide)).trans (state_putFld_fld _ _ _ _ _ (by decide)),
    (state_putFld_fld _ _ _ _ _ (by decide)).trans (Nat.mod_eq_of_lt hd)⟩

/-- It leaves the links as they are. -/
theorem aligned_linkUp (s : State) (n c d : Nat) : (s.aligned c d).linkUp n = s.linkUp n := by
  have hne : Reg.seamStatus n ≠ Reg.aonTime := by unfold Reg.seamStatus Reg.aonTime; omega
  have hstate : (s.aligned c d).linkState n = s.linkState n :=
    (state_putFld_fld_other _ _ _ _ _ _ _ _ hne).trans (state_putFld_fld_other _ _ _ _ _ _ _ _ hne)
  unfold State.linkUp
  rw [hstate]

end Sys2Proof.Machine
end

section
open Sys2Proof Sys2Proof.Machine

/-- Settles O36: it holds. A link found wrong shows why and is out of service (`outOfService_shown`); one whose latency is within
its plan comes up (`latencyProbeEffect_measures`); a counter taken is passed on over each link in service
(`sendAlign_linkOut`). -/
theorem linksComeUpAligned : Obligations.LinksComeUpAligned := by
  unfold Obligations.LinksComeUpAligned
  refine ⟨fun n s hr hn h2 => ⟨?identity, ?unknown, ?probe⟩, ?align⟩
  case identity =>
    intro d p hd hp
    have heff := (exec_running (i := .discoveryIdentity n d p) hr (decide_eq_true ⟨hn, hd, hp⟩) rfl).trans
      (congrArg _ (discoveryIdentityEffect_eq h2 hd hp))
    refine ⟨fun hexp => heff.trans (congrArg _ (if_pos hexp)), fun hexp => ?_⟩
    obtain ⟨hstate, hbit, hreg⟩ := outOfService_shown (s.put (Reg.seamPeer n) (d + p * 1024 + 65536)) n (b := 4) (cause := 0x05)
      5 0 2 (by decide) rfl
    exact ⟨_, heff.trans (congrArg _ (if_neg hexp)), hstate, hbit,
      (hreg 0x100018 (by decide)).trans (state_put_reg_of_lt _ _ (by omega))⟩
  case unknown =>
    intro x hx h
    exact (exec_running (i := .latencyProbe n x) hr (decide_eq_true ⟨hn, hx⟩) rfl).trans
      (congrArg _ (latencyProbeEffect_unknown h2 h x))
  case probe =>
    intro x hx h m c
    have hexec := exec_running (i := .latencyProbe n x) hr (decide_eq_true ⟨hn, hx⟩) rfl
    refine ⟨fun hmore => hexec.trans (congrArg _ (latencyProbeEffect_counts h2 h hmore x)), fun hlast hm hfit => ?up,
      fun hlast hm hfit => ?out⟩
    case up =>
      have heff := (latencyProbeEffect_measures h2 h hlast x).trans (if_neg (Nat.not_lt.2 hfit))
      have hc : c < 2 ^ 12 := fld_lt s _ 0 12
      have hreg {a : Nat} (ha : a % 0x1000 < 0x800 ∧ a ≠ 0x100004) :=
        putLinkState_reg_ne ((s.latencyMeasured n m).putFld (Reg.seamElastic n) 0 12 (c - m)) n 3 ha
      refine ⟨_, hexec.trans (congrArg _ heff), putLinkState_linkState _ n (by decide), ?_, ?_⟩
      · exact (congrArg (bits · 0 12) (hreg (a := 0x100010) (by decide))).trans
          ((state_putFld_fld_other _ _ _ _ _ _ _ _ (linkReg_ne n (by decide))).trans (latencyMeasured_latMeas s n hm))
      · exact (congrArg (bits · 0 12) (hreg (a := 0x100014) (by decide))).trans
          ((state_putFld_fld _ _ _ _ _ (by decide)).trans (Nat.mod_eq_of_lt (by omega)))
    case out =>
      have heff := (latencyProbeEffect_measures h2 h hlast x).trans (if_pos hfit)
      obtain ⟨hstate, hbit, hreg⟩ := outOfService_shown (s.latencyMeasured n m) n (b := 3) (cause := 0x05) 5 0 1
        (by decide) rfl
      exact ⟨_, hexec.trans (congrArg _ heff), hstate,
        (congrArg (bits · 0 12) (hreg 0x100010 (by decide))).trans (latencyMeasured_latMeas s n hm), hbit⟩
  case align =>
    intro n c d s hr hw hup want
    have hform : n < 36 ∧ c < 2 ^ 64 ∧ d < 1024 := of_decide_eq_true hw
    obtain ⟨hn, -, hd⟩ := hform
    have heff := (exec_running hr hw rfl).trans (congrArg _ (alignmentFrameEffect_eq hn hup c d))
    refine ⟨fun h0 => ?_, fun h1 hnow => ?_, fun h1 hnow => ?_⟩
    · obtain ⟨h1, hdev⟩ := aligned_fld s want hd
      have hout := sendAlign_linkOut (s.aligned want d) hn ((aligned_linkUp s n want d).trans hup)
      obtain ⟨x, hseam⟩ := sendAlign_seam (s.aligned want d)
      refine ⟨_, heff.trans (congrArg _ (if_pos h0)), ?_, ?_, ?_, ?_, ?_, ?_⟩
      · exact congrArg State.now hseam
      · exact (congrArg (·.fld Reg.aonTime 0 1) hseam).trans h1
      · exact (congrArg (·.fld Reg.aonTime 4 10) hseam).trans hdev
      · rw [hdev] at hout
        exact hout
      · exact (state_sendAlign_stores (s.aligned want d)).1
      · exact (state_sendAlign_stores (s.aligned want d)).2
    · exact heff.trans (congrArg _ ((if_neg (by omega)).trans (if_pos hnow)))
    · exact heff.trans (congrArg _ ((if_neg (by omega)).trans (if_neg hnow)))

end

section
/-! SUPPORT. A slot of a link's egress, and the replays of its retry buffer (09_seam_links, R304 to R306, R322;
07_clockwork, R258). -/

namespace Sys2Proof.Machine

/-! ### The slot (R306) -/

/-- The cycle of a link's next slot. -/
def State.slotStart (s : State) (n : Nat) : Nat := max s.now (s.link n).slotFree

/-- The cycles of that slot. -/
def State.slotWidth (s : State) (n : Nat) : Nat := (s.atCycle (s.slotStart n)).slotCycles n

/-- The link with the waits of its next slot marked, and what they count (R305, R306). -/
def State.slotWaits (s : State) (n : Nat) : SLink × List (Nat × Nat) × Nat :=
  (s.link n).noteWaits n (s.slotStart n) (s.slotWidth n)

/-- The state in that slot, its waits counted. -/
def State.slotOpen (s : State) (n : Nat) : State :=
  let u := s.atCycle (s.slotStart n)
  { u with regs := Regs.count64 (Regs.counts u.regs (s.slotWaits n).2.1) (Reg.seamStallLo n) (s.slotWaits n).2.2 }

/-- The link after that slot carried a frame of some kind. -/
def State.slotLink (s : State) (n : Nat) (x : Wire) : SLink := (s.slotWaits n).1.slot (s.slotStart n) (s.slotWidth n) x

@[simp] theorem noteWaits_kept (l : SLink) (n t w : Nat) :
    (l.noteWaits n t w).1.replay = l.replay ∧ (l.noteWaits n t w).1.linkOut = l.linkOut ∧
      (l.noteWaits n t w).1.retry = l.retry ∧ (l.noteWaits n t w).1.recalTo = l.recalTo := ⟨rfl, rfl, rfl, rfl⟩

/-- Waits counted leave the sequence numbers as they are. -/
theorem slotOpen_txseq (s : State) {n : Nat} (hn : n < 36) : (s.slotOpen n).reg (Reg.seamTxseq n) = s.reg (Reg.seamTxseq n) :=
  (nat_count64_seam_ne _ _ n (by decide)).trans ((nat_count_seam_ne _ _ hn (by decide)).trans
    ((nat_count_seam_ne _ _ hn (by decide)).trans (congrArg (Regs.nat · _) (atCycle_regs s _))))

/-- The slot opens with the stores as they were. -/
theorem slotOpen_stores (s : State) (n : Nat) : (s.slotOpen n).hbm = s.hbm ∧ (s.slotOpen n).tile = s.tile := by
  unfold State.slotOpen
  simp

/-- A sequenced frame that left its link counted (R509). -/
def State.frameSent (s : State) (n : Nat) : State :=
  { s with regs := Regs.count64 (Regs.count s.regs Reg.tpxEvcSeamdly (b2n (s.seamDelay n).isSome)) (Reg.seamBusyLo n) 1 }

/-- The count of delayed frames and its saturation flag lie above Seam. -/
theorem tpxEvcSeamdly_place : 0x200000 ≤ Reg.tpxEvcSeamdly ∧ ∀ x ∈ satOf Reg.tpxEvcSeamdly, 0x200000 ≤ x.1 := by decide

/-- That count leaves the sequence numbers as they are. -/
theorem nat_frameSent_txseq (r : Tbl Word) (m : Nat) {n : Nat} (hn : n < 36) :
    Regs.nat (Regs.count64 (Regs.count r Reg.tpxEvcSeamdly m) (Reg.seamBusyLo n) 1) (Reg.seamTxseq n) =
      Regs.nat r (Reg.seamTxseq n) := by
  obtain ⟨hplace, hsat⟩ := tpxEvcSeamdly_place
  have hlow : Reg.seamTxseq n < 0x200000 := by unfold Reg.seamTxseq; omega
  exact (nat_count64_seam_ne _ _ n (by decide)).trans
    (nat_count_ne _ _ (by omega) fun x hx => by have := hsat x hx; omega)

/-- A link that may be given a slot: it is in service, reaches its unit, and does not retrain. -/
structure Carries (s : State) (n : Nat) : Prop where
  up : s.linkUp n = true
  reached : s.isolated (linkUnit n) = false
  trained : (s.link n).retraining = false

section Slot
variable {s : State} {n : Nat} (h : Carries s n)
include h

/-- A replay goes first, outside a recalibration quantum. -/
theorem egressSlotEffect_replay {seq : Nat} {f : SFrame} {rest : List (Nat × SFrame)}
    (hreplay : (s.link n).replay = (seq, f) :: rest) (hfree : (s.link n).recalTo ≤ s.slotStart n) :
    ∃ header, egressSlotEffect n s = ((s.slotOpen n).setLink n
      { s.slotLink n (.frame header f.payload) with replay := rest }).frameSent n := by
  have hfree : ¬ max s.now (s.link n).slotFree < (s.link n).recalTo := Nat.not_lt.2 hfree
  simp only [egressSlotEffect, h.up, h.reached, h.trained, hfree, hreplay, noteWaits_kept, Bool.not_true, Bool.or_false,
    Bool.false_eq_true, if_false, decide_false, Bool.false_and]
  exact ⟨_, rfl⟩

/-- Then a LINK frame. -/
theorem egressSlotEffect_link {m : LinkMsg} {rest : List LinkMsg} (hreplay : (s.link n).replay = [])
    (hout : (s.link n).linkOut = m :: rest) :
    egressSlotEffect n s = (s.slotOpen n).setLink n { s.slotLink n (.link m) with linkOut := rest } := by
  simp only [egressSlotEffect, h.up, h.reached, h.trained, hreplay, hout, noteWaits_kept, Bool.not_true, Bool.or_false,
    Bool.false_eq_true, if_false, List.isEmpty_cons, Bool.and_false, Bool.false_and, ite_self]
  rfl

/-- Then the first candidate that can leave, while the retry buffer has room. -/
theorem egressSlotEffect_frame {f : EFrame} (hreplay : (s.link n).replay = []) (hout : (s.link n).linkOut = [])
    (hpick : (s.slotWaits n).1.pick (s.slotStart n) = some f) (hfree : (s.link n).recalTo ≤ s.slotStart n)
    (hroom : (s.link n).retry.length < 512) :
    egressSlotEffect n s =
      ((s.slotOpen n).setLink n (s.slotWaits n).1).sendSequenced n (s.slotStart n) (s.slotWidth n) f := by
  have hfree : ¬ max s.now (s.link n).slotFree < (s.link n).recalTo := Nat.not_lt.2 hfree
  unfold State.slotWaits State.slotWidth State.slotStart at hpick
  simp only [egressSlotEffect, h.up, h.reached, h.trained, hfree, hreplay, hout, hpick, hroom, noteWaits_kept, Bool.not_true,
    Bool.or_false, Bool.false_eq_true, if_false, if_true, decide_false, Bool.false_and]
  rfl

/-- With nothing to send the slot carries IDLE. -/
theorem egressSlotEffect_idle (hreplay : (s.link n).replay = []) (hout : (s.link n).linkOut = [])
    (hpick : (s.slotWaits n).1.pick (s.slotStart n) = none) :
    egressSlotEffect n s = (s.slotOpen n).setLink n (s.slotLink n .idle) := by
  unfold State.slotWaits State.slotWidth State.slotStart at hpick
  simp only [egressSlotEffect, h.up, h.reached, h.trained, hreplay, hout, hpick, noteWaits_kept, Bool.not_true,
    Bool.or_false, Bool.false_eq_true, if_false, List.isEmpty_nil, Option.isSome_none, Bool.and_false, ite_self]
  rfl

end Slot

/-- A link that is not up sends nothing. -/
theorem egressSlotEffect_down {s : State} {n : Nat} (h : s.linkUp n = false) : egressSlotEffect n s = s :=
  if_pos (by rw [h]; rfl)

/-! ### The waits of a slot (R305, R306) -/

/-- An egress without frames waits for nothing. -/
theorem slotWaits_empty {s : State} {n : Nat} (h : (s.link n).out = []) :
    (s.slotWaits n).1 = s.link n ∧ (s.slotOpen n).regs = s.regs ∧ (s.slotWaits n).1.pick (s.slotStart n) = none := by
  have hnone (t : Nat) : (s.link n).candidates t = [] := by simp [SLink.candidates, h]
  have hkept : (s.slotWaits n).1 = s.link n := by
    simp only [State.slotWaits, SLink.noteWaits, h, List.map_nil]
    rw [← h]
  refine ⟨hkept, ?_, ?_⟩
  · simp [State.slotOpen, State.slotWaits, SLink.noteWaits, SLink.waiting, hnone, Regs.counts]
  · rw [hkept, SLink.pick, hnone, List.find?_nil]

/-- A single frame that may leave waits for nothing and is picked. -/
theorem slotWaits_single {s : State} {n : Nat} {f : EFrame} (h : (s.link n).out = [f]) (hprio : f.prio ∈ [3, 4, 5, 6])
    (hready : f.readyAt ≤ s.slotStart n) (hheld : (s.link n).heldByOther f = false)
    (hcred : (s.link n).cred.getD f.f.vc 0 ≠ 0) :
    (s.slotWaits n).1 = s.link n ∧ (s.slotWaits n).1.pick (s.slotStart n) = some f := by
  have hcand : (s.link n).candidates (s.slotStart n) = [f] := by
    have hcases : f.prio = 3 ∨ f.prio = 4 ∨ f.prio = 5 ∨ f.prio = 6 := by simpa using hprio
    rcases hcases with hp | hp | hp | hp <;> simp [SLink.candidates, h, hready, hp]
  have hdry : (s.link n).dry f = false := by rw [SLink.dry, hheld, beq_false_of_ne hcred]; rfl
  have hkept : (s.slotWaits n).1 = s.link n := by
    simp [State.slotWaits, SLink.noteWaits, SLink.waiting, hcand, hheld, hdry, h]
    rw [← h]
  refine ⟨hkept, ?_⟩
  rw [hkept, SLink.pick, hcand]
  simp [hheld, hdry]

/-! ### A new sequenced frame (R300, R303, R304) -/

/-- It leaves the egress, and stands in the retry buffer under the next sequence number. -/
theorem sendSequenced_link (s : State) (n t w : Nat) (f : EFrame) :
    let l := (s.sendSequenced n t w f).link n
    l.out = (s.link n).out.erase f ∧ l.retry = (s.link n).retry ++ [(s.reg (Reg.seamTxseq n), f.f)] ∧
      ∃ h, l.wire = .frame h f.f.payload := by
  unfold State.sendSequenced
  dsimp only
  cases f.from' with
  | none =>
    dsimp only
    show ((s.setLink n _).link n).out = _ ∧ ((s.setLink n _).link n).retry = _ ∧ ∃ h, ((s.setLink n _).link n).wire = _
    rw [setLink_link_self]
    exact ⟨rfl, rfl, _, rfl⟩
  | some k =>
    dsimp only
    show (((s.setLink n _).setLink k _).link n).out = _ ∧ (((s.setLink n _).setLink k _).link n).retry = _ ∧
      ∃ h, (((s.setLink n _).setLink k _).link n).wire = _
    by_cases hk : n = k
    · subst hk
      rw [setLink_link_self, setLink_link_self]
      exact ⟨rfl, rfl, _, rfl⟩
    · rw [setLink_link_ne _ _ hk, setLink_link_self]
      exact ⟨rfl, rfl, _, rfl⟩

/-- It changes Seam and registers alone, and the sequence number goes up by one. -/
theorem sendSequenced_regs (s : State) {n : Nat} (hn : n < 36) (t w : Nat) (f : EFrame) :
    ∃ x r, s.sendSequenced n t w f = { s with seam := x, regs := r } ∧
      Regs.nat r (Reg.seamTxseq n) = (s.reg (Reg.seamTxseq n) + 1) % 2 ^ 24 := by
  have hseq (m : Nat) : Regs.nat (Regs.count64 (Regs.count (Regs.put s.regs (Reg.seamTxseq n)
      ((s.reg (Reg.seamTxseq n) + 1) % 2 ^ 24)) Reg.tpxEvcSeamdly m) (Reg.seamBusyLo n) 1) (Reg.seamTxseq n) =
        (s.reg (Reg.seamTxseq n) + 1) % 2 ^ 24 :=
    (nat_frameSent_txseq _ _ hn).trans ((Regs.nat_put_self _ _ _).trans (Nat.mod_eq_of_lt (by omega)))
  unfold State.sendSequenced
  dsimp only
  cases f.from' with
  | none => exact ⟨_, _, rfl, hseq _⟩
  | some k => exact ⟨_, _, rfl, hseq _⟩

theorem sendSequenced_txseq (s : State) {n : Nat} (hn : n < 36) (t w : Nat) (f : EFrame) :
    (s.sendSequenced n t w f).reg (Reg.seamTxseq n) = (s.reg (Reg.seamTxseq n) + 1) % 2 ^ 24 := by
  obtain ⟨x, r, e, hr⟩ := sendSequenced_regs s hn t w f
  rw [e]
  exact hr

/-! ### Replays (R304) -/

/-- A link whose replay starts from number `e`, as the `k`-th in a row. -/
def State.replayLink (s : State) (n e k : Nat) : SLink :=
  { s.link n with
    replayFrom := some e, replays := k, ackAt := s.now, replay := (s.link n).retry.dropWhile fun f => f.1 != e }

/-- Short of the eighth in a row a replay starts and is counted. -/
theorem startReplay_starts {s : State} {n e : Nat} (c : Nat) (h : ¬ ((s.link n).replayFrom = some e ∧ (s.link n).replays = 7)) :
    ∃ k, s.startReplay n e c = (s.setLink n (s.replayLink n e k)).count c := by
  have hagain : ¬ (if (s.link n).replayFrom = some e then (s.link n).replays + 1 else 1) = 8 := by
    split
    next hfrom => exact fun h8 => h ⟨hfrom, Nat.succ.inj h8⟩
    next => decide
  exact ⟨_, if_neg hagain⟩

/-- The eighth takes the link down. -/
theorem startReplay_eighth {s : State} {n e : Nat} (c : Nat) (h : (s.link n).replayFrom = some e ∧ (s.link n).replays = 7) :
    ∃ u : State, s.startReplay n e c = u.linkDown n := by
  obtain ⟨hfrom, hcount⟩ := h
  exact ⟨_, if_pos (by rw [if_pos hfrom, hcount])⟩

theorem nakEffect_none {s : State} {n e : Nat} (h : ((s.link n).retry.all fun f => f.1 != e) = true) : nakEffect n e s = s :=
  if_pos (by rw [h, Bool.or_true])

theorem nakEffect_outstanding {s : State} {n e : Nat} (hup : s.linkUp n = true)
    (h : ((s.link n).retry.all fun f => f.1 != e) = false) :
    nakEffect n e s = s.startReplay n e (Reg.seamEvcRetry n) :=
  if_neg (by rw [h, hup]; decide)

theorem retryTimeoutEffect_none {s : State} {n : Nat} (h : (s.link n).retry = []) : retryTimeoutEffect n s = s := by
  unfold retryTimeoutEffect
  dsimp only
  rw [h]

theorem retryTimeoutEffect_oldest {s : State} {n : Nat} (hup : s.linkUp n = true) {f : Nat × SFrame}
    {rest : List (Nat × SFrame)} (h : (s.link n).retry = f :: rest) :
    retryTimeoutEffect n s = (s.atCycle ((s.link n).ackAt + 2048)).startReplay n f.1 (Reg.seamEvcTimeout n) := by
  unfold retryTimeoutEffect
  dsimp only
  rw [h, hup]
  rfl

end Sys2Proof.Machine
end

section
open Sys2Proof Sys2Proof.Machine

/-- Settles O35: it holds. A slot carries the first that may go of a replay (`egressSlotEffect_replay`), a LINK frame
(`egressSlotEffect_link`), the candidate (`egressSlotEffect_frame`) and IDLE; a replay starts from the frame named
(`startReplay_starts`), and the eighth takes the link down. -/
theorem egressOrderAndReplays : Obligations.EgressOrderAndReplays := by
  unfold Obligations.EgressOrderAndReplays
  refine ⟨fun n s hr hn => ?slot, fun n s hr hn hup => ?replays⟩
  case slot =>
    have hexec := exec_running (i := .egressSlot n) hr (decide_eq_true hn) rfl
    refine ⟨fun hdown => hexec.trans (congrArg _ (egressSlotEffect_down hdown)), fun hup hiso hret => ?_⟩
    have hc : Carries s n := ⟨hup, hiso, hret⟩
    obtain ⟨hhbm, htile⟩ := slotOpen_stores s n
    refine ⟨?replay, ?link, ?frame, ?idle⟩
    case replay =>
      intro seq f rest hreplay hfree
      obtain ⟨header, heff⟩ := egressSlotEffect_replay hc hreplay hfree
      have hlink := setLink_link_self (s.slotOpen n) n { s.slotLink n (.frame header f.payload) with replay := rest }
      exact ⟨_, hexec.trans (congrArg _ heff), congrArg SLink.replay hlink, ⟨header, congrArg SLink.wire hlink⟩,
        (congrArg SLink.linkOut hlink :), (nat_frameSent_txseq _ _ hn).trans (slotOpen_txseq s hn), hhbm, htile⟩
    case link =>
      intro m rest hreplay hout
      have heff := egressSlotEffect_link hc hreplay hout
      have hlink := setLink_link_self (s.slotOpen n) n { s.slotLink n (.link m) with linkOut := rest }
      exact ⟨_, hexec.trans (congrArg _ heff), congrArg SLink.linkOut hlink, congrArg SLink.wire hlink,
        slotOpen_txseq s hn, hhbm, htile⟩
    case frame =>
      intro f hreplay hlout hout hprio hready hfree hheld hcred hroom
      obtain ⟨hkept, hpick⟩ := slotWaits_single hout hprio hready hheld hcred
      have heff := egressSlotEffect_frame hc hreplay hlout hpick hfree hroom
      rw [hkept] at heff
      have hlink := setLink_link_self (s.slotOpen n) n (s.link n)
      obtain ⟨hsout, hsretry, hswire⟩ := sendSequenced_link ((s.slotOpen n).setLink n (s.link n)) n (s.slotStart n)
        (s.slotWidth n) f
      obtain ⟨x, r, hseam, -⟩ := sendSequenced_regs ((s.slotOpen n).setLink n (s.link n)) hn (s.slotStart n)
        (s.slotWidth n) f
      have hseq : ((s.slotOpen n).setLink n (s.link n)).reg (Reg.seamTxseq n) = s.reg (Reg.seamTxseq n) := slotOpen_txseq s hn
      rw [hlink, hseq] at hsretry
      rw [hlink, hout, List.erase_cons_head] at hsout
      refine ⟨_, hexec.trans (congrArg _ heff), hsout, hsretry, hswire, ?_, ?_, ?_⟩
      · rw [sendSequenced_txseq _ hn, hseq]
      · rw [hseam]
        exact hhbm
      · rw [hseam]
        exact htile
    case idle =>
      intro hreplay hlout hout
      obtain ⟨-, hregs, hpick⟩ := slotWaits_empty hout
      exact ⟨_, hexec.trans (congrArg _ (egressSlotEffect_idle hc hreplay hlout hpick)),
        congrArg SLink.wire (setLink_link_self (s.slotOpen n) n _), hregs, hhbm, htile⟩
  case replays =>
    intro l eighth
    have hnak {e : Nat} (he : e < 2 ^ 24) : exec (.nak n e) s = .next (nakEffect n e s) :=
      exec_running (i := .nak n e) hr (decide_eq_true ⟨hn, he⟩) rfl
    have htime := exec_running (i := .retryTimeout n) hr (decide_eq_true hn) rfl
    refine ⟨fun e he hall => (hnak he).trans (congrArg _ (nakEffect_none hall)), fun e he hout h8 => ?starts,
      fun e he hout h8 => ?eighth, fun hnone => htime.trans (congrArg _ (retryTimeoutEffect_none hnone)),
      fun f rest hretry h8 hack => ?timeout⟩
    case starts =>
      obtain ⟨k, heff⟩ := startReplay_starts (Reg.seamEvcRetry n) h8
      have hlink := setLink_link_self s n (s.replayLink n e k)
      exact ⟨_, (hnak he).trans (congrArg _ ((nakEffect_outstanding hup hout).trans heff)), (congrArg SLink.replay hlink :),
        (congrArg SLink.retry hlink :), nat_count_seam_self _ 1 hn (by decide)⟩
    case eighth =>
      obtain ⟨u, heff⟩ := startReplay_eighth (Reg.seamEvcRetry n) h8
      exact ⟨_, (hnak he).trans (congrArg _ ((nakEffect_outstanding hup hout).trans heff)), linkDown_linkState u n⟩
    case timeout =>
      have hat : (s.atCycle (l.ackAt + 2048)).link n = s.link n := atCycle_link s _ n
      obtain ⟨k, heff⟩ := startReplay_starts (s := s.atCycle (l.ackAt + 2048)) (Reg.seamEvcTimeout n) (by rw [hat]; exact h8)
      have hlink := setLink_link_self (s.atCycle (l.ackAt + 2048)) n ((s.atCycle (l.ackAt + 2048)).replayLink n f.1 k)
      refine ⟨_, htime.trans (congrArg _ ((retryTimeoutEffect_oldest hup hretry).trans heff)),
        (congrArg SLink.replay hlink).trans ?_, state_atCycle_now s _ hack,
        (nat_count_seam_self _ 1 hn (by decide)).trans (congrArg (fun r => min _ (Regs.nat r _ + 1)) (atCycle_regs s _))⟩
      rw [State.replayLink, hat]
      simp [show (s.link n).retry = f :: rest from hretry]

end

section
/-! SUPPORT. Frames that arrive on a Seam link: what each is counted in, what a discarded one changes, and what an accepted
one leaves as it is (09_seam_links, R302 to R306, R310, R318). -/

namespace Sys2Proof.Machine

/-! ### What every frame is counted in (R302, R310) -/

/-- A frame that arrived, its codewords and symbols counted and its time in the elastic buffer noted. -/
def State.frameNoted (s : State) (n bad corrected : Nat) : State :=
  State.elastic { s with
    regs := Regs.count64 (Regs.count s.regs (Reg.seamEvcUncorr n) bad) (Reg.seamSymerrLo n) corrected } n

/-- The elastic buffer takes at most a free value and counts at most a late frame. -/
theorem elastic_late (s : State) (n : Nat) :
    ∃ m f, s.elastic n = { s with free := f, regs := Regs.count s.regs (Reg.seamEvcLate n) m } := by
  unfold State.elastic
  split
  · exact ⟨0, s.free, rfl⟩
  · exact ⟨_, _, rfl⟩

theorem frameNoted_frame (s : State) (n bad corrected : Nat) :
    let t := s.frameNoted n bad corrected
    t = { s with free := t.free, regs := t.regs } := by
  obtain ⟨m, f, e⟩ := elastic_late { s with
    regs := Regs.count64 (Regs.count s.regs (Reg.seamEvcUncorr n) bad) (Reg.seamSymerrLo n) corrected } n
  rw [State.frameNoted, e]

theorem frameNoted_link (s : State) (n bad corrected k : Nat) : (s.frameNoted n bad corrected).link k = s.link k := by
  rw [frameNoted_frame s n bad corrected]
  rfl

/-- Registers of the link that count neither codewords, symbols nor late frames read as before. -/
theorem frameNoted_reg (s : State) {n : Nat} (hn : n < 36) (bad corrected : Nat) {a : Nat}
    (h : a ≠ 0x100124 ∧ a ≠ 0x100110 ∧ a ≠ 0x100040 ∧ a ≠ 0x100044 ∧ a ≠ 0x10014C) :
    (s.frameNoted n bad corrected).reg (a + 0x1000 * n) = s.reg (a + 0x1000 * n) := by
  obtain ⟨hlate, huncorr, hlo, hhi, hsat⟩ := h
  obtain ⟨m, f, e⟩ := elastic_late { s with
    regs := Regs.count64 (Regs.count s.regs (Reg.seamEvcUncorr n) bad) (Reg.seamSymerrLo n) corrected } n
  rw [State.frameNoted, e]
  exact (nat_count_seam_ne _ m hn ⟨by decide, hlate, hsat⟩).trans ((nat_count64_seam_ne _ corrected n ⟨hlo, hhi⟩).trans
    (nat_count_seam_ne _ bad hn ⟨by decide, huncorr, hsat⟩))

/-- Uncorrectable codewords are counted. -/
theorem frameNoted_uncorr (s : State) {n : Nat} (hn : n < 36) (bad corrected : Nat) :
    (s.frameNoted n bad corrected).reg (Reg.seamEvcUncorr n) = min 0xFFFFFFFF (s.reg (Reg.seamEvcUncorr n) + bad) := by
  obtain ⟨m, f, e⟩ := elastic_late { s with
    regs := Regs.count64 (Regs.count s.regs (Reg.seamEvcUncorr n) bad) (Reg.seamSymerrLo n) corrected } n
  rw [State.frameNoted, e]
  exact (nat_count_seam_ne _ m hn (by decide)).trans ((nat_count64_seam_ne _ corrected n (by decide)).trans
    (nat_count_seam_self _ bad hn (by decide)))

/-! ### NAKs (R302, R303) -/

/-- One NAK of the expected number goes out unless one has. -/
theorem nakOnce_link (s : State) (n : Nat) : (s.nakOnce n).link n = { s.link n with
    nakSent := true
    linkOut := (s.link n).linkOut ++ if (s.link n).nakSent then [] else [.nak (s.reg (Reg.seamRxseq n))] } := by
  unfold State.nakOnce
  dsimp only
  split
  next h => rw [List.append_nil, ← h]
  next => exact setLink_link_self s n _

/-- It changes the links alone. -/
theorem nakOnce_frame (s : State) (n : Nat) :
    let t := s.nakOnce n
    t = { s with seam := { s.seam with links := t.seam.links } } := by
  unfold State.nakOnce
  dsimp only
  split <;> rfl

/-- A frame that is noted and then discarded, with a NAK unless one has gone. -/
theorem nakOnce_discards {s u : State} {n : Nat} (hu : u = { s with free := u.free, regs := u.regs })
    (hrx : u.reg (Reg.seamRxseq n) = s.reg (Reg.seamRxseq n)) :
    let t := u.nakOnce n
    t = { s with regs := t.regs, seam := t.seam, free := t.free } ∧ t.regs = u.regs ∧ t.seam.inbox = s.seam.inbox ∧
      (t.link n).linkOut = (s.link n).linkOut ++ (if (s.link n).nakSent then [] else [.nak (s.reg (Reg.seamRxseq n))]) := by
  have hseam : u.seam = s.seam := (congrArg State.seam hu :)
  have hlink : u.link n = s.link n := congrArg (fun x : Seam => (Tbl.get {} x.links n : SLink)) hseam
  have hframe := nakOnce_frame u n
  have hnak := congrArg SLink.linkOut (nakOnce_link u n)
  dsimp only at hframe ⊢
  refine ⟨?_, (congrArg State.regs hframe :), ?_, ?_⟩
  · rw [hframe, hu]
  · exact (congrArg (·.seam.inbox) hframe :).trans (congrArg Seam.inbox hseam :)
  · rw [hlink, hrx] at hnak
    exact hnak

/-! ### Damaged frames (R302) -/

/-- The CRC that a frame carries is that of its header and payload (R300). -/
def frameCrcOk (header : BitVec 80) (payload : List Byte) : Prop :=
  crc16 (leBytes 8 (header.toNat % 2 ^ 64) ++ pad256 payload) = bits header.toNat 64 16

section Arrives
variable {s : State} {n : Nat} (hup : s.linkUp n = true) (hiso : s.isolated (linkUnit n) = false)
  (header : BitVec 80) (payload : List Byte)
include hup hiso

theorem frameReceiveEffect_uncorrectable {bad : Nat} (hbad : bad ≠ 0) (corrected : Nat) :
    frameReceiveEffect n header payload bad corrected s = (s.frameNoted n bad corrected).nakOnce n :=
  (if_neg (by rw [hup, hiso]; decide)).trans (if_pos hbad)

theorem frameReceiveEffect_wrongCrc (hcrc : ¬ frameCrcOk header payload) (corrected : Nat) :
    frameReceiveEffect n header payload 0 corrected s =
      ((s.frameNoted n 0 corrected).count (Reg.seamEvcCrc n)).nakOnce n :=
  (if_neg (by rw [hup, hiso]; decide)).trans ((if_neg (by decide)).trans (if_pos (bne_iff_ne.2 hcrc)))

end Arrives

end Sys2Proof.Machine
end

section
open Sys2Proof Sys2Proof.Machine

/-- Settles O34: it holds. A damaged frame is noted (`frameNoted`), counted for its CRC if that alone is wrong, and answered
by one NAK (`nakOnce_link`). -/
theorem damagedFramesAreDiscarded : Obligations.DamagedFramesAreDiscarded := by
  unfold Obligations.DamagedFramesAreDiscarded
  intro n header payload bad corrected s hr hw hup hiso h crc hdamaged
  have hform : n < 36 ∧ payload.length ≤ 256 := of_decide_eq_true hw
  obtain ⟨hn, -⟩ := hform
  have hexec := exec_running hr hw rfl
  have hnoted := frameNoted_frame s n bad corrected
  have hrx := frameNoted_reg s hn bad corrected (a := 0x100028) (by decide)
  have huncorr := frameNoted_uncorr s hn bad corrected
  by_cases hbad : bad = 0
  · subst hbad
    have hcrc : ¬ frameCrcOk header payload := hdamaged.resolve_left fun hne => hne rfl
    have hcount {a : Nat} (ha : a ≠ 0x100114 ∧ a ≠ 0x10014C) :
        ((s.frameNoted n 0 corrected).count (Reg.seamEvcCrc n)).reg (a + 0x1000 * n) =
          (s.frameNoted n 0 corrected).reg (a + 0x1000 * n) := nat_count_seam_ne _ 1 hn ⟨by decide, ha⟩
    have hkept : (s.frameNoted n 0 corrected).count (Reg.seamEvcCrc n) =
        { s with free := (s.frameNoted n 0 corrected).free, regs := ((s.frameNoted n 0 corrected).count (Reg.seamEvcCrc n)).regs } :=
      congrArg (State.count · (Reg.seamEvcCrc n)) hnoted
    obtain ⟨hframe, hregs, hinbox, hout⟩ := nakOnce_discards hkept ((hcount (by decide)).trans hrx)
    have hreg (a : Nat) := congrArg (Regs.nat · (a + 0x1000 * n)) hregs
    refine ⟨_, hexec.trans (congrArg _ (frameReceiveEffect_wrongCrc hup hiso header payload hcrc corrected)), hframe,
      (hreg 0x100028).trans ((hcount (by decide)).trans hrx), hinbox, hout,
      (hreg 0x100110).trans ((hcount (by decide)).trans huncorr), fun _ => ?_⟩
    refine (hreg 0x100114).trans ((nat_count_seam_self _ 1 hn (by decide)).trans (congrArg (min _ <| · + 1) ?_))
    exact frameNoted_reg s hn 0 corrected (a := 0x100114) (by decide)
  · obtain ⟨hframe, hregs, hinbox, hout⟩ := nakOnce_discards hnoted hrx
    have hreg (a : Nat) := congrArg (Regs.nat · (a + 0x1000 * n)) hregs
    exact ⟨_, hexec.trans (congrArg _ (frameReceiveEffect_uncorrectable hup hiso header payload hbad corrected)), hframe,
      (hreg 0x100028).trans hrx, hinbox, hout, (hreg 0x100110).trans huncorr, fun h0 => absurd h0 hbad⟩

end

section
/-! SUPPORT. Undamaged frames: what they acknowledge, and how their number decides (09_seam_links, R302 to R306, R318). -/

namespace Sys2Proof.Machine

/-! ### What every undamaged frame brings (R304, R305) -/

/-- An undamaged frame whose acknowledgement and link credits have been taken. -/
def State.frameHeard (s : State) (n h : Nat) : State :=
  let u := s.acknowledge n (bits h 48 16)
  u.setLink n { u.link n with cred := bump (u.link n).cred (bits h 40 2) (· + bits h 42 6) }

/-- What it leaves alone: all but the retry buffer, the credits and `SEAM_TXACK`. -/
structure Heard (n : Nat) (s t : State) : Prop where
  frame : t = { s with regs := t.regs, seam := { s.seam with links := t.seam.links } }
  nakSent : (t.link n).nakSent = (s.link n).nakSent
  linkOut : (t.link n).linkOut = (s.link n).linkOut
  regs : ∀ a, a ≠ 0x100024 → t.reg (a + 0x1000 * n) = s.reg (a + 0x1000 * n)

theorem acknowledge_heard (s : State) (n ackl : Nat) : Heard n s (s.acknowledge n ackl) := by
  unfold State.acknowledge
  dsimp only
  split
  case h_1 => exact ⟨rfl, rfl, rfl, fun _ _ => rfl⟩
  case h_2 f _ =>
    have hlink := setLink_link_self s n { s.link n with
      retry := ((s.link n).retry.dropWhile fun g => g.1 != f.1).drop 1, ackAt := s.now
      replayFrom := (s.link n).replayFrom.filter fun e =>
        (((s.link n).retry.dropWhile fun g => g.1 != f.1).drop 1).any fun x => x.1 == e
      replay := (s.link n).replay.filter fun g =>
        (((s.link n).retry.dropWhile fun g => g.1 != f.1).drop 1).any fun x => x.1 == g.1 }
    exact ⟨rfl, (congrArg SLink.nakSent hlink :), (congrArg SLink.linkOut hlink :),
      fun a ha => state_put_reg_ne _ _ _ _ (linkReg_ne n ha)⟩

theorem frameHeard_heard (s : State) (n h : Nat) : Heard n s (s.frameHeard n h) := by
  obtain ⟨hframe, hnak, hout, hregs⟩ := acknowledge_heard s n (bits h 48 16)
  have hlink := setLink_link_self (s.acknowledge n (bits h 48 16)) n { (s.acknowledge n (bits h 48 16)).link n with
    cred := bump ((s.acknowledge n (bits h 48 16)).link n).cred (bits h 40 2) (· + bits h 42 6) }
  refine ⟨?_, (congrArg SLink.nakSent hlink :).trans hnak, (congrArg SLink.linkOut hlink :).trans hout, hregs⟩
  unfold State.frameHeard
  rw [hframe]
  rfl

/-! ### What an accepted frame leaves as it is (R303) -/

/-- The expected number of link `n` and whether a NAK of it has gone are in `t` as in `s`. -/
def SameExpected (n : Nat) (s t : State) : Prop :=
  t.reg (Reg.seamRxseq n) = s.reg (Reg.seamRxseq n) ∧ (t.link n).nakSent = (s.link n).nakSent

theorem SameExpected.trans {n : Nat} {s t u : State} (h : SameExpected n s t) (g : SameExpected n t u) :
    SameExpected n s u := ⟨g.1.trans h.1, g.2.trans h.2⟩

/-- A link written that keeps whether its NAK has gone. -/
theorem setLink_expected (s : State) (n k : Nat) {l : SLink} (h : l.nakSent = (s.link k).nakSent) :
    SameExpected n s (s.setLink k l) := by
  refine ⟨rfl, ?_⟩
  by_cases hk : n = k
  · subst hk
    rw [setLink_link_self, h]
  · rw [setLink_link_ne _ _ hk]

theorem freeRx_expected (s : State) (n k vc : Nat) : SameExpected n s (s.freeRx k vc) := setLink_expected s n k rfl

theorem freeRx_if_expected (c : Prop) [Decidable c] (s : State) (n k vc : Nat) :
    SameExpected n s (if c then s.freeRx k vc else s) := by
  split
  · exact freeRx_expected s n k vc
  · exact ⟨rfl, rfl⟩

theorem forward_expected (s : State) (n k : Nat) (links : List Nat) (f : SFrame) (key : Nat) (last multicast : Bool) :
    SameExpected n s (s.forward k links f key last multicast) :=
  List.foldlRecOn (motive := SameExpected n s) links _ ⟨rfl, rfl⟩ fun t ht j _ => ht.trans (setLink_expected t n j rfl)

theorem crossBeat_expected (s : State) (n : Nat) (link : Option Nat) (b : Beat) : SameExpected n s (s.crossBeat link b) := by
  cases link with
  | none => exact ⟨rfl, rfl⟩
  | some k => exact ⟨rfl, rfl⟩

/-- A frame dropped is counted at most. -/
theorem count_rxdrop_expected (s : State) {n : Nat} (hn : n < 36) : SameExpected n s (s.count (Reg.seamEvcRxdrop n)) :=
  ⟨nat_count_seam_ne _ 1 hn (by decide), rfl⟩

theorem beginMessage_expected (s : State) (n : Nat) (f : SFrame) : SameExpected n s (s.beginMessage n f) := by
  have hset (a : Arriving) (k : Nat) : SameExpected n s
      { s.setLink n { s.link n with arriving := (s.link n).arriving.set f.vc a } with
        seam := { (s.setLink n { s.link n with arriving := (s.link n).arriving.set f.vc a }).seam with nextKey := k } } :=
    setLink_expected s n n rfl
  exact ((hset _ _).trans (forward_expected _ _ _ _ _ _ _ _)).trans (freeRx_if_expected _ _ _ _ _)

theorem dataFrame_expected (s : State) {n : Nat} (hn : n < 36) (f : SFrame) : SameExpected n s (s.dataFrame n f) := by
  unfold State.dataFrame
  dsimp only
  split
  case h_1 => exact (count_rxdrop_expected s hn).trans (freeRx_expected _ _ _ _)
  case h_2 =>
    split
    · exact ((setLink_expected s n n (by rfl)).trans (forward_expected _ _ _ _ _ _ _ _)).trans (crossBeat_expected _ _ _ _)
    · exact ((setLink_expected s n n (by rfl)).trans (forward_expected _ _ _ _ _ _ _ _)).trans
        (freeRx_if_expected _ _ _ _ _)

theorem endMessage_expected (s : State) (n vc : Nat) : SameExpected n s (s.endMessage n vc) := by
  unfold State.endMessage
  dsimp only
  split
  case h_1 => exact ⟨rfl, rfl⟩
  case h_2 =>
    have hset := setLink_expected s n n (l := { s.link n with arriving := (s.link n).arriving.erase vc }) rfl
    split
    · exact ⟨rfl, rfl⟩
    · split
      · exact hset
      · exact hset

theorem acceptFrame_expected (s : State) {n : Nat} (hn : n < 36) (f : SFrame) : SameExpected n s (s.acceptFrame n f) := by
  unfold State.acceptFrame
  split
  · exact (count_rxdrop_expected s hn).trans (freeRx_expected _ _ _ _)
  · split
    · exact (beginMessage_expected s n f).trans (endMessage_expected _ _ _)
    · exact (dataFrame_expected s hn f).trans (endMessage_expected _ _ _)

/-! ### The number decides (R303) -/

/-- The link expects the next number, and no NAK of it has gone. -/
def State.expectNext (s : State) (n : Nat) : State :=
  (s.put (Reg.seamRxseq n) ((s.reg (Reg.seamRxseq n) + 1) % 2 ^ 24)).setLink n { s.link n with nakSent := false }

/-- A sequenced frame without error: the distance of its number from the one expected decides. -/
theorem frameReceiveEffect_sequenced {s : State} {n : Nat} (hup : s.linkUp n = true)
    (hiso : s.isolated (linkUnit n) = false) {header : BitVec 80} {payload : List Byte} (hcrc : frameCrcOk header payload)
    (hlo : 2 ≤ bits header.toNat 24 4) (hhi : bits header.toNat 24 4 ≤ 5) {corrected : Nat}
    {u : State} (hu : (s.frameNoted n 0 corrected).frameHeard n header.toNat = u) {e : Nat}
    (he : u.reg (Reg.seamRxseq n) = e) :
    let d := (bits header.toNat 0 24 + 2 ^ 24 - e) % 2 ^ 24
    frameReceiveEffect n header payload 0 corrected s =
      if d = 0 then (u.expectNext n).acceptFrame n
        { ty := bits header.toNat 24 4, vc := bits header.toNat 28 2, dest := bits header.toNat 30 10, payload := pad256 payload }
      else if d < 2 ^ 23 then u.nakOnce n
      else u.count (Reg.seamEvcDup n) := by
  subst hu he
  exact (if_neg (by rw [hup, hiso]; decide)).trans ((if_neg (by decide)).trans ((if_neg fun h => bne_iff_ne.1 h hcrc).trans
    ((if_neg (Nat.not_le.2 hlo)).trans (if_neg (Nat.not_lt.2 hhi)))))

/-- At reset each direction of each link is numbered from 0. -/
theorem reset_sequence : ∀ n < 36, State.reset.reg (Reg.seamTxseq n) = 0 ∧ State.reset.reg (Reg.seamRxseq n) = 0 := by
  decide +kernel

end Sys2Proof.Machine
end

section
open Sys2Proof Sys2Proof.Machine

/-- Settles O33: it holds. A frame that leaves takes the next number (`sendSequenced_txseq`); of one that arrives, what it
acknowledges is taken (`frameHeard`), and the distance of its number decides (`frameReceiveEffect_sequenced`). -/
theorem sequenceNumbersDecideAcceptance : Obligations.SequenceNumbersDecideAcceptance := by
  unfold Obligations.SequenceNumbersDecideAcceptance
  refine ⟨reset_sequence, fun n f s t w hn _ => sendSequenced_txseq s hn t w f, ?_⟩
  intro n header payload corrected s hr hw hup hiso h hcrc hlo hhi hseq e d
  have hform : n < 36 ∧ payload.length ≤ 256 := of_decide_eq_true hw
  obtain ⟨hn, -⟩ := hform
  generalize hu : (s.frameNoted n 0 corrected).frameHeard n header.toNat = u
  have hheard : Heard n (s.frameNoted n 0 corrected) u := hu ▸ frameHeard_heard _ n _
  have hreg {a : Nat} (ha : a ≠ 0x100124 ∧ a ≠ 0x100110 ∧ a ≠ 0x100040 ∧ a ≠ 0x100044 ∧ a ≠ 0x10014C)
      (hack : a ≠ 0x100024) : u.reg (a + 0x1000 * n) = s.reg (a + 0x1000 * n) :=
    (hheard.regs a hack).trans (frameNoted_reg s hn 0 corrected ha)
  have hrx : u.reg (Reg.seamRxseq n) = e := hreg (a := 0x100028) (by decide) (by decide)
  have hlink := frameNoted_link s n 0 corrected n
  have hnak : (u.link n).nakSent = (s.link n).nakSent := hheard.nakSent.trans (congrArg SLink.nakSent hlink)
  have hout : (u.link n).linkOut = (s.link n).linkOut := hheard.linkOut.trans (congrArg SLink.linkOut hlink)
  have hsame : u.seam.inbox = s.seam.inbox ∧ u.hbm = s.hbm ∧ u.tile = s.tile := by
    rw [hheard.frame, frameNoted_frame s n 0 corrected]
    exact ⟨rfl, rfl, rfl⟩
  obtain ⟨hinbox, hhbm, htile⟩ := hsame
  have heff := frameReceiveEffect_sequenced hup hiso hcrc hlo hhi hu hrx
  have hexec := (exec_running hr hw rfl).trans (congrArg _ heff)
  refine ⟨fun h0 => ?accepted, fun h1 hahead => ?ahead, fun hdup => ?duplicate⟩
  case accepted =>
    obtain ⟨hnext, hsent⟩ := acceptFrame_expected (u.expectNext n) hn
      { ty := bits h 24 4, vc := bits h 28 2, dest := bits h 30 10, payload := pad256 payload }
    refine ⟨_, hexec.trans (congrArg _ (if_pos h0)), hnext.trans ?_, hsent.trans ?_⟩
    · rw [← hrx]
      exact state_put_reg_of_lt u _ (by omega)
    · exact congrArg SLink.nakSent (setLink_link_self _ n _)
  case ahead =>
    have hne : ¬ d = 0 := by omega
    have hsmall : d < 2 ^ 23 := by omega
    have hlinkNak := nakOnce_link u n
    have hframe := nakOnce_frame u n
    refine ⟨_, hexec.trans (congrArg _ ((if_neg hne).trans (if_pos hsmall))), ?_, ?_, ?_, ?_, ?_, ?_⟩
    · exact (congrArg (State.reg · (Reg.seamRxseq n)) hframe).trans hrx
    · exact congrArg SLink.nakSent hlinkNak
    · exact (congrArg (·.seam.inbox) hframe).trans hinbox
    · exact (congrArg State.hbm hframe).trans hhbm
    · exact (congrArg State.tile hframe).trans htile
    · rw [hlinkNak, hout, hnak, hrx]
  case duplicate =>
    have hne : ¬ d = 0 := by omega
    have hlarge : ¬ d < 2 ^ 23 := Nat.not_lt.2 hdup
    refine ⟨_, hexec.trans (congrArg _ ((if_neg hne).trans (if_neg hlarge))), ?_, hout, hnak, hinbox, hhbm,
      htile, ?_⟩
    · exact (nat_count_seam_ne _ 1 hn (by decide)).trans hrx
    · exact (nat_count_seam_self _ 1 hn (by decide)).trans
        (congrArg (min _ <| · + 1) (hreg (a := 0x100120) (by decide) (by decide)))

end

section
/-! SUPPORT. Bursts of remote atomic beats that arrive on a Seam link and that leave it (09_seam_links, R318, R319). -/

namespace Sys2Proof.Machine

/-! ### ATOMIC_BURST -/

theorem atomicBurstEffect_off {s : State} (h : s.fld Reg.seamDomCfg 0 1 = 0) (l : Nat) (bs : List Beat) :
    atomicBurstEffect l bs s = s.count (Reg.seamEvcRxdrop l) := if_pos h

theorem atomicBurstEffect_single {s : State} (h : s.fld Reg.seamDomCfg 0 1 = 1) (l : Nat) (b : Beat) :
    atomicBurstEffect l [b] s = s.crossBeat none b := if_neg (by omega)

/-- A beat that crosses changes the partitions alone. -/
theorem crossBeat_part (s : State) (b : Beat) :
    let t := s.crossBeat none b
    t = { s with part := t.part } := rfl

/-- It stands behind the beats at the Seam ingress of its partition, for 28 cycles later. -/
theorem crossBeat_ingress (s : State) (b : Beat) :
    (((s.crossBeat none b).partition (b.part % 8)).ingressAt 32).queue =
      ((s.partition (b.part % 8)).ingressAt 32).queue ++ [(s.now + 28, b)] :=
  congrArg Ingress.queue (setIngress_ingressAt_self s (b.part % 8) 32 _)

theorem crossBeat_partition_ne (s : State) (b : Beat) {p : Nat} (h : p ≠ b.part % 8) :
    (s.crossBeat none b).partition p = s.partition p := setPartition_partition_ne s _ h

/-! ### BURST_CLOSE -/

/-- A run of beats closed on link `n`: the cycle in which it closes, and its link without it. -/
def State.burstTaken (s : State) (n : Nat) : State :=
  let l := s.link n
  let run := burstRun 16 l.beats
  (s.atCycle (burstEnd run (l.beats.drop run.length))).setLink n { l with beats := l.beats.drop run.length }

/-- It leaves as one burst: a header frame, and a frame per beat. -/
theorem burstCloseEffect_closes {s : State} {n : Nat} (h : (s.link n).beats ≠ []) :
    ∃ dest ready hd, burstCloseEffect n s = (s.burstTaken n).sendFrames n 5 2 dest ready false 4
      (hd :: (burstRun 16 (s.link n).beats).map fun y => pad256 (pack 4 (y.2.2.vals.map (·.toNat)))) := by
  obtain ⟨x, rest, hx⟩ := List.exists_cons_of_ne_nil h
  unfold burstCloseEffect
  dsimp only
  split
  case h_1 hnil => exact absurd hnil h
  case h_2 => exact ⟨_, _, _, rfl⟩

theorem burstCloseEffect_none {s : State} {n : Nat} (h : (s.link n).beats = []) : burstCloseEffect n s = s := by
  unfold burstCloseEffect
  dsimp only
  rw [h]

/-- Frames put in a link's egress stand behind those there, one for each payload. -/
theorem sendFrames_link (s : State) (n prio vc dest readyAt : Nat) (cmd : Bool) (ty : Nat) (payloads : List (List Byte)) :
    ∃ fr : List EFrame, fr.length = payloads.length ∧
      (s.sendFrames n prio vc dest readyAt cmd ty payloads).link n = { s.link n with out := (s.link n).out ++ fr } :=
  ⟨_, by rw [List.length_map, List.length_range], setLink_link_self s n _⟩

theorem sendFrames_link_ne (s : State) {n k : Nat} (prio vc dest readyAt : Nat) (cmd : Bool) (ty : Nat)
    (payloads : List (List Byte)) (h : k ≠ n) :
    (s.sendFrames n prio vc dest readyAt cmd ty payloads).link k = s.link k := setLink_link_ne s _ h

theorem burstTaken_frame (s : State) (n : Nat) :
    let t := s.burstTaken n
    t = { s with clk := t.clk, seam := t.seam } := by
  unfold State.burstTaken
  obtain ⟨c, e⟩ := atCycle_clk s (burstEnd (burstRun 16 (s.link n).beats)
    ((s.link n).beats.drop (burstRun 16 (s.link n).beats).length))
  dsimp only
  rw [e]
  rfl

end Sys2Proof.Machine
end

section
open Sys2Proof Sys2Proof.Machine

/-- Settles O39: it holds. A beat that crosses joins the Seam ingress of its partition (`crossBeat_ingress`); a burst that
closes takes its run from the link's beats (`burstTaken`) and puts a frame for each, and one before them, in its egress
(`sendFrames_link`). -/
theorem burstsCarryBeats : Obligations.BurstsCarryBeats := by
  unfold Obligations.BurstsCarryBeats
  refine ⟨fun l b s hr hl => ⟨fun hoff => ?off, fun hon => ?on⟩, fun n s hr hn => ⟨fun hnone => ?none, fun hbeats => ?closes⟩⟩
  case off =>
    exact (exec_running (i := .atomicBurst l [b]) hr (decide_eq_true ⟨hl, by simp⟩) rfl).trans
      (congrArg _ (atomicBurstEffect_off hoff l [b]))
  case on =>
    exact ⟨_, (exec_running (i := .atomicBurst l [b]) hr (decide_eq_true ⟨hl, by simp⟩) rfl).trans
      (congrArg _ (atomicBurstEffect_single hon l b)), crossBeat_part s b, crossBeat_ingress s b,
      fun p hp => crossBeat_partition_ne s b hp⟩
  case none =>
    exact (exec_running (i := .burstClose n) hr (decide_eq_true hn) rfl).trans (congrArg _ (burstCloseEffect_none hnone))
  case closes =>
    obtain ⟨dest, ready, hd, heff⟩ := burstCloseEffect_closes hbeats
    obtain ⟨fr, hlen, hlink⟩ := sendFrames_link (s.burstTaken n) n 5 2 dest ready false 4
      (hd :: (burstRun 16 (s.link n).beats).map fun y => pad256 (pack 4 (y.2.2.vals.map (·.toNat))))
    have htaken : (s.burstTaken n).link n =
        { s.link n with beats := (s.link n).beats.drop (burstRun 16 (s.link n).beats).length } := setLink_link_self _ n _
    rw [htaken] at hlink
    refine ⟨_, (exec_running (i := .burstClose n) hr (decide_eq_true hn) rfl).trans (congrArg _ heff), ?_, ?_, ?_,
      fun k hk => ?_⟩
    · rw [State.sendFrames, burstTaken_frame s n]
      rfl
    · rw [hlink]
    · rw [hlink, List.length_append, hlen, List.length_cons, List.length_map]
      dsimp only
      omega
    · rw [sendFrames_link_ne _ _ _ _ _ _ _ _ hk]
      exact (setLink_link_ne _ _ hk).trans (atCycle_link s _ k)

end

section
/-! SUPPORT. Objects of class D that complete at a partner port (10_outer_sync, R353, R356, R358). -/

namespace Sys2Proof.Machine

/-! ### ANCHOR_OBJECT -/

/-- An object taken out of a port's inbox leaves every register as it is. -/
theorem takeD_fld (s : State) (p : Nat) (o : DObject) (a lo w : Nat) : (s.takeD p o).fld a lo w = s.fld a lo w := rfl

/-- Outer sync that is on is not off once an object is taken. -/
theorem takeD_syncOn {s : State} (h : s.fld Reg.brmCfg 0 1 = 1) (p : Nat) (o : DObject) :
    ¬ (s.takeD p o).fld Reg.brmCfg 0 1 = 0 := by
  rw [takeD_fld, h]
  exact Nat.one_ne_zero

theorem anchorObjectEffect_off {s : State} (h : s.fld Reg.brmCfg 0 1 = 0) (p : Nat) (o : DObject) :
    anchorObjectEffect p o s = s.takeD p o := if_pos h

theorem anchorObjectEffect_on {s : State} (h : s.fld Reg.brmCfg 0 1 = 1) (p : Nat) (o : DObject) :
    anchorObjectEffect p o s = if (s.takeD p o).ownedShards.contains o.shard
      then (s.takeD p o).takeSlices o.count o.shard o.records else (s.takeD p o).count Reg.brmEvcViol := by
  refine (if_neg (takeD_syncOn h p o)).trans ?_
  cases (s.takeD p o).ownedShards.contains o.shard with
  | true => rfl
  | false => rfl

/-! ### DELTA_OBJECT -/

/-- The state with a DELTA object retained and no longer asked for (R356). -/
def State.deltaKept (s : State) (o : DObject) : State :=
  let t : State := { s with brim := { s.brim with
    objects := s.brim.objects.set (objKey o.shard o.round o.site) o
    wanted := s.brim.wanted.filter fun w => !(w.2.1 == o.site && w.2.2.1 == o.shard && w.2.2.2.1 == o.round) } }
  (t.touched o.shard).noteHeld

theorem deltaObjectEffect_off {s : State} (h : s.fld Reg.brmCfg 0 1 = 0) (p : Nat) (o : DObject) :
    deltaObjectEffect p o s = s.takeD p o := if_pos h

theorem deltaObjectEffect_unowned {s : State} {p : Nat} {o : DObject} (h : s.fld Reg.brmCfg 0 1 = 1)
    (hown : (s.takeD p o).ownedShards.contains o.shard = false) :
    deltaObjectEffect p o s = if (s.takeD p o).job.map.any fun e => e.shard == o.shard
      then { s.takeD p o with brim := { (s.takeD p o).brim with
        relay := (s.takeD p o).brim.relay ++ [((s.takeD p o).site, .object o false)] } }
      else (s.takeD p o).count Reg.brmEvcViol :=
  (if_neg (takeD_syncOn h p o)).trans (if_pos (congrArg not hown))

theorem deltaObjectEffect_owned {s : State} {p : Nat} {o : DObject} (h : s.fld Reg.brmCfg 0 1 = 1)
    (hown : (s.takeD p o).ownedShards.contains o.shard = true) :
    deltaObjectEffect p o s = if (s.takeD p o).holds' o.shard o.round o.site
      then (s.takeD p o).count (Reg.brmPEvcDup p) else (s.takeD p o).deltaKept o :=
  (if_neg (takeD_syncOn h p o)).trans (if_neg (ne_true_of_eq_false (congrArg not hown)))

/-- Noting when every included DELTA was held changes that time alone (R350). -/
theorem noteHeld_frame (s : State) : ∃ t, s.noteHeld = { s with brim := { s.brim with heldNs := t } } := by
  unfold State.noteHeld
  dsimp only
  split
  · exact ⟨_, rfl⟩
  · exact ⟨_, rfl⟩

theorem touched_shard_changed (s : State) (x : Nat) : ((s.touched x).shard x).changed = true :=
  congrArg Shard.changed (Tbl.get_set_self _ _ _ _)

theorem deltaKept_holds (s : State) (o : DObject) : (s.deltaKept o).holds' o.shard o.round o.site = true := by
  obtain ⟨t, ht⟩ := noteHeld_frame _
  rw [State.deltaKept, ht]
  exact congrArg Option.isSome (Tbl.get?_set_self _ _ _)

theorem deltaKept_shard_changed (s : State) (o : DObject) : ((s.deltaKept o).shard o.shard).changed = true := by
  obtain ⟨t, ht⟩ := noteHeld_frame _
  rw [State.deltaKept, ht]
  exact touched_shard_changed _ _

/-- A DELTA retained changes Brim's state alone. -/
theorem deltaKept_frame (s : State) (o : DObject) : s.deltaKept o = { s with brim := (s.deltaKept o).brim } := by
  obtain ⟨t, ht⟩ := noteHeld_frame _
  rw [State.deltaKept, ht]
  rfl

end Sys2Proof.Machine
end

section
open Sys2Proof Sys2Proof.Machine

/-- Settles O41: it holds. Each kind of object has one effect with outer sync off (`deltaObjectEffect_off`,
`anchorObjectEffect_off`) and one by its shard's owner with it on (`deltaObjectEffect_owned`, `deltaObjectEffect_unowned`,
`anchorObjectEffect_on`); a DELTA that is new is held afterwards (`deltaKept_holds`) and changes Brim's state alone. -/
theorem objectsAreRetainedOnce : Obligations.ObjectsAreRetainedOnce := by
  unfold Obligations.ObjectsAreRetainedOnce
  intro p o s hr hp hsite s1
  have hform : decide (p < 8 ∧ o.site < 16) = true := decide_eq_true ⟨hp, hsite⟩
  have hdelta : exec (.deltaObject p o) s = .next (deltaObjectEffect p o s) :=
    exec_running (i := .deltaObject p o) hr hform rfl
  have hanchor : exec (.anchorObject p o) s = .next (anchorObjectEffect p o s) :=
    exec_running (i := .anchorObject p o) hr hform rfl
  refine ⟨fun hoff => ⟨?deltaOff, ?anchorOff⟩, fun hon hown hheld => ?duplicate, fun hon hown hnew => ?retained,
    fun hon hother => ?notOwned, fun hon hother => ?anchorNotOwned, fun hon hown => ?slices⟩
  case deltaOff => rw [hdelta, deltaObjectEffect_off hoff]
  case anchorOff => rw [hanchor, anchorObjectEffect_off hoff]
  case duplicate => rw [hdelta, deltaObjectEffect_owned hon hown, if_pos hheld]
  case retained =>
    have heff : deltaObjectEffect p o s = s1.deltaKept o :=
      (deltaObjectEffect_owned hon hown).trans (if_neg (ne_true_of_eq_false hnew))
    refine ⟨s1.deltaKept o, heff ▸ hdelta, deltaKept_holds s1 o, deltaKept_shard_changed s1 o, ?_⟩
    rw [deltaKept_frame]
    exact ⟨rfl, rfl, rfl⟩
  case notOwned => rw [hdelta, deltaObjectEffect_unowned hon hother]
  case anchorNotOwned => rw [hanchor, anchorObjectEffect_on hon, if_neg (ne_true_of_eq_false hother)]
  case slices => rw [hanchor, anchorObjectEffect_on hon, if_pos hown]

end

section
/-! SUPPORT. What the Ethernet ports do with a frame of their MAC and with a change of their link (11_partner_ports, R361,
R362; 13_host_ports_and_images, R425, R427). -/

namespace Sys2Proof.Machine

/-! ### Frames of the MAC (R362) -/

/-- The guard of every effect at a partner port lets through a port that carries traffic (R361). -/
theorem portRuns_acts {s : State} {p : Nat} (h : s.portRuns p = true) (a b : State) :
    (if !s.portRuns p then a else b) = b := by
  rw [h]
  rfl

theorem neighborSolicitationEffect_answered {s : State} {p : Nat} {a : BitVec 128} (h : s.portRuns p = true)
    (hown : ((s.routes p).any fun r => routeAddr r 0 == a.toNat) = true) : neighborSolicitationEffect p a s =
      s.setPport p { s.pport p with answers := (s.pport p).answers ++ [(135, a.toNat, [])] } :=
  (portRuns_acts h _ _).trans (if_pos hown)

theorem neighborSolicitationEffect_dropped {s : State} {p : Nat} {a : BitVec 128} (h : s.portRuns p = true)
    (hother : ((s.routes p).any fun r => routeAddr r 0 == a.toNat) = false) :
    neighborSolicitationEffect p a s = s.count (Reg.brmPEvcRxdrop p) :=
  (portRuns_acts h _ _).trans (if_neg (ne_true_of_eq_false hother))

theorem echoRequestEffect_answered {s : State} {p : Nat} (h : s.portRuns p = true) (a : BitVec 128) (d : List Byte) :
    echoRequestEffect p a d s =
      s.setPport p { s.pport p with answers := (s.pport p).answers ++ [(128, a.toNat, d)] } :=
  portRuns_acts h _ _

/-- The route gives no next-hop MAC address, and the address it sends to is `a`: its first SID, where it has any, or its
destination (R362, R363). -/
def asksFor (a : BitVec 128) (r : List Byte) : Bool :=
  fieldAt r 48 6 == 0 && routeAddr r (if fieldAt r 41 1 = 0 then 16 else 56) == a.toNat

/-- The numbers of a port's routes that an advertisement of the address resolves. -/
def State.routesAsking (s : State) (p : Nat) (a : BitVec 128) : List Nat :=
  (List.range (s.routes p).length).filter fun q => asksFor a ((s.routes p).getD q [])

theorem routesAsking_of_none {s : State} {p : Nat} (h : s.routes p = []) (a : BitVec 128) :
    s.routesAsking p a = [] := by
  rw [State.routesAsking, h]
  rfl

theorem routesAsking_of_single {s : State} {p : Nat} {a : BitVec 128} {r : List Byte} (h : s.routes p = [r])
    (hr : asksFor a r = true) : s.routesAsking p a = [0] := by
  rw [State.routesAsking, h]
  exact List.filter_cons_of_pos hr

theorem neighborAdvertisementEffect_dropped {s : State} {p : Nat} {a : BitVec 128} (h : s.portRuns p = true)
    (hnone : s.routesAsking p a = []) (mac : BitVec 48) :
    neighborAdvertisementEffect p a mac s = s.count (Reg.brmPEvcRxdrop p) :=
  (portRuns_acts h _ _).trans (if_pos (congrArg List.isEmpty hnone))

/-- An advertisement that some route asks for gives each of these its MAC address. -/
theorem neighborAdvertisementEffect_resolves {s : State} {p q : Nat} {qs : List Nat} {a : BitVec 128}
    (h : s.portRuns p = true) (hasks : s.routesAsking p a = q :: qs) (mac : BitVec 48) :
    neighborAdvertisementEffect p a mac s = s.setPport p { s.pport p with
      macs := (q :: qs).foldl (fun t n => t.set n mac.toNat) (s.pport p).macs } := by
  rw [← hasks]
  exact (portRuns_acts h _ _).trans (if_neg (ne_true_of_eq_false (congrArg List.isEmpty hasks)))

/-! ### PAUSE (R362, R427) -/

theorem macPauseEffect_partner {s : State} {p : Nat} (hp : p < 8) (h : s.portRuns p = true) :
    macPauseEffect p s = s.count (Reg.brmPEvcMacpause p) :=
  (if_pos hp).trans (if_pos h)

theorem macPauseEffect_host {s : State} {h : Nat} (hh : h < 4) (hup : s.fld (Reg.hptHStatus h) 0 1 = 1) :
    macPauseEffect (8 + h) s = s.count (Reg.hptHEvcRxdrop h) := by
  rw [macPauseEffect, if_neg (by omega), Nat.add_sub_cancel_left, if_pos ⟨by omega, hup⟩]

/-! ### Links that drop and come up (R361, R425, R432) -/

theorem hostPortLinkDownEffect_drops {s : State} {h : Nat} (hh : h < 4) (hup : s.fld (Reg.hptHStatus h) 0 1 = 1) :
    hostPortLinkDownEffect h s = (s.putFld (Reg.hptHStatus h) 0 1 0).count (Reg.hptHEvcLinkdown h) :=
  if_neg fun hoff => hoff.elim (Nat.not_le_of_lt hh) fun hdown => Nat.zero_ne_one (hdown.symm.trans hup)

theorem hostPortLinkDownEffect_idle {s : State} {h : Nat} (hdown : s.fld (Reg.hptHStatus h) 0 1 = 0) :
    hostPortLinkDownEffect h s = s := if_pos (Or.inr hdown)

/-- A host port's link that drops shows it, is counted, and takes PTP with it where no time port is left. -/
theorem hostLinkDown_drops {s : State} {h : Nat} (hh : h < 4) (hup : s.fld (Reg.hptHStatus h) 0 1 = 1) :
    hostLinkDown h s =
      (let u := (s.putFld (Reg.hptHStatus h) 0 1 0).count (Reg.hptHEvcLinkdown h)
       if u.timePort.isNone then u.loseLock else u) := by
  rw [hostLinkDown, hostPortLinkDownEffect_drops hh hup]

/-- A host port whose link is down already changes nothing while another serves as the time port. -/
theorem hostLinkDown_idle {s : State} {h : Nat} (hdown : s.fld (Reg.hptHStatus h) 0 1 = 0) (ht : s.timePort ≠ none) :
    hostLinkDown h s = s := by
  rw [hostLinkDown, hostPortLinkDownEffect_idle hdown]
  exact if_neg fun hnone => ht (Option.isNone_iff_eq_none.mp hnone)

theorem portLinkUpEffect_host {s : State} {h : Nat} (hh : h < 4) (hi : s.isolated (0x1E0 + h) = false) :
    portLinkUpEffect (0x1E0 + h) s = s.putFld (Reg.hptHStatus h) 0 1 1 := by
  rw [portLinkUpEffect, if_neg (ne_true_of_eq_false hi), if_neg (by omega), if_pos (by omega),
    Nat.add_sub_cancel_left]

theorem portLinkUpEffect_partner {s : State} {p : Nat} (hp : p < 8) (hi : s.isolated (0x1E8 + p) = false) :
    portLinkUpEffect (0x1E8 + p) s =
      if s.fld (Reg.brmPCfg p) 0 1 = 1 then s.putFld (Reg.brmPStatus p) 0 1 1 else s := by
  rw [portLinkUpEffect, if_neg (ne_true_of_eq_false hi), if_pos (by omega), Nat.add_sub_cancel_left]

theorem wellFormed_portLinkUp_host {h : Nat} (hh : h < 4) : wellFormed (.portLinkUp (0x1E0 + h)) = true := by
  simp only [wellFormed, Bool.or_eq_true, decide_eq_true_eq]
  omega

theorem wellFormed_portLinkUp_partner {p : Nat} (hp : p < 8) : wellFormed (.portLinkUp (0x1E8 + p)) = true := by
  simp only [wellFormed, Bool.or_eq_true, decide_eq_true_eq]
  omega

end Sys2Proof.Machine
end

section
open Sys2Proof Sys2Proof.Machine

/-- Settles O44: it holds. A partner port that carries traffic answers, drops or learns by what its routes hold
(`neighborSolicitationEffect_answered`, `neighborAdvertisementEffect_resolves`); PAUSE is one count at either kind of
port; a link that comes up or drops is one write of its port's status, and a host port's that drops may lose PTP
(`hostLinkDown_drops`). -/
theorem neighbourAndLinkEvents : Obligations.NeighbourAndLinkEvents := by
  unfold Obligations.NeighbourAndLinkEvents
  refine ⟨fun p a mac d s hr hp hruns => ?frames, fun h s hr hh => ?hostPort, fun p s hr hp hi => ?partnerPort⟩
  case frames =>
    have hform : decide (p < 8) = true := decide_eq_true hp
    have hsolicit : exec (.neighborSolicitation p a) s = .next (neighborSolicitationEffect p a s) :=
      exec_running (i := .neighborSolicitation p a) hr hform rfl
    have hadvert : exec (.neighborAdvertisement p a mac) s = .next (neighborAdvertisementEffect p a mac s) :=
      exec_running (i := .neighborAdvertisement p a mac) hr hform rfl
    refine ⟨fun hown => ?own, fun hother => ?other, ?echo, fun hnone => ?noRoute,
      fun r hroute hmac haddr => ?route, ?pause⟩
    case own => rw [hsolicit, neighborSolicitationEffect_answered hruns hown]
    case other => rw [hsolicit, neighborSolicitationEffect_dropped hruns hother]
    case echo =>
      rw [exec_running (i := .echoRequest p a d) hr hform rfl, echoRequestEffect_answered hruns]
    case noRoute => rw [hadvert, neighborAdvertisementEffect_dropped hruns (routesAsking_of_none hnone a)]
    case route =>
      have hasks : asksFor a r = true := Bool.and_eq_true_iff.mpr ⟨beq_iff_eq.mpr hmac, beq_iff_eq.mpr haddr⟩
      rw [hadvert, neighborAdvertisementEffect_resolves hruns (routesAsking_of_single hroute hasks)]
      rfl
    case pause =>
      rw [exec_running (i := .macPause p) hr (decide_eq_true (by omega)) rfl, macPauseEffect_partner hp hruns]
  case hostPort =>
    have hdrop : exec (.hostPortLinkDown h) s = .next (hostLinkDown h s) :=
      exec_running (i := .hostPortLinkDown h) hr (decide_eq_true hh) rfl
    refine ⟨fun hup => ⟨?pause, ?down⟩, fun hdown ht => ?idle, fun hi => ?up⟩
    case pause =>
      rw [exec_running (i := .macPause (8 + h)) hr (decide_eq_true (by omega)) rfl, macPauseEffect_host hh hup]
    case down => rw [hdrop, hostLinkDown_drops hh hup]
    case idle => rw [hdrop, hostLinkDown_idle hdown ht]
    case up => rw [exec_running hr (wellFormed_portLinkUp_host hh) rfl, portLinkUpEffect_host hh hi]
  case partnerPort =>
    have hexec := exec_running hr (wellFormed_portLinkUp_partner hp) rfl
    rw [hexec, portLinkUpEffect_partner hp hi]
    exact ⟨fun hon => congrArg _ (if_pos hon),
      fun hoff => congrArg _ (if_neg fun hon => Nat.zero_ne_one (hoff.symm.trans hon))⟩

end

section
/-! SUPPORT. The four ways in which a command comes to its effect: in the core domain, in the always-on domain, as an access
to the control window, or at the pins (R474, R491, R525); and what no effect does to the queue and the fuses (R401, R416). -/

namespace Sys2Proof.Machine

/-- The commands of the pins and of the JTAG port, which act while PORST_N is asserted (R474). -/
def atPins : Instr → Bool
  | .jtagInstruction _ | .porstNRelease _ | .porstNAssert | .resetNAssert | .pwrgoodFall => true
  | _ => false

/-- The waiting commands stay, and what is blown stays blown. -/
def KeepsQueueAndFuses (s t : State) : Prop := t.pending = s.pending ∧ FusesHold s t

theorem KeepsQueueAndFuses.refl (s : State) : KeepsQueueAndFuses s s := ⟨rfl, .of_eq rfl⟩

theorem keepsQueueAndFuses_of_kept {s t : State} (h : t.pending = s.pending ∧ t.fuses = s.fuses) :
    KeepsQueueAndFuses s t := ⟨h.1, .of_eq h.2⟩

/-- How a command comes to its effect in a state. -/
inductive ExecForm (c : Instr) (s : State) : Prop
  | core {f : State → State} (he : exec c s = .next (s.inCore c f)) (hk : ∀ u, KeepsQueueAndFuses u (f u))
  | alwaysOn {f : State → State} (he : exec c s = .next (s.inAlwaysOn c f)) (hd : c.inCoreDomain = false)
      (hk : ∀ u, KeepsQueueAndFuses u (f u))
  | write {m : Master} {a z v : Nat} (he : exec c s = .next (s.inWindow c fun s => s.writeAccess m a z v))
      (hd : c.inCoreDomain = false)
  | read {m : Master} {a z : Nat} (he : exec c s = .next (s.inWindow c fun s => s.readAccess m a z))
      (hd : c.inCoreDomain = false)
  | pin {f : State → State} (he : exec c s = .next (s.inWindow c f)) (hd : c.inCoreDomain = false)
      (hp : atPins c = true) (hk : ∀ u, KeepsQueueAndFuses u (f u))

section
variable {c : Instr} {s : State} {f : State → State}

theorem ExecForm.ofCore (he : exec c s = .next (s.inCore c f))
    (hk : ∀ u, (f u).pending = u.pending ∧ (f u).fuses = u.fuses) : ExecForm c s :=
  .core he fun u => keepsQueueAndFuses_of_kept (hk u)

theorem ExecForm.ofAlwaysOn (he : exec c s = .next (s.inAlwaysOn c f)) (hd : c.inCoreDomain = false)
    (hk : ∀ u, (f u).pending = u.pending ∧ (f u).fuses = u.fuses) : ExecForm c s :=
  .alwaysOn he hd fun u => keepsQueueAndFuses_of_kept (hk u)

theorem ExecForm.ofPin (he : exec c s = .next (s.inWindow c f)) (hd : c.inCoreDomain = false) (hp : atPins c = true)
    (hk : ∀ u, (f u).pending = u.pending ∧ (f u).fuses = u.fuses) : ExecForm c s :=
  .pin he hd hp fun u => keepsQueueAndFuses_of_kept (hk u)

end

/-- Every command comes to its effect in one of these ways, and none takes a waiting command or unblows a fuse. -/
theorem exec_form (c : Instr) (s : State) : ExecForm c s := by
  cases c with
  | commandIssue => exact .ofCore rfl (streamIssueEffect_kept _)
  | prod => exact .ofCore rfl (prodEffect_kept _)
  | tileStart => exact .ofCore rfl (tileStartEffect_kept _)
  | promotion => exact .ofCore rfl (promotionEffect_kept _)
  | drain => exact .ofCore rfl (drainEffect_kept _ _)
  | accumulatorSwap => exact .ofCore rfl (swapEffect_kept _)
  | slotBeatSend => exact .ofCore rfl (slotBeatSendEffect_kept _)
  | rowred => exact .ofCore rfl (rowIssue_kept _ _ _)
  | rowew => exact .ofCore rfl (rowIssue_kept _ _ _)
  | rowfn => exact .ofCore rfl (rowIssue_kept _ _ _)
  | rblk => exact .ofCore rfl (rowIssue_kept _ _ _)
  | tblld => exact .ofCore rfl (rowIssue_kept _ _ _)
  | rowCommandStart => exact .ofCore rfl (rowCommandStartEffect_kept _)
  | stash => exact .ofCore rfl (lnrIssue_kept _ _ _)
  | unstash => exact .ofCore rfl (lnrIssue_kept _ _ _)
  | sreset => exact .ofCore rfl (lnrIssue_kept _ _ _)
  | linerCommandStart => exact .ofCore rfl (linerCommandStartEffect_kept _)
  | send => exact .ofCore rfl (seamIssue_kept _ _)
  | write => exact .ofCore rfl (seamIssue_kept _ _)
  | mcast => exact .ofCore rfl (seamIssue_kept _ _)
  | post => exact .ofCore rfl (seamIssue_kept _ _)
  | start => exact .ofCore rfl (startEffect_kept _ _)
  | nop => exact .ofCore rfl (nopEffect_kept _)
  | advance => exact .ofCore rfl (advanceEffect_kept _ _)
  | slack => exact .ofCore rfl (slackEffect_kept _ _)
  | waitcue => exact .ofCore rfl (waitcueEffect_kept _ _)
  | postcue => exact .ofCore rfl (postcueEffect_kept _)
  | sleep => exact .ofCore rfl (sleepEffect_kept _)
  | unitGate => exact .ofCore rfl (unitGateEffect_kept _)
  | wakeStart => exact .ofCore rfl (wakeStartEffect_kept _)
  | wakeComplete => exact .ofCore rfl (wakeCompleteEffect_kept _)
  | qbound => exact .ofCore rfl (qboundEffect_kept _ _)
  | qwait => exact .ofCore rfl (qwaitEffect_kept _ _)
  | qfree => exact .ofCore rfl (qfreeEffect_kept _)
  | bgslot => exact .ofCore rfl (bgslotEffect_kept _ _)
  | bgslotClose => exact .ofCore rfl bgslotCloseEffect_kept
  | expand => exact .ofCore rfl (expandEffect_kept _ _)
  | stepend => exact .ofCore rfl (streamEndEffect_kept _ _)
  | zcIssue => exact .ofCore rfl (zcIssueEffect_kept _ _)
  | zcWait => exact .ofCore rfl (zcWaitEffect_kept _ _)
  | zcTime => exact .ofCore rfl (zcTimeEffect_kept _ _)
  | zcCue => exact .ofCore rfl (zcCueEffect_kept _ _)
  | zcCuewait => exact .ofCore rfl (zcCuewaitEffect_kept _ _)
  | zcBeat => exact .ofCore rfl (zcBeatEffect_kept _ _)
  | zcDone => exact .ofCore rfl (zcDoneEffect_kept _ _)
  | beatArrival => exact .ofCore rfl (beatArrivalEffect_kept _ _)
  | beatAdd => exact .ofCore rfl (beatAddEffect_kept _ _ _)
  | windowEntry => exact .ofCore rfl (windowEntryEffect_kept _ _)
  | ingressStallLimit => exact .ofCore rfl (ingressStallLimitEffect_kept _ _)
  | slotTrigger => exact .ofCore rfl (slotTriggerEffect_kept _ _)
  | slotOpen => exact .ofCore rfl (slotOpenEffect_kept _ _)
  | cuffEntryStart => exact .ofCore rfl (cuffEntryStartEffect_kept _)
  | hbmReadReturn => exact .ofCore rfl (hbmReadReturnEffect_kept _)
  | hbmWriteAck => exact .ofCore rfl (hbmWriteAckEffect_kept _)
  | noiseMessage => exact .ofCore rfl (noiseMessageEffect_kept _ _ _ _ _)
  | refreshWindow => exact .ofCore rfl (refreshWindowEffect_kept _)
  | backgroundQuantum => exact .ofCore rfl (backgroundQuantumEffect_kept _)
  | forcedSlot => exact .ofCore rfl (forcedSlotEffect_kept _)
  | touchListPost => exact .write rfl rfl
  | flashFetchComplete => exact .ofCore rfl (flashFetchCompleteEffect_kept _ _)
  | abortMessage => exact .ofCore rfl (abortMessageEffect_kept _ _ _)
  | censusRecord => exact .ofCore rfl (censusRecordEffect_kept _ _ _ _ _)
  | censusSet => exact .ofCore rfl (censusSetEffect_kept _ _)
  | censusTimeout => exact .ofCore rfl censusTimeoutEffect_kept
  | migrationComplete => exact .ofCore rfl migrationCompleteEffect_kept
  | readyCycleMessage => exact .ofCore rfl (readyCycleMessageEffect_kept _ _)
  | frameReceive => exact .ofCore rfl (frameReceiveEffect_kept _ _ _ _ _)
  | egressSlot => exact .ofCore rfl (egressSlotEffect_kept _)
  | nak => exact .ofCore rfl (nakEffect_kept _ _)
  | retryTimeout => exact .ofCore rfl (retryTimeoutEffect_kept _)
  | latencyProbe => exact .ofCore rfl (latencyProbeEffect_kept _ _)
  | discoveryIdentity => exact .ofCore rfl (discoveryIdentityEffect_kept _ _ _)
  | alignmentFrame => exact .ofCore rfl (alignmentFrameEffect_kept _ _ _)
  | laneFail => exact .ofCore rfl (laneFailEffect_kept _ _)
  | laneChange => exact .ofCore rfl (laneChangeEffect_kept _ _)
  | retrainComplete => exact .ofCore rfl (retrainCompleteEffect_kept _ _ _)
  | qdataMessage => exact .ofCore rfl (qdataMessageEffect_kept _)
  | qcredMessage => exact .ofCore rfl (qcredMessageEffect_kept _)
  | cueMessage => exact .ofCore rfl (cueMessageEffect_kept _)
  | writeMessage => exact .ofCore rfl (writeMessageEffect_kept _)
  | mcastMessage => exact .ofCore rfl (mcastMessageEffect_kept _ _)
  | ctrlMessage => exact .ofCore rfl (ctrlMessageEffect_kept _)
  | atomicBurst => exact .ofCore rfl (atomicBurstEffect_kept _ _)
  | burstClose => exact .ofCore rfl (burstCloseEffect_kept _)
  | roundSend => exact .ofCore rfl (roundSendEffect_kept _)
  | round => exact .ofCore rfl (roundEffect_kept _)
  | commit => exact .ofCore rfl (commitEffect_kept _)
  | join => exact .ofCore rfl (joinEffect_kept _)
  | fetch => exact .ofCore rfl (fetchEffect_kept _)
  | leaderCommit => exact .ofCore rfl (leaderCommitEffect_kept _)
  | commitDeadline => exact .ofCore rfl (commitDeadlineEffect_kept _)
  | siteSilent => exact .ofCore rfl (siteSilentEffect_kept _)
  | memberRemoval => exact .ofCore rfl (memberRemovalEffect_kept _ _)
  | deltaObject => exact .ofCore rfl (deltaObjectEffect_kept _ _)
  | anchorObject => exact .ofCore rfl (anchorObjectEffect_kept _ _)
  | classCFragment => exact .ofCore rfl (classCFragmentEffect_kept _ _)
  | classCRelease => exact .ofCore rfl (classCReleaseEffect_kept _ _)
  | classCResend => exact .ofCore rfl (classCResendEffect_kept _ _)
  | classDFrame => exact .ofCore rfl (classDFrameEffect_kept _ _)
  | probe => exact .ofCore rfl (probeEffect_kept _ _)
  | feedbackReport => exact .ofCore rfl (feedbackReportEffect_kept _ _ _)
  | probeTimer => exact .ofCore rfl (probeTimerEffect_kept _)
  | feedbackTimer => exact .ofCore rfl (feedbackTimerEffect_kept _)
  | routeDown => exact .ofCore rfl (routeDownEffect_kept _ _)
  | packetTransmit => exact .ofCore rfl (packetTransmitEffect_kept _)
  | neighborSolicitation => exact .ofCore rfl (neighborSolicitationEffect_kept _ _)
  | echoRequest => exact .ofCore rfl (echoRequestEffect_kept _ _ _)
  | macPause => exact .ofCore rfl (macPauseEffect_kept _)
  | partnerLinkDown => exact .ofCore rfl (partnerLinkDownEffect_kept _)
  | recordStart => exact .ofCore rfl (recordStartEffect_kept _ _ _ _)
  | recordComplete => exact .ofCore rfl (recordCompleteEffect_kept _ _ _ _ _ _ _)
  | hello => exact .ofCore rfl (helloEffect_kept _ _)
  | finish => exact .ofCore rfl (finishEffect_kept _ _)
  | keyupd => exact .ofCore rfl (keyupdEffect_kept _ _ _)
  | keyack => exact .ofCore rfl (keyackEffect_kept _ _)
  | keySlotOverwrite => exact .ofCore rfl (keySlotOverwriteEffect_kept _)
  | rekeyTimer => exact .ofCore rfl (rekeyTimerEffect_kept _)
  | handshakeTimeout => exact .ofCore rfl (handshakeTimeoutEffect_kept _)
  | knownAnswerTest => exact .ofCore rfl (knownAnswerTestEffect_kept _)
  | alarm => exact .ofAlwaysOn rfl rfl (alarmEffect_kept _)
  | reportSigned => exact .ofCore rfl reportSignedEffect_kept
  | contact => exact .ofCore rfl (contactEffect_kept _)
  | assign => exact .ofCore rfl (assignEffect_kept _ _ _ _)
  | stop => exact .ofCore rfl (stopEffect_kept _ _ _)
  | replace => exact .ofCore rfl (replaceEffect_kept _ _ _ _)
  | controlResend => exact .ofCore rfl (controlResendEffect_kept _)
  | contactRetry => exact .ofCore rfl contactRetryEffect_kept
  | jobImageReadComplete => exact .ofCore rfl jobImageReadCompleteEffect_kept
  | rdmaRead => exact .ofCore rfl (rdmaReadEffect_kept _ _ _ _ _)
  | rdmaWrite => exact .ofCore rfl (rdmaWriteEffect_kept _ _ _ _)
  | rdmaSend => exact .ofCore rfl (rdmaSendEffect_kept _ _ _ _)
  | unsupportedRequest => exact .ofCore rfl (unsupportedRequestEffect_kept _ _)
  | roceAckTimeout => exact .ofCore rfl (roceAckTimeoutEffect_kept _)
  | cnp => exact .ofCore rfl (cnpEffect_kept _)
  | dataDescriptorRead => exact .ofCore rfl (dataDescriptorReadEffect_kept _ _)
  | ptpSync => exact .ofCore rfl (ptpSyncEffect_kept _ _ _ _)
  | porstNAssert => exact .ofPin rfl rfl rfl porstNAssertEffect_kept
  | porstNRelease => exact .ofPin rfl rfl rfl (porstNReleaseEffect_kept _)
  | resetNAssert => exact .ofPin rfl rfl rfl resetNAssertEffect_kept
  | pwrgoodFall => exact .ofPin rfl rfl rfl pwrgoodFallEffect_kept
  | bootStepComplete => exact .alwaysOn rfl rfl fun u => ⟨bootStepCompleteEffect_pending _ u, bootStepCompleteEffect_hold _ u⟩
  | selfRefreshConfirm => exact .ofAlwaysOn rfl rfl (selfRefreshConfirmEffect_kept _)
  | resetRelease => exact .ofAlwaysOn rfl rfl resetReleaseEffect_kept
  | alarmReset => exact .ofAlwaysOn rfl rfl alarmResetEffect_kept
  | marginEpochEnd => exact .ofCore rfl marginEpochEndEffect_kept
  | frequencyProposal => exact .ofCore rfl (frequencyProposalEffect_kept _ _ _)
  | switchCycleMessage => exact .ofCore rfl (switchCycleMessageEffect_kept _ _)
  | frequencySwitch => exact .ofAlwaysOn rfl rfl frequencySwitchEffect_kept
  | clockRestart => exact .ofAlwaysOn rfl rfl clockRestartEffect_kept
  | powerSample => exact .ofAlwaysOn rfl rfl (powerSampleEffect_kept _)
  | temperatureSample => exact .ofAlwaysOn rfl rfl (temperatureSampleEffect_kept _)
  | faultReport => exact .ofAlwaysOn rfl rfl (faultReportEffect_kept _ _ _ _ _)
  | escalationNotify => exact .ofAlwaysOn rfl rfl (escalationNotifyEffect_kept _)
  | escalationIsolate => exact .ofAlwaysOn rfl rfl (escalationIsolateEffect_kept _)
  | escalationSafe => exact .ofAlwaysOn rfl rfl (escalationSafeEffect_kept _)
  | ackDismiss => exact .write rfl rfl
  | ackAbort => exact .write rfl rfl
  | ackIsolate => exact .write rfl rfl
  | ackSafe => exact .write rfl rfl
  | openDismiss => exact .write rfl rfl
  | wdtKick => exact .write rfl rfl
  | watchdogExpiry => exact .ofAlwaysOn rfl rfl (watchdogExpiryEffect_kept _)
  | unfreeze => exact .write rfl rfl
  | paritySweep => exact .ofAlwaysOn rfl rfl (paritySweepEffect_kept _)
  | dlogPost => exact .write rfl rfl
  | telemetryPeriod => exact .ofCore rfl telemetryPeriodEffect_kept
  | histogramClear => exact .write rfl rfl
  | attest => exact .write rfl rfl
  | fullReset => exact .write rfl rfl
  | ringTailWrite => exact .write rfl rfl
  | cueWrite => exact .write rfl rfl
  | evqConsWrite => exact .write rfl rfl
  | testAccessRead => exact .read rfl rfl
  | lowWordRead => exact .read rfl rfl
  | registerWrite => exact .write rfl rfl
  | setAliasWrite => exact .write rfl rfl
  | clearAliasWrite => exact .write rfl rfl
  | toggleAliasWrite => exact .write rfl rfl
  | mittenBitAliasWrite => exact .write rfl rfl
  | jtagInstruction => exact .ofPin rfl rfl rfl (jtagEffect_kept _)
  | hostPortLinkDown => exact .ofCore rfl (hostLinkDown_kept _)
  | portLinkUp => exact .ofCore rfl (portLinkUpEffect_kept _)
  | roceResponse => exact .ofCore rfl (roceResponseEffect_kept _ _ _)
  | roceRateRecovery => exact .ofCore rfl (roceRateRecoveryEffect_kept _)
  | flashProgramComplete => exact .ofCore rfl (flashProgramCompleteEffect_kept _ _ _)
  | replanHoldoverTimeout => exact .ofAlwaysOn rfl rfl replanHoldoverTimeoutEffect_kept
  | frequencyAgreementTimeout => exact .ofCore rfl frequencyAgreementTimeoutEffect_kept
  | handshakeRestart => exact .ofCore rfl (handshakeRestartEffect_kept _)
  | zcWaitResume => exact .ofCore rfl (zcWaitResumeEffect_kept _)
  | registerRead => exact .read rfl rfl
  | neighborAdvertisement => exact .ofCore rfl (neighborAdvertisementEffect_kept _ _ _)

section
variable {s : State} {c : Instr} {f : State → State}

theorem inCore_keepsQueueAndFuses (hk : ∀ u, KeepsQueueAndFuses u (f u)) : KeepsQueueAndFuses s (s.inCore c f) := by
  unfold State.inCore State.core
  repeat' split
  · exact .refl s
  · exact hk s
  · exact .refl s

theorem inAlwaysOn_keepsQueueAndFuses (hk : ∀ u, KeepsQueueAndFuses u (f u)) :
    KeepsQueueAndFuses s (s.inAlwaysOn c f) := by
  unfold State.inAlwaysOn State.always
  repeat' split
  · exact .refl s
  · exact hk s
  · exact .refl s

theorem inWindow_keepsQueueAndFuses (hk : ∀ u, KeepsQueueAndFuses u (f u)) : KeepsQueueAndFuses s (s.inWindow c f) := by
  unfold State.inWindow
  split
  · exact hk s
  · exact .refl s

/-- A command of the core domain does nothing while its clock stands. -/
theorem inCore_stands (h : ¬ s.coreRunning) : s.inCore c f = s := by
  have hstop : (s.coreStopped || s.clk.held) = true := by
    rw [Bool.or_eq_true]
    by_contra hno
    rw [not_or, Bool.not_eq_true, Bool.not_eq_true] at hno
    exact h hno
  unfold State.inCore State.core
  rw [if_pos hstop, ite_self]

theorem not_running_of_porst (h : s.pins.porst = true) : ¬ s.coreRunning := fun hr =>
  Bool.false_ne_true ((coreRunning_porst hr).symm.trans h)

/-- A command of the always-on domain does nothing while PORST_N is asserted. -/
theorem inAlwaysOn_stands (h : s.pins.porst = true) : s.inAlwaysOn c f = s := by
  unfold State.inAlwaysOn State.always
  rw [if_pos h, ite_self]

/-- While PORST_N is asserted no master issues an access (R474, R525). -/
theorem mayIssue_of_porst (h : s.pins.porst = true) (m : Master) : s.mayIssue m = false := by
  simp [State.mayIssue, h]

end

theorem exec_completes (c : Instr) (s : State) : Completes (exec c s) := by
  cases exec_form c s with
  | core he _ => exact ⟨_, he⟩
  | alwaysOn he _ _ => exact ⟨_, he⟩
  | write he _ => exact ⟨_, he⟩
  | read he _ => exact ⟨_, he⟩
  | pin he _ _ _ => exact ⟨_, he⟩

theorem exec_illFormed {c : Instr} (hw : wellFormed c = false) (s : State) : exec c s = .next s := by
  have hno : ¬ wellFormed c = true := ne_true_of_eq_false hw
  cases exec_form c s with
  | core he _ => exact he.trans (congrArg _ (if_neg hno))
  | alwaysOn he _ _ => exact he.trans (congrArg _ (if_neg hno))
  | write he _ => exact he.trans (congrArg _ (if_neg hno))
  | read he _ => exact he.trans (congrArg _ (if_neg hno))
  | pin he _ _ _ => exact he.trans (congrArg _ (if_neg hno))

theorem exec_keepsQueueAndFuses {c : Instr} {s t : State} (h : exec c s = .next t) : KeepsQueueAndFuses s t := by
  cases exec_form c s with
  | core he hk => cases he.symm.trans h; exact inCore_keepsQueueAndFuses hk
  | alwaysOn he _ hk => cases he.symm.trans h; exact inAlwaysOn_keepsQueueAndFuses hk
  | write he _ =>
    cases he.symm.trans h
    exact inWindow_keepsQueueAndFuses fun u => keepsQueueAndFuses_of_kept (state_writeAccess_kept u _ _ _ _)
  | read he _ =>
    cases he.symm.trans h
    exact inWindow_keepsQueueAndFuses fun u => keepsQueueAndFuses_of_kept (state_readAccess_kept u _ _ _)
  | pin he _ _ hk => cases he.symm.trans h; exact inWindow_keepsQueueAndFuses hk

/-- A step keeps what is blown: a command's effect does, and a tick moves the clocks alone. -/
theorem step_fusesHold {s t : State} (h : step s = .next t) : FusesHold s t := by
  unfold step at h
  split at h
  · cases h
    exact .of_eq (state_tick_kept s).2
  · obtain ⟨-, hf⟩ := exec_keepsQueueAndFuses h
    exact hf

/-- What is blown beyond the part's test stays so where nothing unblows. -/
theorem FusesAboveTest.of_hold {s t : State} (hs : FusesAboveTest s) (h : FusesHold s t) : FusesAboveTest t := by
  obtain ⟨harb, hrev⟩ := hs
  obtain ⟨harb', hrev'⟩ := h
  refine ⟨Nat.le_trans harb harb', ?_⟩
  calc Config.revokeFuse.toNat &&& t.fuseBits.1
      = Config.revokeFuse.toNat &&& (s.fuseBits.1 &&& t.fuseBits.1) := by rw [← Nat.and_assoc, hrev]
    _ = Config.revokeFuse.toNat := by rw [hrev', hrev]

/-- The core domain's commands change nothing while its clock stands. -/
theorem exec_core_stands {c : Instr} {s : State} (hd : c.inCoreDomain = true) (h : ¬ s.coreRunning) :
    exec c s = .next s := by
  have hno : c.inCoreDomain ≠ false := ne_false_of_eq_true hd
  cases exec_form c s with
  | core he _ => exact he.trans (congrArg _ (inCore_stands h))
  | alwaysOn _ hd' _ => exact absurd hd' hno
  | write _ hd' => exact absurd hd' hno
  | read _ hd' => exact absurd hd' hno
  | pin _ hd' _ _ => exact absurd hd' hno

/-- While PORST_N is asserted nothing acts but the pins and the JTAG port. -/
theorem exec_porst_stands {c : Instr} {s : State} (h : s.pins.porst = true) (hp : atPins c = false) :
    exec c s = .next s := by
  cases exec_form c s with
  | core he _ => exact he.trans (congrArg _ (inCore_stands (not_running_of_porst h)))
  | alwaysOn he _ _ => exact he.trans (congrArg _ (inAlwaysOn_stands h))
  | write he _ => exact he.trans (congrArg _ (inWindow_idle (writeAccess_idle (mayIssue_of_porst h _) _ _ _)))
  | read he _ => exact he.trans (congrArg _ (inWindow_idle (readAccess_idle (mayIssue_of_porst h _) _ _)))
  | pin _ _ hp' _ => exact absurd hp' (ne_true_of_eq_false hp)

/-! ### Ticks (R453, R454, R459) -/

/-- A tick while the core clock stands is one always-on cycle. -/
theorem tick_stopped {s : State} (hp : s.pins.porst = false) (hs : s.coreStopped = true) :
    s.tick = { s with clk := s.clk.edges 1 } := by
  rw [State.tick, if_neg (ne_true_of_eq_false hp), if_pos hs, State.atAc, if_neg (by omega), if_pos hs,
    Nat.add_sub_cancel_left]

theorem porst_of_running {s : State} (hs : s.coreStopped = false) : s.pins.porst = false := by
  simp only [State.coreStopped, Bool.or_eq_false_iff] at hs
  exact hs.2

/-- A tick while the core clock runs is one core cycle. -/
theorem tick_running {s : State} (hs : s.coreStopped = false) :
    s.tick = { s with clk := s.clk.cycles s.freqStep 1 } := by
  rw [State.tick, if_neg (ne_true_of_eq_false (porst_of_running hs)), if_neg (ne_true_of_eq_false hs), State.atCycle,
    State.now, if_neg (by omega), Nat.add_sub_cancel_left]

/-- A tick moves the clocks alone. -/
theorem tick_clk (s : State) : s.tick = { s with clk := s.tick.clk } := by
  unfold State.tick
  repeat' split
  · rfl
  · obtain ⟨c, e⟩ := atAc_clk s (s.clk.acnt + 1)
    rw [e]
  · obtain ⟨c, e⟩ := atCycle_clk s (s.now + 1)
    rw [e]

end Sys2Proof.Machine
end

section
open Sys2Proof Sys2Proof.Machine

/-- Settles O8: it holds. No effect of a command and no tick unblows a fuse (`step_fusesHold`); what blows fuses is step 14 of
the boot alone, which only adds to them. -/
theorem stepNeverUnblowsFuses : Obligations.StepNeverUnblowsFuses := by
  unfold Obligations.StepNeverUnblowsFuses
  exact fun s t h => step_fusesHold h

/-- Settles O7: it holds, since a step never unblows what was above the part's test already. -/
theorem stepKeepsFusesAboveTest : Obligations.StepKeepsFusesAboveTest := by
  unfold Obligations.StepKeepsFusesAboveTest
  exact fun s t hs h => hs.of_hold (step_fusesHold h)

/-- Settles O6: it holds. At reset the fuses stand as blown at test, and no byte of a store is listed. -/
theorem resetMeetsTheInvariants : Obligations.ResetMeetsTheInvariants := by
  unfold Obligations.ResetMeetsTheInvariants
  exact ⟨⟨Nat.le_refl _, Nat.and_self _⟩, Memory.wf_nil, Memory.wf_nil⟩

/-- Settles O5: it holds. A command of the core domain is guarded by its clock, one of the always-on domain by PORST_N, and no
master issues an access under PORST_N (`exec_porst_stands`). -/
theorem stoppedDomainsStand : Obligations.StoppedDomainsStand := by
  unfold Obligations.StoppedDomainsStand
  refine ⟨fun c s hd h => exec_core_stands hd h, fun c s h hjtag hrelease hassert hreset hfall => ?_⟩
  refine exec_porst_stands h (Bool.eq_false_iff.mpr fun hp => ?_)
  unfold atPins at hp
  split at hp
  · exact hjtag _ rfl
  · exact hrelease _ rfl
  · exact hassert rfl
  · exact hreset rfl
  · exact hfall rfl
  · cases hp

/-- Settles O3: it holds. Every way to an effect ends in a next state, and each asks first whether the command is
well-formed. -/
theorem everyCommandGoesOn : Obligations.EveryCommandGoesOn := by
  unfold Obligations.EveryCommandGoesOn
  exact ⟨exec_completes, fun c s hw => exec_illFormed hw s⟩

/-- Settles O4: it holds. -/
theorem execKeepsQueue : Obligations.ExecKeepsQueue := by
  unfold Obligations.ExecKeepsQueue
  exact fun c s t h => (exec_keepsQueueAndFuses h).1

/-- Settles O1: it holds, by the definition of a step. -/
theorem stepRunsFrontCommand : Obligations.StepRunsFrontCommand := by
  unfold Obligations.StepRunsFrontCommand
  intro c rest s h
  unfold step
  rw [h]

/-- Settles O2: it holds. The tick of an empty queue moves the clocks alone: by one core cycle (`tick_running`), by one
always-on cycle (`tick_stopped`), or not at all. -/
theorem emptyQueueTicks : Obligations.EmptyQueueTicks := by
  unfold Obligations.EmptyQueueTicks
  intro s h
  have hstep : step s = .next s.tick := by
    unfold step
    rw [h]
  refine ⟨s.tick, hstep, tick_clk s, fun hp => ?held, fun hp hs => ?stopped, fun hs => ?running⟩
  case held => rw [State.tick, if_pos hp]
  case stopped =>
    rw [tick_stopped hp hs]
    exact ⟨rfl, rfl⟩
  case running =>
    rw [tick_running hs]
    exact ⟨rfl, Nat.le_add_right _ _⟩

end

section
/-! SUPPORT. Registers and their fields read after writes and counts, and Mitten's registers, which no write or count of
another block reaches (R8, R497, R520). -/

namespace Sys2Proof.Machine

/-! ### Fields -/

/-- A field inside a word reads as written. -/
theorem fld_putFld_self (r : Tbl Word) (a : Nat) {lo w : Nat} (v : Nat) (h : lo + w ≤ 32) :
    Regs.fld (Regs.putFld r a lo w v) a lo w = v % 2 ^ w := state_putFld_fld { regs := r } a lo w v h

/-- A field apart from the one written, of the same register, reads as before. -/
theorem fld_putFld_apart (r : Tbl Word) (a : Nat) {lo w lo' w' : Nat} (v : Nat) (h : lo + w ≤ 32)
    (hd : lo' + w' ≤ lo ∨ lo + w ≤ lo') : Regs.fld (Regs.putFld r a lo w v) a lo' w' = Regs.fld r a lo' w' :=
  state_putFld_fld_ne { regs := r } a lo w v lo' w' h hd

theorem nat_putFld_ne (r : Tbl Word) {a k : Nat} (lo w v : Nat) (h : k ≠ a) :
    Regs.nat (Regs.putFld r a lo w v) k = Regs.nat r k := Regs.nat_put_ne _ _ _ _ h

/-- Registers that read the same have the same fields. -/
theorem fld_of_nat {r r' : Tbl Word} {k : Nat} (h : Regs.nat r k = Regs.nat r' k) (lo w : Nat) :
    Regs.fld r k lo w = Regs.fld r' k lo w := congrArg (bits · lo w) h

theorem state_fld_of_reg {s t : State} {k : Nat} (h : t.reg k = s.reg k) (lo w : Nat) : t.fld k lo w = s.fld k lo w :=
  fld_of_nat h lo w

/-! ### Mitten's registers -/

/-- The address `a`, where it lies in Mitten's block, lies below 64 KiB. -/
def MittenLow (a : Nat) (o : Option (Block × Nat × Nat)) : Prop := ∀ x ∈ o, x.1 = .aon → a < 0x10000

theorem locate_mittenLow (a : Nat) : MittenLow a (locate a) := by
  unfold locate
  refine iteInduction (motive := MittenLow a) (fun h => ?_) (fun _ => ?_)
  · exact fun _ _ _ => h
  · repeat' refine iteInduction (motive := MittenLow a) (fun _ => ?_) (fun _ => ?_)
    all_goals rintro _ ⟨⟩ ⟨⟩

theorem base_of_ne_aon {b : Block} (h : b ≠ .aon) (n : Nat) : 0x10000 ≤ b.base n := by
  cases b with
  | aon => exact absurd rfl h
  | _ =>
    simp only [Block.base]
    omega

/-- Outside Mitten's block a counter's saturation flag lies outside it as well. -/
theorem satOf_above {a : Nat} (h : 0x10000 ≤ a) : ∀ x ∈ satOf a, 0x10000 ≤ x.1 := by
  intro x hx
  unfold satOf at hx
  split at hx
  · cases hx
  next b n off hl =>
    split at hx
    · cases hx
    · obtain rfl := Option.mem_some.mp hx
      have hb : b ≠ .aon := fun e => Nat.not_lt.2 h (locate_mittenLow a _ hl e)
      exact Nat.le_trans (base_of_ne_aon hb n) (Nat.le_add_right _ _)

section
variable (r : Tbl Word) {a k : Nat} (hk : k < 0x10000) (ha : 0x10000 ≤ a)
include hk ha

theorem nat_put_mitten (v : Nat) : Regs.nat (Regs.put r a v) k = Regs.nat r k := Regs.nat_put_ne _ _ _ _ (by omega)

theorem nat_putFld_mitten (lo w v : Nat) : Regs.nat (Regs.putFld r a lo w v) k = Regs.nat r k :=
  nat_putFld_ne r lo w v (by omega)

theorem nat_putPair_mitten (v : Nat) : Regs.nat (Regs.putPair r a v) k = Regs.nat r k :=
  nat_putPair_ne r v (by omega) (by omega)

theorem nat_count_mitten (n : Nat) : Regs.nat (Regs.count r a n) k = Regs.nat r k :=
  nat_count_ne r n (by omega) fun x hx => by
    have := satOf_above ha x hx
    omega

theorem nat_count64_mitten (n : Nat) : Regs.nat (Regs.count64 r a n) k = Regs.nat r k :=
  nat_count64_ne r n (by omega) (by omega)

end

end Sys2Proof.Machine
end

section
/-! SUPPORT. Cipher lanes (12_cipher_and_trust, R394 to R400): a pipeline's records read after writes, where a record that
starts goes, and what a record that completes leaves. -/

namespace Sys2Proof.Machine

/-! ### A pipeline's records -/

@[simp] theorem setPipe_lanes (s : State) (q : Nat) (l : Tbl LaneRec) (v w : List LaneRec) :
    (s.setPipe q l v w).lanes q = l := Tbl.get_set_self _ _ _ _

@[simp] theorem setPipe_waitingRecs (s : State) (q : Nat) (l : Tbl LaneRec) (v w : List LaneRec) :
    (s.setPipe q l v w).waitingRecs q = w := Tbl.get_set_self _ _ _ _

theorem setPipe_waitingRecs_ne (s : State) {q j : Nat} (l : Tbl LaneRec) (v w : List LaneRec) (h : j ≠ q) :
    (s.setPipe q l v w).waitingRecs j = s.waitingRecs j := Tbl.get_set_ne _ _ _ _ _ h

/-- A port's FIFO holds what it held while the waiting records stand. -/
theorem setPipe_fifoBytes (s : State) (q a : Nat) (l : Tbl LaneRec) (v : List LaneRec) :
    (s.setPipe q l v (s.waitingRecs q)).fifoBytes a = s.fifoBytes a := by
  have hwait : (s.setPipe q l v (s.waitingRecs q)).waitingRecs 1 = s.waitingRecs 1 := by
    by_cases hq : q = 1
    · subst hq
      exact setPipe_waitingRecs s 1 l v _
    · exact setPipe_waitingRecs_ne s l v _ (Ne.symm hq)
  rw [State.fifoBytes, hwait, State.fifoBytes]

theorem sumNat_append_single (l : List Nat) (n : Nat) : sumNat (l ++ [n]) = sumNat l + n := List.foldl_append

/-- A record of the association that waits for decryption adds its length. -/
theorem setPipe_fifoBytes_waits (s : State) (l : Tbl LaneRec) (v : List LaneRec) (r : LaneRec) :
    (s.setPipe 1 l v (s.waitingRecs 1 ++ [r])).fifoBytes r.assoc = s.fifoBytes r.assoc + r.len := by
  rw [State.fifoBytes, setPipe_waitingRecs, List.filter_append, List.filter_singleton, beq_self_eq_true, cond_true,
    List.map_append, List.map_singleton, sumNat_append_single, State.fifoBytes]

/-! ### RECORD_START (R396, R399) -/

theorem placeLane_free {s : State} {q i : Nat} (h : freeLane (s.lanes q) = some i) (r : LaneRec) :
    s.placeLane q r = s.setPipe q (Tbl.set (s.lanes q) i r) (s.savedRecs q) (s.waitingRecs q) := by
  simp only [State.placeLane, h]

/-- With no lane free a record takes that of the worst record, where this can be suspended, or waits. -/
theorem placeLane_full {s : State} {q i : Nat} {x : LaneRec} (hfull : freeLane (s.lanes q) = none)
    (hworst : worstLane (s.lanes q) = some (i, x)) (r : LaneRec) :
    s.placeLane q r =
      if r.prio < x.prio ∧ x.suspended < 4 ∧ s.contexts < 32 then
        (s.setPipe q (Tbl.set (s.lanes q) i r)
          (s.savedRecs q ++ [{ x with suspended := x.suspended + 1, start := s.now - x.start }]) (s.waitingRecs q)).count
          Reg.cphEvcSuspend
      else s.setPipe q (s.lanes q) (s.savedRecs q) (s.waitingRecs q ++ [r]) := by
  simp only [State.placeLane, hfull, hworst]

theorem recordStartEffect_notReady {s : State} (h : s.fld Reg.cphStatus 0 1 = 0) (d : Bool) (a prio len : Nat) :
    recordStartEffect d a prio len s = s := if_pos (.inr (.inr (.inr h)))

/-- With the engine ready a record goes to its place, and its packet is dropped where the FIFO would overflow. -/
theorem recordStartEffect_ready {s : State} (h : s.fld Reg.cphStatus 0 1 = 1) (d : Bool) {a prio len : Nat} (ha : a < 12)
    (hp : prio < 4) (hl : len ≤ 16384) :
    recordStartEffect d a prio len s =
      (let t := s.placeLane (b2n d) { assoc := a, prio, len, start := s.now }
       if d ∧ 262144 < t.fifoBytes a then s.count Reg.cphEvcNobuf else t) := by
  rw [recordStartEffect, if_neg (by omega)]

/-- A record whose place leaves its FIFO with room keeps it. -/
theorem recordStartEffect_placed {s t : State} (h : s.fld Reg.cphStatus 0 1 = 1) {d : Bool} {a prio len : Nat} (ha : a < 12)
    (hp : prio < 4) (hl : len ≤ 16384) (hplace : s.placeLane (b2n d) { assoc := a, prio, len, start := s.now } = t)
    (hroom : t.fifoBytes a ≤ 262144) : recordStartEffect d a prio len s = t := by
  rw [recordStartEffect_ready h d ha hp hl, hplace]
  exact if_neg fun hover => Nat.not_lt.2 hroom hover.2

/-! ### RECORD_COMPLETE (R397 to R400, R410) -/

/-- A lane taken again changes the pipelines alone. -/
theorem refillLane_frame (s : State) (q i : Nat) :
    ∃ c : Cipher, s.refillLane q i = { s with cph := c } ∧ c.assocs = s.cph.assocs := by
  have hpipe (l : Tbl LaneRec) (v w : List LaneRec) :
      ∃ c : Cipher, s.setPipe q l v w = { s with cph := c } ∧ c.assocs = s.cph.assocs := ⟨_, rfl, rfl⟩
  unfold State.refillLane
  dsimp only
  split
  · exact ⟨s.cph, rfl, rfl⟩
  · exact hpipe _ _ _
  · exact hpipe _ _ _
  · split
    · exact hpipe _ _ _
    · exact hpipe _ _ _

/-- The state when a record of a lane is done: its tag is ready, and its lane taken again (R399, R400). -/
def State.laneDone (s : State) (q lane : Nat) (r : LaneRec) : State :=
  let u := s.atCycle r.tagAt
  (u.setPipe q ((u.lanes q).erase lane) (u.savedRecs q) (u.waitingRecs q)).refillLane q lane

theorem laneDone_frame (s : State) (q lane : Nat) (r : LaneRec) :
    ∃ k c, s.laneDone q lane r = { s with clk := k, cph := c } ∧ c.assocs = s.cph.assocs := by
  obtain ⟨k, e⟩ := atCycle_clk s r.tagAt
  unfold State.laneDone
  rw [e]
  obtain ⟨c, e', hc⟩ := refillLane_frame _ q lane
  exact ⟨k, c, e', hc⟩

theorem recordCompleteEffect_idle {s : State} {d : Bool} {l : Nat} (h : Tbl.get? (s.lanes (b2n d)) l = none)
    (n kid : Nat) (aad body tag : List Byte) : recordCompleteEffect d l n kid aad body tag s = s := by
  simp only [recordCompleteEffect, h]

theorem recordCompleteEffect_done {s : State} {d : Bool} {l : Nat} {x : LaneRec}
    (h : Tbl.get? (s.lanes (b2n d)) l = some x) (n kid : Nat) (aad body tag : List Byte) :
    recordCompleteEffect d l n kid aad body tag s =
      if d then (s.laneDone (b2n d) l x).opened x n kid aad body tag
      else (s.laneDone (b2n d) l x).sealed x n aad body := by
  simp only [recordCompleteEffect, h]
  rfl

/-- A partner's record leaves on the bus, sealed under its association's key slot. -/
theorem sealed_partner {r : LaneRec} (h : r.assoc < 8) (s : State) (n : Nat) (aad body : List Byte) :
    s.sealed r n aad body =
      (let o := sealRecord (Tbl.get (0, []) (s.assoc r.assoc).tx (s.fld (Reg.cphAState r.assoc) 2 1)).2 n aad body
       { s with bus := o.1 ++ o.2 }) := by
  have h8 : ¬ 8 ≤ r.assoc := Nat.not_le.2 h
  simp only [State.sealed, h8, if_false]

/-- A record verified notes its generation where it is the next, and changes nothing else but the association. -/
theorem noteGeneration_frame (s : State) (a g : Nat) :
    ∃ c r, s.noteGeneration a g = { s with cph := c, regs := r } ∧
      (Regs.nat r (Reg.cphARxgen a) = s.reg (Reg.cphARxgen a) ∨ Regs.nat r (Reg.cphARxgen a) = g % 2 ^ 32) := by
  unfold State.noteGeneration
  split
  · exact ⟨_, _, rfl, .inr (Regs.nat_put_self _ _ _)⟩
  · exact ⟨s.cph, s.regs, rfl, .inl rfl⟩

/-- A plaintext whose tag verifies is released. -/
theorem opened_releases {s : State} {r : LaneRec} {n kid : Nat} {g : Nat × List Byte} {aad body tag p : List Byte}
    (hkid : kid < 2) (hslot : Tbl.get? (s.assoc r.assoc).rx kid = some g) (hopen : openRecord g.2 n aad body tag = some p)
    (hg : g.1 < 2 ^ 32) : (s.opened r n kid aad body tag).bus = p ∧ (s.opened r n kid aad body tag).hbm = s.hbm ∧
      ((s.opened r n kid aad body tag).reg (Reg.cphARxgen r.assoc) = s.reg (Reg.cphARxgen r.assoc) ∨
        (s.opened r n kid aad body tag).reg (Reg.cphARxgen r.assoc) = g.1) := by
  have hbytes (x : Tbl Word) (m : Nat) : Regs.nat (Regs.count64 x Reg.cphDecBytesLo m) (Reg.cphARxgen r.assoc) =
      Regs.nat x (Reg.cphARxgen r.assoc) :=
    nat_count64_ne x m (by unfold Reg.cphARxgen Reg.cphDecBytesLo; omega)
      (by unfold Reg.cphARxgen Reg.cphDecBytesLo; omega)
  obtain ⟨k, e⟩ := atCycle_clk s (s.now + (r.len + 63) / 64)
  simp only [State.opened, Nat.mod_eq_of_lt hkid, hslot, hopen, Option.map_some, Option.get!_some, e]
  obtain ⟨c, x, e', hgen⟩ := noteGeneration_frame
    { s with clk := k, bus := p, regs := Regs.count64 s.regs Reg.cphDecBytesLo p.length } r.assoc g.1
  rw [e']
  refine ⟨rfl, rfl, hgen.imp (fun h => h.trans (hbytes _ _)) fun h => h.trans (Nat.mod_eq_of_lt hg)⟩

/-- A record that nothing opens releases nothing and is counted. -/
theorem opened_discards {s : State} {r : LaneRec} {n kid : Nat} {aad body tag : List Byte} (hkid : kid < 2)
    (hprio : r.prio ≠ 0)
    (hclosed : ∀ g, Tbl.get? (s.assoc r.assoc).rx kid = some g → openRecord g.2 n aad body tag = none) :
    s.opened r n kid aad body tag = { s with bus := [], regs := Regs.count s.regs (Reg.cphAEvcTagfail r.assoc) 1 } := by
  cases hslot : Tbl.get? (s.assoc r.assoc).rx kid with
  | none => simp only [State.opened, Nat.mod_eq_of_lt hkid, hslot, hprio, if_false]
  | some g => simp only [State.opened, Nat.mod_eq_of_lt hkid, hslot, hclosed g hslot, hprio, if_false]

/-- The event counters of an association are shown saturated in its `CPH_A_EVC_SAT` (R422, R497). -/
theorem satOf_cphA {a o : Nat} (ha : a < 12) (ho : o < 0x40) :
    ∃ i, satOf (0x40400 + 0x40 * a + o) = some (Reg.cphAEvcSat a, i) := by
  have hloc : locate (0x40400 + 0x40 * a + o) = some (.cphA, a, o) := by
    have hdiv : (0x40400 + 0x40 * a + o - 0x40400) / 0x40 = a := by omega
    have hmod : (0x40400 + 0x40 * a + o - 0x40400) % 0x40 = o := by omega
    unfold locate
    rw [if_neg (by omega), if_neg (by omega), if_neg (by omega), if_pos (by omega), if_pos (by omega), hdiv, hmod]
  refine ⟨(o - Block.cphA.counters.1) / 4, ?_⟩
  simp only [satOf, hloc, Block.satOff, Block.base, Reg.cphAEvcSat]
  congr 2
  omega

/-- A count of an association's event counter. -/
theorem nat_count_cphA_self (r : Tbl Word) {a o : Nat} (ha : a < 12) (ho : o < 0x3C) :
    Regs.nat (Regs.count r (0x40400 + 0x40 * a + o) 1) (0x40400 + 0x40 * a + o) =
      min 0xFFFFFFFF (Regs.nat r (0x40400 + 0x40 * a + o) + 1) := by
  obtain ⟨i, e⟩ := satOf_cphA ha (show o < 0x40 by omega)
  refine nat_count_self _ _ _ fun x hx => ?_
  obtain rfl : _ = x := Option.some.inj (e.symm.trans hx)
  unfold Reg.cphAEvcSat
  omega

/-- It leaves the association's other registers as they are. -/
theorem nat_count_cphA_ne (r : Tbl Word) {a o p : Nat} (ha : a < 12) (ho : o < 0x40) (hne : p ≠ o) (hp : p ≠ 0x3C) :
    Regs.nat (Regs.count r (0x40400 + 0x40 * a + o) 1) (0x40400 + 0x40 * a + p) =
      Regs.nat r (0x40400 + 0x40 * a + p) := by
  obtain ⟨i, e⟩ := satOf_cphA ha ho
  refine nat_count_ne _ _ (by omega) fun x hx => ?_
  obtain rfl : _ = x := Option.some.inj (e.symm.trans hx)
  unfold Reg.cphAEvcSat
  omega

theorem nat_count_tagfail (r : Tbl Word) {a : Nat} (ha : a < 12) :
    Regs.nat (Regs.count r (Reg.cphAEvcTagfail a) 1) (Reg.cphAEvcTagfail a) =
      min 0xFFFFFFFF (Regs.nat r (Reg.cphAEvcTagfail a) + 1) := by
  have hcell : Reg.cphAEvcTagfail a = 0x40400 + 0x40 * a + 0x20 := by
    unfold Reg.cphAEvcTagfail
    omega
  rw [hcell]
  exact nat_count_cphA_self r ha (by decide)

end Sys2Proof.Machine
end

section
open Sys2Proof Sys2Proof.Machine

/-- Settles O45: it holds. A record that starts is placed by what its pipeline has free (`placeLane_free`, `placeLane_full`),
and only one that waits can fill its port's FIFO; one that completes leaves its lane, which moves the clock and the
pipelines alone (`laneDone_frame`), and is sealed, released or discarded. -/
theorem lanesSealAndOpen : Obligations.LanesSealAndOpen := by
  unfold Obligations.LanesSealAndOpen
  intro d a prio len s hr ha hp hl q r
  have hstart : exec (.recordStart d a prio len) s = .next (recordStartEffect d a prio len s) :=
    exec_running (i := .recordStart d a prio len) hr (decide_eq_true ⟨ha, hp, hl⟩) rfl
  rw [hstart]
  refine ⟨fun hoff => ?notReady, fun hon hroom => ⟨fun i hfree => ?free, fun i x hfull hworst => ⟨fun h1 h2 h3 => ?suspends,
    fun hno => ?waits⟩⟩, fun l n kid aad body tag hlane hn hkid htag => ?completes⟩
  case notReady => rw [recordStartEffect_notReady hoff]
  case free =>
    rw [recordStartEffect_placed hon ha hp hl (placeLane_free hfree r) ((setPipe_fifoBytes s q a _ _).trans_le hroom)]
  case suspends =>
    rw [recordStartEffect_placed hon ha hp hl ((placeLane_full hfull hworst r).trans (if_pos ⟨h1, h2, h3⟩))
      ((setPipe_fifoBytes s q a _ _).trans_le hroom)]
  case waits =>
    have hplace := (placeLane_full hfull hworst r).trans (if_neg hno)
    cases d with
    | false =>
      rw [recordStartEffect_ready hon false ha hp hl]
      refine congrArg _ ?_
      dsimp only
      rw [hplace]
      rfl
    | true =>
      rw [recordStartEffect_ready hon true ha hp hl]
      refine congrArg _ ?_
      have hfifo : (s.setPipe q (s.lanes q) (s.savedRecs q) (s.waitingRecs q ++ [r])).fifoBytes a = s.fifoBytes a + len :=
        setPipe_fifoBytes_waits s _ _ r
      dsimp only
      rw [hplace, hfifo]
      simp only [Bool.true_and, true_and, decide_eq_true_eq]
  case completes =>
    have hexec : exec (.recordComplete d l n kid aad body tag) s =
        .next (recordCompleteEffect d l n kid aad body tag s) :=
      exec_running (i := .recordComplete d l n kid aad body tag) hr (decide_eq_true ⟨hlane, hn, hkid, htag⟩) rfl
    rw [hexec]
    refine ⟨fun hnone => by rw [recordCompleteEffect_idle hnone], fun x hx hassoc => ?_⟩
    obtain ⟨k, c, e, hc⟩ := laneDone_frame s q l x
    have hassocs : ∀ b, (s.laneDone q l x).assoc b = s.assoc b := fun b => by
      rw [e]
      exact congrArg (fun t => Tbl.get {} t b) hc
    have hdone := recordCompleteEffect_done hx n kid aad body tag
    refine ⟨fun hd hpartner => ?sealed, fun hd g p hslot hopen hg => ?released, fun hd hprio hclosed => ?discarded⟩
    case sealed =>
      refine ⟨_, rfl, ?_⟩
      rw [hdone, if_neg (ne_true_of_eq_false hd), sealed_partner hpartner, hassocs, e]
      exact ⟨rfl, rfl, rfl⟩
    case released =>
      refine ⟨_, rfl, ?_⟩
      rw [← hassocs] at hslot
      obtain ⟨hbus, hhbm, hgen⟩ := opened_releases hkid hslot hopen hg
      rw [hdone, if_pos hd]
      refine ⟨hbus, hhbm.trans (by rw [e]), ?_⟩
      rw [e] at hgen ⊢
      exact hgen
    case discarded =>
      refine ⟨_, rfl, ?_⟩
      rw [hdone, if_pos hd, opened_discards hkid hprio (by rw [hassocs]; exact hclosed), e]
      exact ⟨rfl, rfl, nat_count_tagfail s.regs hassoc⟩

end

section
/-! SUPPORT. Handshakes and key generations (12_cipher_and_trust, R405 to R410): what HELLO, FINISH, KEYUPD and KEYACK do to
their association. -/

namespace Sys2Proof.Machine

/-! ### HELLO (R405, R407, R408) -/

theorem helloEffect_keyless {s : State} (h : s.cph.keyed = false) (a : Nat) (b : List Byte) : helloEffect a b s = s := by
  rw [helloEffect, h]
  exact if_pos (.inr (.inl rfl))

/-- With keys derived, and for a partner its entry, the credential decides. -/
theorem helloEffect_judged {s : State} {a : Nat} (ha : a < 12) (hk : s.cph.keyed = true)
    (hentry : 8 ≤ a ∨ (s.partner a).isSome) (b : List Byte) :
    helloEffect a b s = if !s.credOk a b then s.count (Reg.cphAEvcHellofail a) else
      (let u := (if s.fld (Reg.cphAState a) 0 2 = 1 then s else s.startHandshake a)
       let u := u.setAssoc a { u.assoc a with peerHello := b }
       if allZero (u.assoc a).shared then u.handshakeFailed a else u.sendFinish a) := by
  refine if_neg ?_
  rintro (h | h | ⟨h8, hnone⟩)
  · omega
  · rw [hk] at h
    cases h
  · rcases hentry with h | hsome
    · omega
    · rw [Option.isNone_iff_eq_none.mp hnone] at hsome
      cases hsome

@[simp] theorem setAssoc_assoc_self (s : State) (a : Nat) (x : Assoc) : (s.setAssoc a x).assoc a = x :=
  Tbl.get_set_self _ _ _ _

/-- A HELLO that verifies during a handshake is kept, and FINISH goes out unless the shared secret is all zero. -/
theorem helloEffect_verified {s : State} {a : Nat} (ha : a < 12) (hk : s.cph.keyed = true)
    (hentry : 8 ≤ a ∨ (s.partner a).isSome) {b : List Byte} (hok : s.credOk a b = true)
    (hrun : s.fld (Reg.cphAState a) 0 2 = 1) :
    helloEffect a b s =
      (let x : Assoc := { s.assoc a with peerHello := b }
       if allZero x.shared then (s.setAssoc a x).handshakeFailed a else (s.setAssoc a x).sendFinish a) := by
  rw [helloEffect_judged ha hk hentry, hok]
  dsimp only
  rw [if_pos hrun, setAssoc_assoc_self]
  rfl

/-! ### FINISH (R407, R434) -/

theorem finishEffect_early {s : State} {a : Nat} (h : s.fld (Reg.cphAState a) 0 2 ≠ 1 ∨ (s.assoc a).finished = false)
    (sig : List Byte) : finishEffect a sig s = s :=
  if_pos (.inr (h.imp_right fun hf => by rw [hf]; rfl))

/-- A FINISH after this side's own establishes the association, or fails the handshake. -/
theorem finishEffect_judged {s : State} {a : Nat} (ha : a < 12) (hrun : s.fld (Reg.cphAState a) 0 2 = 1)
    (hf : (s.assoc a).finished = true) (sig : List Byte) :
    finishEffect a sig s = if !s.finishOk a sig then s.handshakeFailed a else s.establish a := by
  refine if_neg ?_
  rintro (h | h | h)
  · omega
  · exact h hrun
  · rw [hf] at h
    cases h

/-- A fresh association is established, at generation 0 in both directions (R421, R422). -/
theorem freshAssoc_reads (r : Tbl Word) {a : Nat} (ha : a < 12) :
    Regs.fld (freshAssoc r a) (Reg.cphAState a) 0 4 = 2 ∧ Regs.nat (freshAssoc r a) (Reg.cphATxgen a) = 0 ∧
      Regs.nat (freshAssoc r a) (Reg.cphARxgen a) = 0 := by
  have hcount (x : Tbl Word) {p : Nat} (hne : p ≠ 0x30) (hp : p ≠ 0x3C) :
      Regs.nat (Regs.count x (Reg.cphAEvcAssoc a) 1) (0x40400 + 0x40 * a + p) = Regs.nat x (0x40400 + 0x40 * a + p) := by
    have hcell : Reg.cphAEvcAssoc a = 0x40400 + 0x40 * a + 0x30 := by
      unfold Reg.cphAEvcAssoc
      omega
    rw [hcell]
    exact nat_count_cphA_ne x ha (by decide) hne hp
  have htx : Reg.cphATxgen a = 0x40400 + 0x40 * a + 4 := by unfold Reg.cphATxgen; omega
  have hrx : Reg.cphARxgen a = 0x40400 + 0x40 * a + 8 := by unfold Reg.cphARxgen; omega
  have hrec : Reg.cphATxrec a = 0x40400 + 0x40 * a + 12 := by unfold Reg.cphATxrec; omega
  have hbytes : Reg.cphATxbytesLo a = 0x40400 + 0x40 * a + 16 := by unfold Reg.cphATxbytesLo; omega
  unfold freshAssoc
  dsimp only
  refine ⟨?_, ?_, ?_⟩
  · rw [Regs.fld, show Reg.cphAState a = 0x40400 + 0x40 * a + 0 from rfl, hcount _ (by decide) (by decide)]
    exact fld_putFld_self _ _ 2 (by decide)
  · rw [htx, hcount _ (by decide) (by decide), nat_putFld_ne _ _ _ _ (by unfold Reg.cphAState; omega),
      nat_putPair_ne _ _ (by omega) (by omega), Regs.nat_put_ne _ _ _ _ (by omega), Regs.nat_put_ne _ _ _ _ (by omega),
      Regs.nat_put_self, Nat.zero_mod]
  · rw [hrx, hcount _ (by decide) (by decide), nat_putFld_ne _ _ _ _ (by unfold Reg.cphAState; omega),
      nat_putPair_ne _ _ (by omega) (by omega), Regs.nat_put_ne _ _ _ _ (by omega), Regs.nat_put_self, Nat.zero_mod]

/-- Establishing an association sets the cipher's registers as those of a fresh one, whatever its port's become. -/
theorem establish_reg (s : State) {a k : Nat} (hk : k < 0x80000) :
    (s.establish a).reg k = Regs.nat (freshAssoc s.regs a) k := by
  unfold State.establish
  dsimp only
  split
  · refine (nat_putPair_ne _ _ ?_ ?_).trans (nat_putPair_ne _ _ ?_ ?_)
    all_goals
      simp only [Reg.brmPTxpsnLo, Reg.brmPRxpsnLo]
      omega
  · exact Regs.nat_put_ne _ _ _ _ (by unfold Reg.hptStatus; omega)

theorem establish_reads (s : State) {a : Nat} (ha : a < 12) :
    (s.establish a).fld (Reg.cphAState a) 0 4 = 2 ∧ (s.establish a).reg (Reg.cphATxgen a) = 0 ∧
      (s.establish a).reg (Reg.cphARxgen a) = 0 := by
  obtain ⟨hstate, htx, hrx⟩ := freshAssoc_reads s.regs ha
  refine ⟨?_, (establish_reg s ?_).trans htx, (establish_reg s ?_).trans hrx⟩
  · exact (congrArg (bits · 0 4) (establish_reg s (by unfold Reg.cphAState; omega))).trans hstate
  · unfold Reg.cphATxgen
    omega
  · unfold Reg.cphARxgen
    omega

/-! ### KEYUPD and KEYACK (R405, R409, R410) -/

theorem keyupdEffect_closed {s : State} {a : Nat} (h : s.established a = false) (g n : Nat) : keyupdEffect a g n s = s :=
  if_pos (.inr (.inl (by rw [h]; rfl)))

theorem keyackEffect_closed {s : State} {a : Nat} (h : s.established a = false) (g : Nat) : keyackEffect a g s = s :=
  if_pos (.inr (.inl (by rw [h]; rfl)))

theorem keyupdEffect_notes {s : State} {a n : Nat} (ha : a < 12) (h : s.established a = true) (hn : n < 2 ^ 64) (g : Nat) :
    keyupdEffect a g n s = s.noteGeneration a g := by
  refine if_neg ?_
  rintro (h' | h' | h')
  · omega
  · rw [h] at h'
    cases h'
  · omega

theorem noteGeneration_next {s : State} {a g : Nat} (h : g = s.reg (Reg.cphARxgen a) + 1) :
    s.noteGeneration a g =
      (s.setAssoc a { s.assoc a with newGen := some (g, s.clk.acnt) }).put (Reg.cphARxgen a) g := if_pos h

theorem noteGeneration_other {s : State} {a g : Nat} (h : g ≠ s.reg (Reg.cphARxgen a) + 1) : s.noteGeneration a g = s :=
  if_neg h

theorem keyackEffect_ahead {s : State} {a g : Nat} (h : s.reg (Reg.cphATxgen a) + 1 < g) : keyackEffect a g s = s :=
  if_pos (.inr (.inr h))

/-- A generation acknowledged is noted; the sender moves on only with a key that is aged (R409). -/
theorem keyackEffect_notes {s : State} {a g : Nat} (ha : a < 12) (h : s.established a = true)
    (hg : g ≤ s.reg (Reg.cphATxgen a) + 1) (hyoung : s.keyAged a = false) :
    keyackEffect a g s = s.setAssoc a { s.assoc a with acked := max (s.assoc a).acked g } := by
  have hopen : ¬ (12 ≤ a ∨ (!s.established a) = true ∨ s.reg (Reg.cphATxgen a) + 1 < g) := by
    rw [h]
    simp only [Bool.not_true, Bool.false_eq_true, false_or]
    omega
  rw [keyackEffect, if_neg hopen]
  dsimp only
  rw [State.moveKey]
  exact if_pos (congrArg not hyoung)

end Sys2Proof.Machine
end

section
open Sys2Proof Sys2Proof.Machine

/-- Settles O46: it holds. Each message is let through by the association's state, and its verification decides
(`helloEffect_judged`, `finishEffect_judged`); a generation is noted where it is the next (`noteGeneration_next`). -/
theorem handshakesEstablish : Obligations.HandshakesEstablish := by
  unfold Obligations.HandshakesEstablish
  intro a h sig s hr ha
  have hform : decide (a < 12) = true := decide_eq_true ha
  have hhello : exec (.hello a h) s = .next (helloEffect a h s) := exec_running (i := .hello a h) hr hform rfl
  have hfinish : exec (.finish a sig) s = .next (finishEffect a sig s) := exec_running (i := .finish a sig) hr hform rfl
  rw [hhello, hfinish]
  refine ⟨fun hk => ?keyless, fun hk hentry => ⟨fun hbad => ?credential, fun hok hrun => ?verified⟩, fun hearly => ?early,
    fun hrun hf => ⟨fun hbad => ?unsigned, fun hok => ?signed⟩, fun g n hg hn => ?generations⟩
  case keyless => rw [helloEffect_keyless hk]
  case credential =>
    rw [helloEffect_judged ha hk hentry, hbad]
    rfl
  case verified => exact congrArg _ (helloEffect_verified ha hk hentry hok hrun)
  case early => rw [finishEffect_early hearly]
  case unsigned =>
    rw [finishEffect_judged ha hrun hf, hbad]
    rfl
  case signed =>
    rw [finishEffect_judged ha hrun hf, hok]
    exact ⟨_, rfl, rfl, establish_reads s ha⟩
  case generations =>
    have hupd : exec (.keyupd a g n) s = .next (keyupdEffect a g n s) :=
      exec_running (i := .keyupd a g n) hr (decide_eq_true ⟨ha, hg, hn⟩) rfl
    have hack : exec (.keyack a g) s = .next (keyackEffect a g s) :=
      exec_running (i := .keyack a g) hr (decide_eq_true ⟨ha, hg⟩) rfl
    rw [hupd, hack]
    refine ⟨fun hno => ⟨?_, ?_⟩, fun he => ⟨fun hne => ?_, fun heq => ?_, fun hahead => ?_, fun hle hyoung => ?_⟩⟩
    · rw [keyupdEffect_closed hno]
    · rw [keyackEffect_closed hno]
    · rw [keyupdEffect_notes ha he hn, noteGeneration_other hne]
    · rw [keyupdEffect_notes ha he hn, noteGeneration_next heq]
    · rw [keyackEffect_ahead hahead]
    · rw [keyackEffect_notes ha he hle hyoung]

end

section
/-! SUPPORT. Contact with the coordinator (13_host_ports_and_images, R433 to R437): control messages, queue pairs that open,
and what ASSIGN, STOP and REPLACE come to. -/

namespace Sys2Proof.Machine

/-! ### Waiting in the always-on domain (R453, R454) -/

/-- While the core clock runs the clocks move until the always-on cycle has come. -/
theorem atAc_reaches {s : State} (hs : s.coreStopped = false) (hk : 0 < s.freqStep) (t : Nat) :
    t ≤ (s.atAc t).clk.acnt := by
  unfold State.atAc
  rw [hs]
  split
  · assumption
  next hlate =>
    have hedges : t - s.clk.acnt ≤
        (s.clk.phase + 16 * (((t - s.clk.acnt) * (15 * s.freqStep) - s.clk.phase + 15) / 16)) / (15 * s.freqStep) := by
      rw [Nat.le_div_iff_mul_le (by omega)]
      omega
    rw [if_neg Bool.false_ne_true]
    show t ≤ s.clk.acnt + _
    omega

/-- Waiting moves the clocks alone. -/
theorem atAc_hostAssoc (s : State) (t h : Nat) : (s.atAc t).hostAssoc h = s.hostAssoc h := by
  obtain ⟨k, e⟩ := atAc_clk s t
  rw [e]
  rfl

/-! ### Control messages (R433) -/

/-- A control message sent changes its association's numbers, its port and counts: no status, no key, no queue pair. -/
theorem emitControl_frame (s : State) {h : Nat} (hh : h < 4) (c : Control) :
    ∃ x r p, s.emitControl h c = { s with cph := x, regs := r, host := { s.host with ports := p } } ∧
      Regs.nat r Reg.hptStatus = s.reg Reg.hptStatus ∧ ∀ a, (Tbl.get {} x.assocs a).tx = (s.assoc a).tx := by
  have hhost (y : Tbl Word) (n : Nat) :
      Regs.nat (Regs.count64 y (Reg.hptHTxbytesLo h) n) Reg.hptStatus = Regs.nat y Reg.hptStatus :=
    nat_count64_ne y n (by unfold Reg.hptHTxbytesLo Reg.hptStatus; omega) (by unfold Reg.hptHTxbytesLo Reg.hptStatus; omega)
  have hbytes (y : Tbl Word) (n : Nat) :
      Regs.nat (Regs.count64 y Reg.cphEncBytesLo n) Reg.hptStatus = Regs.nat y Reg.hptStatus :=
    nat_count64_ne y n (by decide) (by decide)
  have hkey (y : Tbl Word) (m n : Nat) : Regs.nat (Regs.count64 (Regs.put y (Reg.cphATxrec (8 + h)) m)
      (Reg.cphATxbytesLo (8 + h)) n) Reg.hptStatus = Regs.nat y Reg.hptStatus :=
    (nat_count64_ne _ n (by unfold Reg.cphATxbytesLo Reg.hptStatus; omega)
      (by unfold Reg.cphATxbytesLo Reg.hptStatus; omega)).trans
      (Regs.nat_put_ne _ _ _ _ (by unfold Reg.cphATxrec Reg.hptStatus; omega))
  unfold State.emitControl
  dsimp only
  split
  · exact ⟨s.cph, s.regs, s.host.ports, rfl, rfl, fun a => rfl⟩
  · refine ⟨_, _, _, rfl, ?_, fun a => ?_⟩
    · split
      · exact (hbytes _ _).trans (hhost _ _)
      · exact (hkey _ _ _).trans ((hbytes _ _).trans (hhost _ _))
    · by_cases ha : a = 8 + h
      · subst ha
        exact (congrArg Assoc.tx (setAssoc_assoc_self s _ _)).trans rfl
      · exact congrArg Assoc.tx (Tbl.get_set_ne _ _ _ _ _ ha)

theorem sendControl_frame (s : State) {h : Nat} (hh : h < 4) (kind : Nat) (body : List Byte) :
    ∃ x r p, s.sendControl h kind body = { s with cph := x, regs := r, host := { s.host with ports := p } } ∧
      Regs.nat r Reg.hptStatus = s.reg Reg.hptStatus ∧ ∀ a, (Tbl.get {} x.assocs a).tx = (s.assoc a).tx := by
  unfold State.sendControl
  exact emitControl_frame _ hh _

/-- A control message that arrives changes its port and a count of bytes. -/
theorem takeControl_frame (s : State) (h mid ack len : Nat) :
    ∃ r p, (s.takeControl h mid ack len).1 = { s with regs := r, host := { s.host with ports := p } } := by
  unfold State.takeControl
  dsimp only
  split
  · exact ⟨s.regs, s.host.ports, rfl⟩
  · exact ⟨_, _, rfl⟩

/-! ### Queue pairs that open (R429, R435) -/

/-- A port has a queue pair. -/
def State.hasQp (s : State) (h : Nat) : Prop := ∃ e ∈ s.host.qps, e.2.port = h

theorem portQps_ne_nil_iff (s : State) (h : Nat) : s.portQps h ≠ [] ↔ s.hasQp h := by
  simp [State.portQps, State.hasQp, List.filter_eq_nil_iff]

theorem mem_set_self {α : Type} (t : Tbl α) (k : Nat) (v : α) : (k, v) ∈ t.set k v :=
  List.mem_append_right _ List.mem_cons_self

/-- An entry under another key stays. -/
theorem mem_set_of_ne {α : Type} {t : Tbl α} {e : Nat × α} (he : e ∈ t) {k : Nat} (v : α) (h : e.1 ≠ k) : e ∈ t.set k v := by
  rcases Nat.lt_or_gt_of_ne h with hlt | hgt
  · exact List.mem_append_left _ (List.mem_filter.mpr ⟨he, decide_eq_true hlt⟩)
  · exact List.mem_append_right _ (List.mem_cons_of_mem _ (List.mem_filter.mpr ⟨he, decide_eq_true hgt⟩))

theorem le_foldl_max (l : List Nat) (b n : Nat) (h : n ≤ b ∨ n ∈ l) : n ≤ l.foldl max b := by
  induction l generalizing b with
  | nil => simpa using h
  | cons x l ih =>
    refine ih _ ?_
    rcases h with h | h
    · exact .inl (Nat.le_trans h (Nat.le_max_left _ _))
    · rcases List.mem_cons.mp h with rfl | h
      · exact .inl (Nat.le_max_right _ _)
      · exact .inr h

/-- The queue pairs with `n` new ones of one port from number `first` on. -/
def withQps (q : Tbl QueuePair) (first n : Nat) (x : QueuePair) : Tbl QueuePair :=
  (List.range n).foldl (fun t i => t.set (first + i) x) q

theorem withQps_succ (q : Tbl QueuePair) (first n : Nat) (x : QueuePair) :
    withQps q first (n + 1) x = (withQps q first n x).set (first + n) x := by
  rw [withQps, List.range_succ, List.foldl_append]
  rfl

/-- Queue pairs below the new ones stay. -/
theorem mem_withQps {q : Tbl QueuePair} {e : Nat × QueuePair} (he : e ∈ q) {first : Nat} (h : e.1 < first) (n : Nat)
    (x : QueuePair) : e ∈ withQps q first n x := by
  induction n with
  | zero => exact he
  | succ n ih =>
    rw [withQps_succ]
    exact mem_set_of_ne ih x (by omega)

/-- Opening a port's queue pairs changes queue pairs, free values and the port's status. -/
theorem openQps_frame (s : State) (h : Nat) :
    ∃ f q r, s.openQps h = { s with free := f, host := { s.host with qps := q }, regs := r } ∧
      Regs.nat r Reg.hptStatus = s.reg Reg.hptStatus := by
  unfold State.openQps
  dsimp only
  split
  · exact ⟨_, _, _, rfl, nat_putFld_ne _ _ _ _ (by unfold Reg.hptHStatus Reg.hptStatus; omega)⟩
  · exact ⟨_, _, s.regs, rfl, rfl⟩

/-- Afterwards that port has one, and every port that had one has one still. -/
theorem openQps_hasQp (s : State) (h : Nat) :
    (s.openQps h).hasQp h ∧ ∀ k, s.hasQp k → (s.openQps h).hasQp k := by
  unfold State.openQps
  dsimp only
  split
  next hnone =>
    refine ⟨?_, fun k ⟨e, he, hk⟩ => ⟨e, ?_, hk⟩⟩
    · rw [Nat.add_comm 1]
      exact ⟨_, (withQps_succ ..).symm ▸ mem_set_self _ _ _, rfl⟩
    · refine mem_withQps he (Nat.lt_of_succ_le (le_foldl_max _ _ _ (.inr ?_))) _ _
      exact List.mem_map.mpr ⟨e, he, rfl⟩
  next hsome =>
    have hkeep (k : Nat) (hk : s.hasQp k) : ∃ e ∈ s.host.qps.map fun (q : Nat × QueuePair) =>
        if q.2.port = h ∧ q.2.failed then (q.1, { q.2 with failed := false, retries := 0, psn := s.freeBelow (2 ^ 24) }) else q,
        e.2.port = k := by
      obtain ⟨e, he, hp⟩ := hk
      refine ⟨_, List.mem_map_of_mem he, ?_⟩
      split
      · exact hp
      · exact hp
    have hport : s.hasQp h := (portQps_ne_nil_iff s h).mp fun hnil => hsome (List.isEmpty_iff.mpr hnil)
    exact ⟨hkeep h hport, fun k hk => hkeep k hk⟩

/-! ### CONTACT and its retry (R435) -/

/-- What every CONTACT leaves as it is: the clocks, which associations are established, and that a port has queue
pairs. -/
structure ContactKeeps (s t : State) : Prop where
  clk : t.clk = s.clk
  assoc : ∀ k, t.hostAssoc k = s.hostAssoc k
  qps : ∀ k, s.hasQp k → t.hasQp k

theorem ContactKeeps.refl (s : State) : ContactKeeps s s := ⟨rfl, fun _ => rfl, fun _ h => h⟩

theorem ContactKeeps.trans {s t u : State} (h : ContactKeeps s t) (g : ContactKeeps t u) : ContactKeeps s u :=
  ⟨g.clk.trans h.clk, fun k => (g.assoc k).trans (h.assoc k), fun k hk => g.qps k (h.qps k hk)⟩

theorem contactEffect_closed {s : State} {h : Nat} (ha : s.hostAssoc h = false) : contactEffect h s = s :=
  if_pos (.inr (by rw [ha]; rfl))

/-- CONTACT on an established port opens its queue pairs and waits for an ASSIGN. -/
theorem contactEffect_open {s : State} {h : Nat} (hh : h < 4) (ha : s.hostAssoc h = true) :
    ContactKeeps s (contactEffect h s) ∧ (contactEffect h s).hasQp h ∧ (contactEffect h s).hbm = s.hbm ∧
      (contactEffect h s).fld Reg.hptStatus 0 3 = max 4 (s.fld Reg.hptStatus 0 3) := by
  have hopen : ¬ (4 ≤ h ∨ (!s.hostAssoc h) = true) := by
    rw [ha]
    simp only [Bool.not_true, Bool.false_eq_true, or_false]
    omega
  obtain ⟨f, q, r, eq, hr⟩ := openQps_frame s h
  obtain ⟨hown, hothers⟩ := openQps_hasQp s h
  rw [contactEffect, if_neg hopen]
  dsimp only
  obtain ⟨x, r', p, es, hr', htx⟩ := sendControl_frame (s.openQps h) hh 16 ((s.openQps h).contactBody h)
  rw [es]
  have hstatus : Regs.fld r' Reg.hptStatus 0 3 = s.fld Reg.hptStatus 0 3 := fld_of_nat (hr'.trans (by rw [eq]; exact hr)) 0 3
  refine ⟨⟨?_, fun k => ?_, hothers⟩, hown, ?_, ?_⟩
  · rw [eq]
    rfl
  · have htx' : (Tbl.get {} x.assocs (8 + k)).tx = (Tbl.get ({} : Assoc) s.cph.assocs (8 + k)).tx :=
      (htx (8 + k)).trans (by rw [eq]; rfl)
    exact congrArg (fun t => !List.isEmpty t) htx'
  · rw [eq]
    rfl
  · refine (fld_putFld_self r' Reg.hptStatus _ (by decide)).trans ?_
    show (if Regs.fld r' Reg.hptStatus 0 3 < 4 then 4 else Regs.fld r' Reg.hptStatus 0 3) % 2 ^ 3 = _
    have hlt : s.fld Reg.hptStatus 0 3 < 8 := Nat.mod_lt _ (by decide)
    rw [hstatus]
    split <;> omega

theorem contactEffect_keeps (s : State) {h : Nat} (hh : h < 4) :
    ContactKeeps s (contactEffect h s) ∧ (s.hostAssoc h = true → (contactEffect h s).hasQp h) := by
  cases ha : s.hostAssoc h with
  | false =>
    rw [contactEffect_closed ha]
    exact ⟨.refl s, fun hno => absurd hno Bool.false_ne_true⟩
  | true =>
    obtain ⟨hkeeps, hqp, -, -⟩ := contactEffect_open hh ha
    exact ⟨hkeeps, fun _ => hqp⟩

/-- CONTACT on one port after another opens the queue pairs of every established one. -/
theorem contactAll_keeps (l : List Nat) (hl : ∀ h ∈ l, h < 4) (s : State) :
    ContactKeeps s (l.foldl (fun s h => contactEffect h s) s) ∧
      ∀ h ∈ l, s.hostAssoc h = true → (l.foldl (fun s h => contactEffect h s) s).hasQp h := by
  induction l generalizing s with
  | nil => exact ⟨.refl s, fun h hh => absurd hh List.not_mem_nil⟩
  | cons a l ih =>
    obtain ⟨hfirst, hqp⟩ := contactEffect_keeps s (hl a List.mem_cons_self)
    obtain ⟨hrest, hqps⟩ := ih (fun h hh => hl h (List.mem_cons_of_mem _ hh)) (contactEffect a s)
    refine ⟨hfirst.trans hrest, fun h hh ha => ?_⟩
    rcases List.mem_cons.mp hh with rfl | hh
    · exact hrest.qps _ (hqp ha)
    · exact hqps h hh ((hfirst.assoc h).trans ha)

theorem contactAll_closed (l : List Nat) (s : State) (h : ∀ k ∈ l, s.hostAssoc k = false) :
    l.foldl (fun s h => contactEffect h s) s = s := by
  induction l with
  | nil => rfl
  | cons a l ih =>
    rw [List.foldl_cons, contactEffect_closed (h a List.mem_cons_self)]
    exact ih fun k hk => h k (List.mem_cons_of_mem _ hk)

theorem contactRetryEffect_idle {s : State} (h : s.host.waitJob = none) : contactRetryEffect s = s := by
  simp only [contactRetryEffect, h]

/-- The state in which the wait for an ASSIGN begins again. -/
def State.waitsAgain (s : State) : State := { s with host := { s.host with waitJob := some s.clk.acnt } }

theorem waitsAgain_reads (s : State) : s.waitsAgain.clk = s.clk ∧
    s.waitsAgain.host.waitJob = some s.waitsAgain.clk.acnt ∧ ∀ k, s.waitsAgain.portQps k = s.portQps k :=
  ⟨rfl, rfl, fun _ => rfl⟩

/-- CONTACT sent on every port, and the wait that begins again. -/
def State.contactAgain (s : State) : State := ((List.range 4).foldl (fun s h => contactEffect h s) s).waitsAgain

theorem contactRetryEffect_due {s : State} {u : Nat} (h : s.host.waitJob = some u) :
    contactRetryEffect s = (s.atAc (10 * secAc + u)).contactAgain := by
  simp only [contactRetryEffect, h]
  rfl

theorem contactAgain_opens (s : State) : s.contactAgain.clk = s.clk ∧
    s.contactAgain.host.waitJob = some s.contactAgain.clk.acnt ∧
    ∀ k, k < 4 → s.hostAssoc k = true → s.contactAgain.portQps k ≠ [] := by
  obtain ⟨hkeeps, hqps⟩ := contactAll_keeps (List.range 4) (fun x hx => List.mem_range.mp hx) s
  obtain ⟨hclk, hwait, hports⟩ := waitsAgain_reads ((List.range 4).foldl (fun s h => contactEffect h s) s)
  refine ⟨hclk.trans hkeeps.clk, hwait, fun k hk ha => ?_⟩
  rw [State.contactAgain, hports]
  exact (portQps_ne_nil_iff _ k).mpr (hqps k (List.mem_range.mpr hk) ha)

theorem contactAgain_closed {s : State} (h : ∀ k, k < 4 → s.hostAssoc k = false) :
    s.contactAgain = s.waitsAgain := by
  rw [State.contactAgain, contactAll_closed (List.range 4) s fun k hk => h k (List.mem_range.mp hk)]

/-! ### ASSIGN (R435, R436, R439) -/

/-- An event posted changes of the host ports the ring and the events that wait, and queue pairs. -/
theorem post_hostFrame (s : State) (k u : Nat) (b : List Byte) : ∃ g q w n r, s.post k u b =
    { s with host := { s.host with evRing := g, qps := q, evWait := w, evDropped := n }, regs := r } := by
  have hwrite (e : HostEvent) : ∃ g q, (writeEvent s.host s.regs e).1 = { s.host with evRing := g, qps := q } := by
    unfold writeEvent
    dsimp only
    split
    · exact ⟨_, _, rfl⟩
    · exact ⟨_, s.host.qps, rfl⟩
  unfold State.post
  dsimp only
  split
  · obtain ⟨g, q, e⟩ := hwrite (s.event k u b)
    rw [e]
    exact ⟨g, q, s.host.evWait, s.host.evDropped, _, rfl⟩
  · split
    · exact ⟨s.host.evRing, s.host.qps, _, s.host.evDropped, s.regs, rfl⟩
    · exact ⟨s.host.evRing, s.host.qps, s.host.evWait, _, _, rfl⟩

/-- A port's counts of bytes and the tracker's waits are no status. -/
theorem nat_hostCounts (r : Tbl Word) (p n : Nat) :
    Regs.nat (Regs.count64 r (Reg.hptHTxbytesLo p) n) Reg.hptStatus = Regs.nat r Reg.hptStatus :=
  nat_count64_ne r n (by unfold Reg.hptHTxbytesLo Reg.hptStatus; omega) (by unfold Reg.hptHTxbytesLo Reg.hptStatus; omega)

theorem nat_trkwait (r : Tbl Word) (n : Nat) :
    Regs.nat (Regs.count r Reg.hptEvcTrkwait n) Reg.hptStatus = Regs.nat r Reg.hptStatus :=
  nat_count_ne r n (by decide) (by decide)

/-- A read spread over the queue pairs changes them and counts. -/
theorem roceRead_frame (s : State) (w : RoceWhat) (a n : Nat) :
    ∃ q r, s.roceRead w a n = { s with host := { s.host with qps := q }, regs := r } ∧
      Regs.nat r Reg.hptStatus = s.reg Reg.hptStatus := by
  unfold State.roceRead
  dsimp only
  refine List.foldlRecOn (motive := fun t => ∃ (q : Tbl QueuePair) (r : Tbl Word), t = { s with host := { s.host with qps := q }, regs := r } ∧
    Regs.nat r Reg.hptStatus = s.reg Reg.hptStatus) _ _ ⟨s.host.qps, _, rfl, nat_trkwait s.regs _⟩ ?_
  rintro _ ⟨q, r, rfl, hr⟩ i -
  split
  · exact ⟨_, _, rfl, (nat_hostCounts r _ _).trans hr⟩
  · exact ⟨q, r, rfl, hr⟩

/-- With no event waiting or dropped the ring takes nothing. -/
theorem pumpEvents_idle {s : State} (hw : s.host.evWait = []) (hd : s.host.evDropped = 0) : s.pumpEvents = s := by
  have hdrain : State.drainEvents (255 + 1) s = s := by simp only [State.drainEvents, hw]
  exact (if_pos (.inl hd)).trans hdrain

/-- The state with the rings that an ASSIGN names, its sequence numbers from 0. -/
def State.withRings (s : State) (b : List Byte) : State :=
  let u := s.noteJob b 8
  { u with
    host := { u.host with evEntries := fieldAt b 44 4, dataEntries := fieldAt b 60 4, evRing := [], data := [] }
    regs := Regs.putPair (Regs.putPair u.regs Reg.hptEvqProdLo 0) Reg.hptEvqConsLo 0 }

theorem withRings_reg (s : State) (b : List Byte) : (s.withRings b).reg Reg.hptStatus = s.reg Reg.hptStatus :=
  (nat_putPair_ne _ _ (by decide) (by decide)).trans (nat_putPair_ne _ _ (by decide) (by decide))

section
variable {s u : State} {h mid ack : Nat} {b : List Byte} (htake : s.takeControl h mid ack b.length = (u, true))
  (hstatus : u.fld Reg.hptStatus 0 3 = 4)
include htake hstatus

/-- An ASSIGN that is waited for takes its rings, and the job image is read, or CONTACT waits to be sent again. -/
theorem assignEffect_acts : assignEffect h mid ack b s =
    (let t := (u.withRings b).pumpEvents
     if t.host.jobLen = 0 then { t with host := { t.host with waitJob := some t.clk.acnt } } else t.readImage') := by
  have hact : ¬ ((!true) = true ∨ u.fld Reg.hptStatus 0 3 ≠ 4) := by
    rw [hstatus]
    decide
  rw [assignEffect, htake]
  exact if_neg hact

end

/-- An ASSIGN that only acknowledges. -/
theorem assignEffect_acknowledges {s : State} {h mid ack : Nat} {b : List Byte}
    (hno : (s.takeControl h mid ack b.length).2 = false ∨
      (s.takeControl h mid ack b.length).1.fld Reg.hptStatus 0 3 ≠ 4) :
    assignEffect h mid ack b s = (s.takeControl h mid ack b.length).1 :=
  if_pos (hno.imp_left fun h => by rw [h]; rfl)

/-- A job image longer than JOB_AREA is refused unread. -/
theorem readImage'_refused {s : State} (h : s.jobArea.2 < s.host.jobLen) :
    ∃ g q w n r, s.readImage' =
      { s with host := { s.host with evRing := g, qps := q, evWait := w, evDropped := n }, regs := r } ∧
      Regs.fld r Reg.hptStatus 0 3 = 4 := by
  obtain ⟨g, q, w, n, r, e⟩ := post_hostFrame s 3 0x1E0 (leBytes 4 7)
  rw [State.readImage', if_pos h, e]
  exact ⟨g, q, w, n, _, rfl, fld_putFld_self _ _ 4 (by decide)⟩

/-- Any other is read. -/
theorem readImage'_reads {s : State} (h : s.host.jobLen ≤ s.jobArea.2) :
    ∃ q r, s.readImage' =
      { s with host := { s.host with jobLeft := s.host.jobLen, waitJob := none, qps := q }, regs := r } ∧
      Regs.fld r Reg.hptStatus 0 3 = 5 := by
  rw [State.readImage', if_neg (Nat.not_lt.2 h)]
  dsimp only
  obtain ⟨q, r, e, hr⟩ := roceRead_frame { s with
    host := { s.host with jobLeft := s.host.jobLen, waitJob := none }
    regs := Regs.putFld s.regs Reg.hptStatus 0 3 5 } .image s.jobArea.1 s.host.jobLen
  exact ⟨q, r, e, (fld_of_nat hr 0 3).trans (fld_putFld_self _ _ 5 (by decide))⟩

/-! ### STOP and REPLACE (R437) -/

theorem instruct_active {s : State} (h : s.job.active = true) (replace : Bool) :
    s.instruct replace = { s with job := { s.job with stopping := some replace } } := if_pos h

/-- A STOP while an image is read abandons it. -/
theorem instruct_reading {s : State} (ha : s.job.active = false) (h : s.fld Reg.hptStatus 0 3 = 5) :
    s.instruct false = { s.dropReads with
      host := { s.dropReads.host with jobLeft := 0 }, regs := Regs.putFld s.dropReads.regs Reg.hptStatus 0 3 4 } :=
  (if_neg (ne_true_of_eq_false ha)).trans (if_pos (.inl h))

end Sys2Proof.Machine
end

section
open Sys2Proof Sys2Proof.Machine

/-- Settles O49: it holds. CONTACT opens the queue pairs of its port and keeps those of the others (`contactAll_keeps`); a
control message that has been seen before changes its port alone (`takeControl_frame`); an ASSIGN that is waited for is
its rings and then one of three reads of the image (`readImage'_refused`, `readImage'_reads`). -/
theorem coordinatorAssignsAndStops : Obligations.CoordinatorAssignsAndStops := by
  unfold Obligations.CoordinatorAssignsAndStops
  intro h mid ack b s hr hh hmid hack
  have hcontact : exec (.contact h) s = .next (contactEffect h s) :=
    exec_running (i := .contact h) hr (decide_eq_true hh) rfl
  have hretry : exec .contactRetry s = .next (contactRetryEffect s) := exec_running (i := .contactRetry) hr rfl rfl
  have hstop : exec (.stop h mid ack) s = .next (stopEffect h mid ack s) :=
    exec_running (i := .stop h mid ack) hr (decide_eq_true ⟨hh, hmid, hack⟩) rfl
  rw [hcontact, hretry, hstop]
  refine ⟨fun hno => ?closed, fun hopen => ?opened, ?resend, fun hnone => ?idle, fun u hu hk => ?retry, fun hb => ?assign,
    ?stop, fun hb => ?replace⟩
  case closed => rw [contactEffect_closed hno]
  case opened =>
    obtain ⟨-, hqp, hhbm, hfld⟩ := contactEffect_open hh hopen
    exact ⟨_, rfl, (portQps_ne_nil_iff _ h).mpr hqp, hfld, hhbm⟩
  case resend =>
    rw [exec_running (i := .controlResend h) hr (decide_eq_true hh) rfl, controlResendEffect, if_neg (by omega)]
  case idle => rw [contactRetryEffect_idle hnone]
  case retry =>
    rw [contactRetryEffect_due hu]
    have hreach := atAc_reaches hr.1 hk (10 * secAc + u)
    obtain ⟨k, ek⟩ := atAc_clk s (10 * secAc + u)
    have hassoc (x : Nat) := atAc_hostAssoc s (10 * secAc + u) x
    revert hreach ek hassoc
    generalize s.atAc (10 * secAc + u) = w
    intro hreach ek hassoc
    obtain ⟨hclk, hwait, hqps⟩ := contactAgain_opens w
    refine ⟨_, rfl, Nat.le_trans hreach (Nat.le_of_eq (by rw [hclk])), hwait,
      fun x hx ha => hqps x hx ((hassoc x).trans ha), fun hnone => ?_⟩
    rw [contactAgain_closed fun x hx => (hassoc x).trans (hnone x hx), ek]
    rfl
  case assign =>
    intro r
    have hassign : exec (.assign h mid ack b) s = .next (assignEffect h mid ack b s) :=
      exec_running (i := .assign h mid ack b) hr (decide_eq_true ⟨hh, hmid, hack, hb⟩) rfl
    have hlen : s.takeControl h mid ack b.length = r := by rw [hb]
    rw [hassign]
    refine ⟨fun hno => ?_, fun hact hstatus hwait hdropped => ⟨_, rfl, ?_⟩⟩
    · rw [← hlen] at hno ⊢
      rw [assignEffect_acknowledges hno]
    · obtain ⟨x, p, e⟩ := takeControl_frame s h mid ack 64
      change r.1 = _ at e
      have hidle : (r.1.withRings b).pumpEvents = r.1.withRings b := by
        rw [e]
        exact pumpEvents_idle hwait hdropped
      have hstands : (r.1.withRings b).fld Reg.hptStatus 0 3 = 4 :=
        (state_fld_of_reg (withRings_reg r.1 b) 0 3).trans hstatus
      have harea : (r.1.withRings b).jobArea = s.jobArea := by
        rw [e]
        rfl
      rw [assignEffect_acts (hlen.trans (Prod.ext rfl hact)) hstatus]
      dsimp only
      rw [hidle]
      by_cases hzero : fieldAt b 24 8 = 0
      · have hjob : (r.1.withRings b).host.jobLen = 0 := hzero
        rw [if_pos hjob]
        refine ⟨by rw [e]; rfl, rfl, rfl, rfl, fun _ => ⟨hstands, by rw [e]; rfl⟩, fun hbig => ?_, fun hno => absurd hzero hno⟩
        omega
      · have hjob : ¬ (r.1.withRings b).host.jobLen = 0 := hzero
        rw [if_neg hjob]
        by_cases hbig : s.jobArea.2 < fieldAt b 24 8
        · obtain ⟨g, q, w, n, y, er, hy⟩ := readImage'_refused (s := r.1.withRings b) (by rw [harea]; exact hbig)
          rw [er]
          refine ⟨by rw [e]; rfl, rfl, rfl, rfl, fun hz => absurd hz hzero, fun _ => hy, fun _ hle => ?_⟩
          omega
        · obtain ⟨q, y, er, hy⟩ := readImage'_reads (s := r.1.withRings b) (by rw [harea]; exact Nat.not_lt.mp hbig)
          rw [er]
          exact ⟨by rw [e]; rfl, rfl, rfl, rfl, fun hz => absurd hz hzero, fun hz => absurd hz hbig,
            fun _ _ => ⟨hy, rfl, rfl⟩⟩
  case stop =>
    intro r
    obtain ⟨x, p, e⟩ := takeControl_frame s h mid ack 0
    change r.1 = _ at e
    have hjob : r.1.job = s.job := by rw [e]
    refine ⟨fun hno => ?_, fun hact hactive => ?_, fun hact hidle hstatus => ⟨_, rfl, ?_⟩⟩
    · exact congrArg _ (if_neg (ne_true_of_eq_false hno))
    · rw [stopEffect]
      exact congrArg _ ((if_pos hact).trans (instruct_active (by rw [hjob]; exact hactive) false))
    · have heff : stopEffect h mid ack s = r.1.instruct false := if_pos hact
      rw [heff, instruct_reading (by rw [hjob]; exact hidle) hstatus]
      exact ⟨fld_putFld_self _ _ 4 (by decide), rfl, rfl⟩
  case replace =>
    intro r
    obtain ⟨x, p, e⟩ := takeControl_frame s h mid ack 24
    change r.1 = _ at e
    have hreplace : exec (.replace h mid ack b) s =
        .next (if r.2 then (r.1.noteJob b 0).instruct true else r.1) := by
      rw [exec_running (i := .replace h mid ack b) hr (decide_eq_true ⟨hh, hmid, hack, hb⟩) rfl, replaceEffect, hb]
    rw [hreplace]
    refine ⟨fun hno => ?_, fun hact hactive => ⟨_, rfl, ?_⟩⟩
    · rw [if_neg (ne_true_of_eq_false hno)]
    · have hjob : (r.1.noteJob b 0).job.active = true := by
        rw [e]
        exact hactive
      rw [if_pos hact, instruct_active hjob]
      exact ⟨rfl, rfl, rfl, rfl⟩

end

section
/-! SUPPORT. The coordinator's packets (13_host_ports_and_images, R427 to R430): what takes one, what a replay comes to, and
what an accepted one is acted on from. -/

namespace Sys2Proof.Machine

/-- A port that is not open takes no packet. -/
theorem packet_closed {s : State} {h : Nat} (ho : s.hostOpen h = false) (n ext k : Nat) (f : State → State) :
    s.packet h n ext k f = s := if_pos (by rw [ho]; rfl)

/-- The state from which an accepted packet is acted on. -/
def State.arrived (s : State) (h n ext k : Nat) : State :=
  (s.received h (s.host.roceFrame h ext k)).setHport h ((s.hport h).accept n)

section
variable {s : State} {h n : Nat} (ho : s.hostOpen h = true)
include ho

/-- An open port counts a replay and does nothing more. -/
theorem packet_replayed (hn : (s.hport h).replayed n = true) (ext k : Nat) (f : State → State) :
    s.packet h n ext k f = (s.received h (s.host.roceFrame h ext k)).count (Reg.hptHEvcReplay h) :=
  (if_neg (by rw [ho]; exact Bool.false_ne_true)).trans (if_pos hn)

theorem packet_accepted (hn : (s.hport h).replayed n = false) (ext k : Nat) (f : State → State) :
    s.packet h n ext k f = f (s.arrived h n ext k) :=
  (if_neg (by rw [ho]; exact Bool.false_ne_true)).trans (if_neg (ne_true_of_eq_false hn))

end

/-- A packet that arrives counts its bytes, in no register of the rings. -/
theorem arrived_reg (s : State) {h : Nat} (hh : h < 4) (n ext k : Nat) {a : Nat} (ha : 0x100000 ≤ a) :
    (s.arrived h n ext k).reg a = s.reg a :=
  nat_count64_ne _ _ (by unfold Reg.hptHRxbytesLo; omega) (by unfold Reg.hptHRxbytesLo; omega)

/-- The packets of a response change registers alone. -/
theorem respondRead_frame (s : State) (h n : Nat) : ∃ r, s.respondRead h n = { s with regs := r } := by
  unfold State.respondRead
  refine List.foldlRecOn (motive := fun t => ∃ r : Tbl Word, t = { s with regs := r }) _ _ ⟨s.regs, rfl⟩ ?_
  rintro _ ⟨r, rfl⟩ i -
  exact ⟨_, rfl⟩

end Sys2Proof.Machine
end

section
open Sys2Proof Sys2Proof.Machine

/-- Settles O50: it holds. Each request is a packet, which a closed port does not take, a replay only counts and any other
acts on (`packet_closed`, `packet_replayed`, `packet_accepted`). -/
theorem remoteRequestsAreServed : Obligations.RemoteRequestsAreServed := by
  unfold Obligations.RemoteRequestsAreServed
  intro h n region a len qpn d s hr hh hn ha hlen hd hq
  rw [exec_running (i := .rdmaRead h n region a len) hr (decide_eq_true ⟨hh, hn, ha, hlen⟩) rfl,
    exec_running (i := .rdmaWrite h n a d) hr (decide_eq_true ⟨hh, hn, ha, hd⟩) rfl,
    exec_running (i := .rdmaSend h n qpn d) hr (decide_eq_true ⟨hh, hn, hq, hd⟩) rfl,
    exec_running (i := .unsupportedRequest h n) hr (decide_eq_true ⟨hh, hn⟩) rfl,
    rdmaReadEffect, rdmaWriteEffect, rdmaSendEffect, unsupportedRequestEffect]
  refine ⟨fun hno => ?closed, fun ho hrep => ?replayed, fun ho hnew => ?accepted⟩
  case closed =>
    simp only [packet_closed hno, and_self]
  case replayed =>
    simp only [packet_replayed ho hrep, and_self]
  case accepted =>
    simp only [packet_accepted ho hnew]
    refine ⟨fun h0 hin => ?_, fun h1 hin => ?_, fun hbig => ?_, fun hin => ?_, fun hout => ?_, fun x hx hqp hport => ?_,
      fun hx => ?_, rfl⟩
    · rw [if_pos ⟨h0, hin⟩]
      rfl
    · obtain ⟨r, e⟩ := respondRead_frame (s.arrived h n 16 0) h len
      have hbytes : (s.arrived h n 16 0).ringBytes = s.ringBytes := by
        simp only [State.ringBytes, arrived_reg s hh n 16 0 (a := Reg.vsrDlogSize) (by decide),
          arrived_reg s hh n 16 0 (a := Reg.vsrTrecLen) (by decide), arrived_reg s hh n 16 0 (a := Reg.vsrTlogSize) (by decide)]
      have hbase : Regs.pair (s.arrived h n 16 0).regs Reg.vsrRingBaseLo = Regs.pair s.regs Reg.vsrRingBaseLo :=
        congrArg₂ (fun lo hi => lo + 2 ^ 32 * hi) (arrived_reg s hh n 16 0 (a := Reg.vsrRingBaseLo) (by decide))
          (arrived_reg s hh n 16 0 (a := Reg.vsrRingBaseLo + 4) (by decide))
      rw [if_neg (by omega), if_pos ⟨h1, by rw [hbytes]; exact hin⟩, hbase, e]
      exact ⟨_, rfl, rfl, rfl⟩
    · rw [if_neg (by omega), if_neg (by omega)]
      rfl
    · rw [if_pos hin]
      rfl
    · rw [if_neg (Nat.not_le.2 hout)]
      rfl
    · have hqp' : (s.arrived h n 0 d.length).qp (qpn - 0x10000) = some x := hqp
      rw [hqp']
      dsimp only
      rw [if_neg (by omega)]
      rfl
    · split
      · rw [if_pos (.inl hx)]
        rfl
      · rfl

end

section
/-! SUPPORT. Queue pairs and the time port (13_host_ports_and_images, R427, R432, R436, R450; 14_mitten_power_ageing, R459):
a failed queue pair under the events that are posted, and what an offset of the time port sets. -/

namespace Sys2Proof.Machine

/-! ### Queue pairs -/

theorem qp_setQp_self (s : State) (q : Nat) (x : QueuePair) : (s.setQp q x).qp q = some x := Tbl.get?_set_self _ q x

/-- A table has one entry under a key just set. -/
theorem eq_of_mem_set {α : Type} {t : Tbl α} {k : Nat} {v : α} {e : Nat × α} (he : e ∈ t.set k v) (hk : e.1 = k) : e.2 = v := by
  rcases List.mem_append.mp he with h | h
  · have := of_decide_eq_true (List.mem_filter.mp h).2
    omega
  · rcases List.mem_cons.mp h with rfl | h
    · rfl
    · have := of_decide_eq_true (List.mem_filter.mp h).2
      omega

/-- An event is written by a queue pair that has not failed: one that has stays as it is. -/
theorem post_keepsFailedQp (s : State) {q : Nat} {x : QueuePair} (hx : x.failed = true) (k u : Nat) (b : List Byte)
    (hq : ∀ e ∈ s.host.qps, e.1 = q → e.2 = x) (hs : s.qp q = some x) : (s.post k u b).qp q = some x := by
  unfold State.post
  dsimp only
  split
  · unfold writeEvent
    dsimp only
    split
    next e hfind =>
      have hopen : e.2.failed = false := by simpa using List.find?_some hfind
      have hne : q ≠ e.1 := fun h => by
        rw [hq e (List.mem_of_find?_eq_some hfind) h.symm, hx] at hopen
        cases hopen
      exact (Tbl.get?_set_ne _ e.1 q _ hne).trans hs
    · exact hs
  · split
    · exact hs
    · exact hs

section
variable {s : State} {q : Nat} {x : QueuePair} (hq : s.qp q = some x)
include hq

theorem roceAckTimeoutEffect_idle (h : x.failed = true ∨ x.reqs = []) : roceAckTimeoutEffect q s = s := by
  simp only [roceAckTimeoutEffect, hq]
  exact if_pos (h.imp_right fun e => by rw [e]; rfl)

/-- The seventh retry of a request fails its queue pair. -/
theorem roceAckTimeoutEffect_fails (hf : x.failed = false) (hr : x.reqs ≠ []) (h : 7 ≤ x.retries) :
    (roceAckTimeoutEffect q s).qp q = some { x with failed := true } := by
  simp only [roceAckTimeoutEffect, hq]
  rw [if_neg (by simp [hf, hr]), if_neg (Nat.not_lt.2 h)]
  exact post_keepsFailedQp _ rfl _ _ _ (fun e he hk => eq_of_mem_set he hk) (qp_setQp_self s q _)

theorem roceAckTimeoutEffect_retries (hf : x.failed = false) (hr : x.reqs ≠ []) (h : x.retries < 7) :
    roceAckTimeoutEffect q s = { s.setQp q { x with retries := x.retries + 1 } with
      regs := Regs.count64 s.regs (Reg.hptHTxbytesLo x.port) (s.host.roceFrame x.port 16 0) } := by
  simp only [roceAckTimeoutEffect, hq]
  rw [if_neg (by simp [hf, hr]), if_pos h]

theorem roceResponseEffect_idle (h : x.reqs = []) (psn : Nat) (d : List Byte) : roceResponseEffect q psn d s = s := by
  simp only [roceResponseEffect, hq, h]

theorem roceResponseEffect_other {r : RoceReq} {rest : List RoceReq} (h : x.reqs = r :: rest) {psn : Nat} (hp : r.psn ≠ psn)
    (d : List Byte) : roceResponseEffect q psn d s = s := by
  simp only [roceResponseEffect, hq, h, if_pos hp]

/-- A response that is all its request asked for lands, and its request goes. -/
theorem roceResponseEffect_lands {r : RoceReq} {rest : List RoceReq} (h : x.reqs = r :: rest) {psn : Nat} (hp : r.psn = psn)
    (hw : r.what = .image) {d : List Byte} (hd : d.length = r.len) :
    (roceResponseEffect q psn d s).hbm = s.hbm.write r.addr d ∧
      (roceResponseEffect q psn d s).host.jobLeft = s.host.jobLeft - r.len ∧
      (roceResponseEffect q psn d s).qp q = some { x with reqs := rest, retries := 0 } := by
  have htake : d.take r.len = d := List.take_of_length_le (Nat.le_of_eq hd)
  have hno : ¬ RoceWhat.image = .event := by decide
  simp only [roceResponseEffect, hq, h, hp, ne_eq, not_true, if_false, hw, hno, htake, hd, Nat.sub_self, if_true]
  exact ⟨rfl, rfl, qp_setQp_self _ q _⟩

end

/-! ### The time port (R432, R450, R459) -/

/-- The state with an offset of the time port noted. -/
def State.synced (s : State) (h n : Nat) (o : Int) (sec ns : Nat) : State :=
  { s with
    clk := { s.clk with todSec := sec, todNs := ns }
    host := { s.host with syncs := n }
    regs := Regs.put s.regs (Reg.hptHPtpofs h) (BitVec.ofInt 32 o).toNat }

/-- PTP lost: the state is that with other registers, the offset among those that stay, unlocked. -/
theorem loseLock_unlocks (s : State) {a : Nat} (ha : a ≠ Reg.hptStatus) (hm : 0x10000 ≤ a) :
    ∃ r, s.loseLock = { s with regs := r } ∧ Regs.nat r a = s.reg a ∧ Regs.fld r Reg.aonTime 1 1 = 0 := by
  have hsat : ∀ x ∈ satOf Reg.aonEvcHoldover, x.1 < 0x10000 := by decide
  have htime : a ≠ Reg.aonTime := Nat.ne_of_gt (Nat.lt_of_lt_of_le (by decide) hm)
  unfold State.loseLock
  split
  next hfree => exact ⟨s.regs, rfl, rfl, hfree⟩
  · refine ⟨_, rfl, ?_, ?_⟩
    · exact (nat_count_ne _ 1 (Nat.ne_of_gt (Nat.lt_of_lt_of_le (by decide) hm)) fun x hx =>
        Nat.ne_of_gt (Nat.lt_of_lt_of_le (hsat x hx) hm)).trans ((nat_putFld_ne _ _ _ _ htime).trans
        ((nat_putFld_ne _ _ _ _ htime).trans (nat_putFld_ne _ _ _ _ ha)))
    · calc _ = _ := fld_of_nat (nat_count_ne _ 1 (by decide) (by decide)) 1 1
        _ = _ := fld_putFld_apart _ _ 1 (by decide) (by decide)
        _ = 0 := fld_putFld_self _ _ 0 (by decide)

/-- PTP locked, with no re-plan that waited. -/
theorem gainLock_locks {s : State} (h : s.aon.deferred = none) :
    ∃ r, s.gainLock = { s with regs := r } ∧ Regs.fld r Reg.aonTime 1 1 = 1 ∧ Regs.fld r Reg.aonTime 2 1 = 0 := by
  have hshown (r : Tbl Word) : Regs.fld (Regs.putFld (Regs.putFld r Reg.aonTime 1 1 1) Reg.aonTime 2 1 0) Reg.aonTime 1 1 = 1 ∧
      Regs.fld (Regs.putFld (Regs.putFld r Reg.aonTime 1 1 1) Reg.aonTime 2 1 0) Reg.aonTime 2 1 = 0 :=
    ⟨(fld_putFld_apart _ _ 0 (by decide) (by decide)).trans (fld_putFld_self _ _ 1 (by decide)),
      fld_putFld_self _ _ 0 (by decide)⟩
  have hready (t : State) (ht : t.aon.deferred = none) : (if t.aon.deferred.isSome then t.replan else t) = t :=
    if_neg (by rw [ht]; exact Bool.false_ne_true)
  have hother (r : Tbl Word) (lo w : Nat) :
      Regs.fld (Regs.putFld r Reg.hptStatus 0 3 2) Reg.aonTime lo w = Regs.fld r Reg.aonTime lo w :=
    fld_of_nat (nat_putFld_ne _ _ _ _ (by decide)) lo w
  unfold State.gainLock
  dsimp only
  split
  · rw [hready]
    · exact ⟨_, rfl, (hother _ 1 1).trans (hshown _).1, (hother _ 2 1).trans (hshown _).2⟩
    · exact h
  · rw [hready]
    · exact ⟨_, rfl, hshown _⟩
    · exact h

section
variable {s : State} {h sec ns : Nat} {o : Int} (hsec : sec < 2 ^ 48) (hns : ns < 1000000000) (ht : s.timePort = some h)
include hsec hns ht

/-- An offset beyond 100 ns loses the lock. -/
theorem ptpSyncEffect_far (ho : o < -100 ∨ 100 < o) : ptpSyncEffect h o sec ns s = (s.synced h 0 o sec ns).loseLock := by
  have hnear : (decide (-100 ≤ o) && decide (o ≤ 100)) = false := by
    simp only [Bool.and_eq_false_iff, decide_eq_false_iff_not]
    omega
  simp only [ptpSyncEffect, ht, hnear, ne_eq, not_true, if_false, Nat.mod_eq_of_lt hsec, Nat.mod_eq_of_lt hns]
  rfl

/-- The sixteenth in a row within it locks PTP. -/
theorem ptpSyncEffect_near (hlo : -100 ≤ o) (hhi : o ≤ 100) : ptpSyncEffect h o sec ns s =
    (let t := s.synced h (s.host.syncs + 1) o sec ns
     if 16 ≤ s.host.syncs + 1 ∧ t.fld Reg.aonTime 1 1 = 0 then t.gainLock else t) := by
  have hnear : (decide (-100 ≤ o) && decide (o ≤ 100)) = true := by
    rw [decide_eq_true hlo, decide_eq_true hhi]
    rfl
  simp only [ptpSyncEffect, ht, hnear, ne_eq, not_true, if_false, Nat.mod_eq_of_lt hsec, Nat.mod_eq_of_lt hns]
  rfl

end

end Sys2Proof.Machine
end

section
open Sys2Proof Sys2Proof.Machine

/-- Settles O51: it holds. A queue pair answers by its oldest request (`roceAckTimeoutEffect_fails`,
`roceResponseEffect_lands`); an offset of the time port is noted and then locks PTP, loses it or does neither
(`ptpSyncEffect_near`, `ptpSyncEffect_far`). -/
theorem queuePairsAndTimeFollow : Obligations.QueuePairsAndTimeFollow := by
  unfold Obligations.QueuePairsAndTimeFollow
  refine ⟨fun q psn d s hr hq hpsn => ?pairs, fun h sec ns o s hr hh hsec hns => ?time⟩
  case pairs =>
    have hwf : decide (q < 65536) = true := decide_eq_true hq
    rw [exec_running (i := .roceAckTimeout q) hr hwf rfl, exec_running (i := .cnp q) hr hwf rfl,
      exec_running (i := .roceRateRecovery q) hr hwf rfl,
      exec_running (i := .roceResponse q psn d) hr (decide_eq_true ⟨hq, hpsn⟩) rfl]
    refine ⟨fun hnone => ?_, fun x hx => ⟨?_, ?_, fun hidle => ?_, fun hf hreqs => ⟨fun hlt => ?_, fun hge => ?_⟩, fun hnil => ?_,
      fun r rest hreqs => ⟨fun hne => ?_, fun hpsn hw hlen => ?_⟩⟩⟩
    · simp only [roceAckTimeoutEffect, cnpEffect, roceRateRecoveryEffect, roceResponseEffect, hnone, and_self]
    · simp only [cnpEffect, hx]
    · cases hc : x.cnpNs with
      | none => simp only [roceRateRecoveryEffect, hx, hc]
      | some c => simp only [roceRateRecoveryEffect, hx, hc]
    · rw [roceAckTimeoutEffect_idle hx hidle]
    · refine ⟨_, rfl, ?_⟩
      rw [roceAckTimeoutEffect_retries hx hf hreqs hlt]
      exact ⟨rfl, qp_setQp_self s q _, rfl⟩
    · exact ⟨_, _, rfl, roceAckTimeoutEffect_fails hx hf hreqs hge, rfl⟩
    · rw [roceResponseEffect_idle hx hnil]
    · rw [roceResponseEffect_other hx hreqs hne]
    · exact ⟨_, rfl, roceResponseEffect_lands hx hreqs hpsn hw hlen⟩
  case time =>
    rw [exec_running (i := .ptpSync h o sec ns) hr (decide_eq_true ⟨hh, hsec, hns⟩) rfl]
    refine ⟨fun hno => congrArg _ (if_pos hno), fun ht => ⟨fun hfar => ⟨_, rfl, ?far⟩, fun hlo hhi hfew => ⟨_, rfl, ?few⟩,
      fun hlo hhi hmany hready => ⟨_, rfl, ?many⟩⟩⟩
    all_goals
      have htime (n lo w : Nat) : (s.synced h n o sec ns).fld Reg.aonTime lo w = s.fld Reg.aonTime lo w :=
        fld_of_nat (Regs.nat_put_ne _ _ _ _ (by unfold Reg.hptHPtpofs Reg.aonTime; omega)) lo w
    case far =>
      obtain ⟨r, e, hofs, hlock⟩ := loseLock_unlocks (s.synced h 0 o sec ns) (a := Reg.hptHPtpofs h)
        (by unfold Reg.hptHPtpofs Reg.hptStatus; omega) (by unfold Reg.hptHPtpofs; omega)
      rw [ptpSyncEffect_far hsec hns ht hfar, e]
      refine ⟨rfl, rfl, rfl, hofs.trans ?_, hlock⟩
      exact (Regs.nat_put_self _ _ _).trans (Nat.mod_eq_of_lt (BitVec.isLt _))
    case few =>
      rw [ptpSyncEffect_near hsec hns ht hlo hhi]
      dsimp only
      rw [if_neg (by omega)]
      exact ⟨rfl, rfl, rfl, htime _ 1 1⟩
    case many =>
      rw [ptpSyncEffect_near hsec hns ht hlo hhi]
      dsimp only
      rw [htime]
      split
      · obtain ⟨r, e, hlock, hhold⟩ := gainLock_locks (s := s.synced h (s.host.syncs + 1) o sec ns) hready
        rw [e]
        exact ⟨rfl, rfl, hlock, fun _ => hhold⟩
      next hno =>
        have hlocked : s.fld Reg.aonTime 1 1 = 1 := by
          have hlt : s.fld Reg.aonTime 1 1 < 2 := Nat.mod_lt _ (by decide)
          omega
        exact ⟨rfl, rfl, (htime _ 1 1).trans hlocked, fun hz => by omega⟩

end

section
/-! SUPPORT. Commands of the instruction streams to an isolated unit (15_gauntlet_faults_counters_test, R488). -/

namespace Sys2Proof.Machine

section
variable {s : State} {c : Cmd} (h : s.isolated (cmdUnit c) = true)
include h

theorem prodEffect_isolated : prodEffect c s = s.count Reg.gntEvcIsocmd := if_pos h

theorem drainEffect_isolated (step : Nat) : drainEffect c step s = s.count Reg.gntEvcIsocmd := if_pos h

theorem rowIssue_isolated (k : RowOp) (step : Nat) : rowIssue k c step s = s.count Reg.gntEvcIsocmd := if_pos h

theorem seamIssue_isolated (op : SeamOp) : seamIssue op c s = s.count Reg.gntEvcIsocmd := if_pos h

theorem startEffect_isolated (step : Nat) : startEffect c step s = s.count Reg.gntEvcIsocmd := if_pos h

end

end Sys2Proof.Machine
end

section
open Sys2Proof Sys2Proof.Machine

/-- Settles O12: it holds. Each of the twelve commands is delivered to its unit, which counts it where it is isolated. -/
theorem isolatedUnitTakesNoCommand : Obligations.IsolatedUnitTakesNoCommand := by
  unfold Obligations.IsolatedUnitTakesNoCommand
  intro c s i hr hmem hw hi
  simp only [List.mem_cons, List.not_mem_nil, or_false] at hmem
  rcases hmem with rfl | rfl | rfl | rfl | rfl | rfl | rfl | rfl | rfl | rfl | rfl | rfl
  · exact (exec_running hr hw rfl).trans (congrArg _ (prodEffect_isolated hi))
  · exact (exec_running hr hw rfl).trans (congrArg _ (drainEffect_isolated hi _))
  iterate 5 exact (exec_running hr hw rfl).trans (congrArg _ (rowIssue_isolated hi _ _))
  iterate 4 exact (exec_running hr hw rfl).trans (congrArg _ (seamIssue_isolated hi _))
  · exact (exec_running hr hw rfl).trans (congrArg _ (startEffect_isolated hi _))

end

section
/-! SUPPORT. Reads of the register window and the JTAG port (16_register_interface, R528 to R531; 17_package_and_electrical,
R545). -/

namespace Sys2Proof.Machine

/-- The bytes of a number are those of its low bits. -/
theorem leBytes_mod (n v : Nat) : leBytes n (v % 2 ^ (8 * n)) = leBytes n v := by
  induction n generalizing v with
  | zero => rfl
  | succ n ih =>
    have hpow : 2 ^ (8 * (n + 1)) = 256 * 2 ^ (8 * n) := by rw [Nat.mul_succ, Nat.pow_add, Nat.mul_comm]
    have hbyte : BitVec.ofNat 8 (v % (256 * 2 ^ (8 * n))) = BitVec.ofNat 8 v :=
      BitVec.eq_of_toNat_eq (Nat.mod_mul_right_mod v 256 _)
    rw [hpow, leBytes, leBytes, hbyte, Nat.mod_mul_right_div_self, ih]

/-! ### Reads -/

/-- A read that its master may issue, outside the quiet power states, of a block in the core domain (R523). -/
theorem readAccess_inCoreDomain {s : State} {m : Master} {a : Nat} (hi : s.mayIssue m = true) (hq : s.quiet = false)
    (ht : (targetOf a).inCoreDomain) (z : Nat) : s.readAccess m a z =
      { ((s.afterAccess m).readSized m a z).1 with bus := leBytes z ((s.afterAccess m).readSized m a z).2 } := by
  rw [← accessTime_inCoreDomain hq ht, ← checkParity_of_not_gnt (s.accessTime m (targetOf a)) fun x => (ht x).2]
  simp [State.readAccess, hi, hq]

/-- An unaligned read returns all ones and is counted in the block addressed (R531). -/
theorem readSized_misfit (s : State) (m : Master) {a z : Nat} (hz : 0 < z) (h : a % z ≠ 0) :
    s.readSized m a z = (s.violAt (targetOf a).block, ones z) := by
  have h1 : max 1 z = z := by omega
  rw [State.readSized, h1, if_pos h]

theorem readSized_word (s : State) (m : Master) {a : Nat} (ha : a % 4 = 0) :
    s.readSized m a 4 = ((s.readWord m (targetOf a)).1, (s.readWord m (targetOf a)).2 % 2 ^ 32) := by
  have hz : max 1 4 = 4 := rfl
  rw [State.readSized, hz, if_neg (by omega), if_neg (by omega), show a / 4 * 4 = a by omega, ha]
  exact Prod.ext rfl (congrArg (· % 2 ^ 32) (Nat.div_one _))

theorem readSized_pair (s : State) (m : Master) {a : Nat} (ha : a % 8 = 0) : s.readSized m a 8 = s.readPair m a := by
  have hz : max 1 8 = 8 := rfl
  rw [State.readSized, hz, if_neg (by omega), if_pos rfl]

/-- Nothing refused is counted. -/
theorem taccCount_none (s : State) (n : Nat) : s.taccCount false n = s := rfl

section
variable {s : State} {m : Master} {b : Block} {n off a : Nat} (hb : b ∈ plainBlocks) (hl : locate a = some (b, n, off))
include hb hl

/-- A direct read of a word of these blocks: its value, and the latch of a low word (R528, R529). -/
theorem readWord_plain : s.readWord m (targetOf a) = (s.latch m b n off, s.peek m b n off) := by
  obtain ⟨-, -, hme, -⟩ := plainBlocks_ne b hb
  have hblock : (Target.direct a).block = some (b, n, off) := hl
  have hopen : s.taccRefused m b n off = false := by
    simp [State.taccRefused, hme]
  rw [targetOf_direct (lt_of_locate hl)]
  simp only [State.readWord, hblock, hopen, Bool.false_and, Bool.false_eq_true, if_false, taccCount_none]

/-- A 64-bit read of a powered pair returns both its words as they stand (R530). -/
theorem readPair_plain (hp : s.poweredOff b n = false) {r r' : RegRow} (hr : b.regRow n off = some r)
    (hr' : b.regRow n (off + 4) = some r') :
    s.readPair m a = (s.latch m b n off, s.liveIn b n off + 2 ^ 32 * s.liveIn b n (off + 4)) := by
  obtain ⟨-, -, hme, -⟩ := plainBlocks_ne b hb
  have hblock : (Target.direct a).block = some (b, n, off) := hl
  have hne : (b == .me) = false := beq_false_of_ne hme
  simp only [State.readPair, targetOf_direct (lt_of_locate hl), hblock, hp, hr, hr', hne, Option.isNone_some, Bool.or_self,
    Bool.false_eq_true, if_false, Bool.false_and, taccCount_none]

end

section
variable (s : State) (m : Master) {b : Block} {n off : Nat}

/-- The latch is of the shadows alone. -/
theorem latch_frame : ∃ x, s.latch m b n off = { s with shadows := x } := by
  unfold State.latch
  split
  · exact ⟨_, rfl⟩
  · split
    · exact ⟨_, rfl⟩
    · exact ⟨s.shadows, rfl⟩

/-- Without a shadow a powered register reads as it stands. -/
theorem peek_unlatched {r : RegRow} (hp : s.poweredOff b n = false) (hr : b.regRow n off = some r)
    (hs : Tbl.get? s.shadows (b.base n) = none) : s.peek m b n off = s.liveIn b n off := by
  simp only [State.peek, hp, hr, hs, Option.isNone_some, Bool.or_self, Bool.false_eq_true, if_false]

/-- A read of a low word latches the word above it (R529). -/
theorem latch_low (ha : b ≠ .aon) (hme : b ≠ .me) (hp : s.poweredOff b n = false) (hlow : b.isLow n off = true) :
    s.latch m b n off = { s with
      shadows := s.shadows.set (b.base n) ⟨off, m.unit, BitVec.ofNat 32 (s.liveIn b n (off + 4)), 0, false⟩ } := by
  have hne : (b == .me) = false := beq_false_of_ne hme
  simp only [State.latch, ha, false_and, if_false, hlow, hp, Bool.not_false, Bool.and_self, if_true, hne, Bool.false_and]

end

/-- The same master's read of the high word then returns what was latched. -/
theorem peek_latched {s : State} {m : Master} {b : Block} {n off v : Nat} (ha : b ≠ .aon) (hp : s.poweredOff b n = false)
    (hlow : b.isLow n off = true)
    (hs : Tbl.get? s.shadows (b.base n) = some ⟨off, m.unit, BitVec.ofNat 32 v, 0, false⟩) :
    s.peek m b n (off + 4) = v % 2 ^ 32 * b2n (b.regRow n (off + 4)).isSome := by
  cases hrow : b.regRow n (off + 4) with
  | none =>
    simp only [State.peek, hrow, Option.isNone_none, Bool.or_true, if_true]
    rfl
  | some r =>
    simp only [State.peek, hp, hrow, Option.isNone_some, Bool.or_self, Bool.false_eq_true, if_false, hs, ne_eq, not_true,
      ha, false_and, hlow, and_self, if_true]
    exact (Nat.mul_one _).symm

theorem exec_registerRead {m : Master} {a z : Nat} (h : accessForm m a z = true) (s : State) :
    exec (.registerRead m a z) s = .next (s.readAccess m a z) := congrArg Host.Outcome.next (if_pos h)

theorem exec_lowWordRead {m : Master} {a : Nat} (hm : m.exists' = true) (ha : a < 0x1000000) (wide : Bool) (s : State) :
    exec (.lowWordRead m a wide) s = .next (s.readAccess m a (if wide then 8 else 4)) :=
  congrArg Host.Outcome.next (if_pos (by rw [wellFormed, hm, decide_eq_true ha]; rfl))

/-! ### JTAG (R545) -/

theorem exec_jtagInstruction (i : JtagInsn) (s : State) : exec (.jtagInstruction i) s = .next (jtagEffect i s) := rfl

/-- The code that IDCODE shifts out. -/
theorem leBytes_idcode : leBytes 4 0x14800A3B = [0x3B#8, 0x0A#8, 0x80#8, 0x14#8] := by decide

end Sys2Proof.Machine
end

section
open Sys2Proof Sys2Proof.Machine

/-- Settles O59: it holds. A read that may be issued acts in the state after its time, where a word reads as `State.peek`
has it and a low word latches the one above (`readWord_plain`, `latch_low`, `peek_latched`); a pair reads as it stands
(`readPair_plain`). -/
theorem windowReadsAndJtag : Obligations.WindowReadsAndJtag := by
  unfold Obligations.WindowReadsAndJtag
  refine ⟨?reads, fun s => ?jtag⟩
  case reads =>
    intro m b n off a r s hb hl ha hr hm hrun hpow hi hp u
    have hu : s.afterAccess m = u := rfl
    clear_value u
    obtain ⟨haon, hgnt, hme, -⟩ := plainBlocks_ne b hb
    have hq := not_quiet_of_running hrun hpow
    have hlt := lt_of_locate hl
    have hcore {x o : Nat} (hx : locate x = some (b, n, o)) : (targetOf x).inCoreDomain := by
      rw [targetOf_direct (lt_of_locate hx)]
      exact Target.inCoreDomain_of_block hx haon hgnt
    obtain ⟨c, f, e⟩ := afterAccess_parts s m
    rw [hu] at e
    have hp' : u.poweredOff b n = false := by
      rw [e]
      exact hp
    have hword : s.readAccess m a 4 = { u.latch m b n off with bus := leBytes 4 (u.peek m b n off) } := by
      rw [readAccess_inCoreDomain hi hq (hcore hl), hu, readSized_word _ _ ha, readWord_plain hb hl, ← leBytes_mod 4 (u.peek m b n off)]
    rw [exec_registerRead (accessForm_of hm (by omega) (by decide)), exec_lowWordRead hm (by omega),
      exec_lowWordRead hm (by omega), if_neg Bool.false_ne_true, if_pos rfl, hword]
    refine ⟨⟨_, rfl, rfl, ?_⟩, fun hnone => ?_, fun hlow => ⟨⟨_, rfl, rfl, ?_, ?_⟩, fun h8 hsome => ⟨_, rfl, ?_⟩⟩,
      fun i z hi' hz hmis hl' => ?_⟩
    · obtain ⟨x, el⟩ := latch_frame u m (b := b) (n := n) (off := off)
      rw [el, e]
      exact ⟨rfl, rfl⟩
    · exact peek_unlatched u m hp' hr (by rw [e]; exact hnone)
    · rw [latch_low u m haon hme hp' hlow]
      exact Tbl.get?_set_self _ _ _
    · rw [latch_low u m haon hme hp' hlow]
      exact peek_latched haon hp' hlow (Tbl.get?_set_self _ _ _)
    · obtain ⟨r', hr'⟩ := Option.isSome_iff_exists.mp hsome
      rw [readAccess_inCoreDomain hi hq (hcore hl), hu, readSized_pair _ _ h8, readPair_plain hb hl hp' hr hr']
    · have hsize : 0 < z ∧ z ∈ [1, 2, 4, 8] := by
        simp only [List.mem_cons, List.not_mem_nil, or_false] at hz ⊢
        omega
      have hlt' := lt_of_locate hl'
      have hblock : (targetOf (a + i)).block = some (b, n, off + i) := by
        rw [targetOf_direct hlt']
        exact hl'
      rw [exec_registerRead (accessForm_of hm (by omega) hsize.2), readAccess_inCoreDomain hi hq (hcore hl'), hu,
        readSized_misfit _ _ hsize.1 hmis, hblock]
      rfl
  case jtag =>
    simp only [exec_jtagInstruction]
    refine ⟨rfl, rfl, ?_, fun hopen => ?_, fun hpow hshut => ?_, fun k => ⟨fun hopen => ?_, fun hshut => ?_⟩⟩
    · rw [← leBytes_idcode]
      rfl
    · have hok : (s.power == 0 || s.testPermit) = true := by simpa using hopen
      simp [jtagEffect, hok]
    · have hno : (s.power == 0 || s.testPermit) = false := by simp [hpow, hshut]
      simp [jtagEffect, hno]
    · simp [jtagEffect, hopen]
    · simp [jtagEffect, hshut]

end

section
/-! SUPPORT. Firmware's writes to Gauntlet and to Visor's decision log (15_gauntlet_faults_counters_test, R486, R490, R493,
R504; 16_register_interface, R523, R526). -/

namespace Sys2Proof.Machine

/-! ### Accesses to Gauntlet -/

/-- The state when an access of the core domain to Mitten or Gauntlet acts (R523, R557). -/
def State.afterGntAccess (s : State) : State := (s.atAc (s.clk.acnt + 9 + s.freeBelow 2)).tookFree

theorem afterGntAccess_parts (s : State) : ∃ c f, s.afterGntAccess = { s with clk := c, free := f } := by
  obtain ⟨c, e⟩ := atAc_clk s (s.clk.acnt + 9 + s.freeBelow 2)
  exact ⟨c, s.free + 1, by rw [State.afterGntAccess, e]; rfl⟩

section
variable {s : State} {m : Master} {off a v : Nat} {r : RegRow} (hl : locate a = some (.gnt, 0, off))
include hl

theorem accessTime_gnt (hm : m ≠ .mitten) : s.accessTime m (targetOf a) = s.afterGntAccess := by
  have hblock : (Target.direct a).block = some (.gnt, 0, off) := hl
  rw [targetOf_direct (lt_of_locate hl), State.accessTime, hblock]
  exact if_neg hm

/-- A word write to Gauntlet by a core that may issue it: it acts when its time has passed, or is refused and counted. -/
theorem writeAccess_gnt (hi : s.mayIssue m = true) (hq : s.quiet = false) (hm : m ≠ .mitten) (hin : m ≠ .remote)
    (hbad : s.gnt.bad = []) (hal : a % 4 = 0) (hr : Block.gnt.regRow 0 off = some r) (hv : v < 2 ^ 32) :
    s.writeAccess m a 4 v = if gntMayWrite m off v then s.afterGntAccess.writeFields m .gnt 0 off r v
      else s.afterGntAccess.count Reg.gntEvcViol := by
  obtain ⟨c, f, e⟩ := afterGntAccess_parts s
  have hparity : s.afterGntAccess.checkParity (targetOf a) = s.afterGntAccess :=
    checkParity_quiet _ _ (by rw [e]; exact hbad)
  rw [writeAccess_issued hi hq, accessTime_gnt hl hm, hparity, writeSized_word _ _ hal, State.writeAt,
    targetOf_direct (lt_of_locate hl), Nat.mod_eq_of_lt hv]
  exact writeWord_located hl hr hin rfl v

end

/-- A write to Gauntlet leaves other registers behind and acts. -/
theorem writeFields_gnt (s : State) (m : Master) (off : Nat) (r : RegRow) (v : Nat) :
    ∃ g, s.writeFields m .gnt 0 off r v = { s with regs := g }.actOn m .gnt 0 off v := by
  unfold State.writeFields
  dsimp only
  split <;> exact ⟨_, rfl⟩

/-- One that changes no reserved bit leaves the register's other bits behind and acts. -/
theorem writeFields_gnt_stored (s : State) (m : Master) (off : Nat) {r : RegRow} {v : Nat}
    (h : (s.reg (0x10000 + off) ^^^ v) &&& r.rwt = 0) : s.writeFields m .gnt 0 off r v =
      (s.put (0x10000 + off) (r.stored s.testPermit (s.reg (0x10000 + off)) v)).actOn m .gnt 0 off v := by
  have hset : s.settleFor .gnt 0 off = s := rfl
  have hword : (s.reg (Block.gnt.base 0 + off) ^^^ v) &&& r.rwt = 0 := h
  rw [State.writeFields, hset, if_pos hword]
  rfl

/-! ### What writes to Gauntlet do (R486, R493) -/

section
variable (s : State) (m : Master) (v : Nat)

theorem actOn_gntAck : s.actOn m .gnt 0 0x14 v = s.ack (bits v 0 6) (bits v 8 2) := rfl

theorem actOn_gntOpen0 : s.actOn m .gnt 0 0x18 v = s.dismissBits 0 v := rfl

theorem actOn_gntOpen1 : s.actOn m .gnt 0 0x1C v = s.dismissBits 32 v := rfl

theorem actOn_gntWdt (k : Nat) : s.actOn (.policy k) .gnt 0 0x20 1 = s.restartWatchdog k := rfl

theorem actOn_gntCtrl : s.actOn m .gnt 0 0x28 1 = s.unfreeze := rfl

end

/-! ### Answers to records -/

/-- An answer to an entry, below 64, sets no reserved bit of `GNT_ACK`. -/
theorem ackWord_reserved : ∀ e < 64, ∀ d < 4, (e + 256 * d) &&& 0xFFFFFCC0 = 0 := by decide +kernel

/-- It leaves nothing in the register, and is answered. -/
theorem writeFields_gntAck {s : State} (h0 : s.reg Reg.gntAck = 0) (m : Master) {e d : Nat} (he : e < 64) (hd : d < 4)
    {r : RegRow} (hr : Block.gnt.regRow 0 0x14 = some r) :
    s.writeFields m .gnt 0 0x14 r (e + 256 * d) = (s.put Reg.gntAck 0).ack e d := by
  obtain ⟨hrwt, hrw⟩ : r.rwt = 0xFFFFFCC0 ∧ r.mask .rw = 0 := by
    obtain rfl := Option.some.inj hr
    decide
  have hcur : s.reg (0x10000 + 0x14) = 0 := h0
  have hres := ackWord_reserved e he d hd
  have hstored : r.stored s.testPermit 0 (e + 256 * d) = 0 := by
    rw [RegRow.stored, hrw, hrwt]
    split <;> simp only [Nat.zero_and, Nat.and_zero, hres]
  have hentry : bits (e + 256 * d) 0 6 = e := by
    unfold bits
    omega
  have hdisp : bits (e + 256 * d) 8 2 = d := by
    unfold bits
    omega
  rw [writeFields_gnt_stored _ _ _ (by rw [hcur, Nat.zero_xor, hrwt, hres]), hcur, hstored]
  rw [actOn_gntAck, hentry, hdisp]
  rfl

/-- A register of W1C bits alone keeps those not written as 1. -/
theorem stored_w1c (permit : Bool) {cur v : Nat} (hc : cur < 2 ^ 32) (hv : v < 2 ^ 32) {r : RegRow}
    (hr : r.fields = [⟨31, 0, .w1c⟩]) : r.rwt = 0 ∧ r.stored permit cur v = cur &&& (2 ^ 32 - 1 - v) := by
  have hcur : cur &&& 2 ^ 32 - 1 = cur := by rw [Nat.and_two_pow_sub_one_eq_mod, Nat.mod_eq_of_lt hc]
  have hw1c : r.mask .w1c = 2 ^ 32 - 1 := by rw [RegRow.mask, hr]; decide
  have hro : r.mask .ro = 0 := by rw [RegRow.mask, hr]; decide
  have hrw : r.mask .rw = 0 := by rw [RegRow.mask, hr]; decide
  have hwo : r.mask .wo = 0 := by rw [RegRow.mask, hr]; decide
  have hrwt : r.rwt = 0 := by
    rw [RegRow.rwt, hro, hrw, hw1c, hwo]
    rfl
  refine ⟨hrwt, ?_⟩
  rw [RegRow.stored, hw1c, hro, hrw, hrwt, hcur, Nat.mod_eq_of_lt hv]
  simp only [Nat.and_zero, Nat.zero_add, Nat.add_zero]

section
variable (s : State) (m : Master) {v : Nat} (hv : v < 2 ^ 32) {r : RegRow}
include hv

theorem writeFields_gntOpen0 (hr : Block.gnt.regRow 0 0x18 = some r) : s.writeFields m .gnt 0 0x18 r v =
    (s.put Reg.gntOpen0 (s.reg Reg.gntOpen0 &&& (2 ^ 32 - 1 - v))).dismissBits 0 v := by
  obtain ⟨hrwt, hstored⟩ := stored_w1c s.testPermit (regs_nat_lt s.regs Reg.gntOpen0) hv (r := r)
    (by obtain rfl := Option.some.inj hr; rfl)
  rw [writeFields_gnt_stored _ _ _ (by rw [hrwt, Nat.and_zero]), actOn_gntOpen0]
  exact congrArg (fun x => (s.put Reg.gntOpen0 x).dismissBits 0 v) hstored

theorem writeFields_gntOpen1 (hr : Block.gnt.regRow 0 0x1C = some r) : s.writeFields m .gnt 0 0x1C r v =
    (s.put Reg.gntOpen1 (s.reg Reg.gntOpen1 &&& (2 ^ 32 - 1 - v))).dismissBits 32 v := by
  obtain ⟨hrwt, hstored⟩ := stored_w1c s.testPermit (regs_nat_lt s.regs Reg.gntOpen1) hv (r := r)
    (by obtain rfl := Option.some.inj hr; rfl)
  rw [writeFields_gnt_stored _ _ _ (by rw [hrwt, Nat.and_zero]), actOn_gntOpen1]
  exact congrArg (fun x => (s.put Reg.gntOpen1 x).dismissBits 32 v) hstored

end

/-- Decisions logged leave the records as they are. -/
theorem logDecision_gnt (s : State) (kind : Nat) (body : List Byte) : (s.logDecision kind body).gnt = s.gnt :=
  (logDecision_logged s kind body).kept.1

theorem openRecord_some {s : State} {e : Nat} {r : FaultRec} (h : s.openRecord e = some r) : Tbl.get? s.gnt.recs e = some r := by
  unfold State.openRecord at h
  split at h
  next x hx =>
    split at h
    · obtain rfl := Option.some.inj h
      exact hx
    · cases h
  · cases h

/-- A table whose entry at a key is passed through a function. -/
theorem get?_map_at {α : Type} (t : Tbl α) (k : Nat) (f : α → α) :
    Tbl.get? (t.map fun p => if p.1 = k then (p.1, f p.2) else p) k = (Tbl.get? t k).map f := by
  induction t with
  | nil => rfl
  | cons p t ih =>
    unfold Tbl.get? at ih ⊢
    by_cases hp : p.1 = k
    · simp [hp]
    · simp only [List.map_cons, if_neg hp, List.find?_cons, beq_false_of_ne hp]
      exact ih

/-- A dismissed record is closed, at the stage it had. -/
theorem handle_dismisses {s : State} {e : Nat} {r : FaultRec} (h : Tbl.get? s.gnt.recs e = some r) :
    Tbl.get? (s.handle e r 0).gnt.recs e = some { r with stage := max r.stage 0, isOpen := false } := by
  refine (get?_map_at s.gnt.recs e fun x => { x with stage := max x.stage 0, isOpen := false }).trans ?_
  rw [h]
  rfl

/-! ### Entries of the decision log that firmware posts (R504) -/

/-- With room and none waiting before it an entry is staged. -/
theorem goEntry_stages {s : State} (hw : s.vsr.goWaits = []) (hn : s.vsr.staged.length < 64) (tail : List Byte) :
    (s.goEntry tail).vsr.dlogSeq = s.vsr.dlogSeq + 1 ∧ (s.goEntry tail).vsr.staged.length = s.vsr.staged.length + 1 := by
  rw [State.goEntry, if_pos (by rw [hw, decide_eq_true hn]; rfl), State.stage]
  dsimp only
  obtain ⟨h, r, e⟩ := post_host _ _ _ _
  rw [e]
  exact ⟨rfl, List.length_append⟩

/-- Without, it waits. -/
theorem goEntry_waits {s : State} (h : s.vsr.goWaits ≠ [] ∨ 64 ≤ s.vsr.staged.length) (tail : List Byte) :
    s.goEntry tail = { s with vsr := { s.vsr with goWaits := s.vsr.goWaits ++ [tail] } } := by
  refine if_neg ?_
  simp only [Bool.and_eq_true, List.isEmpty_iff, decide_eq_true_eq]
  rintro ⟨hw, hn⟩
  exact h.elim (fun h => h hw) fun h => Nat.not_lt.2 h hn

/-- The entry window shows its registers. -/
theorem windowTail_of_regs {s t : State} (h : ∀ i, t.reg (Reg.vsrDlogEntry i) = s.reg (Reg.vsrDlogEntry i)) :
    t.windowTail = s.windowTail := by
  simp only [State.windowTail, h]

/-- GO written stores nothing that the window shows, and sends its entry the way of every entry. -/
theorem writeFields_dlogPost (s : State) (m : Master) (r : RegRow) :
    ∃ g, s.writeFields m .vsr 0 0x70 r 1 = { s with regs := g }.goEntry s.windowTail := by
  have hsat : ∀ x ∈ satOf Reg.vsrEvcViol, x.1 < 0x360200 := by decide
  have hcount (i : Nat) : (s.count Reg.vsrEvcViol).reg (Reg.vsrDlogEntry i) = s.reg (Reg.vsrDlogEntry i) :=
    nat_count_ne s.regs 1 (by unfold Reg.vsrDlogEntry Reg.vsrEvcViol; omega) fun x hx => by
      have := hsat x hx
      unfold Reg.vsrDlogEntry
      omega
  have hact (t : State) (w : Nat) (ht : ∀ i, t.reg (Reg.vsrDlogEntry i) = s.reg (Reg.vsrDlogEntry i)) :
      (t.storeWord .vsr 0 0x70 w).actOn m .vsr 0 0x70 1 = (t.put Reg.vsrDlogPost w).goEntry s.windowTail :=
    congrArg (t.put Reg.vsrDlogPost w).goEntry (windowTail_of_regs fun i =>
      (Regs.nat_put_ne _ Reg.vsrDlogPost _ _ (by unfold Reg.vsrDlogEntry Reg.vsrDlogPost; omega)).trans (ht i))
  unfold State.writeFields
  dsimp only
  split
  · exact ⟨_, hact s _ fun _ => rfl⟩
  · exact ⟨_, hact _ _ hcount⟩

/-- A policy core's GO, when its time has passed. -/
theorem writeAccess_dlogPost {s : State} {k : Nat} (hi : s.mayIssue (.policy k) = true) (hq : s.quiet = false) :
    ∃ t : State, t.vsr = s.vsr ∧ s.writeAccess (.policy k) 0x360070 4 1 = t.goEntry s.windowTail := by
  have hblock : (targetOf 0x360070).block = some (.vsr, 0, 0x70) := rfl
  have hmay (u : State) (v : Nat) : u.mayWrite (.policy k) .vsr 0 0x70 v = true := rfl
  obtain ⟨r, hrow⟩ : ∃ r, Block.vsr.regRow 0 0x70 = some r := ⟨_, rfl⟩
  obtain ⟨c, f, e⟩ := afterAccess_parts s (.policy k)
  obtain ⟨g, ew⟩ := writeFields_dlogPost (s.afterAccess (.policy k)) (.policy k) r
  rw [writeAccess_inCoreDomain hi hq (Target.inCoreDomain_of_block hblock (by decide) (by decide)),
    writeSized_word _ _ (by decide), State.writeAt, targetOf_direct (by decide)]
  dsimp only
  rw [writeWord_located rfl hrow Master.noConfusion rfl, hmay, if_pos rfl]
  refine ⟨_, ?_, ew.trans (congrArg _ (windowTail_of_regs (afterAccess_reg s (.policy k) <| Reg.vsrDlogEntry ·)))⟩
  rw [e]

end Sys2Proof.Machine
end

section
open Sys2Proof Sys2Proof.Machine

/-- Settles O57: it holds. A policy core's write acts in Gauntlet when its time has passed (`writeAccess_gnt`): an answer is
that to its record (`writeFields_gntAck`), which a dismissal closes (`handle_dismisses`). -/
theorem firmwareAnswersFaults : Obligations.FirmwareAnswersFaults := by
  unfold Obligations.FirmwareAnswersFaults
  intro k e v s hk he hr hpow hbad m u w
  have hq := not_quiet_of_running hr hpow
  have hi : s.mayIssue m = true := by
    rw [State.mayIssue, coreRunning_porst hr, hq, hr.2]
    rfl
  have hm : m.exists' = true := decide_eq_true hk
  have hv := v.isLt
  obtain ⟨c, f, eu⟩ := afterGntAccess_parts s
  change u = _ at eu
  have hgnt {a off : Nat} {r : RegRow} {x : Nat} (hl : locate a = some (.gnt, 0, off)) (hal : a % 4 = 0)
      (hrow : Block.gnt.regRow 0 off = some r) (hx : x < 2 ^ 32) (hmay : gntMayWrite m off x = true) :
      s.writeAccess m a 4 x = u.writeFields m .gnt 0 off r x :=
    (writeAccess_gnt hl hi hq Master.noConfusion Master.noConfusion hbad hal hrow hx).trans (if_pos hmay)
  have hack (d : Nat) (hd : d < 4) (h0 : s.reg Reg.gntAck = 0) : s.writeAccess m 0x10014 4 (e + 256 * d) = w.ack e d := by
    rw [hgnt rfl rfl rfl (by omega) rfl, writeFields_gntAck (by rw [eu]; exact h0) m he hd rfl]
  have hform : (m.exists' && decide (e < 64)) = true := by rw [hm, decide_eq_true he]; rfl
  have hexec (h0 : s.reg Reg.gntAck = 0) : exec (.ackDismiss m e) s = .next (w.ack e 0) ∧
      exec (.ackAbort m e) s = .next (w.ack e 1) ∧ exec (.ackIsolate m e) s = .next (w.ack e 2) ∧
      exec (.ackSafe m e) s = .next (w.ack e 3) :=
    ⟨congrArg _ ((if_pos hform).trans (hack 0 (by decide) h0)), congrArg _ ((if_pos hform).trans (hack 1 (by decide) h0)),
      congrArg _ ((if_pos hform).trans (hack 2 (by decide) h0)), congrArg _ ((if_pos hform).trans (hack 3 (by decide) h0))⟩
  have hopen : w.openRecord e = s.openRecord e := by
    change (u.put Reg.gntAck 0).openRecord e = _
    rw [eu]
    rfl
  refine ⟨fun h0 hnone => ?closed, fun r h0 hsome => ?opened, ?open0, ?open1, ?kick, fun n hn => ?service, ?unfreeze, ?post,
    exec_running (i := .telemetryPeriod) hr rfl rfl⟩
  case closed =>
    obtain ⟨h1, h2, h3, h4⟩ := hexec h0
    have hw (d : Nat) : w.ack e d = w.count Reg.gntEvcViol := by simp only [State.ack, hopen, hnone]
    rw [h1, h2, h3, h4]
    simp only [hw, and_self]
  case opened =>
    obtain ⟨h1, h2, h3, h4⟩ := hexec h0
    intro l
    have hw (d : Nat) : w.ack e d = (l d).handle e r d := by simp only [State.ack, hopen, hsome, l]
    rw [h1, h2, h3, h4]
    simp only [hw, true_and]
    have hrec : Tbl.get? (l 0).gnt.recs e = some r := by
      rw [logDecision_gnt]
      exact openRecord_some (hopen.trans hsome)
    exact ⟨_, _, rfl, handle_dismisses hrec, rfl, Nat.max_zero _⟩
  case open0 =>
    have hreg : u.reg Reg.gntOpen0 = s.reg Reg.gntOpen0 := by rw [eu]; rfl
    exact congrArg _ ((if_pos hm).trans ((hgnt rfl rfl rfl hv rfl).trans ((writeFields_gntOpen0 u m hv rfl).trans (by rw [hreg]))))
  case open1 =>
    have hreg : u.reg Reg.gntOpen1 = s.reg Reg.gntOpen1 := by rw [eu]; rfl
    exact congrArg _ ((if_pos hm).trans ((hgnt rfl rfl rfl hv rfl).trans ((writeFields_gntOpen1 u m hv rfl).trans (by rw [hreg]))))
  case kick =>
    obtain ⟨r, hrow⟩ : ∃ r, Block.gnt.regRow 0 0x20 = some r := ⟨_, rfl⟩
    obtain ⟨g, e⟩ := writeFields_gnt u m 0x20 r 1
    have hw : s.writeAccess m 0x10020 4 1 = _ := (hgnt rfl rfl hrow (by decide) rfl).trans e
    refine ⟨_, congrArg Host.Outcome.next ((if_pos hm).trans hw), ?_⟩
    rw [actOn_gntWdt, eu]
    exact ⟨rfl, rfl⟩
  case unfreeze =>
    obtain ⟨r, hrow⟩ : ∃ r, Block.gnt.regRow 0 0x28 = some r := ⟨_, rfl⟩
    obtain ⟨g, e⟩ := writeFields_gnt u m 0x28 r 1
    have hw : s.writeAccess m 0x10028 4 1 = _ := (hgnt rfl rfl hrow (by decide) rfl).trans e
    refine ⟨_, congrArg Host.Outcome.next ((if_pos hm).trans hw), ?_⟩
    rw [actOn_gntCtrl]
    exact ⟨rfl, fld_putFld_self _ _ 1 (by decide)⟩
  case service =>
    refine congrArg _ ((if_pos (decide_eq_true hn)).trans ?_)
    cases hs : s.mayIssue (.service n) with
    | false => exact writeAccess_idle hs _ _ _
    | true =>
      have hmay : gntMayWrite (.service n) 0x20 v.toNat = false := rfl
      exact (writeAccess_gnt rfl hs hq Master.noConfusion Master.noConfusion hbad rfl rfl hv).trans
        (if_neg (ne_true_of_eq_false hmay))
  case post =>
    obtain ⟨t, hvsr, e⟩ := writeAccess_dlogPost (k := k) hi hq
    refine ⟨_, congrArg Host.Outcome.next ((if_pos hm).trans e), ?_⟩
    rw [← hvsr]
    refine ⟨fun hwaits hfew => goEntry_stages hwaits hfew _, fun hfull => ?_⟩
    rw [goEntry_waits hfull]
    exact ⟨rfl, rfl⟩

end

section
/-! SUPPORT. PORST_N and PWRGOOD (14_mitten_power_ageing, R451, R474; 17_package_and_electrical, R544, R549). -/

namespace Sys2Proof.Machine

/-- A fall of PWRGOOD with MAIN_EN asserted comes to the state of PORST_N's assertion beside the pins and, where PORST_N
does not hold the part, the straps as `AON_BOOT` shows them. -/
theorem pwrgoodFallEffect_porst {s : State} (h : s.pins.mainEn = true) : pwrgoodFallEffect s =
    (let p := porstNAssertEffect s
     let k := if s.pins.porst then p.pins.strap else s.pins.strap
     { p with
       pins := { p.pins with porst := s.pins.porst, pwrgood := false, strap := k }
       regs := if s.pins.porst then p.regs else Regs.putFld p.regs Reg.aonBoot 13 2 k.toNat }) := by
  refine (if_pos h).trans ?_
  cases hp : s.pins.porst <;> rfl

end Sys2Proof.Machine
end

section
open Sys2Proof Sys2Proof.Machine

/-- Settles O52: it holds. Both clear all but flash and fuses, and only the straps in `AON_BOOT` are sampled anew
(`pwrgoodFallEffect_porst`). -/
theorem pwrgoodFallActsAsPorst : Obligations.PwrgoodFallActsAsPorst := by
  unfold Obligations.PwrgoodFallActsAsPorst
  intro s h
  have hcause : Regs.fld [] Reg.aonResetCause 0 1 = 1 := by decide
  have hregs (a : Nat) (ha : a ≠ Reg.aonBoot) : (pwrgoodFallEffect s).reg a = (porstNAssertEffect s).reg a := by
    rw [pwrgoodFallEffect_porst h]
    cases hp : s.pins.porst with
    | true => rfl
    | false => exact nat_putFld_ne _ _ _ _ ha
  have e := pwrgoodFallEffect_porst h
  refine ⟨pwrgoodFallEffect s, porstNAssertEffect s, rfl, rfl, ?_, hregs,
    (state_fld_of_reg (hregs _ (by decide)) 0 1).trans hcause, ?_, ?_, ?_⟩
  · rw [e]
  · exact congrArg (fun t => t.aon.retain) e
  · exact congrArg State.hbm e
  · exact congrArg State.tile e

end

section
/-! SUPPORT. What events, faults and the safe state leave of Mitten's registers and of the pins (13_host_ports_and_images,
R439; 15_gauntlet_faults_counters_test, R481 to R491). -/

namespace Sys2Proof.Machine

/-- Mitten's registers read in `t` as in `s`. -/
def MittenStands (s t : State) : Prop := ∀ k < 0x10000, t.reg k = s.reg k

/-- Mitten's registers read in `t` as in `s`, beside the power state and the root of the faults. -/
def MittenButSafe (s t : State) : Prop := ∀ k < 0x10000, k ≠ Reg.aonState → k ≠ Reg.aonFaultRoot → t.reg k = s.reg k

theorem MittenStands.trans {s t u : State} (h : MittenStands s t) (g : MittenStands t u) : MittenStands s u :=
  fun k hk => (g k hk).trans (h k hk)

theorem MittenStands.of_regs {s t : State} (h : t.regs = s.regs) : MittenStands s t :=
  fun k _ => congrArg (Regs.nat · k) h

theorem MittenStands.butSafe {s t : State} (h : MittenStands s t) : MittenButSafe s t := fun k hk _ _ => h k hk

theorem MittenButSafe.trans {s t u : State} (h : MittenButSafe s t) (g : MittenButSafe t u) : MittenButSafe s u :=
  fun k hk hs hr => (g k hk hs hr).trans (h k hk hs hr)

theorem count_mitten (s : State) {a : Nat} (ha : 0x10000 ≤ a) : MittenStands s (s.count a) :=
  fun _ hk => nat_count_mitten s.regs hk ha 1

/-! ### Events -/

theorem writeEvent_mitten (h : HostPorts) (r : Tbl Word) (e : HostEvent) {k : Nat} (hk : k < 0x10000) :
    Regs.nat (writeEvent h r e).2 k = Regs.nat r k := by
  have hprod (v : Nat) := nat_putPair_mitten r hk (a := Reg.hptEvqProdLo) (by decide) v
  unfold writeEvent
  dsimp only
  split
  next q _ =>
    dsimp only
    exact (nat_count64_mitten (Regs.putPair r _ _) hk (a := Reg.hptHTxbytesLo q.2.port)
      (by unfold Reg.hptHTxbytesLo; omega) _).trans (hprod _)
  next => exact hprod _

/-- An event posted writes no register of Mitten's. -/
theorem post_mitten (s : State) (kind unit : Nat) (arg : List Byte) : MittenStands s (s.post kind unit arg) := by
  intro k hk
  unfold State.post
  dsimp only
  split
  · exact writeEvent_mitten _ _ _ hk
  · split
    · rfl
    · exact nat_count_mitten s.regs hk (by decide) 1

/-! ### The safe state -/

theorem eraseKeys_mitten (s : State) : MittenStands s s.eraseKeys := by
  intro k hk
  have hlanes : Regs.nat ((List.range 12).foldl (fun r a => Regs.putFld r (Reg.cphAState a) 0 2 0) s.regs) k =
      Regs.nat s.regs k :=
    List.foldlRecOn (motive := fun r => Regs.nat r k = Regs.nat s.regs k) _ _ rfl fun r hr a _ =>
      (nat_putFld_mitten r hk (by unfold Reg.cphAState; omega) _ _ _).trans hr
  exact (nat_putFld_mitten _ hk (by decide) _ _ _).trans ((nat_putFld_mitten _ hk (by decide) _ _ _).trans
    ((nat_putFld_mitten _ hk (by decide) _ _ _).trans hlanes))

/-- The root of the faults is noted in its own register. -/
theorem nat_faultRoot_ne (r : Tbl Word) (unit stage : Nat) {k : Nat} (h : k ≠ Reg.aonFaultRoot) :
    Regs.nat (faultRoot r unit stage) k = Regs.nat r k := by
  unfold faultRoot
  split
  · rfl
  · exact nat_putFld_ne r _ _ _ h

theorem enterSafe_mitten (s : State) (unit stage : Nat) : MittenButSafe s (s.enterSafe unit stage) := by
  intro k hk hs hr
  unfold State.enterSafe
  split
  · rfl
  · exact (nat_faultRoot_ne _ _ _ hr).trans ((nat_putFld_ne _ _ _ _ hs).trans (eraseKeys_mitten s.commitAccepted k hk))

theorem enterSafe_power (s : State) (unit stage : Nat) : (s.enterSafe unit stage).power = 3 := by
  unfold State.enterSafe
  split
  next h => exact h
  · exact (fld_of_nat (nat_faultRoot_ne _ _ _ (by decide)) 0 3).trans (fld_putFld_self _ _ 3 (by decide))

/-- Of the pins `t` has moved SAFE_N alone. -/
def PinsButSafe (s t : State) : Prop := t.pins = { s.pins with safe := t.pins.safe }

theorem PinsButSafe.of_pins {s t : State} (h : t.pins = s.pins) : PinsButSafe s t := by
  rw [PinsButSafe, h]

theorem PinsButSafe.trans {s t u : State} (h : PinsButSafe s t) (g : PinsButSafe t u) : PinsButSafe s u := by
  unfold PinsButSafe at h g ⊢
  rw [g, h]

theorem enterSafe_pins (s : State) (unit stage : Nat) : PinsButSafe s (s.enterSafe unit stage) := by
  unfold State.enterSafe
  split
  · rfl
  · rfl

/-- Entered, it asserts SAFE_N. -/
theorem enterSafe_safe {s : State} (h : s.power ≠ 3) (unit stage : Nat) : (s.enterSafe unit stage).pins.safe = true := by
  rw [State.enterSafe, if_neg h]

theorem enterSafe_aon (s : State) (unit stage : Nat) : (s.enterSafe unit stage).aon = s.aon := by
  obtain ⟨m, c, p, r, e⟩ := enterSafe_parts s unit stage
  rw [e]

/-! ### Faults -/

theorem fault_aon (s : State) (unit cause access addr detail : Nat) (crossing : Bool) :
    (s.fault unit cause access addr detail crossing).aon = s.aon := by
  obtain ⟨g, f, h, m, c, p, r, e⟩ := fault_parts s unit cause access addr detail crossing
  rw [e]

theorem placeRecord_mitten (s : State) (r : FaultRec) : MittenStands s (s.placeRecord r) := by
  intro k hk
  have hcount := nat_count_mitten s.regs hk (a := Reg.gntEvcFault) (by decide) 1
  unfold State.placeRecord
  split
  · exact hcount
  · dsimp only
    show Regs.nat (if _ then _ else _) k = _
    split
    · exact (nat_put_mitten _ hk (by decide) _).trans ((nat_putFld_mitten _ hk (by decide) _ _ _).trans hcount)
    · exact (nat_putFld_mitten _ hk (by decide) _ _ _).trans hcount

/-- A fault captured leaves Mitten's registers, or enters the safe state. -/
theorem fault_mitten (s : State) (unit cause access addr detail : Nat) (crossing : Bool) :
    MittenButSafe s (s.fault unit cause access addr detail crossing) := by
  have hplace (v : FaultRec) : MittenStands s (s.placeRecord v).tookFree.tookFree := fun k hk => placeRecord_mitten s v k hk
  unfold State.fault
  split
  · exact enterSafe_mitten s _ _
  · split
    · exact (count_mitten s (a := Reg.gntEvcCoalesce) (by decide)).butSafe
    · split
      · exact (count_mitten s (a := Reg.gntEvcLogfull) (by decide)).butSafe.trans (enterSafe_mitten _ _ _)
      · dsimp only
        split
        · exact ((hplace _).trans (post_mitten _ _ _ _)).butSafe.trans (enterSafe_mitten _ _ _)
        · exact (hplace _).butSafe

/-- Of the pins a fault moves SAFE_N alone. -/
theorem fault_pins (s : State) (unit cause access addr detail : Nat) (crossing : Bool) :
    PinsButSafe s (s.fault unit cause access addr detail crossing) := by
  have hplace (v : FaultRec) : PinsButSafe s (s.placeRecord v).tookFree.tookFree := by
    have h : (s.placeRecord v).pins = s.pins := by
      unfold State.placeRecord
      split <;> rfl
    exact .of_pins h
  have hpost (u : State) (e n k : Nat) : PinsButSafe u (u.postFault e n k) := by
    obtain ⟨h, r, e⟩ := post_host u 5 n (leBytes 4 e ++ leBytes 4 k)
    rw [State.postFault, e]
    rfl
  unfold State.fault
  split
  · exact enterSafe_pins s _ _
  · split
    · rfl
    · split
      · exact enterSafe_pins (s.count Reg.gntEvcLogfull) _ _
      · dsimp only
        split
        · exact (hplace _).trans ((hpost _ _ _ _).trans (enterSafe_pins _ _ _))
        · exact hplace _

end Sys2Proof.Machine
end

section
/-! SUPPORT. Alarms, and the samples of package power and temperature (12_cipher_and_trust, R413; 14_mitten_power_ageing,
R471, R472, R475; 17_package_and_electrical, R553). -/

namespace Sys2Proof.Machine

/-! ### Alarms -/

/-- The state of an alarm noted, before its fault is captured. -/
def State.alarmed (s : State) (n : Nat) : State :=
  { s.eraseKeys.putFld Reg.aonResetCause 8 4 n with aon := { s.aon with alarm := some n, causeAt := s.clk.acnt } }

section
variable (s : State) {n : Nat} (h : 1 ≤ n ∧ n ≤ 6)
include h

theorem alarmEffect_eq : alarmEffect n s = ((s.alarmed n).fault 0x1F0 0x09 0 0 n false).enterSafe 0x1F0 3 :=
  if_neg (by omega)

/-- An alarm leaves Mitten's registers beside the power state, the root of the faults and the cause of the reset. -/
theorem alarmEffect_reg {k : Nat} (hk : k < 0x10000) (hs : k ≠ Reg.aonState) (hr : k ≠ Reg.aonFaultRoot)
    (hc : k ≠ Reg.aonResetCause) : (alarmEffect n s).reg k = s.reg k := by
  rw [alarmEffect_eq s h]
  exact (enterSafe_mitten _ _ _ k hk hs hr).trans ((fault_mitten (s.alarmed n) _ _ _ _ _ _ k hk hs hr).trans
    ((nat_putFld_ne _ _ _ _ hc).trans (eraseKeys_mitten s k hk)))

theorem alarmEffect_power : (alarmEffect n s).power = 3 := by
  rw [alarmEffect_eq s h]
  exact enterSafe_power _ _ _

theorem alarmEffect_pins : PinsButSafe s (alarmEffect n s) := by
  have hpins : (s.alarmed n).pins = s.pins := by
    obtain ⟨c, r, e⟩ := eraseKeys_parts s
    rw [State.alarmed, e]
    rfl
  have halarmed : PinsButSafe s (s.alarmed n) := .of_pins hpins
  rw [alarmEffect_eq s h]
  exact halarmed.trans ((fault_pins _ _ _ _ _ _ _).trans (enterSafe_pins _ _ _))

theorem alarmEffect_aon : (alarmEffect n s).aon = { s.aon with alarm := some n, causeAt := s.clk.acnt } := by
  rw [alarmEffect_eq s h, enterSafe_aon, fault_aon]
  rfl

end

/-! ### Samples -/

/-- A millisecond's power shows below its limit, and an episode that begins is counted. -/
theorem powerSampleEffect_reg (s : State) (w : Nat) :
    let t := powerSampleEffect w s
    t.fld Reg.aonPower 0 12 = min w 4095 ∧ t.fld Reg.aonPower 16 12 = s.fld Reg.aonPower 16 12 ∧
      t.reg Reg.aonEvcPwrover = if t.aon.overMs = 10 ∧ s.aon.powerAlert = false
        then min 0xFFFFFFFF (s.reg Reg.aonEvcPwrover + 1) else s.reg Reg.aonEvcPwrover := by
  intro t
  have hput : Regs.fld (Regs.putFld s.regs Reg.aonPower 0 12 (min w 4095)) Reg.aonPower 0 12 = min w 4095 :=
    (fld_putFld_self _ _ _ (by decide)).trans (Nat.mod_eq_of_lt (by omega))
  have hlimit := fld_putFld_apart s.regs Reg.aonPower (lo := 0) (w := 12) (lo' := 16) (w' := 12) (min w 4095) (by decide)
    (by decide)
  have hcount := nat_putFld_ne s.regs (a := Reg.aonPower) (k := Reg.aonEvcPwrover) 0 12 (min w 4095) (by decide)
  by_cases hbegin : t.aon.overMs = 10 ∧ s.aon.powerAlert = false
  · have hregs : t.regs = Regs.count (Regs.putFld s.regs Reg.aonPower 0 12 (min w 4095)) Reg.aonEvcPwrover 1 :=
      if_pos ⟨hbegin.1, by rw [hbegin.2]; rfl⟩
    have hother := nat_count_ne (Regs.putFld s.regs Reg.aonPower 0 12 (min w 4095)) (a := Reg.aonEvcPwrover)
      (k := Reg.aonPower) 1 (by decide) (by decide)
    rw [if_pos hbegin, State.fld, State.fld, State.reg, hregs, fld_of_nat hother, fld_of_nat hother,
      nat_count_self _ _ _ (by decide), hcount]
    exact ⟨hput, hlimit, rfl⟩
  · have hregs : t.regs = Regs.putFld s.regs Reg.aonPower 0 12 (min w 4095) :=
      if_neg fun h => hbegin ⟨h.1, by simpa using h.2⟩
    rw [if_neg hbegin, State.fld, State.fld, State.reg, hregs]
    exact ⟨hput, hlimit, hcount⟩

/-- Ten milliseconds above the limit alert and cap, a hundred below it end the alert. -/
theorem powerSampleEffect_alerts (s : State) (w : Nat) :
    let t := powerSampleEffect w s
    t.aon.powerAlert = (decide (10 ≤ t.aon.overMs) || (s.aon.powerAlert && decide (t.aon.underMs < 100))) ∧
      t.aon.powerCap = (s.aon.powerCap || decide (10 ≤ t.aon.overMs)) := ⟨rfl, rfl⟩

/-- The state with a reading of temperature noted. -/
def State.heated (s : State) (t : Nat) : State :=
  { s with
    regs := Regs.putFld s.regs Reg.aonTemp 0 10 (min t 1023)
    aon := { s.aon with
      tempAlert := decide (200 ≤ t) || (s.aon.tempAlert && decide (194 ≤ t))
      causeAt := if 200 ≤ t then s.clk.acnt else s.aon.causeAt }
    pins := { s.pins with thermTrip := s.pins.thermTrip || decide (240 ≤ t) } }

theorem temperatureSampleEffect_eq (t : Nat) (s : State) : temperatureSampleEffect t s =
    (if 220 ≤ t ∧ s.aon.alarm ≠ some 5 then alarmEffect 5 (s.heated t) else s.heated t).showAlert := rfl

/-- A reading shows in its register, and its alerts stand, an alarm or none. -/
theorem temperatureSampleEffect_shows (s : State) {t : Nat} (ht : t < 1024) :
    (temperatureSampleEffect t s).fld Reg.aonTemp 0 10 = t ∧
      (temperatureSampleEffect t s).aon.tempAlert = (decide (200 ≤ t) || (s.aon.tempAlert && decide (194 ≤ t))) ∧
      (temperatureSampleEffect t s).pins.thermTrip = (s.pins.thermTrip || decide (240 ≤ t)) := by
  have htemp : (s.heated t).fld Reg.aonTemp 0 10 = t := by
    refine (fld_putFld_self s.regs Reg.aonTemp _ (by decide)).trans ?_
    omega
  rw [temperatureSampleEffect_eq]
  split
  · refine ⟨?_, ?_, ?_⟩
    · exact (state_fld_of_reg (alarmEffect_reg _ (by decide) (by decide) (by decide) (by decide) (by decide)) 0 10).trans htemp
    · exact congrArg Mitten.tempAlert (alarmEffect_aon (s.heated _) (n := 5) (by decide))
    · exact congrArg Pins.thermTrip (alarmEffect_pins (s.heated t) (n := 5) (by decide))
  · exact ⟨htemp, rfl, rfl⟩

theorem showAlert_temp {s : State} (h : s.aon.tempAlert = true) : s.showAlert.pins.alert = true := by
  simp [State.showAlert, h]

theorem showAlert_power {s : State} (h : s.aon.powerAlert = true) : s.showAlert.pins.alert = true := by
  simp [State.showAlert, h]

end Sys2Proof.Machine
end

section
open Sys2Proof Sys2Proof.Machine

/-- Settles O55: it holds. A sample's alerts are those of its counts of milliseconds (`powerSampleEffect_alerts`), a reading's
those of its thresholds, and an alarm keeps them (`temperatureSampleEffect_shows`). -/
theorem powerAndTemperatureAlert : Obligations.PowerAndTemperatureAlert := by
  unfold Obligations.PowerAndTemperatureAlert
  intro w h s hp hw hh
  have hpower : exec (.powerSample w) s = .next (powerSampleEffect w s) :=
    congrArg _ (inAlwaysOn_run hp (.powerSample w) (decide_eq_true hw) _)
  have htemp : exec (.temperatureSample h) s = .next (temperatureSampleEffect h s) :=
    congrArg _ (inAlwaysOn_run hp (.temperatureSample h) (decide_eq_true hh) _)
  refine ⟨⟨_, hpower, ?_⟩, ⟨_, htemp, ?_⟩⟩
  · obtain ⟨halert, hcap⟩ := powerSampleEffect_alerts s w
    obtain ⟨habove, hlimit, hcount⟩ := powerSampleEffect_reg s w
    refine ⟨habove, hlimit, rfl, rfl, fun hten => ?_, fun hfew => ?_, hcount⟩
    · have hon : (powerSampleEffect w s).aon.powerAlert = true := by
        rw [halert, decide_eq_true hten]
        rfl
      refine ⟨hon, showAlert_power hon, ?_⟩
      rw [hcap, decide_eq_true hten, Bool.or_true]
    · rw [halert, decide_eq_false (Nat.not_le.2 hfew)]
      rfl
  · obtain ⟨hfld, halert, htrip⟩ := temperatureSampleEffect_shows s hh
    refine ⟨hfld, halert, fun hwarm => ?_, htrip, fun hhot halarm => ?_, fun hcool => ?_⟩
    · refine showAlert_temp (halert.trans ?_)
      rw [decide_eq_true hwarm]
      rfl
    · rw [temperatureSampleEffect_eq, if_pos ⟨hhot, halarm⟩]
      exact ⟨congrArg Mitten.alarm (alarmEffect_aon (s.heated _) (n := 5) (by decide)), alarmEffect_power _ (by decide)⟩
    · rw [temperatureSampleEffect_eq, if_neg (by omega)]
      exact state_putFld_fld_other s _ _ _ _ _ _ _ (by decide)

end

section
/-! SUPPORT. What decisions logged leave of Mitten's registers, and the re-plan of a margin epoch (14_mitten_power_ageing, R463
to R467; 15_gauntlet_faults_counters_test, R504). -/

namespace Sys2Proof.Machine

/-! ### Decisions logged -/

theorem stage_mitten (s : State) (tail : List Byte) : MittenStands s (s.stage tail) := by
  intro k hk
  unfold State.stage
  dsimp only
  exact (post_mitten _ _ _ _ k hk).trans ((nat_putPair_mitten _ hk (a := Reg.vsrDlogHeadLo) (by decide) _).trans
    (nat_putFld_mitten _ hk (a := Reg.vsrStatus) (by decide) _ _ _))

theorem goEntry_mitten (s : State) (tail : List Byte) : MittenStands s (s.goEntry tail) := by
  unfold State.goEntry
  split
  · exact stage_mitten s tail
  · exact .of_regs rfl

theorem flushLog_mitten (s : State) : MittenStands s s.flushLog := by
  unfold State.flushLog
  dsimp only
  refine List.foldlRecOn (motive := MittenStands s) _ _ ?_ fun t ht tail _ => ht.trans (stage_mitten t tail)
  intro k hk
  refine (nat_putFld_mitten _ hk (a := Reg.vsrStatus) (by decide) _ _ _).trans ?_
  refine List.foldlRecOn (motive := fun x : Memory × Tbl Word => Regs.nat x.2 k = s.reg k) _ _ rfl fun x hx e _ => ?_
  dsimp only
  split
  · exact (nat_put_mitten _ hk (a := Reg.vsrDlogWraps) (by decide) _).trans hx
  · exact hx

theorem makeRoom_mitten (s : State) : MittenStands s s.makeRoom := by
  unfold State.makeRoom
  split
  · exact .of_regs rfl
  · exact List.foldlRecOn (motive := MittenStands s) _ _ (.of_regs rfl) fun t ht _ _ => ht.trans (flushLog_mitten t)

/-- A decision logged writes no register of Mitten's. -/
theorem logDecision_mitten (s : State) (kind : Nat) (body : List Byte) : MittenStands s (s.logDecision kind body) := by
  have hwindow (e : List Byte) : MittenStands s.makeRoom { s.makeRoom with
      regs := (List.range 32).foldl (fun r i => Regs.put r (Reg.vsrDlogEntry i) (fieldAt e (4 * i) 4)) s.makeRoom.regs } :=
    fun k hk => List.foldlRecOn (motive := fun r => Regs.nat r k = s.makeRoom.reg k) _ _ rfl fun r hr i _ =>
      (nat_put_mitten r hk (by unfold Reg.vsrDlogEntry; omega) _).trans hr
  unfold State.logDecision
  exact (makeRoom_mitten s).trans ((hwindow _).trans (goEntry_mitten _ _))

theorem logDecision_kept (s : State) (kind : Nat) (body : List Byte) :
    (s.logDecision kind body).aon = s.aon ∧ (s.logDecision kind body).job = s.job ∧ (s.logDecision kind body).clk = s.clk := by
  have h := logDecision_logged s kind body
  unfold Logged at h
  rw [h]
  exact ⟨rfl, rfl, rfl⟩

/-! ### Rail and trims (R466) -/

/-- A register that neither the rail nor a trim is. -/
theorem nat_setRail (r : Tbl Word) (rail : Nat) (trims : List Nat) {k : Nat} (hv : k ≠ Reg.aonVcore)
    (hd : k < Reg.aonVdom 0) : Regs.nat (setRail r rail trims) k = Regs.nat r k :=
  List.foldlRecOn (motive := fun x => Regs.nat x k = Regs.nat r k) _ _ (nat_putFld_ne _ _ _ _ hv) fun x hx d _ =>
    (nat_putFld_ne x _ _ _ (by unfold Reg.aonVdom at hd ⊢; omega)).trans hx

theorem applyRail_frame (s : State) (rail : Nat) (trims : List Nat) : ∃ r l, s.applyRail rail trims =
    { s with regs := r, aon := { s.aon with lower := l } } ∧
      ∀ k, k ≠ Reg.aonVcore → k < Reg.aonVdom 0 → Regs.nat r k = s.reg k := by
  unfold State.applyRail
  split
  · exact ⟨_, _, rfl, fun k => nat_setRail _ _ _⟩
  · exact ⟨_, _, rfl, fun k => nat_setRail _ _ _⟩

theorem sendProposal_frame (s : State) : ∃ x j, s.sendProposal = { s with seam := x, job := j } := by
  unfold State.sendProposal
  dsimp only
  obtain ⟨x, e⟩ := sendCtrlAll_seam { s with job := { s.job with
    props := [(s.device, s.fld Reg.aonFreq 16 7, s.reg Reg.seqStep)], propsSince := some s.clk.acnt } }
    (s.devices.filter (· != s.device)) (leBytes 1 (s.fld Reg.aonFreq 16 7) ++ leBytes 4 (s.reg Reg.seqStep))
  exact ⟨x, _, e⟩

/-! ### The re-plan (R464) -/

/-- The registers after a re-plan that counts the margin epoch up to `n`. -/
def planRegs (r : Tbl Word) (n prop worst : Nat) (exhausted : Bool) : Tbl Word :=
  let regs := (List.range 1024).foldl (fun r m => Regs.putFld r (Reg.aonSlack m) 16 16 (Regs.fld r (Reg.aonSlack m) 0 16)) r
  let regs := Regs.put (Regs.count regs Reg.aonEvcReplan 1) Reg.aonMepoch n
  let regs := Regs.put (Regs.putFld regs Reg.aonFreq 16 7 prop) Reg.aonWorst worst
  if exhausted then Regs.count (Regs.putFld regs Reg.aonFreq 7 1 1) Reg.aonEvcExhaust 1 else regs

theorem planRegs_mepoch (r : Tbl Word) (n prop worst : Nat) (exhausted : Bool) :
    Regs.nat (planRegs r n prop worst exhausted) Reg.aonMepoch = n % 2 ^ 32 := by
  have hput (r : Tbl Word) : Regs.nat (Regs.put (Regs.putFld (Regs.put r Reg.aonMepoch n) Reg.aonFreq 16 7 prop) Reg.aonWorst worst)
      Reg.aonMepoch = n % 2 ^ 32 :=
    (Regs.nat_put_ne _ _ _ _ (by decide)).trans ((nat_putFld_ne _ _ _ _ (by decide)).trans (Regs.nat_put_self _ _ _))
  unfold planRegs
  dsimp only
  split
  · exact (nat_count_ne _ 1 (by decide) (by decide)).trans ((nat_putFld_ne _ _ _ _ (by decide)).trans (hput _))
  · exact hput _

/-- What follows a plan: its rail, the fault of a slack exhausted, and the proposal inside a job. -/
def State.planApplied (s : State) (rail : Nat) (trims : List Nat) (exhausted : Bool) (w : Nat) : State :=
  let s := s.applyRail rail trims
  let s := if exhausted then s.fault 0x200 0x0A 0 0 w false else s
  if s.job.active then s.sendProposal else s

theorem planApplied_keeps (s : State) (rail : Nat) (trims : List Nat) (exhausted : Bool) (w : Nat) :
    (s.planApplied rail trims exhausted w).reg Reg.aonMepoch = s.reg Reg.aonMepoch ∧
      (s.planApplied rail trims exhausted w).aon.deferred = s.aon.deferred := by
  have hfault (t : State) : (if exhausted then t.fault 0x200 0x0A 0 0 w false else t).reg Reg.aonMepoch = t.reg Reg.aonMepoch ∧
      (if exhausted then t.fault 0x200 0x0A 0 0 w false else t).aon = t.aon := by
    split
    · exact ⟨fault_mitten _ _ _ _ _ _ _ _ (by decide) (by decide) (by decide), fault_aon _ _ _ _ _ _ _⟩
    · exact ⟨rfl, rfl⟩
  have hsend (t : State) : (if t.job.active then t.sendProposal else t).reg Reg.aonMepoch = t.reg Reg.aonMepoch ∧
      (if t.job.active then t.sendProposal else t).aon = t.aon := by
    obtain ⟨x, j, e⟩ := sendProposal_frame t
    split
    · rw [e]
      exact ⟨rfl, rfl⟩
    · exact ⟨rfl, rfl⟩
  obtain ⟨r, l, e, hr⟩ := applyRail_frame s rail trims
  obtain ⟨h1, h2⟩ := hsend (if exhausted then (s.applyRail rail trims).fault 0x200 0x0A 0 0 w false else s.applyRail rail trims)
  obtain ⟨h3, h4⟩ := hfault (s.applyRail rail trims)
  refine ⟨h1.trans (h3.trans ?_), (congrArg Mitten.deferred (h2.trans h4)).trans ?_⟩
  · rw [e]
    exact hr _ (by decide) (by decide)
  · rw [e]

/-- A re-plan logs its decision, counts the epoch and applies its plan. -/
theorem replan_eq (s : State) : ∃ b prop worst rail trims exhausted w, s.replan =
    (let t := s.logDecision 4 b
     State.planApplied { t with
       regs := planRegs t.regs (t.reg Reg.aonMepoch + 1) prop worst exhausted
       aon := { t.aon with lastPlan := some t.clk.todSec, deferred := none, powerCap := false } } rail trims exhausted w) :=
  ⟨_, _, _, _, _, _, _, rfl⟩

/-- A re-plan counts `AON_MEPOCH` up, and none waits any more. -/
theorem replan_counts (s : State) : s.replan.reg Reg.aonMepoch = (s.reg Reg.aonMepoch + 1) % 2 ^ 32 ∧
    s.replan.aon.deferred = none := by
  obtain ⟨b, prop, worst, rail, trims, exhausted, w, e⟩ := replan_eq s
  rw [e]
  obtain ⟨hreg, hdef⟩ := planApplied_keeps { s.logDecision 4 b with
    regs := planRegs (s.logDecision 4 b).regs ((s.logDecision 4 b).reg Reg.aonMepoch + 1) prop worst exhausted
    aon := { (s.logDecision 4 b).aon with lastPlan := some (s.logDecision 4 b).clk.todSec, deferred := none, powerCap := false } }
    rail trims exhausted w
  refine ⟨hreg.trans ((planRegs_mepoch _ _ _ _ _).trans ?_), hdef⟩
  rw [logDecision_mitten s 4 b Reg.aonMepoch (by decide)]

end Sys2Proof.Machine
end

section
/-! SUPPORT. The agreement on a frequency, the switch and the restart of the core clock (14_mitten_power_ageing, R463, R467 to
R470). -/

namespace Sys2Proof.Machine

/-! ### Waiting -/

/-- Waiting for a time of day moves the clocks alone. -/
theorem atNs_clk (s : State) (t : Nat) : ∃ c, s.atNs t = { s with clk := c } := atAc_clk s _

theorem atCycle_held (s : State) (t : Nat) : (s.atCycle t).clk.held = s.clk.held := by
  unfold State.atCycle
  split <;> rfl

theorem atAc_held (s : State) (t : Nat) : (s.atAc t).clk.held = s.clk.held := by
  unfold State.atAc
  repeat' split
  all_goals rfl

/-- While the core clock is not held the step in force is that of `AON_FREQ`, also after waiting. -/
theorem atAc_freqStep {s : State} (h : s.clk.held = false) (t : Nat) : (s.atAc t).freqStep = s.fld Reg.aonFreq 0 7 := by
  have hheld := (atAc_held s t).trans h
  obtain ⟨c, e⟩ := atAc_clk s t
  rw [State.freqStep, if_neg (ne_true_of_eq_false hheld), e]
  rfl

/-! ### Margin epochs (R463) -/

/-- The time in ns at which the margin epoch in progress ends. -/
def State.epochEnd (s : State) : Nat :=
  let e := 3600 * max 1 (s.fld Reg.aonMargin 0 8)
  1000000000 * ((s.clk.todSec / e + 1) * e)

section
variable {s : State} (hp : s.power = 1 ∨ s.power = 2)
include hp

/-- A margin epoch ends with its re-plan, -/
theorem marginEpochEndEffect_due : marginEpochEndEffect s = (s.atNs s.epochEnd).planDue := if_pos hp

end

/-- which waits in holdover -/
theorem planDue_waits {s : State} (h : s.fld Reg.aonTime 2 1 = 1) :
    s.planDue = { s with aon := { s.aon with deferred := some s.clk.todSec } } := if_pos h

/-- and else runs. -/
theorem planDue_runs {s : State} (h : s.fld Reg.aonTime 2 1 = 0) : s.planDue = s.replan :=
  if_neg (by rw [h]; decide)

/-! ### The agreement (R467, R468) -/

/-- The step that the proposals held agree on. -/
def State.agreedStep (s : State) : Nat := (s.job.props.map (·.2.1)).foldl min 127

theorem foldl_min_le (l : List Nat) (b : Nat) : l.foldl min b ≤ b := by
  induction l generalizing b with
  | nil => exact Nat.le_refl b
  | cons x l ih => exact Nat.le_trans (ih (min b x)) (Nat.min_le_left b x)

/-- The state with the agreement logged and its step noted. -/
def State.agreedOn (s : State) (b : List Byte) : State :=
  { s.logDecision 5 b with
    regs := Regs.putFld (s.logDecision 5 b).regs Reg.aonFreq 8 7 s.agreedStep
    job := { (s.logDecision 5 b).job with propsSince := none, props := [] } }

theorem agreedOn_reads (s : State) (b : List Byte) : (s.agreedOn b).job = { s.job with propsSince := none, props := [] } ∧
    (s.agreedOn b).clk = s.clk ∧ (s.agreedOn b).fld Reg.aonFreq 8 7 = s.agreedStep ∧
    (s.agreedOn b).fld Reg.aonFreq 0 7 = s.fld Reg.aonFreq 0 7 := by
  obtain ⟨-, hjob, hclk⟩ := logDecision_kept s 5 b
  refine ⟨congrArg (fun j : Job => { j with propsSince := none, props := [] }) hjob, hclk, ?_, ?_⟩
  · refine (fld_putFld_self _ _ _ (by decide)).trans (Nat.mod_eq_of_lt ?_)
    exact Nat.lt_succ_of_le (foldl_min_le _ 127)
  · exact (fld_putFld_apart _ _ _ (by decide) (by decide)).trans
      (state_fld_of_reg (logDecision_mitten s 5 b _ (by decide)) 0 7)

/-- Inside a job the step agreed is noted, and applied where it is lower. -/
theorem agreeFrequency_inJob {s : State} {u : Nat} (hsince : s.job.propsSince = some u) (hstart : s.job.start = false)
    (hheld : s.clk.held = false) :
    let t := s.agreeFrequency
    t.job.propsSince = none ∧ t.job.props = [] ∧ t.fld Reg.aonFreq 8 7 = s.agreedStep ∧
      t.job.newK = if s.agreedStep < s.fld Reg.aonFreq 0 7 then some s.agreedStep else s.job.newK := by
  obtain ⟨b, nb, e⟩ : ∃ b nb, s.agreeFrequency =
      (let t := s.agreedOn b
       if t.job.start then _
       else if s.agreedStep < t.freqStep then
         { t with job := { t.job with newK := some s.agreedStep, newKAt := nb, boundary := some (earlier t.job.boundary nb) } }
       else t) := by
    simp only [State.agreeFrequency, hsince]
    exact ⟨_, _, rfl⟩
  obtain ⟨hjob, hclk, hnext, hnow⟩ := agreedOn_reads s b
  have hstart' : (s.agreedOn b).job.start = false := by rw [hjob]; exact hstart
  have hstep : (s.agreedOn b).freqStep = s.fld Reg.aonFreq 0 7 := by
    rw [State.freqStep, hclk, if_neg (ne_true_of_eq_false hheld), hnow]
  intro t
  have ht : t = _ := e
  dsimp only at ht
  rw [if_neg (ne_true_of_eq_false hstart'), hstep] at ht
  rw [ht]
  split
  · exact ⟨by rw [hjob], by rw [hjob], hnext, rfl⟩
  · exact ⟨by rw [hjob], by rw [hjob], hnext, by rw [hjob]⟩

/-- A proposal while none is being agreed counts for nothing. -/
theorem frequencyProposalEffect_idle {s : State} (h : s.job.propsSince = none) (d p n : Nat) :
    frequencyProposalEffect d p n s = s := if_pos (.inl (by rw [h]; rfl))

/-- Otherwise it is kept, and the last of the member set's brings the agreement. -/
theorem frequencyProposalEffect_noted {s : State} (h : s.job.propsSince ≠ none) (d : Nat) {p : Nat} (hp : p < 128) (n : Nat) :
    frequencyProposalEffect d p n s =
      (let t := { s with job := { s.job with props := s.job.props.set d (p, n) } }
       if (s.device :: s.others).all fun e => (Tbl.get? (s.job.props.set d (p, n)) e).isSome then t.agreeFrequency else t) := by
  refine if_neg ?_
  rw [Option.isNone_iff_eq_none]
  exact fun hno => hno.elim h (Nat.not_le.2 hp)

/-! ### The switch (R469, R470) -/

theorem noteSwitch_noted {s : State} {f : Nat} (h : s.job.fsw = some f) : s.noteSwitch = s := by
  unfold State.noteSwitch
  split
  · exact if_neg (by rw [h]; simp)
  · rfl

/-- At the switch cycle the core clock stops. -/
theorem frequencySwitchEffect_stops {s : State} {f k : Nat} (hf : s.job.fsw = some f) (hk : s.job.newK = some k)
    (hheld : s.clk.held = false) : frequencySwitchEffect s =
      { s.atCycle f with
        clk := { (s.atCycle f).clk with held := true }
        regs := Regs.putFld (s.atCycle f).regs Reg.aonFreq 8 7 k
        aon := { (s.atCycle f).aon with restartAt := some (32768 + (s.atCycle f).now) } } := by
  simp only [frequencySwitchEffect, noteSwitch_noted hf, hf, hk, hheld, Bool.false_eq_true, if_false]

theorem frequencySwitchEffect_idle {s : State} (h : s.job.newK = none) : frequencySwitchEffect s = s := by
  unfold frequencySwitchEffect
  rw [h]
  split
  next hnone => cases hnone
  next => rfl

/-- The state in which the core clock runs again at the agreed step. -/
def State.restarted (s : State) : State :=
  { s with
    clk := { s.clk with held := false }
    regs := Regs.count (Regs.putFld (match s.aon.lower with
      | some l => setRail s.regs l.1 l.2
      | none => s.regs) Reg.aonFreq 0 7 (s.fld Reg.aonFreq 8 7)) Reg.aonEvcFswitch 1
    aon := { s.aon with restartAt := none, lower := none }
    job := { s.job with newK := none, fsw := none, switchAt := [] } }

theorem restarted_reg (s : State) : s.restarted.fld Reg.aonFreq 0 7 = s.fld Reg.aonFreq 8 7 ∧
    s.restarted.reg Reg.aonEvcFswitch = min 0xFFFFFFFF (s.reg Reg.aonEvcFswitch + 1) := by
  have hrail : ∀ k, k ≠ Reg.aonVcore → k < Reg.aonVdom 0 → Regs.nat (match s.aon.lower with
      | some l => setRail s.regs l.1 l.2
      | none => s.regs) k = s.reg k := by
    intro k hv hd
    split
    · exact nat_setRail _ _ _ hv hd
    · rfl
  refine ⟨?_, ?_⟩
  · refine (fld_of_nat (nat_count_ne _ 1 (by decide) (by decide)) 0 7).trans ((fld_putFld_self _ _ _ (by decide)).trans ?_)
    exact Nat.mod_eq_of_lt (Nat.mod_lt _ (by decide))
  · refine (nat_count_self _ _ 1 (by decide)).trans ?_
    rw [nat_putFld_ne _ _ _ _ (by decide)]
    exact congrArg (fun n => min 0xFFFFFFFF (n + 1)) (hrail _ (by decide) (by decide))

/-- What follows the restart leaves Mitten, its registers, the clocks and the step that is to come. -/
structure RestartKeeps (s t : State) : Prop where
  mitten : MittenStands s t
  clk : t.clk = s.clk
  aon : t.aon = s.aon
  newK : t.job.newK = s.job.newK

theorem RestartKeeps.trans {s t u : State} (h : RestartKeeps s t) (g : RestartKeeps t u) : RestartKeeps s u :=
  ⟨h.mitten.trans g.mitten, g.clk.trans h.clk, g.aon.trans h.aon, g.newK.trans h.newK⟩

theorem resetElastic_keeps (s : State) (n : Nat) : RestartKeeps s (s.resetElastic n) :=
  ⟨fun _ hk => nat_putFld_mitten s.regs hk (by unfold Reg.seamElastic; omega) _ _ _, rfl, rfl, rfl⟩

theorem sendReady_frame (s : State) : ∃ x, s.sendReady =
    { s with seam := x, job := { s.job with phase := 5, readyAt := s.job.readyAt.set s.device s.now } } :=
  sendCtrlAll_seam { s with job := { s.job with phase := 5, readyAt := s.job.readyAt.set s.device s.now } } _ _

theorem sendReady_keeps (s : State) : RestartKeeps s s.sendReady := by
  obtain ⟨x, e⟩ := sendReady_frame s
  rw [e]
  exact ⟨.of_regs rfl, rfl, rfl, rfl⟩

theorem epochStarted_keeps (s : State) (nb start : Nat) : RestartKeeps s (s.epochStarted nb start) :=
  ⟨fun _ hk => nat_putPair_mitten s.regs hk (a := Reg.seqEpochStartLo) (by decide) _, rfl, rfl, rfl⟩

theorem clearLags_keeps (s : State) : RestartKeeps s s.clearLags := by
  obtain ⟨r, e, hr⟩ := clearLags_regs s
  rw [e]
  exact ⟨fun k hk => hr k (Nat.lt_trans hk (by decide)), rfl, rfl, rfl⟩

theorem post_keeps (s : State) (kind unit : Nat) (arg : List Byte) : RestartKeeps s (s.post kind unit arg) := by
  refine ⟨post_mitten s kind unit arg, ?_, ?_, ?_⟩
  all_goals
    obtain ⟨h, r, e⟩ := post_host s kind unit arg
    rw [e]

theorem closeBoundary_keeps (s : State) : RestartKeeps s s.closeBoundary := by
  have hsame : RestartKeeps s s := ⟨.of_regs rfl, rfl, rfl, rfl⟩
  have hlatch (t : State) : RestartKeeps t t.latchTables := ⟨.of_regs rfl, rfl, rfl, rfl⟩
  unfold State.closeBoundary
  split
  next nb c _ _ =>
    split
    · exact hsame
    · exact (epochStarted_keeps s nb _).trans ((hlatch _).trans ((clearLags_keeps _).trans (post_keeps _ _ _ _)))
  · exact hsame

theorem clockRestartEffect_due {s : State} {u : Nat} (h : s.aon.restartAt = some u) :
    RestartKeeps (s.atCycle u).restarted (clockRestartEffect s) := by
  have e : clockRestartEffect s =
      (let t := ((List.range 36).filter (s.atCycle u).restarted.linkUp).foldl State.resetElastic (s.atCycle u).restarted
       if t.job.start then { t with job := { t.job with phase := 0 } } else t.sendReady.closeBoundary) := by
    simp only [clockRestartEffect, h]
    rfl
  have hlinks := List.foldlRecOn (motive := RestartKeeps (s.atCycle u).restarted)
    ((List.range 36).filter (s.atCycle u).restarted.linkUp) State.resetElastic ⟨.of_regs rfl, rfl, rfl, rfl⟩
    fun t ht n _ => ht.trans (resetElastic_keeps t n)
  rw [e]
  dsimp only
  split
  · exact hlinks.trans ⟨.of_regs rfl, rfl, rfl, rfl⟩
  · exact hlinks.trans ((sendReady_keeps _).trans (closeBoundary_keeps _))

end Sys2Proof.Machine
end

section
open Sys2Proof Sys2Proof.Machine

/-- Settles O54: it holds. A margin epoch ends with its re-plan, which counts (`replan_counts`); an agreement inside a job notes
the lowest step proposed (`agreeFrequency_inJob`); the switch stops the clock (`frequencySwitchEffect_stops`), and what
follows its restart keeps what that sets (`restarted_reg`, `clockRestartEffect_due`). -/
theorem frequencyIsAgreedAndSwitched : Obligations.FrequencyIsAgreedAndSwitched := by
  unfold Obligations.FrequencyIsAgreedAndSwitched
  intro s
  refine ⟨fun hr => ?running, fun hp => ?restart⟩
  case running =>
    have hp := coreRunning_porst hr
    rw [exec_running (i := .marginEpochEnd) hr rfl rfl, exec_running (i := .frequencyAgreementTimeout) hr rfl rfl,
      show exec .replanHoldoverTimeout s = .next (replanHoldoverTimeoutEffect s) from
        congrArg _ (inAlwaysOn_run hp .replanHoldoverTimeout rfl _),
      show exec .frequencySwitch s = .next (frequencySwitchEffect s) from congrArg _ (inAlwaysOn_run hp .frequencySwitch rfl _)]
    refine ⟨fun h1 h2 => ?_, fun hpow hhold => ?_, fun hpow hlock => ?_, fun hnone => ?_, fun u hu => ?_, fun d p n hd hp hn => ?_,
      fun u hu hstart => ?_, fun d c hd hc => ?_, fun hnone => ?_, fun f k hf hk hf64 hk128 => ?_⟩
    · exact congrArg _ (if_neg (by omega))
    · obtain ⟨c, e⟩ := atNs_clk s s.epochEnd
      have hwait := planDue_waits (s := s.atNs s.epochEnd) (by rw [e]; exact hhold)
      refine ⟨_, rfl, ?_⟩
      rw [marginEpochEndEffect_due hpow, hwait, e]
      exact ⟨rfl, rfl⟩
    · intro len
      obtain ⟨c, e⟩ := atNs_clk s s.epochEnd
      have hrun := planDue_runs (s := s.atNs s.epochEnd) (by rw [e]; exact hlock)
      obtain ⟨hcount, hnone⟩ := replan_counts (s.atNs s.epochEnd)
      have hmepoch : (s.atNs s.epochEnd).reg Reg.aonMepoch = s.reg Reg.aonMepoch := by
        rw [e]
        rfl
      refine ⟨_, rfl, ?_⟩
      rw [marginEpochEndEffect_due hpow, hrun]
      exact ⟨rfl, hnone, by rw [hcount, hmepoch]⟩
    · simp only [replanHoldoverTimeoutEffect, hnone]
    · simp only [replanHoldoverTimeoutEffect, hu]
    · rw [exec_running (i := .frequencyProposal d p n) hr (decide_eq_true ⟨hd, hp, hn⟩) rfl]
      refine ⟨fun hnone => ⟨?_, ?_⟩, fun hsince hmiss => ?_, fun hsince hall => ?_⟩
      · rw [frequencyProposalEffect_idle hnone]
      · simp only [frequencyAgreementTimeoutEffect, hnone]
      · rw [frequencyProposalEffect_noted hsince d hp n, hmiss]
        rfl
      · rw [frequencyProposalEffect_noted hsince d hp n, hall]
        rfl
    · have heff : frequencyAgreementTimeoutEffect s = (s.atAc (u + s.censusTimeout)).agreeFrequency := by
        simp only [frequencyAgreementTimeoutEffect, hu]
      obtain ⟨c, e⟩ := atAc_clk s (u + s.censusTimeout)
      obtain ⟨hsince, hprops, hnext, hnewK⟩ := agreeFrequency_inJob (s := s.atAc (u + s.censusTimeout)) (u := u)
        (by rw [e]; exact hu) (by rw [e]; exact hstart) ((atAc_held s _).trans hr.2)
      have hagreed : (s.atAc (u + s.censusTimeout)).agreedStep = s.agreedStep := by
        rw [e]
        rfl
      have hnow : (s.atAc (u + s.censusTimeout)).fld Reg.aonFreq 0 7 = s.fld Reg.aonFreq 0 7 := by
        rw [e]
        rfl
      rw [hagreed] at hnext hnewK
      rw [hnow] at hnewK
      rw [heff]
      refine ⟨_, rfl, hsince, hprops, hnext, fun hlow => hnewK.trans (if_pos hlow), fun hhigh => ?_⟩
      refine hnewK.trans ((if_neg (Nat.not_lt.2 hhigh)).trans ?_)
      rw [e]
    · rw [exec_running (i := .switchCycleMessage d c) hr (decide_eq_true ⟨hd, hc⟩) rfl]
      refine ⟨fun hnone => congrArg _ (if_pos (by rw [hnone]; rfl)), fun hsome => congrArg _ (if_neg ?_)⟩
      rw [Option.isNone_iff_eq_none]
      exact hsome
    · rw [frequencySwitchEffect_idle hnone]
    · have hnow := state_atCycle_now s f hf64
      refine ⟨_, rfl, ?_⟩
      rw [frequencySwitchEffect_stops hf hk hr.2]
      exact ⟨rfl, hnow, (fld_putFld_self _ _ _ (by decide)).trans (Nat.mod_eq_of_lt hk128), rfl⟩
  case restart =>
    rw [show exec .clockRestart s = .next (clockRestartEffect s) from congrArg _ (inAlwaysOn_run hp .clockRestart rfl _)]
    refine ⟨fun hnone => ?_, fun u hu => ⟨_, rfl, ?_⟩⟩
    · simp only [clockRestartEffect, hnone]
    · have hkeeps := clockRestartEffect_due hu
      obtain ⟨hstep, hcount⟩ := restarted_reg (s.atCycle u)
      obtain ⟨c, e⟩ := atCycle_clk s u
      refine ⟨by rw [hkeeps.clk]; rfl, by rw [hkeeps.aon]; rfl, by rw [hkeeps.newK]; rfl, ?_, ?_⟩
      · refine (state_fld_of_reg (hkeeps.mitten _ (by decide)) 0 7).trans (hstep.trans ?_)
        rw [e]
        rfl
      · refine (hkeeps.mitten _ (by decide)).trans (hcount.trans ?_)
        rw [e]
        rfl

end

section
/-! SUPPORT. The steps of the boot (06_slow_tier, R213; 14_mitten_power_ageing, R455, R457, R460). -/

namespace Sys2Proof.Machine

/-! ### READY (R455, R559) -/

theorem foldl_mitten {α : Type} {g : State → α → State} (hg : ∀ s a, MittenStands s (g s a)) (l : List α) (s : State) :
    MittenStands s (l.foldl g s) :=
  List.foldlRecOn (motive := MittenStands s) l g (.of_regs rfl) fun t ht a _ => ht.trans (hg t a)

theorem boundarySequencer_mitten (s : State) : MittenStands s s.boundarySequencer := by
  have hmode : MittenStands s (if s.reg Reg.seqMode = s.reg Reg.seqModeNext then s
      else (s.logDecision 13 (leBytes 4 (s.reg Reg.seqMode) ++ leBytes 4 (s.reg Reg.seqModeNext))).put Reg.seqMode
        (s.reg Reg.seqModeNext)) := by
    split
    · exact .of_regs rfl
    · exact (logDecision_mitten s 13 _).trans fun k hk => nat_put_mitten _ hk (a := Reg.seqMode) (by decide) _
  unfold State.boundarySequencer
  refine hmode.trans (foldl_mitten (fun t q k hk => ?_) _ _)
  exact (nat_put_mitten _ hk (a := Reg.seqQCons q) (by unfold Reg.seqQCons; omega) _).trans
    ((nat_put_mitten _ hk (a := Reg.seqQArr q) (by unfold Reg.seqQArr; omega) _).trans
      (nat_put_mitten _ hk (a := Reg.seqQCred q) (by unfold Reg.seqQCred; omega) _))

/-- Brim's first values are in its own registers. -/
theorem nat_brimRegs (r : Tbl Word) (keep interval round : Nat) {k : Nat} (hk : k < 0x10000) :
    Regs.nat (Regs.put (Regs.put (Regs.put r Reg.brmKeep keep) Reg.brmInterval interval) Reg.brmRound round) k = Regs.nat r k :=
  (nat_put_mitten _ hk (a := Reg.brmRound) (by decide) _).trans
    ((nat_put_mitten _ hk (a := Reg.brmInterval) (by decide) _).trans (nat_put_mitten _ hk (a := Reg.brmKeep) (by decide) _))

theorem brimFirst_mitten (s : State) : MittenStands s s.brimFirst := by
  have hset (x : Shard) (t : State) (n : Nat) : MittenStands t (t.setShard n x) := .of_regs rfl
  have hdigest (t : State) (e : MapEntry) : MittenStands t (t.renewDigest e ((t.groupOf e.tensor).omu == 0)) := .of_regs rfl
  have hbrim (b : Brim) : MittenStands s { s with brim := b } := .of_regs rfl
  unfold State.brimFirst
  exact (hbrim _).trans ((foldl_mitten (hset _) _ _).trans ((foldl_mitten hdigest _ _).trans
    fun k hk => nat_brimRegs _ _ _ _ hk))

theorem brimStart_mitten (s : State) : MittenStands s s.brimStart := by
  have hrounds : MittenStands s (if s.job.resumed then s.brimResume else s.brimFirst) := by
    split
    · exact fun k hk => nat_brimRegs _ _ _ _ hk
    · exact brimFirst_mitten s
  unfold State.brimStart
  exact hrounds.trans fun k hk => (nat_putFld_mitten _ hk (a := Reg.brmStatus) (by decide) _ _ _).trans
    (nat_putFld_mitten _ hk (a := Reg.brmStatus) (by decide) _ _ _)

/-- READY and the end of job start write no register of Mitten's. -/
theorem ready_mitten (s : State) : MittenStands s s.ready := by
  have hconst (t : State) (n : Nat) : MittenStands t (t.writeConstants n) := .of_regs rfl
  have hfill : MittenStands s s.fillGroupTables := .of_regs rfl
  have hmap (t : State) (f : Nat × FlashImage) : MittenStands t (t.writeMap f.1) := .of_regs rfl
  have hstart := hfill.trans ((hconst _ s.job.firstStep).trans ((hconst _ (s.job.firstStep + 1)).trans
    ((boundarySequencer_mitten _).trans (brimStart_mitten _))))
  unfold State.ready
  revert hstart
  generalize ((s.fillGroupTables.writeConstants s.job.firstStep).writeConstants (s.job.firstStep + 1)).boundarySequencer.brimStart = t
  intro hstart
  have hmaps (l : List (Nat × FlashImage)) := (hstart.trans (post_mitten t 1 0x1F8 (leBytes 4 (t.reg Reg.seqStep)))).trans (foldl_mitten hmap l _)
  exact fun k hk => hmaps _ k hk

/-- Step 14 of a boot after PORST_N ends in RUN. -/
theorem bootDone_runs {s : State} (hp : s.power = 1) (hc : s.fld Reg.aonResetCause 0 1 = 1) : s.bootDone.power = 2 := by
  have hfuses (t : State) : MittenStands t t.blowFuses := fun k hk =>
    (nat_putFld_mitten _ hk (a := Reg.idStatus) (by decide) _ _ _).trans
      (nat_putFld_mitten _ hk (a := Reg.idStatus) (by decide) _ _ _)
  have hlatch (t : State) : MittenStands t t.latchTables := .of_regs rfl
  have hready := (hfuses (s.putFld Reg.aonState 0 3 2)).trans ((hlatch _).trans (ready_mitten _))
  have hcause : (s.putFld Reg.aonState 0 3 2).blowFuses.latchTables.ready.fld Reg.aonResetCause 0 1 = 1 :=
    (state_fld_of_reg (hready _ (by decide)) 0 1).trans
      ((fld_of_nat (nat_putFld_ne s.regs _ _ _ (by decide)) 0 1).trans hc)
  rw [State.bootDone, if_pos hp, State.rejoin, if_pos (.inl hcause)]
  exact (state_fld_of_reg (hready _ (by decide)) 0 3).trans (fld_putFld_self _ _ 2 (by decide))

/-! ### Steps 4 to 8 -/

theorem toStep_bootStep (s : State) {n : Nat} (h : n < 16) : (s.toStep n).bootStep = n :=
  (fld_putFld_self _ _ n (by decide)).trans (Nat.mod_eq_of_lt h)

theorem toStep_power (s : State) (n : Nat) : (s.toStep n).power = s.power :=
  fld_putFld_apart _ _ n (by decide) (by decide)

theorem toStep_fld (s : State) (n : Nat) {a : Nat} (h : a ≠ Reg.aonState) (lo w : Nat) : (s.toStep n).fld a lo w = s.fld a lo w :=
  fld_of_nat (nat_putFld_ne _ _ _ _ h) lo w

/-- HBM is kept whole or not at all. -/
theorem bootHbm_hbm (s : State) : s.bootHbm.hbm = s.hbm ∨ s.bootHbm.hbm = [] := by
  unfold State.bootHbm
  dsimp only
  split
  · exact .inl rfl
  · exact .inr rfl

section
variable {s : State}

theorem bootOk_next {n : Nat} (hn : n ∈ [2, 5]) (h : s.bootStep = n) : s.bootOk = s.toStep (n + 1) := by
  simp only [List.mem_cons, List.not_mem_nil, or_false] at hn
  rw [State.bootOk, h]
  rcases hn with rfl | rfl <;> rfl

theorem bootOk_keys (h : s.bootStep = 4) : s.bootOk = s.bootKeys := by
  rw [State.bootOk, h]
  rfl

theorem bootOk_clocks (h : s.bootStep = 6) : s.bootOk = ((s.putFld Reg.aonFreq 0 7 48).putFld Reg.aonTime 0 1 0).toStep 7 := by
  rw [State.bootOk, h]
  rfl

theorem bootOk_hbm (h : s.bootStep = 7) : s.bootOk = (s.bootHbm.setUpPorts).toStep 8 := by
  rw [State.bootOk, h]
  rfl

theorem bootOk_image (h : s.bootStep = 12) : s.bootOk = if 5 ≤ s.fld Reg.hptStatus 0 3 then s.toStep 13 else s := by
  rw [State.bootOk, h]
  rfl

theorem bootOk_job (h : s.bootStep = 13) : s.bootOk = if s.job.active then s.toStep 14 else s := by
  rw [State.bootOk, h]
  rfl

theorem bootOk_done (h : s.bootStep = 14) : s.bootOk = s.bootDone := by
  rw [State.bootOk, h]
  rfl

end

/-- A bit of a mask, as the model and as Lean's `Nat` name it. -/
theorem bit_eq_testBit (v i : Nat) : bit v i = v.testBit i := by
  rw [Nat.testBit_eq_decide_div_mod_eq]
  rfl

/-- The channels' registers, written one after another, read as written. -/
theorem nat_channels (g : Nat → Nat) (r : Tbl Word) {n c : Nat} (hc : c < n) :
    Regs.nat ((List.range n).foldl (fun r i => Regs.put r (Reg.sltChStatus i) (g i)) r) (Reg.sltChStatus c) = g c % 2 ^ 32 := by
  induction n with
  | zero => exact absurd hc (Nat.not_lt_zero c)
  | succ n ih =>
    rw [List.range_succ, List.foldl_append, List.foldl_cons, List.foldl_nil]
    by_cases h : c = n
    · rw [h, Regs.nat_put_self]
    · rw [Regs.nat_put_ne _ _ _ _ (by unfold Reg.sltChStatus; omega), ih (by omega)]

/-- What step 8 writes of a channel: NAND found, and trained or failed. -/
def channelWord (present failed c : Nat) : Nat :=
  let p := bit present c
  let bad := p && bit failed c
  b2n p + 2 * b2n (p && !bad) + 4 * b2n bad

theorem channelWord_eq (present failed c : Nat) : channelWord present failed c =
    b2n (present.testBit c) + 2 * b2n (present.testBit c && !failed.testBit c) +
      4 * b2n (present.testBit c && failed.testBit c) := by
  rw [channelWord, bit_eq_testBit, bit_eq_testBit]
  cases present.testBit c <;> cases failed.testBit c <;> rfl

theorem channelWord_lt (present failed c : Nat) : channelWord present failed c < 2 ^ 32 := by
  rw [channelWord, bit_eq_testBit, bit_eq_testBit]
  cases present.testBit c <;> cases failed.testBit c <;> decide

/-- Step 8 passed shows the channels in their registers and the slow tier as ready. -/
theorem trained_shows {s : State} (hg : s.confNat 0x0104 0 ≠ 0) (p f : Nat) :
    (s.trained p f).fld Reg.sltStatus 0 1 = 1 ∧
      ∀ c, c < 32 → (s.trained p f).reg (Reg.sltChStatus c) = channelWord p f c := by
  rw [State.trained, if_neg hg]
  refine ⟨?_, fun c hc => ?_⟩
  · exact (fld_of_nat (Regs.nat_put_ne _ Reg.sltMaxErase _ _ (by decide)) 0 1).trans (fld_putFld_self _ _ 1 (by decide))
  · exact (Regs.nat_put_ne _ Reg.sltMaxErase _ _ (by unfold Reg.sltChStatus Reg.sltMaxErase; omega)).trans
      ((nat_putFld_ne _ (a := Reg.sltStatus) _ _ _ (by unfold Reg.sltChStatus Reg.sltStatus; omega)).trans
        ((nat_channels (channelWord p f) _ hc).trans (Nat.mod_eq_of_lt (channelWord_lt p f c))))

/-! ### Failures (R457) -/

/-- Two fields side by side are one. -/
theorem fld_join (r : Tbl Word) (a lo v w : Nat) :
    Regs.fld r a lo (v + w) = Regs.fld r a lo v + 2 ^ v * Regs.fld r a (lo + v) w := by
  simp only [Regs.fld, bits]
  rw [Nat.pow_add, Nat.mod_mul, Nat.pow_add, Nat.div_div_eq_div_mul]

/-- In the safe state SAFE_N is asserted. -/
def SafeShown (s : State) : Prop := s.power = 3 → s.pins.safe = true

theorem SafeShown.of_kept {s t : State} (h : SafeShown s) (hr : t.reg Reg.aonState = s.reg Reg.aonState) (hp : t.pins = s.pins) :
    SafeShown t := fun hpow => by
  rw [hp]
  exact h ((state_fld_of_reg hr 0 3).symm.trans hpow)

theorem enterSafe_shown {s : State} (h : SafeShown s) (unit stage : Nat) : SafeShown (s.enterSafe unit stage) := by
  by_cases hp : s.power = 3
  · rw [State.enterSafe, if_pos hp]
    exact h
  · exact fun _ => enterSafe_safe hp unit stage

theorem fault_shown {s : State} (h : SafeShown s) (unit cause access addr detail : Nat) (crossing : Bool) :
    SafeShown (s.fault unit cause access addr detail crossing) := by
  have hplace (v : FaultRec) : SafeShown (s.placeRecord v).tookFree.tookFree := by
    refine h.of_kept (placeRecord_mitten s v _ (by decide)) ?_
    show (s.placeRecord v).pins = s.pins
    unfold State.placeRecord
    split <;> rfl
  have hpost {u : State} (hu : SafeShown u) (e n k : Nat) : SafeShown (u.postFault e n k) := by
    refine hu.of_kept (post_mitten u 5 n _ _ (by decide)) ?_
    obtain ⟨h, r, e⟩ := post_host u 5 n (leBytes 4 e ++ leBytes 4 k)
    rw [State.postFault, e]
  unfold State.fault
  split
  · exact enterSafe_shown h _ _
  · split
    · exact h.of_kept (count_mitten s (a := Reg.gntEvcCoalesce) (by decide) _ (by decide)) rfl
    · split
      · exact enterSafe_shown (h.of_kept (count_mitten s (a := Reg.gntEvcLogfull) (by decide) _ (by decide)) rfl) _ _
      · dsimp only
        split
        · exact enterSafe_shown (hpost (hplace _) _ _ _) _ _
        · exact hplace _

/-- The registers of a boot that stops, before its fault is captured. -/
def bootFailRegs (r : Tbl Word) (step cause stack : Nat) : Tbl Word :=
  Regs.putFld (Regs.putFld (Regs.putFld r Reg.aonBoot 0 4 step) Reg.aonBoot 4 4 cause) Reg.aonBoot 8 3 stack

theorem bootFailRegs_step {r : Tbl Word} {step cause stack : Nat} (h : step < 16) :
    Regs.fld (bootFailRegs r step cause stack) Reg.aonBoot 0 4 = step :=
  (fld_putFld_apart _ _ _ (by decide) (by decide)).trans ((fld_putFld_apart _ _ _ (by decide) (by decide)).trans
    ((fld_putFld_self _ _ _ (by decide)).trans (Nat.mod_eq_of_lt h)))

theorem bootFailRegs_cause {r : Tbl Word} {step cause stack : Nat} (h : cause < 16) :
    Regs.fld (bootFailRegs r step cause stack) Reg.aonBoot 4 4 = cause :=
  (fld_putFld_apart _ _ _ (by decide) (by decide)).trans ((fld_putFld_self _ _ _ (by decide)).trans (Nat.mod_eq_of_lt h))

/-- A failure stops the boot in the safe state, with its step, its cause and its stack in `AON_BOOT`. -/
theorem bootFail_stops {s : State} (hs : s.power < 3) {step cause stack : Nat} (h1 : step < 16) (h2 : cause < 16) (h3 : stack < 8) :
    (s.bootFail step cause stack).power = 3 ∧ (s.bootFail step cause stack).fld Reg.aonBoot 0 8 = step + 16 * cause ∧
      (s.bootFail step cause stack).fld Reg.aonBoot 8 3 = stack ∧ (s.bootFail step cause stack).pins.safe = true := by
  have hboot : (s.bootFail step cause stack).reg Reg.aonBoot = Regs.nat (bootFailRegs s.regs step cause stack) Reg.aonBoot :=
    (enterSafe_mitten _ _ _ _ (by decide) (by decide) (by decide)).trans
      (fault_mitten { s with regs := bootFailRegs s.regs step cause stack } _ _ _ _ _ _ _ (by decide) (by decide) (by decide))
  have hpow : (s.bootFail step cause stack).power = 3 := enterSafe_power _ _ _
  have hshown : SafeShown { s with regs := bootFailRegs s.regs step cause stack } := fun hno => by
    have : s.power = 3 := (fld_of_nat ((nat_putFld_ne _ _ _ _ (by decide)).trans ((nat_putFld_ne _ _ _ _ (by decide)).trans
      (nat_putFld_ne s.regs _ _ _ (by decide)))) 0 3).symm.trans hno
    omega
  refine ⟨hpow, ?_, ?_, enterSafe_shown (fault_shown hshown _ _ _ _ _ _) _ _ hpow⟩
  · refine (fld_of_nat hboot 0 8).trans ((fld_join _ _ 0 4 4).trans ?_)
    rw [bootFailRegs_step h1, bootFailRegs_cause h2]
    rfl
  · exact (fld_of_nat hboot 8 3).trans ((fld_putFld_self _ _ _ (by decide)).trans (Nat.mod_eq_of_lt h3))

end Sys2Proof.Machine
end

section
/-! SUPPORT. Full resets other than PORST_N (14_mitten_power_ageing, R473 to R477). -/

namespace Sys2Proof.Machine

/-- While the core clock stands the always-on edges alone go by. -/
theorem atAc_stopped {s : State} (h : s.coreStopped = true) (t : Nat) : t ≤ (s.atAc t).clk.acnt := by
  rw [State.atAc, if_pos h]
  split
  · assumption
  · show t ≤ s.clk.acnt + (t - s.clk.acnt)
    omega

/-! ### Pins -/

/-- A fall of PWRGOOD with the main rails down moves its pin, and HBM cannot be kept (R476). -/
theorem pwrgoodFallEffect_rails {s : State} (h : s.pins.mainEn = false) : pwrgoodFallEffect s =
    { s with
      pins := { s.pins with pwrgood := false }
      aon := { s.aon with
        reset := s.aon.reset.map fun (r : ResetRun) => { r with noretain := true }
        retain := false } } := if_neg (ne_true_of_eq_false h)

theorem porstNReleaseEffect_idle {s : State} (h : s.pins.porst = false) (k : BitVec 2) : porstNReleaseEffect k s = s :=
  if_pos (by rw [h]; rfl)

/-- PORST_N's release samples the straps. -/
theorem porstNReleaseEffect_samples {s : State} (h : s.pins.porst = true) (k : BitVec 2) : porstNReleaseEffect k s =
    { s with
      pins := { s.pins with porst := false, strap := k }
      regs := Regs.putFld s.regs Reg.aonBoot 13 2 k.toNat } := if_neg (by rw [h]; exact Bool.false_ne_true)

/-! ### A reset's source (R473, R474) -/

section
variable {s : State} (hp : s.pins.porst = false)
include hp

/-- A second source joins a reset under way. -/
theorem startReset_joins {r : ResetRun} (hr : s.aon.reset = some r) (cause : Nat) (noretain : Bool) :
    s.startReset cause noretain = { s with aon := { s.aon with
      reset := some { r with cause := r.cause ||| cause, noretain := r.noretain || noretain } } } := by
  simp only [State.startReset, hp, hr, Bool.false_eq_true, if_false]

/-- The first begins one, from the safe state at the stage in which the stacks stand. -/
theorem startReset_begins (hr : s.aon.reset = none) (cause : Nat) (noretain : Bool) :
    ∃ r, (s.startReset cause noretain).aon.reset = some r ∧ (s.startReset cause noretain).power = 4 ∧
      (s.startReset cause noretain).pins.porst = false ∧ r.at' = s.clk.acnt ∧ r.noretain = noretain ∧
      r.cause = (if s.power = 3 then cause ||| 16 else cause) ∧
      (s.power = 3 → s.aon.refreshed = true → r.stage = 1) := by
  have hpower (t : State) : Regs.fld (Regs.putFld t.regs Reg.aonState 0 3 4) Reg.aonState 0 3 = 4 :=
    fld_putFld_self _ _ 4 (by decide)
  simp only [State.startReset, hp, hr, Bool.false_eq_true, if_false]
  refine ⟨_, rfl, hpower _, ?_, rfl, rfl, rfl, fun hsafe hdone => if_pos (.inl ⟨hsafe, hdone⟩)⟩
  have hcommit : (if s.power = 3 then s else s.commitAccepted).pins = s.pins := by split <;> rfl
  split
  · exact (congrArg Pins.porst hcommit).trans hp
  · exact (congrArg Pins.porst hcommit).trans hp

end

/-- RESET_N asserts its pin where PORST_N does not hold the part. -/
theorem resetNAssertEffect_running {s : State} (h : (s.startReset 2 false).pins.porst = false) : resetNAssertEffect s =
    { s.startReset 2 false with pins := { (s.startReset 2 false).pins with resetN := true } } :=
  if_neg (ne_true_of_eq_false h)

/-- The stacks' confirmation takes the main rails down once 2,500 ac have passed. -/
theorem selfRefreshConfirmEffect_reset {s : State} {r : ResetRun} (hr : s.aon.reset = some r) (hs : r.stage = 0) (ok : Bool) :
    selfRefreshConfirmEffect ok s =
      (let t := s.atAc (r.at' + 2500)
       { t with
         pins := { t.pins with mainEn := false }
         aon := { t.aon with reset := some { r with stage := 1, confirmed := ok } } }) := by
  simp only [selfRefreshConfirmEffect, hr]
  exact if_neg fun hne => hne hs

/-- Outside a reset it establishes the safe state. -/
theorem selfRefreshConfirmEffect_safe {s : State} (h : s.aon.reset = none) (ok : Bool) : selfRefreshConfirmEffect ok s =
    if s.power = 3 then { s with aon := { s.aon with refreshed := ok } } else s := by
  simp only [selfRefreshConfirmEffect, h]

/-! ### The reset after an alarm (R475) -/

theorem causeGone_iff {s : State} : s.causeGone = true ↔ s.aon.alarm = some 6 ∨ s.fld Reg.aonTemp 0 10 < 200 := by
  simp [State.causeGone]

/-- What the reset after an alarm waits for. -/
def State.alarmOver (s : State) : Prop :=
  s.power = 3 ∧ s.aon.refreshed = true ∧ s.aon.alarm ≠ none ∧ s.fld Reg.aonResetCause 12 2 ≠ 3 ∧ s.aon.reset = none ∧
    s.causeGone = true

theorem alarmOver_iff {s : State} : s.alarmOver ↔ ¬ (s.power ≠ 3 ∨ !s.aon.refreshed ∨ s.aon.alarm.isNone ∨
    s.fld Reg.aonResetCause 12 2 = 3 ∨ s.aon.reset.isSome ∨ !s.causeGone) := by
  simp [State.alarmOver]

theorem alarmResetEffect_idle {s : State} (h : ¬ s.alarmOver) : alarmResetEffect s = s :=
  if_pos (not_not.mp fun hno => h (alarmOver_iff.mpr hno))

/-- It begins at once after a known-answer test that failed, and else 100 ms after its cause was last there. -/
theorem alarmResetEffect_resets {s : State} (h : s.alarmOver) : ∃ u, alarmResetEffect s = u.startReset 8 false ∧
    ∃ c, u = { s with clk := c } ∧ (s.aon.alarm ≠ some 6 → s.aon.causeAt + 2500000 ≤ u.clk.acnt) := by
  have heff : alarmResetEffect s =
      (if s.aon.alarm = some 6 then s else s.atAc (s.aon.causeAt + 2500000)).startReset 8 false := if_neg (alarmOver_iff.mp h)
  have hstop : s.coreStopped = true := by
    rw [State.coreStopped, h.1]
    rfl
  refine ⟨_, heff, ?_⟩
  split
  next hkat => exact ⟨s.clk, rfl, fun hno => absurd hkat hno⟩
  next => exact ⟨_, (atAc_clk s _).choose_spec.trans rfl, fun _ => atAc_stopped hstop _⟩

/-! ### A reset's release (R474 to R477) -/

theorem resetReleaseEffect_due {s : State} {r : ResetRun} (h : s.aon.reset = some r) :
    resetReleaseEffect s = ((s.atAc (r.at' + 2600)).afterReset r).showAlert := by
  simp only [resetReleaseEffect, h]

/-- `AON_RESET_CAUSE` shows a reset's sources in its low bits. -/
theorem resetCause_sources (old cause : Nat) : resetCause old cause % 32 = cause % 32 := by
  unfold resetCause
  dsimp only
  omega

section
variable (s : State) (r : ResetRun)

theorem afterReset_state : (s.afterReset r).fld Reg.aonState 0 8 = 0x20 :=
  congrArg (bits · 0 8) ((nat_putPair_mitten _ (by decide) (a := Reg.vsrDlogHeadLo) (by decide) _).trans
    ((nat_putFld_ne _ (a := Reg.aonBoot) _ _ _ (by decide)).trans (Regs.nat_put_self _ Reg.aonState _)))

theorem afterReset_cause : (s.afterReset r).fld Reg.aonResetCause 0 5 = r.cause % 32 := by
  have hnat : (s.afterReset r).reg Reg.aonResetCause =
      resetCause (Regs.nat (keptRegs s.regs) Reg.aonResetCause) r.cause % 2 ^ 32 :=
    (nat_putPair_mitten _ (by decide) (a := Reg.vsrDlogHeadLo) (by decide) _).trans
      ((nat_putFld_ne _ (a := Reg.aonBoot) _ _ _ (by decide)).trans
        ((Regs.nat_put_ne _ Reg.aonState _ _ (by decide)).trans (Regs.nat_put_self _ Reg.aonResetCause _)))
  have hsources := resetCause_sources (Regs.nat (keptRegs s.regs) Reg.aonResetCause) r.cause
  rw [State.fld, Regs.fld, ← State.reg, hnat, bits, Nat.pow_zero, Nat.div_one, ← hsources]
  omega

theorem afterReset_hbm : ((s.afterReset r).hbm = s.hbm ∨ (s.afterReset r).hbm = []) ∧
    (r.noretain = true ∨ r.confirmed = false → (s.afterReset r).hbm = []) := by
  have hkeep : (s.afterReset r).hbm = if s.mayRetain r then s.hbm else [] := rfl
  rw [hkeep]
  refine ⟨?_, fun hlost => if_neg ?_⟩
  · split
    · exact .inl rfl
    · exact .inr rfl
  · simp only [State.mayRetain, Bool.and_eq_true, Bool.not_eq_true']
    rintro ⟨⟨-, hret⟩, hconf⟩
    rcases hlost with h | h
    · exact absurd hret (ne_false_of_eq_true h)
    · exact absurd hconf (ne_true_of_eq_false h)

end

end Sys2Proof.Machine
end

section
open Sys2Proof Sys2Proof.Machine

/-- Settles O53: it holds. A reset begins or is joined (`startReset_begins`, `startReset_joins`) and is released by
`State.afterReset`; a boot step ends in the next one, in RUN (`bootDone_runs`) or in the safe state (`bootFail_stops`). -/
theorem resetsAndBootRun : Obligations.ResetsAndBootRun := by
  unfold Obligations.ResetsAndBootRun
  refine ⟨fun s => ?resets, fun r s => ?boot⟩
  case resets =>
    refine ⟨fun hmain => ⟨pwrgoodFallEffect s, porstNAssertEffect s, rfl, rfl, ?_⟩, fun hmain => ⟨pwrgoodFallEffect s, rfl, ?_⟩,
      ⟨porstNAssertEffect s, rfl, rfl, rfl, rfl, rfl, rfl, rfl⟩, fun k => ⟨fun hno => ?_, fun hyes => ?_⟩, fun hp => ?_⟩
    · rw [pwrgoodFallEffect_porst hmain]
      exact ⟨rfl, rfl⟩
    · rw [pwrgoodFallEffect_rails hmain]
      exact ⟨rfl, rfl, rfl, fun hnone => by rw [hnone]; rfl, fun r hr => by rw [hr]; rfl⟩
    · exact congrArg _ (porstNReleaseEffect_idle hno k)
    · refine ⟨porstNReleaseEffect k s, rfl, ?_⟩
      rw [porstNReleaseEffect_samples hyes k]
      exact ⟨rfl, rfl, (fld_putFld_self _ _ _ (by decide)).trans (Nat.mod_eq_of_lt k.isLt),
        fld_of_nat (nat_putFld_ne _ _ _ _ (by decide)) 0 3⟩
    · have hconfirm (ok : Bool) : exec (.selfRefreshConfirm ok) s = .next (selfRefreshConfirmEffect ok s) :=
        congrArg _ (inAlwaysOn_run hp (.selfRefreshConfirm ok) rfl _)
      have hrelease : exec .resetRelease s = .next (resetReleaseEffect s) :=
        congrArg _ (inAlwaysOn_run hp .resetRelease rfl _)
      have halarm : exec .alarmReset s = .next (alarmResetEffect s) := congrArg _ (inAlwaysOn_run hp .alarmReset rfl _)
      rw [hrelease, halarm]
      refine ⟨fun hnone hpow => ?begins, fun r hr => ?joins, fun r ok hr hstage hstop => ?confirmed,
        fun ok hnone => ⟨fun hsafe => ?_, fun hsafe => ?_, ?_⟩, fun r hr hstop => ?released, ?alarm⟩
      case begins =>
        obtain ⟨r, hr, hpower, hporst, hat, hret, hcause, -⟩ := startReset_begins hp hnone 2 false
        refine ⟨resetNAssertEffect s, r, rfl, ?_⟩
        rw [resetNAssertEffect_running hporst]
        refine ⟨hpower, rfl, hr, hcause.trans (if_neg (by omega)), hret, hat⟩
      case joins =>
        refine ⟨resetNAssertEffect s, rfl, ?_⟩
        rw [resetNAssertEffect_running (by rw [startReset_joins hp hr]; exact hp), startReset_joins hp hr, Bool.or_false]
        exact ⟨rfl, rfl⟩
      case confirmed =>
        rw [hconfirm]
        refine ⟨_, rfl, ?_⟩
        rw [selfRefreshConfirmEffect_reset hr hstage]
        exact ⟨rfl, rfl, atAc_stopped hstop _⟩
      · rw [hconfirm, selfRefreshConfirmEffect_safe hnone, if_pos hsafe]
      · rw [hconfirm, selfRefreshConfirmEffect_safe hnone, if_neg hsafe]
      · simp only [resetReleaseEffect, hnone]
      case released =>
        have hreach := atAc_stopped hstop (r.at' + 2600)
        obtain ⟨c, e⟩ := atAc_clk s (r.at' + 2600)
        obtain ⟨hkept, hlost⟩ := afterReset_hbm (s.atAc (r.at' + 2600)) r
        have hhbm : (s.atAc (r.at' + 2600)).hbm = s.hbm := by rw [e]
        have hfuses : (s.atAc (r.at' + 2600)).fuses = s.fuses := by rw [e]
        have hflash : (s.atAc (r.at' + 2600)).slt.flash = s.slt.flash := by rw [e]
        rw [resetReleaseEffect_due hr]
        exact ⟨_, rfl, rfl, afterReset_state _ r, hreach, hfuses, hflash, afterReset_cause _ r, hlost,
          hhbm ▸ hkept⟩
      case alarm =>
        intro gone
        refine ⟨fun hno => ?_, fun hsafe hfresh hsome hfew hg hnone => ?_⟩
        · rw [alarmResetEffect_idle]
          rintro ⟨h1, h2, h3, h4, -, h6⟩
          rcases hno with h | h | h | h | h
          · exact h h1
          · exact absurd h2 (ne_true_of_eq_false h)
          · exact h3 h
          · exact h4 h
          · exact h (causeGone_iff.mp h6)
        · obtain ⟨u, e, c, eu, hat⟩ := alarmResetEffect_resets ⟨hsafe, hfresh, hsome, hfew, hnone, causeGone_iff.mpr hg⟩
          obtain ⟨r, hr, hpower, -, hr', -, hcause, hstage⟩ := startReset_begins (s := u) (by rw [eu]; exact hp)
            (by rw [eu]; exact hnone) 8 false
          have husafe : u.power = 3 := by rw [eu]; exact hsafe
          refine ⟨_, r, rfl, ?_⟩
          rw [e]
          exact ⟨hpower, hr, hcause.trans (if_pos husafe), hstage husafe (by rw [eu]; exact hfresh),
            fun hother => by rw [hr']; exact hat hother⟩
  case boot =>
    have hexec (r : BootResult) (hp : s.pins.porst = false) :
        exec (.bootStepComplete r) s = .next (bootStepCompleteEffect r s) :=
      congrArg _ (inAlwaysOn_run hp (.bootStepComplete r) rfl _)
    refine ⟨fun hheld => ?held, fun hp hnone hlow => ?steps⟩
    case held =>
      cases hp : s.pins.porst with
      | true => exact exec_porst_stands hp rfl
      | false => exact (hexec r hp).trans (congrArg _ (if_pos hheld))
    case steps =>
      have hfree : ¬ (s.pins.porst = true ∨ s.aon.reset.isSome = true ∨ 3 ≤ s.power) := by
        rw [hp, hnone]
        simp only [Bool.false_eq_true, Option.isSome_none, false_or]
        omega
      have hok : exec (.bootStepComplete .ok) s = .next s.bootOk := (hexec .ok hp).trans (congrArg _ (if_neg hfree))
      rw [hok]
      refine ⟨fun n hn hstep => ?_, fun hstep => ?_, fun hstep => ?_, fun hstep => ?_, fun hstep p f => ?_, fun hstep hearly => ?_,
        fun hstep hidle => ?_, fun hstep hpow hcause hnew => ?_, fun hstep slot bs i hslot hopen hver => ?_, fun hstep => ?_,
        fun hstep => ?_, fun k hk hstep => ?_⟩
      · rw [bootOk_next hn hstep]
        rfl
      · refine ⟨_, rfl, ?_⟩
        rw [bootOk_keys hstep]
        exact ⟨(toStep_power _ 5).trans (fld_putFld_self _ _ 1 (by decide)), toStep_bootStep _ (by decide), rfl, rfl, rfl⟩
      · refine ⟨_, rfl, ?_⟩
        rw [bootOk_clocks hstep]
        refine ⟨?_, ?_, toStep_bootStep _ (by decide)⟩
        · exact (toStep_fld _ 7 (by decide) 0 7).trans ((fld_of_nat (nat_putFld_ne _ _ _ _ (by decide)) 0 7).trans
            (fld_putFld_self _ _ 48 (by decide)))
        · exact (toStep_fld _ 7 (by decide) 0 1).trans (fld_putFld_self _ _ 0 (by decide))
      · refine ⟨_, rfl, ?_⟩
        rw [bootOk_hbm hstep]
        exact ⟨toStep_bootStep _ (by decide), bootHbm_hbm s⟩
      · refine ⟨_, (hexec _ hp).trans (congrArg _ ((if_neg hfree).trans (if_pos hstep))), toStep_bootStep _ (by decide), fun hg => ?_⟩
        obtain ⟨hready, hchannels⟩ := trained_shows hg p f
        refine ⟨(toStep_fld _ 9 (by decide) 0 1).trans hready, fun c hc => ?_⟩
        rw [← channelWord_eq, ← hchannels c hc]
        exact nat_putFld_ne _ _ _ _ (by unfold Reg.sltChStatus Reg.aonState; omega)
      · rw [bootOk_image hstep, if_neg (Nat.not_le.2 hearly)]
      · rw [bootOk_job hstep, if_neg (ne_true_of_eq_false hidle)]
      · refine ⟨_, rfl, ?_⟩
        rw [bootOk_done hstep]
        exact bootDone_runs hpow hcause
      · refine (hexec _ hp).trans (congrArg _ ((if_neg hfree).trans ((if_pos hstep).trans ?_)))
        rw [State.bootImage, if_neg (by rw [not_or, not_not]; exact ⟨hslot, hopen⟩), hver]
      · refine ⟨_, (hexec _ hp).trans (congrArg _ ((if_neg hfree).trans (if_pos hstep))), ?_⟩
        obtain ⟨hpow, hboot, -, hsafe⟩ := bootFail_stops hlow (step := 5) (cause := 2) (stack := 0) (by decide) (by decide) (by decide)
        exact ⟨hpow, hboot, hsafe⟩
      · refine ⟨_, (hexec _ hp).trans (congrArg _ ((if_neg hfree).trans (if_pos hstep))), ?_⟩
        obtain ⟨hpow, hboot, -, -⟩ := bootFail_stops hlow (step := 6) (cause := 3) (stack := 0) (by decide) (by decide) (by decide)
        exact ⟨hpow, hboot⟩
      · refine ⟨_, (hexec _ hp).trans (congrArg _ ((if_neg hfree).trans (if_pos hstep))), ?_⟩
        obtain ⟨hpow, hboot, hstack, -⟩ := bootFail_stops hlow (step := 7) (cause := 4) (by decide) (by decide) hk
        exact ⟨hpow, hboot, hstack⟩

end

section
/-! SUPPORT. How an engine accepts PROD and DRAIN (03_matrix_engines, R72, R73, R75, R76, R91). -/

namespace Sys2Proof.Machine

/-- Once engine `n` has been set, it reads as set and the others read as before. -/
theorem engine_of_set {s t : State} {n : Nat} {e : Engine} (h : t.eng = s.eng.set n e) :
    t.engine n = e ∧ ∀ k, k ≠ n → t.engine k = s.engine k := by
  simp only [State.engine, h]
  exact ⟨Tbl.get_set_self _ _ _ _, fun k hk => Tbl.get_set_ne _ _ _ _ _ hk⟩

/-! ### PROD -/

/-- What a valid PROD has to do at its engine: products to make, or a tile to start (R76). -/
def ProdCmd.queues (p : ProdCmd) : Bool := p.m != 0 && p.n != 0 && (p.k != 0 || !p.acc)

theorem ProdCmd.queues_of {p : ProdCmd} (hm : p.m ≠ 0) (hn : p.n ≠ 0) (hk : p.k ≠ 0 ∨ p.acc = false) :
    p.queues = true := by simpa [ProdCmd.queues, hm, hn] using hk

theorem ProdCmd.not_queues_of {p : ProdCmd} (h : p.m = 0 ∨ p.n = 0 ∨ (p.k = 0 ∧ p.acc = true)) :
    ¬ p.queues = true := by
  rcases h with h | h | ⟨hk, ha⟩
  · simp [ProdCmd.queues, h]
  · simp [ProdCmd.queues, h]
  · simp [ProdCmd.queues, hk, ha]

section
variable {c : Cmd} {s : State} (hi : s.isolated (cmdUnit c) = false)
include hi

/-- An invalid PROD is counted, and is over after 6 cycles (R75). -/
theorem prodEffect_invalid {p : ProdCmd} (hp : p = ProdCmd.of c)
    (h : prodInvalid p (engineDesc s (cmdUnit c) p.aDesc) (engineDesc s (cmdUnit c) p.bDesc) = true) :
    prodEffect c s = (s.countN (Reg.meEvcViol (cmdUnit c))
        (1 + b2n (p.reserved || reservedOf [engineDesc s (cmdUnit c) p.aDesc, engineDesc s (cmdUnit c) p.bDesc]))).setEngine
      (cmdUnit c) ((s.engine (cmdUnit c)).brief s.now 6) := by
  subst hp
  exact (if_neg (ne_true_of_eq_false hi)).trans (if_pos h)

/-- A valid PROD is counted if it is empty; it waits behind its engine's others, or is over after 6 cycles (R75, R76). -/
theorem prodEffect_valid {p : ProdCmd} (hp : p = ProdCmd.of c)
    (h : prodInvalid p (engineDesc s (cmdUnit c) p.aDesc) (engineDesc s (cmdUnit c) p.bDesc) = false) :
    prodEffect c s = { s with
      regs := Regs.counts s.regs
        [(Reg.meEvcViol (cmdUnit c),
          b2n (p.reserved || reservedOf [engineDesc s (cmdUnit c) p.aDesc, engineDesc s (cmdUnit c) p.bDesc])),
         (Reg.meEvcEmpty (cmdUnit c), b2n (p.m == 0 || p.n == 0 || p.k == 0))]
      eng := s.eng.set (cmdUnit c)
        (if p.queues then { (s.engine (cmdUnit c)).next s.now with prods := (s.engine (cmdUnit c)).prods ++
            [{ cmd := c, serial := (s.engine (cmdUnit c)).serial, issue := s.now
               moved := (s.engine (cmdUnit c)).movedNow s.now
               aDesc := engineDescBytes s (cmdUnit c) p.aDesc, bDesc := engineDescBytes s (cmdUnit c) p.bDesc }] }
         else (s.engine (cmdUnit c)).brief s.now 6) } := by
  subst hp
  exact (if_neg (ne_true_of_eq_false hi)).trans (if_neg (ne_true_of_eq_false h))

/-! ### DRAIN -/

/-- An invalid DRAIN is counted, and is over after 1 cycle (R75). -/
theorem drainEffect_invalid (step : Nat) {d : DrainCmd} (hd : d = DrainCmd.of c)
    (h : drainInvalid d (engineDesc s (cmdUnit c) d.desc) = true) :
    drainEffect c step s = (s.countN (Reg.meEvcViol (cmdUnit c))
        (1 + b2n (d.reserved || (d.dest == 0 && reservedOf [engineDesc s (cmdUnit c) d.desc])))).setEngine
      (cmdUnit c) ((s.engine (cmdUnit c)).brief s.now 1) := by
  subst hd
  exact (if_neg (ne_true_of_eq_false hi)).trans (if_pos h)

/-- A valid DRAIN is counted if it is empty, and for its reserved bits and its rounding code unless it is of DEST 3 and
swaps; it waits behind its engine's others, or is over after 1 cycle (R44, R75, R76, R91). -/
theorem drainEffect_valid (step : Nat) {d : DrainCmd} (hd : d = DrainCmd.of c)
    (h : drainInvalid d (engineDesc s (cmdUnit c) d.desc) = false) :
    drainEffect c step s = { s with
      regs := Regs.counts s.regs
        [(Reg.meEvcViol (cmdUnit c), if d.dest == 3 && !(d.m == 0 || d.n == 0) then 0
          else b2n (d.reserved || (d.dest == 0 && reservedOf [engineDesc s (cmdUnit c) d.desc])) + b2n (d.rnd == 3)),
         (Reg.meEvcEmpty (cmdUnit c), b2n (d.m == 0 || d.n == 0))]
      eng := s.eng.set (cmdUnit c)
        (if d.m == 0 || d.n == 0 then (s.engine (cmdUnit c)).brief s.now 1
         else { (s.engine (cmdUnit c)).next s.now with drains := (s.engine (cmdUnit c)).drains ++
            [{ cmd := c, serial := (s.engine (cmdUnit c)).serial, issue := s.now
               moved := (s.engine (cmdUnit c)).movedNow s.now, desc := engineDescBytes s (cmdUnit c) d.desc, step
               lepoch := s.fld Reg.seqEpoch 0 16 }] }) } := by
  subst hd
  exact (if_neg (ne_true_of_eq_false hi)).trans (if_neg (ne_true_of_eq_false h))

end

end Sys2Proof.Machine
end

section
open Sys2Proof Sys2Proof.Machine

/-- Settles O10: it holds. An invalid command is its count (`prodEffect_invalid`, `drainEffect_invalid`); a valid one waits
behind the others of its kind, or is over after its cycles (`prodEffect_valid`, `drainEffect_valid`), and each sets its own
engine alone (`engine_of_set`). -/
theorem enginesAcceptCommands : Obligations.EnginesAcceptCommands := by
  unfold Obligations.EnginesAcceptCommands
  refine ⟨fun cmd s hr hw hi => ?prod, fun cmd s hr hw hi => ?drain⟩
  case prod =>
    intro n p a b e resv
    refine ⟨prodEffect cmd s, exec_running hr hw rfl, ?_⟩
    cases hv : prodInvalid p a b with
    | true =>
      have he := prodEffect_invalid hi rfl hv
      have hset := engine_of_set (congrArg State.eng he)
      exact ⟨by rw [he]; rfl, hset.2, fun _ => he, nofun⟩
    | false =>
      have he := prodEffect_valid hi rfl hv
      obtain ⟨hself, hother⟩ := engine_of_set (congrArg State.eng he)
      refine ⟨by rw [he], hother, nofun, fun _ => ⟨congrArg State.regs he, fun hm hn hk => ?_, fun hnone => ?_⟩⟩
      · exact hself.trans (if_pos (ProdCmd.queues_of hm hn hk))
      · exact hself.trans (if_neg (ProdCmd.not_queues_of hnone))
  case drain =>
    intro n d o e resv
    refine ⟨drainEffect cmd s.stepNow s, exec_running hr hw rfl, ?_⟩
    cases hv : drainInvalid d o with
    | true =>
      have he := drainEffect_invalid hi s.stepNow rfl hv
      have hset := engine_of_set (congrArg State.eng he)
      exact ⟨by rw [he]; rfl, hset.2, fun _ => he, nofun⟩
    | false =>
      have he := drainEffect_valid hi s.stepNow rfl hv
      obtain ⟨hself, hother⟩ := engine_of_set (congrArg State.eng he)
      have hregs := congrArg State.regs he
      refine ⟨by rw [he], hother, nofun, fun _ => ⟨fun hloud => ?_, fun h3 hm hn => ?_, fun hm hn => ?_, fun hnone => ?_⟩⟩
      · have : (d.dest == 3 && !(d.m == 0 || d.n == 0)) = false := by
          rcases hloud with h | h | h <;> simp [h]
        exact hregs.trans (by rw [if_neg (ne_true_of_eq_false this)])
      · refine hregs.trans ?_
        have hfull : (d.m == 0 || d.n == 0) = false := by simp [hm, hn]
        have hsilent : (d.dest == 3 && !(d.m == 0 || d.n == 0)) = true := by rw [hfull, h3]; rfl
        rw [if_pos hsilent, hfull]
        rfl
      · have hfull : ¬ (d.m == 0 || d.n == 0) = true := by simp [hm, hn]
        exact hself.trans (if_neg hfull)
      · have hempty : (d.m == 0 || d.n == 0) = true := by simpa using hnone
        exact hself.trans (if_pos hempty)

end

section
/-! SUPPORT. The event counters of engines and row units, and the SAT register of each (15_gauntlet_faults_counters_test,
R8, R495, R497). -/

namespace Sys2Proof.Machine

/-- The register at an offset of engine `n` (R520). -/
theorem locate_me {n off a : Nat} (hn : n < 128) (ho : off < 0x1000) (ha : a = 0x200000 + 0x1000 * n + off) :
    locate a = some (.me, n, off) := by
  have hdiv : (a - 0x200000) / 0x1000 = n := by omega
  have hmod : a % 0x1000 = off := by omega
  unfold locate
  iterate 9 rw [if_neg (by omega)]
  rw [if_pos (by omega), hdiv, hmod]

/-- The register at an offset of row unit `n` (R520). -/
theorem locate_row {n off a : Nat} (hn : n < 32) (ho : off < 0x1000) (ha : a = 0x3A0000 + 0x1000 * n + off) :
    locate a = some (.row, n, off) := by
  have hdiv : (a - 0x3A0000) / 0x1000 = n := by omega
  have hmod : a % 0x1000 = off := by omega
  unfold locate
  iterate 16 rw [if_neg (by omega)]
  rw [if_pos (by omega), hdiv, hmod]

/-- A counter is shown saturated in the SAT register of its block. -/
theorem satOf_located {a n off o : Nat} {b : Block} (hl : locate a = some (b, n, off)) (ho : b.satOff = some o) :
    ∀ x ∈ satOf a, x.1 = b.base n + o := by
  intro x hx
  simp only [satOf, hl, ho] at hx
  obtain rfl := Option.mem_some.mp hx
  rfl

section
variable (r : Tbl Word) (m : Nat) {n a k : Nat}

theorem satOf_me (hn : n < 128) (ha : 0x200000 + 0x1000 * n ≤ a ∧ a < 0x201000 + 0x1000 * n) :
    ∀ x ∈ satOf a, x.1 = Reg.meEvcSat n := fun x hx => by
  rw [satOf_located (locate_me (off := a - (0x200000 + 0x1000 * n)) hn (by omega) (by omega)) rfl x hx]
  simp only [Block.base, Reg.meEvcSat]
  omega

/-- A count of engine `n` changes its counter and `ME_EVC_SAT` alone. -/
theorem nat_count_me_ne (hn : n < 128) (ha : 0x200000 + 0x1000 * n ≤ a ∧ a < 0x201000 + 0x1000 * n) (h : k ≠ a)
    (hs : k ≠ Reg.meEvcSat n) : Regs.nat (Regs.count r a m) k = Regs.nat r k :=
  nat_count_ne r m h fun x hx => by
    rw [satOf_me hn ha x hx]
    exact hs

/-- A count of row unit `n` changes its counter and `ROW_EVC_SAT` alone. -/
theorem nat_count_row_ne (hn : n < 32) (ha : 0x3A0000 + 0x1000 * n ≤ a ∧ a < 0x3A1000 + 0x1000 * n) (h : k ≠ a)
    (hs : k ≠ Reg.rowEvcSat n) : Regs.nat (Regs.count r a m) k = Regs.nat r k :=
  nat_count_ne r m h fun x hx => by
    rw [satOf_located (locate_row (off := a - (0x3A0000 + 0x1000 * n)) hn (by omega) (by omega)) rfl x hx]
    simp only [Block.base, Reg.rowEvcSat] at hs ⊢
    omega

end

end Sys2Proof.Machine
end

section
/-! SUPPORT. The places that a cluster port gives (03_matrix_engines, R96, R98): what a beat that leaves takes from its unit,
where it joins, and what else a place may change. -/

namespace Sys2Proof.Machine

/-! ### The shadow's beats -/

/-- Beats that leave the shadow keep their order, behind those that the engine already holds (R98). -/
theorem readShadow_beats (fuel free : Nat) (e : Engine) :
    (Engine.readShadow fuel free e).beats.map (·.beat) ++ (Engine.readShadow fuel free e).unread.map (·.1.beat) =
      e.beats.map (·.beat) ++ e.unread.map (·.1.beat) := by
  induction fuel generalizing e with
  | zero => rfl
  | succ fuel ih =>
    unfold Engine.readShadow
    split
    case h_1 => rfl
    case h_2 b c rest h =>
      dsimp only
      split
      · rfl
      · rw [ih, h]
        simp only [List.map_append, List.map_cons, List.map_nil, List.append_assoc, List.singleton_append]

/-! ### A beat leaves its unit -/

/-- The beats that unit `u` still holds, those in an engine's shadow among them. -/
def State.beatsHeld (s : State) (u : Nat) : Nat := (s.unitBeats u).length + (s.engine u).unread.length

/-- What a unit holds is in its own record. -/
theorem beatsHeld_congr {s t : State} {u : Nat} (he : t.engine u = s.engine u)
    (hr : 0x80 ≤ u → u < 0xA0 → t.rowUnit (u - 0x80) = s.rowUnit (u - 0x80))
    (hc : 0xA0 ≤ u → t.serviceCore (u - 0xA0) = s.serviceCore (u - 0xA0)) : t.beatsHeld u = s.beatsHeld u := by
  rw [State.beatsHeld, State.beatsHeld, he]
  congr 2
  unfold State.unitBeats
  rw [he]
  split
  · rfl
  · split
    · rw [hr (by omega) (by omega)]
    · rw [hc (by omega)]

/-- A state that has left its beat `b` in cycle `t`: an engine's shadow may give its next one, and a beat that waited is
counted (R96). -/
def State.withoutBeat (s : State) (u t : Nat) (b : OutBeat) : State :=
  let s := s.putUnitBeats u ((s.unitBeats u).erase b)
  let s := if u < 0x80 then s.setEngine u (Engine.readShadow 1 (t + 1) (s.engine u)) else s
  match portWait u with
  | some a => s.countN a (b2n (decide (b.readyAt < t)))
  | none => s

section
variable (s : State) (u t : Nat) (b : OutBeat)

theorem withoutBeat_engine (h : u < 0x80) : s.withoutBeat u t b =
    { (s.setEngine u { s.engine u with beats := (s.engine u).beats.erase b }).setEngine u
        (Engine.readShadow 1 (t + 1) { s.engine u with beats := (s.engine u).beats.erase b }) with
      regs := Regs.count s.regs (Reg.meEvcPortwait u) (b2n (decide (b.readyAt < t))) } := by
  have hself (e : Engine) : (s.setEngine u e).engine u = e := Tbl.get_set_self _ _ _ _
  simp only [State.withoutBeat, State.putUnitBeats, State.unitBeats, portWait, if_pos h, hself]
  rfl

theorem withoutBeat_row (h : 0x80 ≤ u) (h' : u < 0xA0) : s.withoutBeat u t b = { s with
    row := s.row.set (u - 0x80) { s.rowUnit (u - 0x80) with beats := (s.unitBeats u).erase b }
    regs := Regs.count s.regs (Reg.rowEvcPortwait (u - 0x80)) (b2n (decide (b.readyAt < t))) } := by
  simp only [State.withoutBeat, State.putUnitBeats, portWait, if_neg (Nat.not_lt.2 h), if_pos h']
  rfl

theorem withoutBeat_core (h : 0xA0 ≤ u) : s.withoutBeat u t b = { s with seq := { s.seq with
    cores := s.seq.cores.set (u - 0xA0) { s.serviceCore (u - 0xA0) with beats := (s.unitBeats u).erase b } } } := by
  simp only [State.withoutBeat, State.putUnitBeats, portWait, if_neg (Nat.not_lt.2 h), if_neg (show ¬ u < 0x80 by omega)]

/-- The unit's own record changes, and registers. -/
theorem withoutBeat_parts : ∃ r e w q, s.withoutBeat u t b =
    { s with regs := r, eng := e, row := w, seq := { s.seq with cores := q } } := by
  rcases Nat.lt_or_ge u 0x80 with h | h
  · exact ⟨_, _, s.row, s.seq.cores, withoutBeat_engine s u t b h⟩
  · rcases Nat.lt_or_ge u 0xA0 with h' | h'
    · exact ⟨_, s.eng, _, s.seq.cores, withoutBeat_row s u t b h h'⟩
    · exact ⟨s.regs, s.eng, s.row, _, withoutBeat_core s u t b h'⟩

/-- Another unit holds what it held. -/
theorem withoutBeat_held_ne {v : Nat} (hv : v ≠ u) : (s.withoutBeat u t b).beatsHeld v = s.beatsHeld v := by
  rcases Nat.lt_or_ge u 0x80 with h | h
  · have hset (x : State) (y : Engine) : (x.setEngine u y).engine v = x.engine v := Tbl.get_set_ne _ _ _ _ _ hv
    rw [withoutBeat_engine s u t b h]
    exact beatsHeld_congr ((hset _ _).trans (hset _ _)) (fun _ _ => rfl) fun _ => rfl
  · rcases Nat.lt_or_ge u 0xA0 with h' | h'
    · rw [withoutBeat_row s u t b h h']
      exact beatsHeld_congr rfl (fun _ _ => Tbl.get_set_ne _ _ _ _ _ (by omega)) fun _ => rfl
    · rw [withoutBeat_core s u t b h']
      exact beatsHeld_congr rfl (fun _ _ => rfl) fun _ => Tbl.get_set_ne _ _ _ _ _ (by omega)

/-- The unit itself holds one beat less. -/
theorem withoutBeat_held_self {b : OutBeat} (hb : b ∈ s.unitBeats u) :
    (s.withoutBeat u t b).beatsHeld u + 1 = s.beatsHeld u := by
  have hlen := List.length_erase_of_mem hb
  have hpos := List.length_pos_of_mem hb
  rcases Nat.lt_or_ge u 0x80 with h | h
  · have e := withoutBeat_engine s u t b h
    have hself (x : State) (y : Engine) : (x.setEngine u y).engine u = y := Tbl.get_set_self _ _ _ _
    have hread := congrArg List.length
      (readShadow_beats 1 (t + 1) { s.engine u with beats := (s.engine u).beats.erase b })
    simp only [List.length_append, List.length_map] at hread
    simp only [State.unitBeats, if_pos h] at hlen hpos
    have hheld (x : State) : x.beatsHeld u = (x.engine u).beats.length + (x.engine u).unread.length := by
      simp only [State.beatsHeld, State.unitBeats, if_pos h]
    have heng : (s.withoutBeat u t b).engine u = _ := (congrArg (State.engine · u) e).trans (hself _ _)
    rw [hheld, hheld, heng, hread, hlen]
    omega
  · obtain ⟨hbeats, heng⟩ : (s.withoutBeat u t b).unitBeats u = (s.unitBeats u).erase b ∧
        (s.withoutBeat u t b).engine u = s.engine u := by
      rcases Nat.lt_or_ge u 0xA0 with h' | h'
      · rw [withoutBeat_row s u t b h h', State.unitBeats, if_neg (Nat.not_lt.2 h), if_pos h']
        exact ⟨congrArg RowUnit.beats (Tbl.get_set_self _ _ _ _), rfl⟩
      · rw [withoutBeat_core s u t b h', State.unitBeats, if_neg (show ¬ u < 0x80 by omega), if_neg (Nat.not_lt.2 h')]
        exact ⟨congrArg Core.beats (Tbl.get_set_self _ _ _ _), rfl⟩
    rw [State.beatsHeld, hbeats, heng, hlen, State.beatsHeld]
    omega

/-! ### Where it goes (R96, R319) -/

/-- A local beat joins its partition's ingress of the cluster. -/
theorem sendBeat_local (c : Nat) {b : OutBeat} (h : b.device = none) : s.sendBeat c u t b =
    (s.withoutBeat u t b).setIngress (b.part % 8) c { ((s.withoutBeat u t b).partition (b.part % 8)).ingressAt c with
      queue := (((s.withoutBeat u t b).partition (b.part % 8)).ingressAt c).queue ++ [(t + 28, b.beat)] } := by
  simp only [State.sendBeat, h]
  rfl

/-- The drain that sent a remote beat is nearer its end (R558); of the engines nothing else changes. -/
theorem beatDone_parts (n dest : Nat) (x : Nat × Nat × Nat) : s.beatDone n dest t x = s ∨ ∃ l, s.beatDone n dest t x =
    s.setEngine n { s.engine n with draining := l } := by
  unfold State.beatDone
  dsimp only
  split
  · exact .inl rfl
  · exact .inr ⟨_, rfl⟩

theorem beatDone_eng (n dest : Nat) (x : Nat × Nat × Nat) : ∃ e, s.beatDone n dest t x = { s with eng := e } := by
  rcases beatDone_parts s t n dest x with e | ⟨l, e⟩
  · exact ⟨s.eng, e⟩
  · exact ⟨_, e⟩

theorem beatDone_held (n dest : Nat) (x : Nat × Nat × Nat) : (s.beatDone n dest t x).beatsHeld u = s.beatsHeld u := by
  rcases beatDone_parts s t n dest x with e | ⟨l, e⟩
  · rw [e]
  · rw [e]
    by_cases hu : u = n
    · subst hu
      have hself : (s.setEngine u { s.engine u with draining := l }).engine u = { s.engine u with draining := l } :=
        Tbl.get_set_self _ _ _ _
      simp only [State.beatsHeld, State.unitBeats, hself]
      rfl
    · exact beatsHeld_congr (Tbl.get_set_ne _ _ _ _ _ hu) (fun _ _ => rfl) fun _ => rfl

/-- A remote beat joins those of its device's link. -/
theorem sendBeat_remote (c : Nat) {b : OutBeat} {d k : Nat} (h : b.device = some d)
    (hk : (s.withoutBeat u t b).beatLink d b.beat.srcUnit = some k) : s.sendBeat c u t b =
    if u < 0x80 then ((s.withoutBeat u t b).setLink k { (s.withoutBeat u t b).link k with
      beats := ((s.withoutBeat u t b).link k).beats ++ [(t + 28, d, b.beat)] }).beatDone u 2 (t + 28)
        (b.part, b.beat.tensor, b.beat.index)
    else (s.withoutBeat u t b).setLink k { (s.withoutBeat u t b).link k with
      beats := ((s.withoutBeat u t b).link k).beats ++ [(t + 28, d, b.beat)] } := by
  unfold State.withoutBeat at hk ⊢
  simp only [State.sendBeat, h]
  split
  case h_1 hnone => exact absurd (hk.symm.trans hnone) nofun
  case h_2 k' hk' =>
    obtain rfl : k' = k := Option.some.inj (hk'.symm.trans hk)
    rfl

/-- A remote beat without a route is gone. -/
theorem sendBeat_lost (c : Nat) {b : OutBeat} {d : Nat} (h : b.device = some d)
    (hk : (s.withoutBeat u t b).beatLink d b.beat.srcUnit = none) : s.sendBeat c u t b = s.withoutBeat u t b := by
  unfold State.withoutBeat at hk ⊢
  simp only [State.sendBeat, h]
  split
  case h_1 => rfl
  case h_2 k' hk' => exact absurd (hk.symm.trans hk') nofun

end

/-! ### What a place keeps -/

/-- From `s` to `t` the port gives places: the units' beats, the partitions' ingresses and the links change, and registers;
what waits in an ingress or for a link keeps its place, and no unit holds more than it did. -/
structure PlacesGiven (s t : State) : Prop where
  frame : t = { s with regs := t.regs, eng := t.eng, row := t.row, part := t.part, seam := t.seam
                       seq := { s.seq with cores := t.seq.cores } }
  ingress : ∀ p i, ((s.partition p).ingressAt i).queue <+: ((t.partition p).ingressAt i).queue
  links : ∀ k, (s.link k).beats <+: (t.link k).beats
  held : ∀ u, t.beatsHeld u ≤ s.beatsHeld u

namespace PlacesGiven

theorem refl (s : State) : PlacesGiven s s :=
  ⟨rfl, fun _ _ => List.prefix_rfl, fun _ => List.prefix_rfl, fun _ => Nat.le_refl _⟩

theorem trans {s t u : State} (h : PlacesGiven s t) (g : PlacesGiven t u) : PlacesGiven s u where
  frame := g.frame.trans (by rw [h.frame])
  ingress p i := (h.ingress p i).trans (g.ingress p i)
  links k := (h.links k).trans (g.links k)
  held u := (g.held u).trans (h.held u)

theorem withoutBeat (s : State) (u t : Nat) {b : OutBeat} (hb : b ∈ s.unitBeats u) : PlacesGiven s (s.withoutBeat u t b) := by
  obtain ⟨r, e, w, q, eq⟩ := withoutBeat_parts s u t b
  refine ⟨by rw [eq], ?_, ?_, fun v => ?_⟩
  · rw [eq]
    exact fun _ _ => List.prefix_rfl
  · rw [eq]
    exact fun _ => List.prefix_rfl
  · by_cases hv : v = u
    · have := withoutBeat_held_self s u t hb
      subst hv
      omega
    · exact Nat.le_of_eq (withoutBeat_held_ne s u t b hv)

/-- A beat put behind the others of an ingress. -/
theorem setIngress (s : State) (p i : Nat) (l : List (Nat × Beat)) : PlacesGiven s
    (s.setIngress p i { (s.partition p).ingressAt i with queue := ((s.partition p).ingressAt i).queue ++ l }) := by
  refine ⟨rfl, fun q j => ?_, fun _ => List.prefix_rfl, fun _ => Nat.le_refl _⟩
  by_cases hq : q = p
  · subst hq
    by_cases hj : j = i
    · subst hj
      rw [setIngress_ingressAt_self]
      exact List.prefix_append _ _
    · rw [setIngress_partition_self, Partition.ingressAt, Partition.ingressAt, Tbl.get_set_ne _ _ _ _ _ hj]
  · rw [State.setIngress, setPartition_partition_ne _ _ hq]

/-- A beat put behind the others of a link. -/
theorem setLink (s : State) (k : Nat) (l : List (Nat × Nat × Beat)) :
    PlacesGiven s (s.setLink k { s.link k with beats := (s.link k).beats ++ l }) := by
  refine ⟨rfl, fun _ _ => List.prefix_rfl, fun j => ?_, fun _ => Nat.le_refl _⟩
  by_cases hj : j = k
  · subst hj
    rw [setLink_link_self]
    exact List.prefix_append _ _
  · rw [setLink_link_ne _ _ hj]

theorem beatDone (s : State) (n dest t : Nat) (x : Nat × Nat × Nat) : PlacesGiven s (s.beatDone n dest t x) := by
  obtain ⟨e, eq⟩ := beatDone_eng s t n dest x
  refine ⟨by rw [eq], ?_, ?_, fun u => Nat.le_of_eq (beatDone_held s u t n dest x)⟩
  · rw [eq]
    exact fun _ _ => List.prefix_rfl
  · rw [eq]
    exact fun _ => List.prefix_rfl

/-- All that leaves a unit for the port goes on from the state that it has left. -/
theorem sendBeat_after (s : State) (c u t : Nat) (b : OutBeat) : PlacesGiven (s.withoutBeat u t b) (s.sendBeat c u t b) := by
  cases hd : b.device with
  | none =>
    rw [sendBeat_local s u t c hd]
    exact .setIngress _ _ _ _
  | some d =>
    cases hk : (s.withoutBeat u t b).beatLink d b.beat.srcUnit with
    | none =>
      rw [sendBeat_lost s u t c hd hk]
      exact .refl _
    | some k =>
      rw [sendBeat_remote s u t c hd hk]
      split
      · exact (PlacesGiven.setLink _ _ _).trans (.beatDone _ _ _ _ _)
      · exact .setLink _ _ _

theorem sendBeat (s : State) (c u t : Nat) {b : OutBeat} (hb : b ∈ s.unitBeats u) : PlacesGiven s (s.sendBeat c u t b) :=
  (PlacesGiven.withoutBeat s u t hb).trans (sendBeat_after s c u t b)

theorem givePlace (s : State) (c u t : Nat) : PlacesGiven s (s.givePlace c u t) := by
  unfold State.givePlace
  split
  case h_1 b hb =>
    split
    · exact .sendBeat s c u t (List.mem_of_find?_eq_some hb)
    · exact .refl s
  case h_2 => exact .refl s

end PlacesGiven

/-! ### The port's cycle -/

section
variable {s : State} {c u t : Nat} {b : OutBeat}

theorem givePlace_ready (ho : s.offered c u = some b) (hr : b.readyAt ≤ t) : s.givePlace c u t = s.sendBeat c u t b := by
  simp only [State.givePlace, ho, if_pos hr]

/-- A beat that leaves is one less of its unit. -/
theorem sendBeat_held_self (hb : b ∈ s.unitBeats u) : (s.sendBeat c u t b).beatsHeld u < s.beatsHeld u := by
  have h1 := (PlacesGiven.sendBeat_after s c u t b).held u
  have h2 := withoutBeat_held_self s u t hb
  omega

/-- A local beat is the next of its partition's ingress, 28 cycles later. -/
theorem sendBeat_ingress (hd : b.device = none) :
    (((s.sendBeat c u t b).partition (b.part % 8)).ingressAt c).queue =
      ((s.partition (b.part % 8)).ingressAt c).queue ++ [(t + 28, b.beat)] := by
  obtain ⟨r, e, w, q, eq⟩ := withoutBeat_parts s u t b
  rw [sendBeat_local s u t c hd, setIngress_ingressAt_self, eq]
  rfl

/-- A beat that leaves its unit moves no route. -/
theorem withoutBeat_routeTo (d : Nat) : (s.withoutBeat u t b).routeTo d = s.routeTo d := by
  have hreg (k : Nat) (hk : k < 0x200000) : (s.withoutBeat u t b).reg k = s.reg k := by
    rcases Nat.lt_or_ge u 0x80 with h | h
    · rw [withoutBeat_engine s u t b h]
      refine nat_count_me_ne s.regs _ h ?_ ?_ ?_
      · unfold Reg.meEvcPortwait
        omega
      · unfold Reg.meEvcPortwait
        omega
      · unfold Reg.meEvcSat
        omega
    · rcases Nat.lt_or_ge u 0xA0 with h' | h'
      · have hn : u - 0x80 < 32 := by omega
        rw [withoutBeat_row s u t b h h']
        generalize u - 0x80 = n at hn
        refine nat_count_row_ne s.regs _ hn ?_ ?_ ?_
        · unfold Reg.rowEvcPortwait
          omega
        · unfold Reg.rowEvcPortwait
          omega
        · unfold Reg.rowEvcSat
          omega
      · rw [withoutBeat_core s u t b h']
        rfl
  obtain ⟨r, e, w, q, eq⟩ := withoutBeat_parts s u t b
  have hpair : Regs.pair (s.withoutBeat u t b).regs Reg.seamDomRouteBaseLo = Regs.pair s.regs Reg.seamDomRouteBaseLo :=
    congrArg₂ (fun x y => x + 2 ^ 32 * y) (hreg _ (by decide)) (hreg _ (by decide))
  rw [State.routeTo, State.routeTo, hpair, eq]

theorem withoutBeat_beatLink (d v : Nat) : (s.withoutBeat u t b).beatLink d v = s.beatLink d v := by
  simp only [State.beatLink, withoutBeat_routeTo]

/-- A remote beat is the next of its device's link, 28 cycles later. -/
theorem sendBeat_link {d k : Nat} (hd : b.device = some d) (hk : s.beatLink d b.beat.srcUnit = some k) :
    ((s.sendBeat c u t b).link k).beats = (s.link k).beats ++ [(t + 28, d, b.beat)] := by
  have hlink : (s.withoutBeat u t b).link k = s.link k := by
    obtain ⟨r, e, w, q, eq⟩ := withoutBeat_parts s u t b
    rw [eq]
    rfl
  rw [sendBeat_remote s u t c hd (by rw [withoutBeat_beatLink]; exact hk), hlink]
  split
  · obtain ⟨e, eq⟩ := beatDone_eng ((s.withoutBeat u t b).setLink k { s.link k with
      beats := (s.link k).beats ++ [(t + 28, d, b.beat)] }) (t + 28) u 2 (b.part, b.beat.tensor, b.beat.index)
    rw [eq]
    exact congrArg SLink.beats (setLink_link_self _ k _)
  · rw [setLink_link_self]

end

/-- What has joined next behind a list stands behind it. -/
theorem take_of_next {α : Type} {l m : List α} {a : α} (h : l ++ [a] <+: m) : m.take (l.length + 1) = l ++ [a] := by
  simpa using (List.prefix_iff_eq_take.mp h).symm

/-! ### The port's cycle -/

/-- The cycle whose places the port gives: its first with a beat ready in one of `ready`, and the port free (R96). -/
def State.placeCycle (s : State) (c r : Nat) (rs : List Nat) : Nat := max (Tbl.get 0 s.ports c) (rs.foldl min r)

/-- The port takes a cycle: the clock goes there, and the port is free in the next one. -/
def State.portTaken (s : State) (c t : Nat) : State := { s.atCycle t with ports := s.ports.set c (t + 1) }

/-- Time passes, and what the units offer stays. -/
theorem portTaken_offered (s : State) (c t x u : Nat) : (s.portTaken c t).offered x u = s.offered x u := by
  obtain ⟨k, e⟩ := atCycle_clk s t
  rw [State.portTaken, e]
  rfl

theorem portTaken_readyUnits (s : State) (c t : Nat) : (s.portTaken c t).readyUnits c t = s.readyUnits c t := by
  simp only [State.readyUnits, portTaken_offered]

/-- A unit with a beat ready in the port's cycle has it to offer. -/
theorem offered_of_readyUnits {s : State} {c u t : Nat} (h : u ∈ s.readyUnits c t) :
    ∃ b, s.offered c u = some b ∧ b.readyAt ≤ t := by
  have hready := (List.mem_filter.mp h).2
  cases ho : s.offered c u with
  | none => simp [ho] at hready
  | some b => exact ⟨b, rfl, by simpa [ho] using hready⟩

/-- In its cycle some unit has a beat ready. -/
theorem readyUnits_ne_nil {s : State} {c r : Nat} {rs : List Nat}
    (h : ((portUnits c).filterMap (s.offered c)).map (·.readyAt) = r :: rs) : s.readyUnits c (s.placeCycle c r rs) ≠ [] := by
  have hmem : rs.foldl min r ∈ ((portUnits c).filterMap (s.offered c)).map (·.readyAt) := by
    rw [h]
    exact List.min?_mem List.min?_cons'
  obtain ⟨b, hb, hmin⟩ := List.mem_map.mp hmem
  obtain ⟨u, hu, ho⟩ := List.mem_filterMap.mp hb
  refine List.ne_nil_of_mem (a := u) (List.mem_filter.mpr ⟨hu, ?_⟩)
  rw [ho]
  exact decide_eq_true (by rw [State.placeCycle, hmin]; exact Nat.le_max_right _ _)

/-- What a Liner that streams loses to others is noted in its queue, registers and the changes of cues to come (R140). -/
theorem lnrWait_parts (s : State) (cl t lost : Nat) : ∃ r l h, s.lnrWait cl t lost =
    { s with regs := r, lnr := l, seq := { s.seq with cueHist := h } } := by
  unfold State.lnrWait
  dsimp only
  split
  · exact ⟨s.regs, s.lnr, s.seq.cueHist, rfl⟩
  · split
    · exact ⟨_, _, s.seq.cueHist, rfl⟩
    · exact ⟨_, _, _, rfl⟩

/-- The first place of the cycle goes to the lowest unit with a beat ready; what follows are the second place, if a unit has
a beat for it, and the loss of the cluster's Liner. -/
theorem slotBeatSendEffect_gives {s : State} {c r u : Nat} {rs us : List Nat}
    (h : ((portUnits c).filterMap (s.offered c)).map (·.readyAt) = r :: rs)
    (hu : s.readyUnits c (s.placeCycle c r rs) = u :: us) : ∃ v n,
      PlacesGiven ((s.portTaken c (s.placeCycle c r rs)).givePlace c u (s.placeCycle c r rs)) v ∧
      slotBeatSendEffect c s = v.lnrWait c (s.placeCycle c r rs) n := by
  rw [← portTaken_readyUnits] at hu
  unfold State.placeCycle State.portTaken at hu ⊢
  unfold slotBeatSendEffect
  simp only [h, hu]
  cases us with
  | nil =>
    dsimp only
    split
    · exact ⟨_, _, .refl _, rfl⟩
    · exact ⟨_, _, .givePlace _ _ _ _, rfl⟩
  | cons v us => exact ⟨_, _, .givePlace _ _ _ _, rfl⟩

end Sys2Proof.Machine
end

section
open Sys2Proof Sys2Proof.Machine

/-- Settles O15: it holds. The first place of the port's cycle is the lowest ready unit's (`slotBeatSendEffect_gives`), whose
beat leaves it (`sendBeat_held_self`) and is the next in its ingress or on its link (`sendBeat_ingress`, `sendBeat_link`);
what follows in the cycle puts nothing before it (`PlacesGiven`). -/
theorem portGivesTwoPlacesACycle : Obligations.PortGivesTwoPlacesACycle := by
  unfold Obligations.PortGivesTwoPlacesACycle
  intro c s r rs hr hc hready t0
  obtain ⟨u, us, hus⟩ := List.exists_cons_of_ne_nil (readyUnits_ne_nil hready)
  obtain ⟨b, ho, hb⟩ := offered_of_readyUnits (hus ▸ List.mem_cons_self)
  obtain ⟨v, n, hv, heff⟩ := slotBeatSendEffect_gives hready hus
  change s.readyUnits c t0 = _ at hus
  change b.readyAt ≤ t0 at hb
  change PlacesGiven ((s.portTaken c t0).givePlace c u t0) v at hv
  change slotBeatSendEffect c s = v.lnrWait c t0 n at heff
  have htaken := portTaken_offered s c t0 c u
  rw [givePlace_ready (htaken.trans ho) hb] at hv
  have hmem : b ∈ (s.portTaken c t0).unitBeats u := List.mem_of_find?_eq_some (htaken.trans ho)
  have hall := (PlacesGiven.sendBeat _ c u t0 hmem).trans hv
  have hheld := Nat.lt_of_le_of_lt (hv.held u) (sendBeat_held_self (c := c) (t := t0) hmem)
  obtain ⟨k, eclk⟩ := atCycle_clk s t0
  obtain ⟨x, l, q, ewait⟩ := lnrWait_parts v c t0 n
  have hclk : v.clk = (s.atCycle t0).clk := (congrArg State.clk hall.frame :)
  have hports : v.ports = s.ports.set c (t0 + 1) := (congrArg State.ports hall.frame :)
  refine ⟨v.lnrWait c t0 n, (exec_running (i := .slotBeatSend c) hr (decide_eq_true hc) rfl).trans (congrArg _ heff),
    ?_, fun hlt => ?_, ?_, u, b, by rw [hus]; rfl, ho, ?_, fun hd => ?_, fun d link hd hlink => ?_⟩
  · rw [ewait]
    exact (congrArg (Tbl.get 0 · c) hports).trans (Tbl.get_set_self _ _ _ _)
  · rw [ewait]
    exact (congrArg Clk.fcnt hclk).trans (state_atCycle_now s t0 hlt)
  · rw [ewait, hall.frame, State.portTaken, eclk]
  · rw [ewait]
    rw [State.portTaken, eclk] at hheld
    exact hheld
  · have hprefix := hv.ingress (b.part % 8) c
    rw [sendBeat_ingress hd, State.portTaken, eclk] at hprefix
    rw [ewait]
    exact take_of_next hprefix
  · have hlink' : (s.portTaken c t0).beatLink d b.beat.srcUnit = some link := by
      rw [State.portTaken, eclk]
      exact hlink
    have hprefix := hv.links link
    rw [sendBeat_link hd hlink', State.portTaken, eclk] at hprefix
    rw [ewait]
    exact take_of_next hprefix

end

section
/-! SUPPORT. Registers that act when they are written, and the test access (03_matrix_engines, R100, R109; 07_clockwork, R241,
R245; 12_cipher_and_trust, R419; 13_host_ports_and_images, R439; 14_mitten_power_ageing, R473). -/

namespace Sys2Proof.Machine

/-! ### Accesses of the running part -/

/-- A master inside the part may issue accesses while the part runs past power state AON (R518, R525). -/
structure MasterRuns (s : State) (m : Master) : Prop where
  exists' : m.exists' = true
  inside : m ≠ .remote
  running : s.coreRunning
  booted : s.power ≠ 0
  issued : s.mayIssue m = true

section
variable {s : State} {m : Master} {b : Block} {n off a : Nat} {r : RegRow} {v : Nat}

/-- A write of a register in the core domain's blocks: its fields are written, or a rule of its chapter refuses it and it is
counted (R523, R526, R538). -/
theorem MasterRuns.writeAccess (h : MasterRuns s m) (hl : locate a = some (b, n, off)) (hb : b ≠ .aon ∧ b ≠ .gnt)
    (ha : a % 4 = 0) (hr : b.regRow n off = some r) (hp : s.poweredOff b n = false) (hv : v < 2 ^ 32) :
    s.writeAccess m a 4 v = if (s.afterAccess m).mayWrite m b n off v then (s.afterAccess m).writeFields m b n off r v
      else (s.afterAccess m).count (b.violAddr n) := by
  have ht := targetOf_direct (lt_of_locate hl)
  have hblock : (targetOf a).block = some (b, n, off) := by
    rw [ht]
    exact hl
  obtain ⟨c, f, e⟩ := afterAccess_parts s m
  have hp' : (s.afterAccess m).poweredOff b n = false := by
    rw [e]
    exact hp
  rw [writeAccess_inCoreDomain h.issued (not_quiet_of_running h.running h.booted)
      (Target.inCoreDomain_of_block hblock hb.1 hb.2), writeSized_word _ _ ha, Nat.mod_eq_of_lt hv, State.writeAt, ht]
  exact writeWord_located hl hr h.inside hp' v

/-- A register of RW bits alone holds what is written. -/
theorem writeFields_rw (hset : s.settleFor b n off = s) (hr : r.fields = [⟨31, 0, .rw⟩]) (hv : v < 2 ^ 32) :
    s.writeFields m b n off r v = (s.storeWord b n off v).actOn m b n off v := by
  have hrw : r.mask .rw = 2 ^ 32 - 1 := by rw [RegRow.mask, hr]; decide
  have hro : r.mask .ro = 0 := by rw [RegRow.mask, hr]; decide
  have hw1c : r.mask .w1c = 0 := by rw [RegRow.mask, hr]; decide
  have hwo : r.mask .wo = 0 := by rw [RegRow.mask, hr]; decide
  have hrwt : r.rwt = 0 := by
    rw [RegRow.rwt, hro, hrw, hw1c, hwo]
    rfl
  have hstored (p : Bool) (cur : Nat) : r.stored p cur v = v := by
    rw [RegRow.stored, hro, hrw, hw1c, hrwt, Nat.and_two_pow_sub_one_eq_mod, Nat.mod_eq_of_lt hv]
    simp only [Nat.and_zero, Nat.zero_and, Nat.zero_add, Nat.add_zero]
  simp only [State.writeFields, hset, hrwt, Nat.and_zero, if_true, hstored]

end

/-! ### Histogram banks (R100) -/

theorem histAddr_bounds {n bank i : Nat} (hi : i < 68) :
    0x200400 + 0x1000 * n ≤ histAddr n bank i ∧ histAddr n bank i < 0x201000 + 0x1000 * n := by
  unfold histAddr Reg.meHist0Bin Reg.meHist1Bin
  split <;> omega

/-- A bank cleared reads 0, and the other one as before. -/
theorem nat_clearBank (r : Tbl Word) (n : Nat) {bank k i : Nat} (hb : bank < 2) (hk : k < 2) (hi : i < 68) :
    Regs.nat (clearBank r n k) (histAddr n bank i) = if bank = k then 0 else Regs.nat r (histAddr n bank i) := by
  rw [clearBank, nat_clearAll (histAddr n k)]
  have hiff : (∃ w ∈ List.range 68, histAddr n bank i = histAddr n k w) ↔ bank = k := by
    constructor
    · rintro ⟨w, hw, e⟩
      have hw := List.mem_range.mp hw
      unfold histAddr Reg.meHist0Bin Reg.meHist1Bin at e
      split at e <;> split at e <;> omega
    · rintro rfl
      exact ⟨i, List.mem_range.mpr hi, rfl⟩
  simp only [hiff]

theorem nat_clearBank_ite (r : Tbl Word) (n : Nat) {bank k i : Nat} (hb : bank < 2) (hk : k < 2) (hi : i < 68) (c : Bool) :
    Regs.nat (if c then clearBank r n k else r) (histAddr n bank i) =
      if c ∧ bank = k then 0 else Regs.nat r (histAddr n bank i) := by
  cases c with
  | false => rfl
  | true => simpa using nat_clearBank r n hb hk hi

/-- A write of `ME_HIST_CTRL` clears the banks that it names; the other bank stands as the drains have left it. -/
theorem writeFields_histCtrl (s : State) (m : Master) {n bank i : Nat} (hn : n < 128) (hb : bank < 2) (hi : i < 68)
    (r : RegRow) (v : Nat) : (s.writeFields m .me n 0x20 r v).reg (histAddr n bank i) =
      if v.testBit bank then 0 else ((s.settleBank 0 s.now n).settleBank 1 s.now n).reg (histAddr n bank i) := by
  have hbit (k : Nat) : bit v k = v.testBit k := by
    rw [Nat.testBit_eq_decide_div_mod_eq]
    rfl
  obtain ⟨hlo, hhi⟩ := histAddr_bounds (n := n) (bank := bank) hi
  have hact (t : State) (w : Nat) : ((t.storeWord .me n 0x20 w).actOn m .me n 0x20 v).reg (histAddr n bank i) =
      if v.testBit bank then 0 else t.reg (histAddr n bank i) := by
    have hput : Regs.nat (Regs.put t.regs (Block.me.base n + 0x20) w) (histAddr n bank i) = t.reg (histAddr n bank i) :=
      Regs.nat_put_ne _ _ _ _ (by simp only [Block.base]; omega)
    have hfirst := nat_clearBank_ite (Regs.put t.regs (Block.me.base n + 0x20) w) n hb (k := 0) (by decide) hi (bit v 0)
    have hboth := nat_clearBank_ite (if bit v 0 then clearBank (Regs.put t.regs (Block.me.base n + 0x20) w) n 0
      else Regs.put t.regs (Block.me.base n + 0x20) w) n hb (k := 1) (by decide) hi (bit v 1)
    rw [hfirst, hput] at hboth
    refine Eq.trans hboth ?_
    rw [hbit, hbit]
    obtain rfl | rfl : bank = 0 ∨ bank = 1 := by omega
    · simp
    · simp
  have hset : s.settleFor .me n 0x20 = (s.settleBank 0 s.now n).settleBank 1 s.now n := rfl
  have hviol : Regs.nat (Regs.count ((s.settleBank 0 s.now n).settleBank 1 s.now n).regs (Reg.meEvcViol n) 1)
      (histAddr n bank i) = Regs.nat ((s.settleBank 0 s.now n).settleBank 1 s.now n).regs (histAddr n bank i) := by
    refine nat_count_me_ne _ 1 hn ?_ ?_ ?_
    · unfold Reg.meEvcViol
      omega
    · unfold Reg.meEvcViol
      omega
    · unfold Reg.meEvcSat
      omega
  simp only [State.writeFields, hset]
  split
  · exact hact _ _
  · rw [hact]
    exact congrArg (if v.testBit bank = true then 0 else ·) hviol

/-! ### Cues and rings (R241, R245) -/

/-- An address of the sequencer's block (R520). -/
theorem locate_seq {a off : Nat} (ho : off < 0x20000) (ha : a = 0x380000 + off) : locate a = some (.seq, 0, off) := by
  have hoff : a - 0x380000 = off := by omega
  unfold locate
  iterate 15 rw [if_neg (by omega)]
  rw [if_pos (by omega), hoff]

/-- A row places a register at an offset that no row before it does. -/
theorem findRow_at {rows : List RegRow} {i off : Nat} (hi : i < rows.length)
    (hat : rows[i].off ≤ off ∧ (off - rows[i].off) % rows[i].stride = 0 ∧
      (off - rows[i].off) / rows[i].stride < rows[i].count)
    (hbefore : ∀ r ∈ rows.take i,
      ¬ (r.off ≤ off ∧ (off - r.off) % r.stride = 0 ∧ (off - r.off) / r.stride < r.count)) :
    findRow rows off = some rows[i] := by
  unfold findRow
  rw [List.find?_eq_some_iff_getElem]
  refine ⟨by simpa [and_assoc] using hat, i, hi, rfl, fun j hj => ?_⟩
  have hmem : rows[j] ∈ rows.take i := List.mem_take_iff_getElem.mpr ⟨j, by omega, rfl⟩
  have hno := hbefore _ hmem
  simp only [Bool.not_eq_true', Bool.and_eq_false_iff, decide_eq_false_iff_not, beq_eq_false_iff_ne]
  tauto

/-- The cues' row is that of their addresses. -/
theorem regRow_seqCue {q : Nat} (hq : q < 224) :
    ∃ r, Block.seq.regRow 0 (0x800 + 4 * q) = some r ∧ r.fields = [⟨31, 0, .rw⟩] := by
  have hbelow : ∀ r ∈ seqRows.take 46, 0 < r.stride ∧ r.off + r.count * r.stride ≤ 0x800 := by decide
  refine ⟨_, findRow_at (i := 46) (by decide) (show 0x800 ≤ _ ∧ (_ - 0x800) % 4 = 0 ∧ (_ - 0x800) / 4 < 224 by omega)
    fun r hr => ?_, rfl⟩
  obtain ⟨hpos, hend⟩ := hbelow r hr
  rintro ⟨-, -, h⟩
  rw [Nat.div_lt_iff_lt_mul hpos] at h
  omega

/-- The row of the rings' tails is that of their addresses. -/
theorem regRow_seqTail {k : Nat} (hk : k < 40) :
    ∃ r, Block.seq.regRow 0 (0x214 + 0x20 * k) = some r ∧ r.fields = [⟨31, 0, .rw⟩] := by
  have hbelow : ∀ r ∈ seqRows.take 43, 0 < r.stride ∧
      (r.off + r.count * r.stride ≤ 0x200 ∨ (r.stride = 0x20 ∧ r.off % 0x20 ≠ 0x14)) := by decide
  refine ⟨_, findRow_at (i := 43) (by decide)
    (show 0x214 ≤ _ ∧ (_ - 0x214) % 0x20 = 0 ∧ (_ - 0x214) / 0x20 < 40 by omega) fun r hr => ?_, rfl⟩
  obtain ⟨hpos, hend | ⟨hstride, hmod⟩⟩ := hbelow r hr
  · rintro ⟨-, -, h⟩
    rw [Nat.div_lt_iff_lt_mul hpos] at h
    omega
  · rintro ⟨hle, h, -⟩
    rw [hstride] at h
    omega

section
variable (s : State) (m : Master) (v : Nat)

/-- A cue is written at any time. -/
theorem mayWrite_cue {q : Nat} (hq : q < 224) : s.mayWrite m .seq 0 (0x800 + 4 * q) v = true := by
  have hlist : 0x800 + 4 * q ∉ [0x8, 0x10, 0x20, 0x24, 0x28, 0x2C, 0x40, 0x44, 0x50, 0x54, 0x58] := by
    simp only [List.mem_cons, List.not_mem_nil, or_false]
    omega
  rw [State.mayWrite, State.seqMayWrite, if_neg hlist, if_neg (by omega), if_neg (by omega), if_neg (by omega)]

/-- A ring's tail does not pass its head by more than the ring's length. -/
theorem mayWrite_tail {k : Nat} (hk : k < 40) : s.mayWrite m .seq 0 (0x214 + 0x20 * k) v =
    decide ((v + 2 ^ 32 - s.reg (Reg.seqSHead k)) % 2 ^ 32 ≤ s.reg (Reg.seqSLen k)) := by
  have hlist : 0x214 + 0x20 * k ∉ [0x8, 0x10, 0x20, 0x24, 0x28, 0x2C, 0x40, 0x44, 0x50, 0x54, 0x58] := by
    simp only [List.mem_cons, List.not_mem_nil, or_false]
    omega
  have hring : (0x214 + 0x20 * k - 0x200) / 0x20 = k := by omega
  have hmod : (0x214 + 0x20 * k) % 0x20 = 0x14 := by omega
  rw [State.mayWrite, State.seqMayWrite, if_neg hlist, if_pos (by omega)]
  dsimp only
  rw [hring, hmod, if_neg (by decide), if_pos rfl]

/-- A cue written takes its value, and memory stands. -/
theorem storeWord_cue {q : Nat} (hq : q < 224) : (s.storeWord .seq 0 (0x800 + 4 * q) v).reg (Reg.seqCue q) = v % 2 ^ 32 ∧
    (s.storeWord .seq 0 (0x800 + 4 * q) v).hbm = s.hbm := by
  have hcue : s.storeWord .seq 0 (0x800 + 4 * q) v = s.setCue q v s.now := by
    have hidx : (0x800 + 4 * q - 0x800) / 4 = q := by omega
    rw [State.storeWord, if_pos ⟨rfl, by omega, by omega⟩, hidx]
  have hreg : cueReg q = Reg.seqCue q := if_pos hq
  rw [hcue]
  refine ⟨?_, rfl⟩
  have hself := Regs.nat_put_self s.regs (cueReg q) (v % 2 ^ 32)
  rw [Nat.mod_mod, hreg] at hself
  rw [← hself, State.setCue, State.reg, hreg]

end

/-! ### The event ring (R439) -/

/-- The consumer's index of the event ring. -/
def EvqCons (k : Nat) : Prop := k = Reg.hptEvqConsLo ∨ k = Reg.hptEvqConsHi

section
variable {k : Nat} (hk : EvqCons k)
include hk

/-- An event written moves the producer's index, not the consumer's. -/
theorem writeEvent_cons (h : HostPorts) (r : Tbl Word) (e : HostEvent) : Regs.nat (writeEvent h r e).2 k = Regs.nat r k := by
  unfold EvqCons Reg.hptEvqConsLo Reg.hptEvqConsHi at hk
  have hprod (v : Nat) : Regs.nat (Regs.putPair r Reg.hptEvqProdLo v) k = Regs.nat r k := by
    unfold Reg.hptEvqProdLo
    exact nat_putPair_ne r v (by omega) (by omega)
  unfold writeEvent
  dsimp only
  split
  next q _ =>
    dsimp only
    have hport (n : Nat) : k ≠ Reg.hptHTxbytesLo n ∧ k ≠ Reg.hptHTxbytesLo n + 4 := by
      unfold Reg.hptHTxbytesLo
      omega
    obtain ⟨hlo, hhi⟩ := hport q.2.port
    exact (nat_count64_ne (Regs.putPair r _ _) _ hlo hhi).trans (hprod _)
  next => exact hprod _

theorem drainEvents_cons (fuel : Nat) (s : State) : (State.drainEvents fuel s).reg k = s.reg k := by
  induction fuel generalizing s with
  | zero => rfl
  | succ fuel ih =>
    unfold State.drainEvents
    split
    · rfl
    · split
      · exact (ih _).trans (writeEvent_cons hk _ _ _)
      · rfl

theorem pumpEvents_cons (s : State) : s.pumpEvents.reg k = s.reg k := by
  unfold State.pumpEvents
  split
  · exact drainEvents_cons hk 256 s
  · exact (drainEvents_cons hk 256 _).trans (writeEvent_cons hk _ _ _)

end

/-- A write of the consumer's index past the producer's is refused; any other makes room for what waits (R439). -/
theorem MasterRuns.writeAccess_evqCons {s : State} {m : Master} {v : Nat} (h : MasterRuns s m) (hv : v < 2 ^ 32) (high : Bool) :
    s.writeAccess m (if high then 0x80024 else 0x80020) 4 v =
      if pairWith (s.reg Reg.hptEvqConsLo) (s.reg Reg.hptEvqConsHi) (!high) v ≤ Regs.pair s.regs Reg.hptEvqProdLo
      then ((s.afterAccess m).put (if high then Reg.hptEvqConsHi else Reg.hptEvqConsLo) v).pumpEvents
      else (s.afterAccess m).count Reg.hptEvcViol := by
  have hregs : (s.afterAccess m).regs = s.regs := by
    obtain ⟨c, f, e⟩ := afterAccess_parts s m
    rw [e]
  have hmay (off : Nat) (hoff : off = 0x20 ∨ off = 0x24) : (s.afterAccess m).mayWrite m .hpt 0 off v =
      decide (pairWith (s.reg Reg.hptEvqConsLo) (s.reg Reg.hptEvqConsHi) (off == 0x20) v ≤
        Regs.pair s.regs Reg.hptEvqProdLo) := by
    have hlist : off ∉ [0x8, 0x28, 0x2C, 0x30] := by
      simp only [List.mem_cons, List.not_mem_nil, or_false]
      omega
    rw [State.mayWrite, State.hptMayWrite, if_neg hlist, if_pos hoff, State.reg, State.reg, hregs]
    rfl
  cases high with
  | false =>
    obtain ⟨r, hrow, hfields⟩ : ∃ r, Block.hpt.regRow 0 0x20 = some r ∧ r.fields = [⟨31, 0, .rw⟩] := ⟨_, rfl, rfl⟩
    have hw := h.writeAccess (rfl : locate 0x80020 = some (.hpt, 0, 0x20)) (by decide) rfl hrow rfl hv
    rw [hmay 0x20 (.inl rfl), writeFields_rw rfl hfields hv] at hw
    simp only [decide_eq_true_eq] at hw
    exact hw
  | true =>
    obtain ⟨r, hrow, hfields⟩ : ∃ r, Block.hpt.regRow 0 0x24 = some r ∧ r.fields = [⟨31, 0, .rw⟩] := ⟨_, rfl, rfl⟩
    have hw := h.writeAccess (rfl : locate 0x80024 = some (.hpt, 0, 0x24)) (by decide) rfl hrow rfl hv
    rw [hmay 0x24 (.inr rfl), writeFields_rw rfl hfields hv] at hw
    simp only [decide_eq_true_eq] at hw
    exact hw

/-! ### A report and a reset (R419, R473) -/

section
variable {s : State} {m : Master} {r : RegRow}

/-- A 1 written to `ID_ATTEST` asks for a report under the nonce that stands. -/
theorem writeFields_attest (s : State) (m : Master) (r : RegRow) :
    ∃ g, s.writeFields m .ident 0 0x10 r 1 =
      { s with regs := g }.startReport ((List.range 8).flatMap fun i => leBytes 4 (s.reg (Reg.idNonce i))) := by
  have hsat : satOf Reg.idEvcViol = none := by decide
  have hviol (i : Nat) : (s.count Reg.idEvcViol).reg (Reg.idNonce i) = s.reg (Reg.idNonce i) :=
    nat_count_ne s.regs 1 (by unfold Reg.idNonce Reg.idEvcViol; omega) fun x hx => by
      rw [hsat] at hx
      cases hx
  have hact (t : State) (w : Nat) (ht : ∀ i, t.reg (Reg.idNonce i) = s.reg (Reg.idNonce i)) :
      (t.storeWord .ident 0 0x10 w).actOn m .ident 0 0x10 1 = (t.put Reg.idAttest w).startReport
        ((List.range 8).flatMap fun i => leBytes 4 (s.reg (Reg.idNonce i))) := by
    have hnonce (i : Nat) : (t.put Reg.idAttest w).reg (Reg.idNonce i) = s.reg (Reg.idNonce i) :=
      (state_put_reg_ne t _ _ w (by unfold Reg.idNonce Reg.idAttest; omega)).trans (ht i)
    simp only [← hnonce]
    rfl
  unfold State.writeFields
  dsimp only
  split
  · exact ⟨_, hact s _ fun _ => rfl⟩
  · exact ⟨_, hact _ _ hviol⟩

/-- FULL begins a reset. -/
theorem writeFields_full (s : State) (m : Master) (r : RegRow) :
    ∃ g, s.writeFields m .aon 0 0x10 r 1 = { s with regs := g }.startReset 4 false := by
  unfold State.writeFields
  dsimp only
  split <;> exact ⟨_, rfl⟩

/-- A write of `AON_RESET_CTRL` acts when its time has passed, for a policy core alone. -/
theorem MasterRuns.writeAccess_resetCtrl (h : MasterRuns s m) {v : Nat} (hv : v < 2 ^ 32)
    (hr : Block.aon.regRow 0 0x10 = some r) : ∃ c f, s.writeAccess m 0x10 4 v =
      if m.isPolicy then { s with clk := c, free := f }.writeFields m .aon 0 0x10 r v
      else { s with clk := c, free := f }.count Reg.aonEvcViol := by
  obtain ⟨c, f, e⟩ := accessTime_parts s m (targetOf 0x10)
  refine ⟨c, f, ?_⟩
  rw [writeAccess_issued h.issued (not_quiet_of_running h.running h.booted), checkParity_of_not_gnt, e,
    writeSized_word _ _ rfl, Nat.mod_eq_of_lt hv, State.writeAt]
  · exact writeWord_located (b := .aon) rfl hr h.inside rfl v
  · intro x hx
    cases hx

end

/-! ### Test access (R109) -/

/-- The test-access values are words of an engine's 4 KiB. -/
theorem mem_tacc {off : Nat} (ho : off ∈ [0x34, 0x38, 0x3C]) : off < 0x1000 ∧ off % 4 = 0 := by
  simp only [List.mem_cons, List.not_mem_nil, or_false] at ho
  omega

/-- The window has the registers of an engine's test access. -/
theorem regRow_tacc {off : Nat} (ho : off ∈ [0x34, 0x38, 0x3C]) (n : Nat) : ∃ r, Block.me.regRow n off = some r := by
  simp only [List.mem_cons, List.not_mem_nil, or_false] at ho
  rcases ho with rfl | rfl | rfl <;> exact ⟨_, rfl⟩

section
variable {s : State} {m : Master} {n off : Nat}

/-- The value that a test access shows, or 0 where it is closed. -/
theorem liveIn_tacc (s : State) (n : Nat) (ho : off ∈ [0x34, 0x38, 0x3C]) :
    s.liveIn .me n off = if s.taccOpen n then s.tacc n off else 0 := by
  simp only [List.mem_cons, List.not_mem_nil, or_false] at ho
  rcases ho with rfl | rfl | rfl <;> rfl

theorem isTacc_of (ho : off ∈ [0x34, 0x38, 0x3C]) : isTacc off = true := by
  simp only [List.mem_cons, List.not_mem_nil, or_false] at ho
  rcases ho with rfl | rfl | rfl <;> rfl

/-- Behind no latch a test access is refused where it is closed. -/
theorem taccRefused_unlatched (ho : off ∈ [0x34, 0x38, 0x3C]) (hs : Tbl.get? s.shadows (Block.me.base n) = none) :
    s.taccRefused m .me n off = !s.taccOpen n := by
  simp only [State.taccRefused, isTacc_of ho, hs, beq_self_eq_true, Bool.true_and]

/-- A word of the test access as it reads, latched or not, and counted where it is closed. -/
theorem readWord_tacc {a : Nat} (hl : locate a = some (.me, n, off)) (ho : off ∈ [0x34, 0x38, 0x3C])
    (hp : s.poweredOff .me n = false) (hs : Tbl.get? s.shadows (Block.me.base n) = none) :
    s.readWord m (targetOf a) = ((s.latch m .me n off).taccCount (!s.taccOpen n) n,
      if s.taccOpen n then s.tacc n off else 0) := by
  obtain ⟨r, hr⟩ := regRow_tacc ho n
  have hblock : (Target.direct a).block = some (.me, n, off) := hl
  rw [targetOf_direct (lt_of_locate hl)]
  simp only [State.readWord, hblock, taccRefused_unlatched ho hs, hp, Bool.not_false, Bool.and_true,
    peek_unlatched s m hp hr hs, liveIn_tacc s n ho]
  cases s.taccOpen n <;> rfl

/-- Both words of the A34, while test access is open (R530). -/
theorem readPair_tacc {a : Nat} (hl : locate a = some (.me, n, 0x38)) (hp : s.poweredOff .me n = false)
    (hopen : s.taccOpen n = true) :
    s.readPair m a = (s.latch m .me n 0x38, s.tacc n 0x38 + 2 ^ 32 * s.tacc n 0x3C) := by
  obtain ⟨r, hr⟩ := regRow_tacc (off := 0x38) (by decide) n
  obtain ⟨r', hr'⟩ := regRow_tacc (off := 0x3C) (by decide) n
  have hblock : (Target.direct a).block = some (.me, n, 0x38) := hl
  have hlo := liveIn_tacc s n (off := 0x38) (by decide)
  have hhi := liveIn_tacc s n (off := 0x3C) (by decide)
  rw [hopen, if_pos rfl] at hlo hhi
  simp only [State.readPair, targetOf_direct (lt_of_locate hl), hblock, hp, hr, hr', hlo, hhi, hopen, Option.isNone_some,
    Bool.or_self, Bool.false_eq_true, if_false, Bool.not_true, Bool.and_false, Bool.false_and, taccCount_none]

/-- A read of a test-access register by its master, which acts when its time has passed (R523). -/
theorem MasterRuns.readAccess_me {a z : Nat} (h : MasterRuns s m) (hl : locate a = some (.me, n, off)) :
    s.readAccess m a z = { ((s.afterAccess m).readSized m a z).1 with
      bus := leBytes z ((s.afterAccess m).readSized m a z).2 } := by
  refine readAccess_inCoreDomain h.issued (not_quiet_of_running h.running h.booted)
    (Target.inCoreDomain_of_block (b := .me) (x := (n, off)) ?_ (by decide) (by decide)) z
  rw [targetOf_direct (lt_of_locate hl)]
  exact hl

/-- A 32-bit read of the test access. -/
theorem MasterRuns.readAccess_tacc {a : Nat} (h : MasterRuns s m) (hl : locate a = some (.me, n, off)) (ha : a % 4 = 0)
    (ho : off ∈ [0x34, 0x38, 0x3C]) (hp : s.poweredOff .me n = false)
    (hs : Tbl.get? s.shadows (Block.me.base n) = none) : s.readAccess m a 4 =
      { ((s.afterAccess m).latch m .me n off).taccCount (!(s.afterAccess m).taccOpen n) n with
        bus := leBytes 4 (if (s.afterAccess m).taccOpen n then (s.afterAccess m).tacc n off else 0) } := by
  obtain ⟨c, f, e⟩ := afterAccess_parts s m
  have hp' : (s.afterAccess m).poweredOff .me n = false := by rw [e]; exact hp
  have hs' : Tbl.get? (s.afterAccess m).shadows (Block.me.base n) = none := by rw [e]; exact hs
  rw [h.readAccess_me hl, readSized_word _ _ ha, readWord_tacc hl ho hp' hs']
  exact congrArg (fun l => { ((s.afterAccess m).latch m .me n off).taccCount (!(s.afterAccess m).taccOpen n) n with
    bus := l }) (leBytes_mod 4 _)

/-- A 64-bit read of the A34, while test access is open. -/
theorem MasterRuns.readAccess_a34 {a : Nat} (h : MasterRuns s m) (hl : locate a = some (.me, n, 0x38)) (ha : a % 8 = 0)
    (hp : s.poweredOff .me n = false) (hopen : (s.afterAccess m).taccOpen n = true) : s.readAccess m a 8 =
      { (s.afterAccess m).latch m .me n 0x38 with
        bus := leBytes 8 ((s.afterAccess m).tacc n 0x38 + 2 ^ 32 * (s.afterAccess m).tacc n 0x3C) } := by
  obtain ⟨c, f, e⟩ := afterAccess_parts s m
  have hp' : (s.afterAccess m).poweredOff .me n = false := by rw [e]; exact hp
  rw [h.readAccess_me hl, readSized_pair _ _ ha, readPair_tacc hl hp' hopen]

end

end Sys2Proof.Machine
end

section
open Sys2Proof Sys2Proof.Machine

/-- Settles O60: it holds. A write acts when its time has passed, or is refused and counted (`MasterRuns.writeAccess`,
`MasterRuns.writeAccess_resetCtrl`): what each of these registers then does is one lemma (`writeFields_histCtrl`,
`storeWord_cue`, `pumpEvents_cons`, `writeFields_attest`, `writeFields_full`); a test access reads its cell, or 0 where it is
closed (`MasterRuns.readAccess_tacc`, `MasterRuns.readAccess_a34`). -/
theorem windowCommandsAct : Obligations.WindowCommandsAct := by
  unfold Obligations.WindowCommandsAct
  intro m v s hex hin hrun hpow hi u
  have h : MasterRuns s m := ⟨hex, hin, hrun, hpow, hi⟩
  have hu : s.afterAccess m = u := rfl
  clear_value u
  obtain ⟨c, f, e⟩ := afterAccess_parts s m
  rw [hu] at e
  have hv := v.isLt
  refine ⟨fun n hn hg => ?hist, fun q hq => ?cue, fun k hk => ?tail, fun high => ?cons, fun hbusy => ?busy,
    fun hidle h1 => ?attest, fun hpol hnone hsafe h1 => ?full, fun hpol => ?noPolicy, fun n hn hg hopen hs => ?access,
    fun n off hn ho hg hshut hs => ?closed⟩
  case hist =>
    obtain ⟨r, hrow⟩ : ∃ r, Block.me.regRow n 0x20 = some r := ⟨_, rfl⟩
    have hw := h.writeAccess (locate_me hn (by decide) (by omega) : locate (0x200020 + 0x1000 * n) = some (.me, n, 0x20))
      (by decide) (by omega) hrow hg hv
    rw [hu] at hw
    replace hw := hw.trans (if_pos rfl)
    refine ⟨_, congrArg Host.Outcome.next ((if_pos (by simp [wellFormed, hex, hn])).trans hw), fun bank i hbank hi => ?_⟩
    exact writeFields_histCtrl u m hn hbank hi r v.toNat
  case cue =>
    obtain ⟨r, hrow, hfields⟩ := regRow_seqCue hq
    have hw := h.writeAccess (locate_seq (by omega) (by omega) : locate (0x380800 + 4 * q) = some (.seq, 0, 0x800 + 4 * q))
      (by decide) (by omega) hrow rfl hv
    rw [if_pos (mayWrite_cue _ m _ hq), hu, writeFields_rw rfl hfields hv] at hw
    refine ⟨_, congrArg Host.Outcome.next ((if_pos (by simp [wellFormed, hex, hq])).trans hw), ?_⟩
    obtain ⟨hreg, hhbm⟩ := storeWord_cue u v.toNat hq
    exact ⟨hreg.trans (Nat.mod_eq_of_lt hv), hhbm.trans (by rw [e])⟩
  case tail =>
    intro far
    obtain ⟨r, hrow, hfields⟩ := regRow_seqTail hk
    have hw := h.writeAccess (locate_seq (by omega) (by omega) :
      locate (0x380214 + 0x20 * k) = some (.seq, 0, 0x214 + 0x20 * k)) (by decide) (by omega) hrow rfl hv
    rw [mayWrite_tail _ m _ hk, afterAccess_reg, afterAccess_reg, hu, writeFields_rw rfl hfields hv] at hw
    have hexec (t : State) (ht : s.writeAccess m (0x380214 + 0x20 * k) 4 v.toNat = t) :
        exec (.ringTailWrite m k v) s = .next t :=
      congrArg Host.Outcome.next ((if_pos (by simp [wellFormed, hex, hk])).trans ht)
    refine ⟨fun hfits => ⟨_, hexec _ (hw.trans (if_pos (decide_eq_true hfits))), ?_⟩, fun hlong => ?_⟩
    · have hstore : u.storeWord .seq 0 (0x214 + 0x20 * k) v.toNat = u.put (Reg.seqSTail k) v.toNat := by
        rw [State.storeWord, if_neg (by omega)]
        congr 1
        simp only [Block.base, Reg.seqSTail]
        omega
      rw [hstore]
      exact (state_put_reg u _ _).trans (Nat.mod_eq_of_lt hv)
    · exact hexec _ (hw.trans (if_neg (by rw [decide_eq_true_eq]; exact Nat.not_le.mpr hlong)))
  case cons =>
    intro pair
    have hw := h.writeAccess_evqCons hv high
    have hpair : pairWith (s.reg Reg.hptEvqConsLo) (s.reg Reg.hptEvqConsHi) (!high) v.toNat = pair := by cases high <;> rfl
    rw [hpair, hu] at hw
    have hexec (t : State) (ht : s.writeAccess m (if high then 0x80024 else 0x80020) 4 v.toNat = t) :
        exec (.evqConsWrite m high v) s = .next t := congrArg Host.Outcome.next ((if_pos hex).trans ht)
    refine ⟨fun hpast => hexec _ (hw.trans (if_neg (Nat.not_le.mpr hpast))),
      fun hfits => ⟨_, hexec _ (hw.trans (if_pos hfits)), ?_⟩⟩
    have hcons : EvqCons (if high then Reg.hptEvqConsHi else Reg.hptEvqConsLo) := by
      cases high
      · exact .inl rfl
      · exact .inr rfl
    exact (pumpEvents_cons hcons _).trans ((state_put_reg u _ _).trans (Nat.mod_eq_of_lt hv))
  case busy =>
    have hw := h.writeAccess (rfl : locate 0x20010 = some (.ident, 0, 0x10)) (by decide) rfl rfl rfl hv
    rw [hu] at hw
    have hmay : u.mayWrite m .ident 0 0x10 v.toNat = false := by
      rw [e]
      exact beq_false_of_ne fun hidle => absurd (hbusy.symm.trans hidle) (by decide)
    exact congrArg Host.Outcome.next ((if_pos hex).trans (hw.trans (if_neg (ne_true_of_eq_false hmay))))
  case attest =>
    obtain ⟨r, hrow⟩ : ∃ r, Block.ident.regRow 0 0x10 = some r := ⟨_, rfl⟩
    have hw := h.writeAccess (rfl : locate 0x20010 = some (.ident, 0, 0x10)) (by decide) rfl hrow rfl hv
    rw [hu] at hw
    have hmay : u.mayWrite m .ident 0 0x10 v.toNat = true := by
      rw [e]
      exact beq_of_eq hidle
    obtain ⟨g, eg⟩ := writeFields_attest u m r
    subst h1
    refine ⟨_, congrArg Host.Outcome.next ((if_pos hex).trans (hw.trans ((if_pos hmay).trans eg))), ?_, ?_⟩
    · rw [e]
      rfl
    · exact fld_putFld_self g Reg.idStatus 1 (by decide)
  case full =>
    obtain ⟨r, hrow⟩ : ∃ r, Block.aon.regRow 0 0x10 = some r := ⟨_, rfl⟩
    obtain ⟨c', f', hw⟩ := h.writeAccess_resetCtrl hv hrow
    subst h1
    obtain ⟨g, eg⟩ := writeFields_full { s with clk := c', free := f' } m r
    refine ⟨_, congrArg Host.Outcome.next ((if_pos hex).trans (hw.trans ((if_pos hpol).trans eg))), ?_⟩
    obtain ⟨-, -, hpower, -⟩ := startReset_begins (s := { s with clk := c', free := f', regs := g })
      (coreRunning_porst (s := s) hrun) hnone 4 false
    exact hpower
  case noPolicy =>
    obtain ⟨r, hrow⟩ : ∃ r, Block.aon.regRow 0 0x10 = some r := ⟨_, rfl⟩
    obtain ⟨c', f', hw⟩ := h.writeAccess_resetCtrl hv hrow
    exact ⟨_, congrArg Host.Outcome.next ((if_pos hex).trans (hw.trans (if_neg (ne_true_of_eq_false hpol)))), rfl, rfl⟩
  case access =>
    have hregs {off : Nat} : (u.latch m .me n off).regs = s.regs ∧ (u.latch m .me n off).eng = s.eng := by
      obtain ⟨x, el⟩ := latch_frame u m (b := .me) (n := n) (off := off)
      rw [el, e]
      exact ⟨rfl, rfl⟩
    have hexec (a : Nat) (ha : a < 0x1000000) (wide : Bool) (t : State)
        (ht : s.readAccess m a (if wide then 8 else 4) = t) : exec (.testAccessRead m a wide) s = .next t :=
      congrArg Host.Outcome.next ((if_pos (by simp [wellFormed, hex, ha])).trans ht)
    refine ⟨fun off ho => ?_, ?_⟩
    · have hoff := mem_tacc ho
      have hw := h.readAccess_tacc (locate_me hn (by omega) rfl) (by omega) ho hg hs
      rw [hu, hopen] at hw
      exact ⟨_, hexec _ (by omega) false _ hw, rfl, hregs⟩
    · have hw := h.readAccess_a34 (locate_me hn (by decide) rfl) (by omega) hg (by rw [hu]; exact hopen)
      rw [hu] at hw
      exact ⟨_, hexec _ (by omega) true _ hw, rfl, hregs⟩
  case closed =>
    have hoff := mem_tacc ho
    have hclosed : u.taccOpen n = false := by
      have hfld : u.fld (Reg.meCfg n) 0 1 = 0 := by
        rw [e]
        exact hshut
      rw [State.taccOpen, hfld]
      rfl
    have hw := h.readAccess_tacc (locate_me hn (by omega) rfl) (by omega) ho hg hs
    rw [hu, hclosed] at hw
    refine ⟨_, congrArg Host.Outcome.next ((if_pos (by simp [wellFormed, hex]; omega)).trans hw), rfl, ?_⟩
    obtain ⟨x, el⟩ := latch_frame u m (b := .me) (n := n) (off := off)
    rw [el, e]
    rfl

end

section
/-! SUPPORT. Tiles on the accumulator sets (03_matrix_engines, R71, R77 to R82, R84): how a PROD starts. -/

namespace Sys2Proof.Machine

/-- Moving to a core cycle changes the clocks alone: to those of that cycle. -/
theorem atCycle_eq (s : State) (t : Nat) : s.atCycle t = { s with clk := (s.atCycle t).clk } := by
  obtain ⟨c, e⟩ := atCycle_clk s t
  rw [e]

/-- A hold moves the commands that wait, and changes none of them (R71). -/
theorem hold_parts (e : Engine) (serial due t : Nat) : ∃ p d x h l,
    (e.hold serial due t).1 = { e with prods := p, drains := d, short := x, holds := h, stalled := l } ∧
      p.map (·.cmd) = e.prods.map (·.cmd) ∧ d.map (·.cmd) = e.drains.map (·.cmd) := by
  unfold Engine.hold
  split
  · exact ⟨e.prods, e.drains, e.short, e.holds, e.stalled, rfl, rfl, rfl⟩
  · exact ⟨_, _, _, _, _, rfl, List.map_map, List.map_map⟩

/-! ### The start of a PROD (R77 to R80, R82) -/

section
variable (e : Engine) (r : ProdRun) (p : ProdCmd) (passes prec first : Nat)

/-- The active set that a PROD starts on: cleared and open by one with ACC = 0, and open by a continuation (R79, R80). -/
def AccSet.startedBy (a : AccSet) (p : ProdCmd) (prec : Nat) : AccSet :=
  if p.acc then (if a.opened then a else { a with opened := true, prec := prec }) else { opened := true, prec := prec }

/-- A start makes the set that of its tile, legal to swap once the last promotion is over (R77, R79, R89). -/
theorem start_act : (e.start r p passes prec first).1.act = { e.act.startedBy p prec with
    ready := if p.k = 0 then first else first + (passes - 1) * passCycles p.k + (passEntries p.k - 1) + 13 } := by
  obtain ⟨q, d, x, h, l, eq, -, -⟩ := hold_parts e r.serial (r.from' + 6) first
  unfold Engine.start
  dsimp only
  rw [eq]
  split <;> rfl

/-- A start leaves the shadow and the A20 partials, the beats, and the commands of the DRAINs. -/
theorem start_kept : (e.start r p passes prec first).1.shadow = e.shadow ∧ (e.start r p passes prec first).1.a20 = e.a20 ∧
    (e.start r p passes prec first).1.beats = e.beats ∧
    (e.start r p passes prec first).1.drains.map (·.cmd) = e.drains.map (·.cmd) := by
  obtain ⟨q, d, x, h, l, eq, -, hd⟩ := hold_parts e r.serial (r.from' + 6) first
  unfold Engine.start
  dsimp only
  rw [eq]
  split <;> exact ⟨rfl, rfl, rfl, hd⟩

/-- A PROD without products is over. -/
theorem start_prods_empty (h : p.k = 0) :
    (e.start r p passes prec first).1.prods.map (·.cmd) = (e.prods.drop 1).map (·.cmd) := by
  obtain ⟨q, d, x, y, l, eq, hq, -⟩ := hold_parts e r.serial (r.from' + 6) first
  unfold Engine.start
  dsimp only
  rw [eq, if_pos h]
  exact (List.map_drop ..).trans ((congrArg (List.drop 1) hq).trans (List.map_drop ..).symm)

/-- Any other stands in front, its first entry made. -/
theorem start_prods (h : p.k ≠ 0) : ∃ q, (e.start r p passes prec first).1.prods = { r with first := some first } :: q ∧
    q.map (·.cmd) = (e.prods.drop 1).map (·.cmd) := by
  obtain ⟨q, d, x, y, l, eq, hq, -⟩ := hold_parts e r.serial (r.from' + 6) first
  unfold Engine.start
  dsimp only
  rw [eq, if_neg h]
  exact ⟨_, rfl, (List.map_drop ..).trans ((congrArg (List.drop 1) hq).trans (List.map_drop ..).symm)⟩

end

/-! ### TILE_START (R79, R84) -/

section
variable {s : State} {n : Nat} {r : ProdRun} {rest : List ProdRun} (hi : s.isolated n = false)
  (hp : (s.engine n).prods = r :: rest)
include hi hp

/-- A PROD with ACC = 0 in front, which no swap is before, makes its first entry. -/
theorem tileStartEffect_starts (hf : r.first = none) (ha : r.operands.p.acc = false) {t : Nat}
    (ht : (firstEntry (s.engine n) r r.operands.p 0).1 = t) (hb : (s.engine n).behindSwap r t = false) :
    tileStartEffect n s = { s with
      clk := (s.atCycle t).clk
      eng := s.eng.set n
        ((s.engine n).start r r.operands.p r.operands.pairs.length (s.fld Reg.seqMode 3 2) t).1
      regs := Regs.count64 (Regs.count s.regs (Reg.meEvcDiscard n) (b2n (s.engine n).act.opened)) (Reg.meStallLo n)
        ((s.engine n).start r r.operands.p r.operands.pairs.length (s.fld Reg.seqMode 3 2) t).2 } := by
  have hruns : s.engineRuns n = true := by rw [State.engineRuns, hi]; rfl
  simp only [tileStartEffect, hp, hf, ha, ht, hb, hruns, Option.isSome_none, Bool.or_self, Bool.not_true,
    Bool.false_eq_true, if_false]
  rw [atCycle_eq]

end

/-- Of the counters of engine `n` a start counts the discarded tile and the cycles held. -/
theorem nat_meEvcDiscard {n : Nat} (hn : n < 128) (r : Tbl Word) (m x : Nat) :
    Regs.nat (Regs.count64 (Regs.count r (Reg.meEvcDiscard n) m) (Reg.meStallLo n) x) (Reg.meEvcDiscard n) =
      min 0xFFFFFFFF (Regs.nat r (Reg.meEvcDiscard n) + m) := by
  rw [nat_count64_ne]
  · refine nat_count_self r _ m fun y hy => ?_
    rw [satOf_me hn (by unfold Reg.meEvcDiscard; omega) y hy]
    unfold Reg.meEvcDiscard Reg.meEvcSat
    omega
  · unfold Reg.meEvcDiscard Reg.meStallLo
    omega
  · unfold Reg.meEvcDiscard Reg.meStallLo
    omega

end Sys2Proof.Machine
end

section
/-! SUPPORT. Promotions into the active set (02_number_formats, R37; 03_matrix_engines, R81 to R84). -/

namespace Sys2Proof.Machine

/-! ### Rows -/

/-- A fold over rows that sets each row from its own two tables leaves in a row what that row's step makes of it. -/
theorem foldl_rows {α β γ : Type} {F : Tbl (List α) × Tbl (List β) × γ → Nat → Tbl (List α) × Tbl (List β) × γ}
    {f : Nat → List α → List β → List α}
    (hself : ∀ st i, Tbl.get [] (F st i).1 i = f i (Tbl.get [] st.1 i) (Tbl.get [] st.2.1 i))
    (hne : ∀ st i j, j ≠ i → Tbl.get [] (F st i).1 j = Tbl.get [] st.1 j ∧
      Tbl.get [] (F st i).2.1 j = Tbl.get [] st.2.1 j)
    {l : List Nat} (hl : l.Nodup) (st : Tbl (List α) × Tbl (List β) × γ) {i : Nat} (hi : i ∈ l) :
    Tbl.get [] (l.foldl F st).1 i = f i (Tbl.get [] st.1 i) (Tbl.get [] st.2.1 i) := by
  have hout : ∀ (l : List Nat) (st : Tbl (List α) × Tbl (List β) × γ), i ∉ l →
      Tbl.get [] (l.foldl F st).1 i = Tbl.get [] st.1 i := by
    intro l
    induction l with
    | nil => exact fun _ _ => rfl
    | cons j l ih =>
      intro st h
      rw [List.mem_cons, not_or] at h
      exact (ih _ h.2).trans (hne st j i h.1).1
  induction l generalizing st with
  | nil => cases hi
  | cons j l ih =>
    rw [List.nodup_cons] at hl
    by_cases hj : i = j
    · subst hj
      exact (hout l _ hl.1).trans (hself st i)
    · have hin : i ∈ l := (List.mem_cons.mp hi).resolve_left hj
      obtain ⟨h1, h2⟩ := hne st j i hj
      refine (ih hl.2 _ hin).trans ?_
      rw [h1, h2]

/-- The cells of row `i` after one promotion: A34 code, A20 code, and A20 overflows (R35 to R37). -/
def promoteRow (o : Operands) (mem : Nat → Memory) (cl : Nat) (pq : Nat × Nat) (span : Nat → Nat → Option CellSpan)
    (lo hi i : Nat) (row : List (BitVec 34)) (arow : List (BitVec 20)) : List (BitVec 34 × BitVec 20 × Nat) :=
  let ks := (List.range (min o.p.k (2 * hi) - 2 * lo)).map (2 * lo + ·)
  let cols := (List.range o.p.n).map fun j => ks.map fun k => o.b.elem (mem (k / 2)) cl false o.p.bOff pq.2 j k
  let av := ks.map fun k => o.a.elem (mem (k / 2)) cl true o.p.aOff pq.1 i k
  (List.range (max o.p.n (max row.length arow.length))).map fun j =>
    let c := row.getD j 0
    let q := arow.getD j 0
    if j < o.p.n then
      match span i j with
      | none => (c, q, 0)
      | some sp =>
        let skip := 2 * sp.lo - 2 * lo
        let cnt := 2 * sp.hi - 2 * sp.lo
        let r := partialSum ((av.drop skip).take cnt) (((cols.getD j []).drop skip).take cnt)
        let nanAlso := sp.also.1.getD i 127 == 255 || sp.also.2.getD j 127 == 255
        (promoteCell c r.1 (if nanAlso then 255 else sp.codes.1.getD i 127) (sp.codes.2.getD j 127),
         BitVec.ofNat 20 (a20.convert .rne true false r.1).code, r.2)
    else (c, q, 0)

section
variable (o : Operands) (mem : Nat → Memory) (cl : Nat) (pq : Nat × Nat) (acc : Tbl (List (BitVec 34)))
  (a20s : Tbl (List (BitVec 20))) (span : Nat → Nat → Option CellSpan) (lo hi : Nat)

theorem promoteRows_eq : promoteRows o mem cl pq acc a20s span lo hi = (List.range o.p.m).foldl (fun st i =>
    (st.1.set i ((promoteRow o mem cl pq span lo hi i (st.1.get [] i) (st.2.1.get [] i)).map (·.1)),
     st.2.1.set i ((promoteRow o mem cl pq span lo hi i (st.1.get [] i) (st.2.1.get [] i)).map (·.2.1)),
     st.2.2 + ((promoteRow o mem cl pq span lo hi i (st.1.get [] i) (st.2.1.get [] i)).map (·.2.2)).foldl (· + ·) 0))
    (acc, a20s, 0) := rfl

/-- Each row that is promoted takes what its cells become. -/
theorem promoteRows_row {i : Nat} (h : i < o.p.m) : (promoteRows o mem cl pq acc a20s span lo hi).1.get [] i =
    (promoteRow o mem cl pq span lo hi i (acc.get [] i) (a20s.get [] i)).map (·.1) := by
  rw [promoteRows_eq]
  refine foldl_rows (f := fun i row arow => (promoteRow o mem cl pq span lo hi i row arow).map (·.1)) (fun st i => ?_)
    (fun st i j hj => ⟨?_, ?_⟩) List.nodup_range _ (List.mem_range.mpr h)
  · exact Tbl.get_set_self _ _ _ _
  · exact Tbl.get_set_ne _ _ _ _ _ hj
  · exact Tbl.get_set_ne _ _ _ _ _ hj

/-- A cell takes all products of entries `lo` to `hi`, unscaled: its codes are 127. -/
structure CellSpan.Unscaled (x : CellSpan) (i j lo hi : Nat) : Prop where
  lo : x.lo = lo
  hi : x.hi = hi
  codeA : x.codes.1.getD i 127 = 127
  codeB : x.codes.2.getD j 127 = 127
  alsoA : x.also.1.getD i 127 = 127
  alsoB : x.also.2.getD j 127 = 127

/-- Such a cell takes the A20 sum of the partial's products. -/
theorem promoteRow_cell {i j : Nat} (row : List (BitVec 34)) (arow : List (BitVec 20)) (hj : j < o.p.n) {x : CellSpan}
    (hspan : span i j = some x) (hx : x.Unscaled i j lo hi) :
    ((promoteRow o mem cl pq span lo hi i row arow).map (·.1)).getD j 0 =
      promoteCell (row.getD j 0) (partialSum
        (((List.range (min o.p.k (2 * hi) - 2 * lo)).map (2 * lo + ·)).map fun k =>
          o.a.elem (mem (k / 2)) cl true o.p.aOff pq.1 i k)
        (((List.range (min o.p.k (2 * hi) - 2 * lo)).map (2 * lo + ·)).map fun k =>
          o.b.elem (mem (k / 2)) cl false o.p.bOff pq.2 j k)).1 127 127 := by
  have hlen : min o.p.k (2 * hi) - 2 * lo ≤ 2 * hi - 2 * lo := by omega
  have hlt : j < max o.p.n (max row.length arow.length) := by omega
  obtain ⟨hlo, hhi, hcodeA, hcodeB, halsoA, halsoB⟩ := hx
  have hnan : (x.also.1.getD i 127 == 255 || x.also.2.getD j 127 == 255) = false := by rw [halsoA, halsoB]; rfl
  have hcol : ((List.range o.p.n).map fun j => ((List.range (min o.p.k (2 * hi) - 2 * lo)).map (2 * lo + ·)).map fun k =>
      o.b.elem (mem (k / 2)) cl false o.p.bOff pq.2 j k).getD j [] =
      ((List.range (min o.p.k (2 * hi) - 2 * lo)).map (2 * lo + ·)).map fun k =>
        o.b.elem (mem (k / 2)) cl false o.p.bOff pq.2 j k := by
    rw [List.getD_eq_getElem?_getD, List.getElem?_map, List.getElem?_range hj]
    rfl
  have hall {α : Type} (l : List α) (hl : l.length = min o.p.k (2 * hi) - 2 * lo) :
      (l.drop (2 * x.lo - 2 * lo)).take (2 * x.hi - 2 * x.lo) = l := by
    rw [hlo, hhi, Nat.sub_self, List.drop_zero, List.take_of_length_le (by omega)]
  rw [List.getD_eq_getElem?_getD, promoteRow, List.map_map, List.getElem?_map, List.getElem?_range hlt]
  simp only [Option.map_some, Option.getD_some, Function.comp_apply, if_pos hj, hspan, hnan, hcol, hcodeA, hcodeB,
    Bool.false_eq_true, if_false]
  rw [hall _ (by simp), hall _ (by simp)]

end

/-! ### Unscaled operands (R70, R83) -/

/-- Without block scales every code is 127. -/
theorem codes_unscaled {o : Operands} (ha : o.a.scaled = false) (hb : o.b.scaled = false) (tile : Memory) (cl : Nat)
    (pq : Nat × Nat) (blk : Nat) : o.codes tile cl pq blk = (List.replicate o.p.m 127, List.replicate o.p.n 127) := by
  have hscale {d : Desc} (hd : d.scaled = false) (isA : Bool) (soff p outer : Nat) :
      d.scale tile cl isA soff p outer blk = 127 := if_neg (ne_true_of_eq_false hd)
  simp only [Operands.codes, hscale ha, hscale hb, List.map_const', List.length_range]

theorem getD_replicate_127 (n i : Nat) : (List.replicate n 127).getD i 127 = 127 := by
  rw [List.getD_eq_getElem?_getD, List.getElem?_replicate]
  split <;> rfl

/-- No cell's scale sums differ then. -/
theorem sumsDiffer_unscaled (m n i j : Nat) : sumsDiffer (List.replicate m 127, List.replicate n 127)
    (List.replicate m 127, List.replicate n 127) i j = false := bne_self_eq_false _

theorem anyDiffer_unscaled (m n : Nat) : anyDiffer (List.replicate m 127, List.replicate n 127)
    (List.replicate m 127, List.replicate n 127) m n = false := by
  simp [anyDiffer, sumsDiffer_unscaled]

/-! ### The set counted (R84) -/

section
variable (a : AccSet)

/-- A promotion marks its set, whose counter goes up from its second one, to 0x7FFF at most, where BOUND_OK clears; of the
set nothing else changes. -/
theorem counted_eq : a.counted.1 = { a with
    promoted := true
    promo := if a.promoted then max a.promo (min 0x7FFF (a.promo + 1)) else a.promo
    boundOk := a.boundOk && (!a.promoted || decide (a.promo < 0x7FFF)) } := by
  cases a with
  | mk rows promoted promo boundOk opened prec lastPromo ready poisoned badRows =>
    cases promoted with
    | false => simp [AccSet.counted]
    | true =>
      by_cases h : promo < 0x7FFF
      · simp only [AccSet.counted, Bool.not_true, Bool.false_eq_true, if_false, if_pos h, if_true, decide_eq_true h,
          Bool.or_true, Bool.and_true, AccSet.mk.injEq, true_and, and_true]
        omega
      · have htop : max promo (min 0x7FFF (promo + 1)) = promo := by omega
        simp [AccSet.counted, h, htop]

end

/-! ### PROMOTION -/

section
variable (s : State) (n : Nat) (r : ProdRun) (first : Nat) (o : Operands)

/-- The end of the partial that the PROD in front of engine `n` promotes next (R82). -/
def State.partialEnd (s : State) (n : Nat) (r : ProdRun) (o : Operands) : Nat :=
  min (r.next + intervalOf (s.engine n).act.prec) (passEntries o.p.k)

/-- A promotion by the PROD in front changes its engine, the clocks and registers. Of the engine it counts the promotion in
the active set, whose rows it promotes, and leaves the shadow and the DRAINs. -/
theorem promoteFront_parts (hf : (s.engine n).act.failing o.p.m = []) : ∃ c g act a20s prods, s.promoteFront n r first o =
      { s with clk := c, regs := g, eng := s.eng.set n { s.engine n with act := act, a20 := a20s, prods := prods } } ∧
    act.promoted = (s.engine n).act.counted.1.promoted ∧ act.promo = (s.engine n).act.counted.1.promo ∧
    act.boundOk = (s.engine n).act.counted.1.boundOk ∧ act.opened = (s.engine n).act.opened ∧
    (r.half = false → o.a.scaled = false → o.b.scaled = false → ∃ span,
      (∀ i j, ∃ x, span i j = some x ∧ x.Unscaled i j r.next (s.partialEnd n r o)) ∧
      act.rows = (promoteRows o (fun x => s.tileSeen (first + r.pass * passCycles o.p.k + x - 4)) (n / 4)
        (o.pairs.getD r.pass (0, 0)) (s.engine n).act.rows (s.engine n).a20 span r.next (s.partialEnd n r o)).1) := by
  have hclk (t t' : Nat) : ((s.atCycle t).parityFaults n []).atCycle t' =
      { s with clk := (((s.atCycle t).parityFaults n []).atCycle t').clk } := by
    obtain ⟨c, e⟩ := atCycle_clk s t
    obtain ⟨c', e'⟩ := atCycle_clk (s.atCycle t) t'
    change (s.atCycle t).atCycle t' = { s with clk := ((s.atCycle t).atCycle t').clk }
    rw [e', e]
  have hopened : (s.engine n).act.counted.1.opened = (s.engine n).act.opened := by rw [counted_eq]
  unfold State.promoteFront
  dsimp only
  rw [hf, hclk]
  refine ⟨_, _, _, _, _, rfl, rfl, rfl, rfl, hopened, fun hhalf ha hb => ?_⟩
  simp only [codes_unscaled ha hb, anyDiffer_unscaled, sumsDiffer_unscaled, Bool.and_false, Bool.false_eq_true, if_false,
    ite_self]
  exact ⟨_, fun i j => ⟨_, rfl, rfl, rfl, getD_replicate_127 _ _, getD_replicate_127 _ _, getD_replicate_127 _ _,
    getD_replicate_127 _ _⟩, rfl⟩

/-- What a promotion by the PROD in front makes of a state whose set no row fails in. -/
structure Promotes (s t : State) (n : Nat) (r : ProdRun) (first : Nat) (o : Operands) : Prop where
  frame : t = { s with regs := t.regs, eng := t.eng, clk := t.clk }
  others : ∀ k, k ≠ n → t.engine k = s.engine k
  shadow : (t.engine n).shadow = (s.engine n).shadow
  drains : (t.engine n).drains = (s.engine n).drains
  promoted : (t.engine n).act.promoted = true
  opened : (t.engine n).act.opened = (s.engine n).act.opened
  promo : (t.engine n).act.promo = if (s.engine n).act.promoted then
      max (s.engine n).act.promo (min 0x7FFF ((s.engine n).act.promo + 1)) else (s.engine n).act.promo
  boundOk : (t.engine n).act.boundOk = true ↔
    (s.engine n).act.boundOk = true ∧ ((s.engine n).act.promoted = true → (s.engine n).act.promo < 0x7FFF)
  cells : r.half = false → o.a.scaled = false → o.b.scaled = false → ∀ i j, i < o.p.m → j < o.p.n →
    ((t.engine n).act.rows.get [] i).getD j 0 = promoteCell (((s.engine n).act.rows.get [] i).getD j 0)
      (partialSum
        (((List.range (min o.p.k (2 * s.partialEnd n r o) - 2 * r.next)).map (2 * r.next + ·)).map fun k =>
          o.a.elem (s.tileSeen (first + r.pass * passCycles o.p.k + k / 2 - 4)) (n / 4) true o.p.aOff
            (o.pairs.getD r.pass (0, 0)).1 i k)
        (((List.range (min o.p.k (2 * s.partialEnd n r o) - 2 * r.next)).map (2 * r.next + ·)).map fun k =>
          o.b.elem (s.tileSeen (first + r.pass * passCycles o.p.k + k / 2 - 4)) (n / 4) false o.p.bOff
            (o.pairs.getD r.pass (0, 0)).2 j k)).1 127 127

theorem promoteFront_promotes (hf : (s.engine n).act.failing o.p.m = []) :
    Promotes s (s.promoteFront n r first o) n r first o := by
  obtain ⟨c, g, act, a20s, prods, e, hpromoted, hpromo, hbound, hopened, hrows⟩ := promoteFront_parts s n r first o hf
  obtain ⟨hself, hother⟩ := engine_of_set (s := s) (congrArg State.eng e)
  rw [counted_eq] at hpromoted hpromo hbound
  refine ⟨by rw [e], hother, by rw [hself], by rw [hself], by rw [hself, hpromoted], by rw [hself, hopened],
    by rw [hself, hpromo], ?_, fun hhalf ha hb i j hi hj => ?_⟩
  · rw [hself]
    dsimp only
    rw [hbound]
    cases (s.engine n).act.promoted <;> simp
  · obtain ⟨span, hspan, hr⟩ := hrows hhalf ha hb
    obtain ⟨x, hx, hun⟩ := hspan i j
    rw [hself]
    dsimp only
    rw [hr, promoteRows_row _ _ _ _ _ _ _ _ _ hi]
    exact promoteRow_cell o _ _ _ _ _ _ _ _ hj hx hun

end

end Sys2Proof.Machine
end

section
/-! SUPPORT. PROMOTION and ACCUMULATOR_SWAP at an engine (03_matrix_engines, R78, R80, R89 to R98): the entry that a continuation
makes first, and what a swap leaves of the engine. -/

namespace Sys2Proof.Machine

/-! ### The PROD in front has entered -/

/-- The state in which the PROD in front, of precision mode `prec`, has made its first entry: a continuation has then opened
the set. -/
structure Entered (s v : State) (n : Nat) (r : ProdRun) (prec : Nat) : Prop where
  frame : v = { s with regs := v.regs, eng := v.eng }
  others : ∀ k, k ≠ n → v.engine k = s.engine k
  shadow : (v.engine n).shadow = (s.engine n).shadow
  drains : (v.engine n).drains.map (·.cmd) = (s.engine n).drains.map (·.cmd)
  rows : (v.engine n).act.rows = (s.engine n).act.rows
  promoted : (v.engine n).act.promoted = (s.engine n).act.promoted
  promo : (v.engine n).act.promo = (s.engine n).act.promo
  boundOk : (v.engine n).act.boundOk = (s.engine n).act.boundOk
  failing : ∀ m, (v.engine n).act.failing m = (s.engine n).act.failing m
  opened : r.first = none → (v.engine n).act.opened = true
  prec : (v.engine n).act.prec = prec

section
variable {s : State} {n : Nat} {r : ProdRun} {rest : List ProdRun}

/-- A set that a continuation starts on is open, in the mode it has or, if it was not open, in the one in force. -/
theorem startedBy_continuation {a : AccSet} {p : ProdCmd} {prec : Nat} (h : p.acc = true) : a.startedBy p prec =
    { a with opened := true, prec := if a.opened then a.prec else prec } := by
  rw [AccSet.startedBy, if_pos h]
  cases ho : a.opened with
  | false => rfl
  | true => rw [if_pos rfl, if_pos rfl, ← ho]

/-- A continuation opens the set, in the mode in force unless it is open already (R80, R82). -/
theorem startContinuation_enters (ha : r.operands.p.acc = true) : Entered s (s.startContinuation n r r.operands) n r
    (if (s.engine n).act.opened then (s.engine n).act.prec else s.fld Reg.seqMode 3 2) := by
  obtain ⟨hself, hother⟩ := engine_of_set (s := s) (t := s.startContinuation n r r.operands) rfl
  obtain ⟨hshadow, -, -, hdrains⟩ := start_kept (s.engine n) r r.operands.p r.operands.pairs.length (s.fld Reg.seqMode 3 2)
    (s.continuationEntry n r r.operands).1
  have hact := start_act (s.engine n) r r.operands.p r.operands.pairs.length (s.fld Reg.seqMode 3 2)
    (s.continuationEntry n r r.operands).1
  rw [← hself] at hact
  refine ⟨rfl, hother, (congrArg Engine.shadow hself).trans hshadow,
    (congrArg (fun e : Engine => e.drains.map (·.cmd)) hself).trans hdrains, ?_, ?_, ?_, ?_, fun m => ?_, fun _ => ?_, ?_⟩
  all_goals
    rw [hact, startedBy_continuation ha]
  all_goals rfl

variable (hi : s.isolated n = false) (hp : (s.engine n).prods = r :: rest)
include hi hp

/-- A promotion is that of the PROD in front, once it has made its first entry. -/
theorem promotionEffect_enters (hstart : r.first = none → r.operands.p.acc = true ∧ r.operands.p.k ≠ 0 ∧
      (s.engine n).behindSwap r (s.continuationEntry n r r.operands).1 = false) :
    ∃ v, Entered s v n r (if r.first.isSome ∨ (s.engine n).act.opened = true then (s.engine n).act.prec
        else s.fld Reg.seqMode 3 2) ∧
      promotionEffect n s = v.promoteFront n { r with first := some (r.first.getD (s.continuationEntry n r r.operands).1) }
        (r.first.getD (s.continuationEntry n r r.operands).1) r.operands := by
  have hruns : s.engineRuns n = true := by rw [State.engineRuns, hi]; rfl
  cases hf : r.first with
  | some t =>
    refine ⟨s, ⟨rfl, fun _ _ => rfl, rfl, rfl, rfl, rfl, rfl, rfl, fun _ => rfl,
      fun h => absurd (hf.symm.trans h) nofun, ?_⟩, ?_⟩
    · rfl
    · have hr : { r with first := some t } = r := by rw [← hf]
      simp only [promotionEffect, hp, hruns, Bool.not_true, Bool.false_eq_true, if_false, Option.getD_some, hr]
      split
      next t' ht =>
        obtain rfl : t' = t := Option.some.inj (ht.symm.trans hf)
        rfl
      next hnone => exact absurd (hnone.symm.trans hf) nofun
  | none =>
    obtain ⟨ha, hk, hb⟩ := hstart hf
    refine ⟨s.startContinuation n r r.operands, ?_, ?_⟩
    · have h := startContinuation_enters (s := s) (n := n) ha
      simpa using h
    · obtain ⟨q, hq, -⟩ := start_prods (s.engine n) r r.operands.p r.operands.pairs.length (s.fld Reg.seqMode 3 2)
        (s.continuationEntry n r r.operands).1 hk
      have hprods : ((s.startContinuation n r r.operands).engine n).prods =
          { r with first := some (s.continuationEntry n r r.operands).1 } :: q :=
        (congrArg Engine.prods (engine_of_set (s := s) rfl).1).trans hq
      simp only [promotionEffect, hp, hruns, Bool.not_true, Bool.false_eq_true, if_false, hf, ha, hb, Bool.or_self, hprods,
        Option.getD_none]

end

/-! ### The swap (R89, R90, R95 to R98) -/

/-- An engine in the cycle `t` of a DRAIN's swap: the sets are exchanged and the active one clears, and the DRAIN is off the
queue. -/
def Engine.swapped (e : Engine) (dr : DrainRun) (t : Nat) : Engine :=
  { (e.hold dr.serial dr.from' t).1 with
    act := {}, shadow := {}, drains := (e.hold dr.serial dr.from' t).1.drains.drop 1, lastRead := t, shadowFree := t + 1 }

/-- What a swap keeps of the engine from `e` to `e'`. -/
structure SwapKeeps (e e' : Engine) : Prop where
  act : e'.act = {}
  drains : e'.drains.map (·.cmd) = (e.drains.drop 1).map (·.cmd)
  prods : e'.prods.map (·.cmd) = e.prods.map (·.cmd)
  a20 : e'.a20 = e.a20

theorem swapped_keeps (e : Engine) (dr : DrainRun) (t : Nat) :
    SwapKeeps e (e.swapped dr t) ∧ (e.swapped dr t).beats = e.beats := by
  obtain ⟨p, d, x, h, l, eq, hp, hd⟩ := hold_parts e dr.serial dr.from' t
  unfold Engine.swapped
  rw [eq]
  exact ⟨⟨rfl, (List.map_drop ..).trans ((congrArg (List.drop 1) hd).trans (List.map_drop ..).symm), hp, rfl⟩, rfl⟩

/-- Beats that leave the shadow leave the rest of the engine. -/
theorem readShadow_keeps {e e' : Engine} (h : SwapKeeps e e') (fuel free : Nat) :
    SwapKeeps e (Engine.readShadow fuel free e') := by
  induction fuel generalizing e' with
  | zero => exact h
  | succ fuel ih =>
    obtain ⟨hact, hdrains, hprods, ha20⟩ := h
    unfold Engine.readShadow
    split
    · exact ⟨hact, hdrains, hprods, ha20⟩
    · split
      · exact ⟨hact, hdrains, hprods, ha20⟩
      · exact ih ⟨hact, hdrains, hprods, ha20⟩

/-- Lines due are placed among those that are due already. -/
theorem mem_insertDue (w : Nat × Nat × List Byte) (q : List (Nat × Nat × List Byte)) {x : Nat × Nat × List Byte} :
    x ∈ insertDue w q ↔ x = w ∨ x ∈ q := by
  induction q with
  | nil => simp [insertDue]
  | cons y q ih =>
    unfold insertDue
    split
    · rw [List.mem_cons, ih, List.mem_cons]
      tauto
    · rw [List.mem_cons]

theorem mem_foldl_insertDue (l q : List (Nat × Nat × List Byte)) {x : Nat × Nat × List Byte} (h : x ∈ l ∨ x ∈ q) :
    x ∈ l.foldl (fun q w => insertDue w q) q := by
  induction l generalizing q with
  | nil => simpa using h
  | cons w l ih =>
    refine ih _ ?_
    rw [mem_insertDue]
    rw [List.mem_cons] at h
    tauto

/-- `ME_STATUS.ACTIVE` is toggled, whatever the count of a mixed histogram. -/
theorem fld_active_toggled (r : Tbl Word) (n x m : Nat) :
    Regs.fld (Regs.count (Regs.putFld r (Reg.meStatus n) 0 1 (1 - x)) Reg.vsrEvcHmix m) (Reg.meStatus n) 0 1 = 1 - x := by
  have hsat : satOf Reg.vsrEvcHmix = some (Reg.vsrEvcSat, 0) := by decide
  have hcount : Regs.nat (Regs.count (Regs.putFld r (Reg.meStatus n) 0 1 (1 - x)) Reg.vsrEvcHmix m) (Reg.meStatus n) =
      Regs.nat (Regs.putFld r (Reg.meStatus n) 0 1 (1 - x)) (Reg.meStatus n) := by
    refine nat_count_ne _ m (by unfold Reg.meStatus Reg.vsrEvcHmix; omega) ?_
    rw [hsat]
    rintro y ⟨⟩
    unfold Reg.meStatus Reg.vsrEvcSat
    omega
  rw [fld_of_nat hcount, fld_putFld_self _ _ _ (by decide)]
  omega

section
variable {s : State} {n : Nat} {dr : DrainRun}

/-- The DRAIN in front swaps where nothing is before it (R89, R90). -/
theorem swapEffect_swaps {rest : List DrainRun} (hi : s.isolated n = false) (hd : (s.engine n).drains = dr :: rest)
    (hb : (s.engine n).swapBlocked dr (s.entryOfFront n) = false) : swapEffect n s = s.swapAndDrain n dr := by
  have hruns : s.engineRuns n = true := by rw [State.engineRuns, hi]; rfl
  simp only [swapEffect, hd, hb, hruns, Bool.not_true, Bool.or_self, Bool.false_eq_true, if_false]

/-- A DRAIN of DEST 3 swaps alone (R91). -/
theorem swapAndDrain_clears (hd : (DrainCmd.of dr.cmd).dest = 3) : ∃ g l, s.swapAndDrain n dr =
      { s with
        clk := (s.atCycle ((s.engine n).swapAt dr)).clk
        regs := g
        eng := s.eng.set n { (s.engine n).swapped dr ((s.engine n).swapAt dr) with draining := l } } ∧
      Regs.fld g (Reg.meStatus n) 0 1 = 1 - s.fld (Reg.meStatus n) 0 1 := by
  unfold State.swapAndDrain
  dsimp only
  rw [if_pos hd, atCycle_eq]
  exact ⟨_, _, rfl, fld_active_toggled _ _ _ 0⟩

variable (hf : (s.engine n).act.failing (DrainCmd.of dr.cmd).m = [])
include hf

/-- One into tile store also has its lines written as they come (R97). -/
theorem swapAndDrain_stores (hd : (DrainCmd.of dr.cmd).dest = 0) : ∃ g f c l, s.swapAndDrain n dr =
      { s with
        clk := (s.atCycle ((s.engine n).swapAt dr)).clk
        regs := g
        tileDue := (((drainLines (DrainCmd.of dr.cmd) (Desc.ofNat dr.desc) (n / 4) dr.step (s.engine n).act
            (s.engine n).act.poisoned).mapIdx fun l x =>
          x.1.writes.map fun w => ((s.engine n).swapAt dr + 11 + l, w)).flatten).foldl (fun q w => insertDue w q) s.tileDue
        eng := s.eng.set n { (s.engine n).swapped dr ((s.engine n).swapAt dr) with
          shadowFree := f, counts := c, draining := l } } ∧
      Regs.fld g (Reg.meStatus n) 0 1 = 1 - s.fld (Reg.meStatus n) 0 1 := by
  unfold State.swapAndDrain
  dsimp only
  rw [if_neg (by omega), if_pos hd, hf, List.append_nil, List.foldl_nil, atCycle_eq]
  exact ⟨_, _, _, _, rfl, fld_active_toggled _ _ _ _⟩

/-- One to a slot has the beats of its output read out of the shadow (R95, R98). -/
theorem swapAndDrain_sends (hd : (DrainCmd.of dr.cmd).dest = 1 ∨ (DrainCmd.of dr.cmd).dest = 2) : ∃ g l, s.swapAndDrain n dr =
      { s with
        clk := (s.atCycle ((s.engine n).swapAt dr)).clk
        regs := g
        eng := s.eng.set n (Engine.readShadow 16 ((s.engine n).swapAt dr + 1)
          { (s.engine n).swapped dr ((s.engine n).swapAt dr) with
            unread := drainBeats (DrainCmd.of dr.cmd) dr s.device n (s.engine n).act (s.engine n).act.poisoned
            draining := l }) } ∧
      Regs.fld g (Reg.meStatus n) 0 1 = 1 - s.fld (Reg.meStatus n) 0 1 := by
  unfold State.swapAndDrain
  dsimp only
  rw [if_neg (by omega), if_neg (by omega), hf, List.append_nil, List.foldl_nil, atCycle_eq]
  exact ⟨_, _, rfl, fld_active_toggled _ _ _ _⟩

end

/-- From `s` to `t` the DRAIN in front of engine `n` swaps: what changes whatever its DEST. -/
structure Swaps (s t : State) (n : Nat) (dr : DrainRun) : Prop where
  frame : t = { s with regs := t.regs, eng := t.eng, tileDue := t.tileDue, clk := t.clk }
  others : ∀ k, k ≠ n → t.engine k = s.engine k
  keeps : SwapKeeps (s.engine n) (t.engine n)
  clk : t.clk = (s.atCycle ((s.engine n).swapAt dr)).clk
  active : t.fld (Reg.meStatus n) 0 1 = 1 - s.fld (Reg.meStatus n) 0 1

theorem Swaps.of_eq {s t : State} {n : Nat} {dr : DrainRun} {g : Tbl Word} {q : List (Nat × Nat × List Byte)} {e : Engine}
    (h : t = { s with
      clk := (s.atCycle ((s.engine n).swapAt dr)).clk, regs := g, tileDue := q, eng := s.eng.set n e })
    (hk : SwapKeeps (s.engine n) e) (hg : Regs.fld g (Reg.meStatus n) 0 1 = 1 - s.fld (Reg.meStatus n) 0 1) :
    Swaps s t n dr ∧ t.engine n = e := by
  obtain ⟨hself, hother⟩ := engine_of_set (congrArg State.eng h)
  refine ⟨⟨by rw [h], hother, hself ▸ hk, by rw [h], ?_⟩, hself⟩
  rw [h]
  exact hg

section
variable {s : State} {n : Nat} {dr : DrainRun} (hf : (s.engine n).act.failing (DrainCmd.of dr.cmd).m = [])

/-- A DRAIN of DEST 3 writes and sends nothing. -/
theorem swaps_clears (hd : (DrainCmd.of dr.cmd).dest = 3) : Swaps s (s.swapAndDrain n dr) n dr ∧
    (s.swapAndDrain n dr).tileDue = s.tileDue ∧ ((s.swapAndDrain n dr).engine n).beats = (s.engine n).beats := by
  obtain ⟨⟨hact, hdrains, hprods, ha20⟩, hbeats⟩ := swapped_keeps (s.engine n) dr ((s.engine n).swapAt dr)
  obtain ⟨g, l, h, hg⟩ := swapAndDrain_clears (s := s) hd
  obtain ⟨hswaps, hself⟩ := Swaps.of_eq h ⟨hact, hdrains, hprods, ha20⟩ hg
  exact ⟨hswaps, by rw [h], by rw [hself]; exact hbeats⟩

include hf

/-- Line `l` of an output into tile store is written 10 + l cycles after the first line is read (R97). -/
theorem swaps_stores (hd : (DrainCmd.of dr.cmd).dest = 0) : Swaps s (s.swapAndDrain n dr) n dr ∧
    ((s.swapAndDrain n dr).engine n).beats = (s.engine n).beats ∧
    ∀ l x w, (drainLines (DrainCmd.of dr.cmd) (Desc.ofNat dr.desc) (n / 4) dr.step (s.engine n).act
      (s.engine n).act.poisoned)[l]? = some x → w ∈ x.1.writes →
      ((s.engine n).swapAt dr + 11 + l, w) ∈ (s.swapAndDrain n dr).tileDue := by
  obtain ⟨⟨hact, hdrains, hprods, ha20⟩, hbeats⟩ := swapped_keeps (s.engine n) dr ((s.engine n).swapAt dr)
  obtain ⟨g, f, c, l, h, hg⟩ := swapAndDrain_stores hf hd
  obtain ⟨hswaps, hself⟩ := Swaps.of_eq h ⟨hact, hdrains, hprods, ha20⟩ hg
  refine ⟨hswaps, by rw [hself]; exact hbeats, fun l x w hx hw => ?_⟩
  rw [h]
  refine mem_foldl_insertDue _ _ (.inl (List.mem_flatten.mpr ⟨_, ?_, List.mem_map.mpr ⟨w, hw, rfl⟩⟩))
  obtain ⟨hl, rfl⟩ := List.getElem?_eq_some_iff.mp hx
  exact List.mem_mapIdx.mpr ⟨l, hl, rfl⟩

/-- Every beat of an output to a slot stands behind the engine's others, read out or still in the shadow (R95, R98). -/
theorem swaps_sends (hd : (DrainCmd.of dr.cmd).dest = 1 ∨ (DrainCmd.of dr.cmd).dest = 2) :
    Swaps s (s.swapAndDrain n dr) n dr ∧
    (s.swapAndDrain n dr).tileDue = s.tileDue ∧
    ((s.swapAndDrain n dr).engine n).beats.map (·.beat) ++ ((s.swapAndDrain n dr).engine n).unread.map (·.1.beat) =
      (s.engine n).beats.map (·.beat) ++ (drainBeats (DrainCmd.of dr.cmd) dr s.device n (s.engine n).act
        (s.engine n).act.poisoned).map (·.1.beat) := by
  obtain ⟨⟨hact, hdrains, hprods, ha20⟩, hbeats⟩ := swapped_keeps (s.engine n) dr ((s.engine n).swapAt dr)
  obtain ⟨g, l, h, hg⟩ := swapAndDrain_sends hf hd
  obtain ⟨hswaps, hself⟩ := Swaps.of_eq h (readShadow_keeps (by exact ⟨hact, hdrains, hprods, ha20⟩) _ _) hg
  refine ⟨hswaps, by rw [h], ?_⟩
  rw [hself, readShadow_beats]
  exact congrArg (fun b : List OutBeat => b.map (·.beat) ++ _) hbeats

end

end Sys2Proof.Machine
end

section
open Sys2Proof Sys2Proof.Machine

/-- Settles O11: it holds. A start is one equation (`tileStartEffect_starts`) and makes the set that of its tile (`start_act`);
a promotion is that of the PROD in front once it has entered (`promotionEffect_enters`, `promoteFront_promotes`); a swap
clears the active set and sends its output the way of its DEST (`swapEffect_swaps`, `swapAndDrain_stores`,
`swapAndDrain_sends`). -/
theorem tilesStartPromoteAndSwap : Obligations.TilesStartPromoteAndSwap := by
  unfold Obligations.TilesStartPromoteAndSwap
  refine ⟨fun n s r rest hr hn hi => ?start, fun n s r rest hr hn hi => ?promote, fun n s dr rest hr hn hi => ?swap⟩
  case start =>
    intro e o entry hp hf ha hb
    have he := tileStartEffect_starts hi hp hf ha rfl hb
    obtain ⟨hself, hother⟩ := engine_of_set (congrArg State.eng he)
    have hact := start_act e r o.p o.pairs.length (s.fld Reg.seqMode 3 2) entry
    obtain ⟨hshadow, ha20, hbeats, hdrains⟩ := start_kept e r o.p o.pairs.length (s.fld Reg.seqMode 3 2) entry
    have hdrop : e.prods.drop 1 = rest := congrArg (List.drop 1) hp
    rw [← hself] at hact hshadow ha20 hbeats hdrains
    refine ⟨tileStartEffect n s, exec_running (i := .tileStart n) hr (decide_eq_true hn) rfl, by rw [he], hother,
      fun hlt => ?_, ?_, fun hk => ?_, fun hk => ?_, hdrains, hshadow, ha20, hbeats, ?_⟩
    · rw [he]
      exact state_atCycle_now s entry hlt
    · rw [hact, AccSet.startedBy, if_neg (ne_true_of_eq_false ha)]
    · rw [hself, ← hdrop]
      exact start_prods_empty e r o.p _ _ _ hk
    · obtain ⟨q, hq, hcmd⟩ := start_prods e r o.p o.pairs.length (s.fld Reg.seqMode 3 2) entry hk
      rw [← hself] at hq
      rw [hq, hp, List.map_cons, List.map_cons, hcmd, hdrop]
      exact ⟨rfl, rfl⟩
    · rw [he]
      exact nat_meEvcDiscard hn _ _ _
  case promote =>
    intro e o entry prec lo hi' mem pq ks hp hfail hstart
    have hfirst (hf : r.first = none) : o.p.acc = true ∧ o.p.k ≠ 0 ∧
        e.behindSwap r (s.continuationEntry n r o).1 = false := by
      have hentry : entry = (s.continuationEntry n r o).1 := by
        change r.first.getD _ = _
        rw [hf]
        rfl
      exact hentry ▸ hstart hf
    obtain ⟨v, hv, heff⟩ := promotionEffect_enters hi hp hfirst
    have h := promoteFront_promotes v n { r with first := some entry } entry o ((hv.failing _).trans hfail)
    have hend : v.partialEnd n { r with first := some entry } o = hi' := by
      rw [State.partialEnd, hv.prec]
    have hseen (x : Nat) : v.tileSeen x = s.tileSeen x := by
      rw [hv.frame]
      rfl
    refine ⟨promotionEffect n s, exec_running (i := .promotion n) hr (decide_eq_true hn) rfl, ?_⟩
    rw [heff]
    refine ⟨?_, fun k hk => (h.others k hk).trans (hv.others k hk), h.shadow.trans hv.shadow, ?_, h.promoted,
      fun hf => h.opened.trans (hv.opened hf), ?_, ?_, fun hhalf hsa hsb i j hi hj => ?_⟩
    · exact h.frame.trans (by rw [hv.frame])
    · rw [h.drains, hv.drains]
    · rw [h.promo, hv.promoted, hv.promo]
    · rw [h.boundOk, hv.boundOk, hv.promoted, hv.promo]
    · have hcell := h.cells hhalf hsa hsb i j hi hj
      rw [hend, hv.rows] at hcell
      simp only [hseen] at hcell
      exact hcell
  case swap =>
    intro e d t0 hd hb hf
    have hdrop : e.drains.drop 1 = rest := congrArg (List.drop 1) hd
    have hlt : d.dest < 4 := Nat.mod_lt _ (by decide)
    have hswap : Swaps s (s.swapAndDrain n dr) n dr ∧ (d.dest ≠ 0 → (s.swapAndDrain n dr).tileDue = s.tileDue) ∧
        (d.dest = 0 ∨ d.dest = 3 → ((s.swapAndDrain n dr).engine n).beats = e.beats) := by
      obtain h | h | h : d.dest = 3 ∨ d.dest = 0 ∨ (d.dest = 1 ∨ d.dest = 2) := by omega
      · obtain ⟨hs, htile, hbeats⟩ := swaps_clears (s := s) h
        exact ⟨hs, fun _ => htile, fun _ => hbeats⟩
      · obtain ⟨hs, hbeats, -⟩ := swaps_stores hf h
        exact ⟨hs, fun hne => absurd h hne, fun _ => hbeats⟩
      · obtain ⟨hs, htile, -⟩ := swaps_sends hf h
        exact ⟨hs, fun _ => htile, fun hno => absurd hno (by omega)⟩
    obtain ⟨⟨hframe, hother, ⟨hact, hdrains, hprods, ha20⟩, hclk, hactive⟩, htile, hbeats⟩ := hswap
    refine ⟨swapEffect n s, exec_running (i := .accumulatorSwap n) hr (decide_eq_true hn) rfl, ?_⟩
    rw [swapEffect_swaps hi hd hb]
    refine ⟨hframe, hother, hact, by rw [hdrains, ← hdrop], hprods, ha20, fun hlt => ?_, hactive, htile, fun h => ?_,
      fun h => ?_, hbeats⟩
    · exact (congrArg Clk.fcnt hclk).trans (state_atCycle_now s t0 hlt)
    · obtain ⟨-, -, hlines⟩ := swaps_stores hf h
      exact hlines
    · obtain ⟨-, -, hsent⟩ := swaps_sends hf h
      exact hsent

end
